-- ==== Sys2Proof/Word.lean ====
section
/-! DEFINITION. The word types of the module: bytes, 32-bit and 64-bit words, and the sparse keyed stores every
memory and table of the module is held in. All stored structures are little-endian (R8). -/
namespace Sys2Proof

abbrev Byte := BitVec 8
abbrev Word16 := BitVec 16
abbrev Word32 := BitVec 32
abbrev Word64 := BitVec 64

/-- A run of bytes, lowest address first (R8). -/
abbrev Bytes := List Byte

/-- A sparse byte store: (address, byte) pairs in rising address order. -/
abbrev Mem := List (Nat × Byte)

/-- A sparse word store: (key, value) pairs in rising key order. -/
abbrev Tab := List (Nat × Nat)

end Sys2Proof
end

