-- ==== Sys2Proof/Syntax.lean ====
section
/-! DEFINITION. The commands of the block: one constructor of `Instr` per row of spec/opcode_table.json, and the data
their operands carry. Every command names `cyc`, the cycle offset of the beat at which it happens (R11): events are
stamped from it, and the table has no row for a tick. Contents the device reads from outside (host memory, a received
flit, a measured quantity, the outcome of a self-test) are operands. -/
namespace Sys2Proof

/-- Die codes of Table 16.3: 0–3 CD, 4–11 MU, 12–13 LD, 14 HD. -/
abbrev Die := Nat

/-- The log-entry unit codes of Table 16.3 are used as they stand (0 cluster … 10 management). -/
structure Source where
  die : Die
  unit : Nat
  index : Nat
deriving DecidableEq, Repr, Inhabited

/-- An error as the detecting unit reports it (R446, R447); `fid` is the identifier the access carried. -/
structure ErrIn where
  code : Nat
  src : Source
  fid : Option Nat
  detail : Nat
deriving DecidableEq, Repr, Inhabited

/-- What BOOT's hardware steps find: a failure of step 3, 5 or 6 (R473), and the refresh cost of step 5 at 1×, 2× and
4× (R271, Table 10.6). -/
structure BootTest where
  fail : Option ErrIn
  cost : Nat × Nat × Nat
deriving DecidableEq, Repr, Inhabited

/-- A host write to a line the device watches (Table 15.2). -/
inductive HostLine where
  | doorbell (ring tail cplHead : Nat)
  | consumer (evqHead phqHead : Nat)
deriving DecidableEq, Repr, Inhabited

/-- What a host-memory read was for (R433). -/
inductive HostRead where
  | command (ring tag : Nat)
  | t2Figure (fid : Nat)
deriving DecidableEq, Repr, Inhabited

/-- A flit: 16-byte header (Table 13.2) and 112 bytes of payload. -/
structure Flit where
  hdr : BitVec 128
  payload : BitVec 896
deriving DecidableEq, Repr, Inhabited

/-- What a MEMBER flit says (R362, R367, R368): the device a member found at a position, a lost link reported to the leader,
or a departure notice. -/
inductive MemberMsg where
  | present (seat serial : Nat)
  | linkLoss (seat port peerSeat : Nat)
  | departed (seat : Nat)
deriving DecidableEq, Repr, Inhabited

/-- One seat's marker contribution (Table 13.6). -/
structure Marker where
  beat : Nat
  seen : Nat
  ldr : Bool
  sealed : Bool
  drop : Bool
  cause : Nat
  swap : Bool
  applied : Bool
  swapped : Bool
  step : Nat
  exp : Nat
  clean : Nat
deriving DecidableEq, Repr, Inhabited

/-- Where a parameter's granules lie on a seat (R69, R295): die, first pair granule and count, the same for its learned
scale tensor and statistics, the T1 byte address of the working copy, and, for a tied parameter, the first gradient and
scale-gradient granules of each later use in operation order (R244); where the seat holds a part of the parameter only, its shard as (first row,
rows, first column, columns) of the tensor seen as a matrix (R302, R531). Chosen by the placement controller. -/
structure Placement where
  handle : Nat
  mu : Nat
  gran : Nat
  count : Nat
  scaleGran : Nat
  scaleCount : Nat
  sgGran : Nat
  statGran : Nat
  statCount : Nat
  wcAddr : Nat
  tied : List (Nat × Nat)
  shard : Option (Nat × Nat × Nat × Nat)
deriving DecidableEq, Repr, Inhabited

/-- A snapshot of one seat in a cellar (Tables 14.2, 14.3). The paired state and working copies it holds are byte
stores keyed as the memory-update dies key them. -/
structure Snap where
  role : Nat
  seat : Nat
  measure : Nat
  sku : Nat
  serial : Nat
  step : Nat
  exp : Nat
  clean : Nat
  cutNo : Nat
  cardGen : Nat
  seats : Nat
  dims : Nat
  feat : Nat
  bytes : Nat
  dataPos : BitVec 1024
  graph : Bytes
  maskImg : Bytes
  places : List Placement
  dir : List (Nat × Bool × Nat)
  state : Mem
  frozen : Mem
  sets : List (Nat × List Nat)
  routes : List (List Nat)
  links : List Bool
  crcOk : Bool
  complete : Bool
deriving DecidableEq, Repr, Inhabited

/-- What happens at a running figure that only the run can tell: bubble and stall cycles and the cause of the latest of them (R107, R108,
Table 4.6), the loop bound found exceeded, and whether the figure belongs to an iteration beyond the actual count (R24). -/
structure FigEnv where
  bubbles : Nat
  stalls : Nat
  skidFull : Nat
  lastCause : Nat
  boundExceeded : Bool
  beyondCount : Bool
deriving DecidableEq, Repr, Inhabited

/-- What the module measured over the beat and measure that close at an edge: beat energy in µJ, the times of Table 3.10 from
INGEST_US to IDLE_US in µs, the measure's energy in mJ; what its loss figures report (none: the
seat holds none): micro-batch, sum of per-token losses, valid loss-bearing tokens. -/
structure EdgeMeas where
  beatUj : Nat
  phaseUs : List Nat
  energyMj : Nat
  loss : Option (List (Nat × Word32 × Nat))
deriving DecidableEq, Repr, Inhabited

/-- SPDM requests (Table 17.6). -/
inductive SpdmReq where
  | getVersion | getCapabilities | negotiateAlgorithms | getDigests | getCertificate | challenge
  | getMeasurements (index : Nat)
  | keyExchange | finish | endSession | keyUpdate | heartbeat
  | other (code : Nat)
deriving DecidableEq, Repr, Inhabited

/-- PLDM requests (R478, R484): base discovery, a numeric sensor, the state sensor, the anti-rollback commit. -/
inductive PldmReq where
  | discovery
  | numericSensor (id : Nat)
  | stateSensor
  | arbCommit
deriving DecidableEq, Repr, Inhabited

/-- PLDM firmware update (R485): a transfer begins, data arrive, the transfer ends, the written slot is activated. -/
inductive PldmFw where
  | start
  | data (bytes : Bytes)
  | done
  | activate
deriving DecidableEq, Repr, Inhabited

/-- What an inline-ECC check found (R268). -/
inductive T1Check where
  | corrected
  | uncorrectable
  | afterReread
  | linkCorrected
deriving DecidableEq, Repr, Inhabited

/-- What the card and the planned figures make of an offered slot (R284): a figure behind its schedule takes it as a
catch-up slot, the card earmarks it for a requester, or it is the arbiter's. Tables 18.1 to 18.13 give free slots and
earmarks no encoding (log entry 17). -/
inductive SlotUse where
  | catchUp (fid : Nat)
  | earmark (req : Nat)
  | open_
deriving DecidableEq, Repr, Inhabited

/-- A card image in 16-byte units: four for the header, then slices (R487, R489). -/
abbrev CardImage := List (BitVec 128)

/-- What a figure of a built card does for its operation (R234 to R246): part of its forward work, its loss, an input gradient, a weight
gradient, other backward work, the score tiles of fused attention again (R237), or saving a tensor (R237). -/
inductive Step where
  | forward | loss | dx | dw | backward | regen | save
deriving DecidableEq, Repr, Inhabited

/-- The lowering of an operation into a figure program: its identifier, the operation, what it does, the chunk of layers it belongs to (R252),
the saved tensors it reads or, a save, the one it writes. -/
structure Role where
  fid : Nat
  op : Nat
  step : Step
  chunk : Nat
  saved : List Nat
deriving DecidableEq, Repr, Inhabited

/-- T1 space reserved for a saved tensor of a micro-batch (R238): die, byte offset, first and last beat position. -/
structure Save where
  handle : Nat
  mb : Nat
  mu : Nat
  off : Nat
  bytes : Nat
  first : Nat
  last : Nat
deriving DecidableEq, Repr, Inhabited

/-- What a card carries besides Tables 18.1 to 18.13, which give it no encoding (log entry 17): constant slots by cluster ×
64 + slot (R157), the graph codebook each codebook slot holds, all ones for the default table (R136), slot tables by
(cluster × 8 + table) × 16 + entry (R213); page-table entries by page (R71), moves of pages as (page, die, byte offset,
next die, next byte offset) (R73), what the build allocates (die, order) and gives up (die, unit, order) (R273, R274), and the
scratchpad banks that are off, by beat position (R222); matrix figures whose block mask covers A, or is made of zero words, and operands with
K-blocks on the other axis (R119, R139, R187); slots earmarked for a requester, as (die × 24 + channel, beat position, slot of the beat,
requester) (R289); figures whose curd holds BF16 values (R181), figures that read T2 as (figure, bytes, memory-update die) (R70), the tensor
each page belongs to (R71), the lowering of operations and the space of saved tensors (R234 to R246). -/
structure CardSide where
  konst : Tab
  cb : List (Nat × Nat)
  slots : Tab
  pages : Tab
  moves : List (Nat × Nat × Nat × Nat × Nat)
  allocs : List (Nat × Nat)
  frees : List (Nat × Nat × Nat)
  banks : List (Nat × Nat)
  maskA : List Nat
  zwMask : List Nat
  kSwap : List Nat
  earmarks : List (Nat × Nat × Nat × Nat)
  curdBf : List Nat
  t2 : List (Nat × Nat × Nat)
  pageOf : List (Nat × Nat)
  roles : List Role
  saves : List Save
deriving DecidableEq, Repr, Inhabited

/-- The commands of the block, one per row of the operation table. -/
inductive Instr where
  | powerOnReset (cyc : Nat) (straps : BitVec 16) (test : BootTest)
  | bootComplete (cyc : Nat)
  | t1ClearDone (cyc : Nat)
  | pwrgdFall (cyc : Nat)
  | coldReset (cyc : Nat) (test : BootTest)
  | perstRelease (cyc : Nat) (cxl : Bool) (width speed : Nat)
  | hubResetCold (cyc : Nat) (test : BootTest)
  | hubResetWarm (cyc : Nat) (test : BootTest)
  | pldmReset (cyc : Nat) (test : BootTest)
  | domainReset (cyc : Nat) (test : BootTest)
  | hostBootImage (cyc : Nat) (image : Bytes) (test : BootTest)
  | inputVoltageFault (cyc : Nat) (mv ns : Nat)
  | thermalShutdown (cyc : Nat) (tempC : Nat)
  | inputPowerOverTdp (cyc : Nat) (watts us : Nat)
  | refclk156Loss (cyc : Nat)
  | hostLinkLost (cyc : Nat) (recovered : Bool)
  | hostLinkRetrain (cyc : Nat) (width speed : Nat)
  | featAcceptWrite (cyc : Nat) (k : Nat) (v : Word32)
  | start (cyc : Nat) (go : Bool)
  | secArbCommit (cyc : Nat)
  | debugUnlock (cyc : Nat)
  | starveFlagClear (cyc : Nat) (mu : Nat) (v : Word32) (setNow : Nat)
  | vecStickyClear (cyc : Nat) (cd : Nat) (v : Word32) (setNow : Nat)
  | errStatusWrite (cyc : Nat) (v : Word32)
  | errLogHeadWrite (cyc : Nat) (v : Word32)
  | planCfgWrite (cyc : Nat) (margin : Bool) (v : Word32)
  | lrMulWrite (cyc : Nat) (v : Word32)
  | arbRankWrite (cyc : Nat) (mu : Nat) (v : Word32)
  | celRegWrite (cyc : Nat) (ring : Bool) (v : Word32)
  | registerWrite (cyc : Nat) (off size : Nat) (v : Word64)
  | hostLineWrite (cyc : Nat) (line : HostLine)
  | hostLinePoll (cyc : Nat) (lines : List HostLine)
  | descriptorFetch (cyc : Nat) (ring : Nat) (desc : BitVec 512)
  | badOpcode (cyc : Nat) (ring : Nat)
  | nop (cyc : Nat) (ring : Nat)
  | loadGraph (cyc : Nat) (ring : Nat) (image mask : Bytes) (places : List Placement) (src : Option Snap)
  | loadCard (cyc : Nat) (ring : Nat) (card : CardImage) (side : CardSide)
  | kill (cyc : Nat) (ring : Nat)
  | scrubDone (cyc : Nat) (nonZero : Option Source)
  | restore (cyc : Nat) (ring : Nat) (others : List (Nat × Nat)) (twin : List Snap)
  | restoreDone (cyc : Nat)
  | ship (cyc : Nat) (ring : Nat)
  | stop (cyc : Nat) (ring : Nat)
  | drainToHalt (cyc : Nat)
  | setBeat (cyc : Nat) (ring : Nat)
  | setCap (cyc : Nat) (ring : Nat)
  | setPhrase (cyc : Nat) (ring : Nat)
  | replan (cyc : Nat) (ring : Nat)
  | syncSignal (cyc : Nat) (ring : Nat)
  | syncRead (cyc : Nat) (ring : Nat)
  | syncArm (cyc : Nat) (ring : Nat)
  | ingestStream (cyc : Nat) (ring : Nat) (sd : BitVec 512)
  | ingestMb (cyc : Nat) (ring : Nat)
  | ingPosRead (cyc : Nat) (ring : Nat)
  | paramWrite (cyc : Nat) (ring : Nat) (src : Bytes)
  | paramRead (cyc : Nat) (ring : Nat)
  | goResponse (cyc : Nat) (line : Nat)
  | msixModerationExpiry (cyc : Nat) (vec : Nat)
  | cxlMemAccess (cyc : Nat) (write : Bool) (line : Nat) (data : BitVec 512)
  | hostReadError (cyc : Nat) (what : HostRead)
  | spdmRequest (cyc : Nat) (req : SpdmReq)
  | pldmRequest (cyc : Nat) (req : PldmReq)
  | pldmFirmwareUpdate (cyc : Nat) (op : PldmFw)
  | beatEdge (m : EdgeMeas)
  | seatReady (cyc : Nat) (card : CardImage) (side : CardSide) (beatsNeeded : Nat)
  | figureStart (cyc : Nat) (fid : Nat) (env : FigEnv)
  | figureComplete (cyc : Nat) (fid : Nat)
  | vatWaitResume (cyc : Nat) (die cluster vat : Nat)
  | vatExpectLoad (cyc : Nat)
  | slotSel (cyc : Nat) (die cluster : Nat)
  | syncSetAt (cyc : Nat) (die obj : Nat)
  | rindStart (cyc : Nat) (inFlight : List Nat)
  | bankPowerDown (cyc : Nat) (bank : Nat) (writeFid readFid : Option Nat)
  | commitCheck (cyc : Nat)
  | eventBeatClose (cyc : Nat)
  | errorDetected (cyc : Nat) (e : ErrIn)
  | errorLogged (cyc : Nat)
  | errorHandling (cyc : Nat)
  | errorHandled (cyc : Nat)
  | tsPacket (cyc : Nat) (pkt : Bytes)
  | clipDraw (cyc : Nat)
  | linkUp (cyc : Nat) (port width : Nat)
  | helloReceived (cyc : Nat) (port : Nat) (payload : BitVec 896)
  | leaderElected (cyc : Nat)
  | linkRetrain (cyc : Nat) (port width : Nat)
  | linkDown (cyc : Nat) (port : Nat)
  | memberReceived (cyc : Nat) (msg : MemberMsg)
  | leaderLost (cyc : Nat)
  | routeReceived (cyc : Nat) (ld first : Nat) (entries : List Nat)
  | delayMeasure (cyc : Nat) (port roundTripQns : Nat)
  | markerReceived (cyc : Nat) (port : Nat) (mk : Marker) (offsetQns : Int)
  | beatOffsetLimit (cyc : Nat)
  | flitReceived (cyc : Nat) (port : Nat) (flit : Flit) (trailer : Word32)
  | flitCrcFail (cyc : Nat) (port : Nat)
  | linkControlFlit (cyc : Nat) (port lastGood : Nat) (nak : Bool) (credits : List Nat)
  | linkControlSend (cyc : Nat) (port : Nat)
  | accumulateWrite (cyc : Nat) (src mu : Nat)
  | slotArbitration (cyc : Nat) (mu ch : Nat) (requests : List Nat) (slot : SlotUse)
  | arbStarve (cyc : Nat) (mu ch req : Nat)
  | mr4Report (cyc : Nat) (mu rate : Nat) (hot : Bool)
  | extraRefresh (cyc : Nat) (mu ch : Nat) (offered : Bool) (displaced : Option Nat)
  | t1InlineEcc (cyc : Nat) (mu ch line : Nat) (check : T1Check) (fid : Option Nat)
  | patrolScrub (cyc : Nat) (mu line : Nat) (corrected : Bool)
  | scratchpadEcc (cyc : Nat) (die cluster line : Nat) (fatal : Bool) (fid : Option Nat)
  | snapDone (cyc : Nat)
  | snapDomain (cyc : Nat)
  | nandProgramFail (cyc : Nat)
  | mirrorDone (cyc : Nat)
  | dieToDieRetry (cyc : Nat) (die port : Nat) (lanes : Nat) (retrained : Bool)
  | shipDone (cyc : Nat) (measure : Nat)
  | configurationRequest (cyc : Nat)
deriving DecidableEq, Repr

end Sys2Proof
end

