-- ==== Sys2Proof/Decode.lean ====
section
/-! DEFINITION. The command a word spells by the bits of the operation table. No row of the table has bits: the module's
commands come from outside as happenings, not as words, so no word spells one. -/
namespace Sys2Proof

/-- The command spelled by `nbits` bits `w`: none, since no row of the operation table gives bits. -/
def decodeTableWord (_nbits _w : Nat) : Option Instr := none

end Sys2Proof
end

