-- ==== Sys2Proof/Config.lean ====
section
/-! DEFINITION. What the manual leaves open or takes from a standard it does not restate: constants without a body, so
that nothing can be proved of their values (assumption log entries 5, 7 to 10 and 24). A statement that mentions one holds
for every value of it. -/
namespace Sys2Proof.Config

/-- A free word of up to any width, one per use, by the State's counter `free` (log entry 5). -/
opaque freeNat : Nat → Nat

/-- SHAKE256 with an n-bit output (17 R475 to R482, 15 R430): the standard is named, not restated (log entry 7). -/
opaque shake256 : Nat → List (BitVec 8) → Nat

/-- Falcon-1024 verification of a signature over a digest under a public key (17 R476, R482; log entry 7). -/
opaque falconVerify : List (BitVec 8) → Nat → List (BitVec 8) → Bool

/-- A debug token's signature is valid over its body by the debug key with the fused hash (17 R482; log entry 7). -/
opaque debugSigOk : Nat → List (BitVec 8) → List (BitVec 8) → Bool

/-- The DICE key pair the key unit derives from the measurements under DICE (17 R479; log entry 7). -/
opaque aliasKey : List Nat → Nat

/-- The measurement of the boot ROM, fixed at manufacture (17 Table 17.7; log entry 7). -/
opaque romMeasure : Nat

/-- The section digests of a firmware image agree; the manual gives no layout of the sections (17 R475, R476; log
entry 7). -/
opaque sectionsOk : List (BitVec 8) → Bool
/-- The section of the hub die in a firmware image, and those of the other dies in die order (17 Table 17.7; log entry 7). -/
opaque hdSection : List (BitVec 8) → List (BitVec 8)
opaque dieSections : List (BitVec 8) → List (BitVec 8)

/-- Granules of the copy-before-write ring of a die at its basic size, by the paired granules the die holds: the manual names
the basic size and gives no formula (14 R397, R409, 03 R531; log entry 16). -/
opaque basicRing : Nat → Nat

/-- The 128-bit unlock nonce of the n-th draw (17 R482; log entry 5). -/
opaque nonce : Nat → Nat

/-- Which of the FP32 values within 2 units in the last place a function of the vector engine or the statistics unit returns for an
argument's bits: the functions are fixed and the manual does not tabulate them (06 R161, 11 R292; log entry 8). -/
opaque ulps : Nat → BitVec 32 → Nat

/-- Colour channel `ch` (R, G, B) of pixel (x, y) of picture `p` of clip number `c` in FP32, black to white as 0 to 1; `code` is
FIELD, the field of the picture, MATRIX and RANGE: decode, chroma upsampling and colour matrix (12 R320, R321, R332 and steps 1 and 2 of R334
name the video standards without restating them; log entry 9). -/
opaque rgb (c p code x y ch : Nat) : BitVec 32
/-- Pixel (x, y) of the crop window of clip `c` resized to OUT_W × OUT_H by a filter, from one channel of a picture: R335 gives the
window and the filters, not the rounding of positions and sums (log entry 9). `u` and `v` are the 24-bit draws of the window's
place, 2^23 each for a centred one. -/
opaque resample (c filter u v outW outH x y : Nat) (src : Nat → Nat → BitVec 32) : BitVec 32
/-- What the headers of a compressed video access unit say, by the bytes of the unit (12 R321, R324, R330; log entry 9):
a random-access point begins here; the picture format exceeds Table 12.3; luma samples; a code of picture size, chroma
and bit depth; 4:2:2 chroma; 10-bit samples. -/
opaque isRap : List (BitVec 8) → Bool
opaque unsupported : List (BitVec 8) → Bool
opaque lumaSamples : List (BitVec 8) → Nat
opaque pictureFormat : List (BitVec 8) → Nat
opaque chroma422 : List (BitVec 8) → Bool
opaque tenBit : List (BitVec 8) → Bool
/-- Interlaced content; the bytes of the first complete access unit of a raw stream, if one has arrived; how many places later
than in decode order its picture comes in output order (12 R319; log entry 9). -/
opaque interlaced : List (BitVec 8) → Bool
opaque auLength : List (BitVec 8) → Option Nat
opaque reorder : List (BitVec 8) → Int
/-- Picture `p` of clip number `c` fails to decode or lacks a slice or tile (12 R333; log entry 9). -/
opaque decodeFails : Nat → Nat → Bool
/-- Audio rows, as FP32 values, of rows `r` to `r` + `n` − 1 of clip number `c` by the block's AUDIO_MEL and MEL_BINS; its caption
records there as (TIME, SERVICE, bytes); its teletext bytes whose parity fails (12 R322, R323, R340; log entry 9). -/
opaque audioRows (c r n melBins : Nat) : List (List (BitVec 32))
opaque captions (c r n : Nat) : List (Nat × Nat × List (BitVec 8))
opaque teletextParity : Nat → Nat

/-- An operation whose kind has no stated parameter block draws random numbers (12 R345); the number of distinct groups of seats
among a graph's COLLECTIVE operations and tied parameters (13 R370): no table encodes either (log entry 24). -/
opaque drawsRandom : BitVec 1024 → Bool
opaque listSets : List (BitVec 1024) → Nat

/-- SPDM and PLDM response payloads (17 R480, R484; log entry 7). -/
opaque spdmPayload : Nat → Nat → Nat
/-- Sensor readings of the PLDM numeric sensors (17 R484; log entry 10), by sensor and reading number. -/
opaque sensor : Nat → Nat → Nat

end Sys2Proof.Config
end

