-- ==== Sys2Proof/Machine/Bits.lean ====
section
/-! DEFINITION. Bit fields, little-endian bytes, saturating counts and signed fields. -/
namespace Sys2Proof.Machine

/-- Bits [lo + w − 1 : lo] of `x`. -/
def bits (x lo w : Nat) : Nat := (x >>> lo) % 2 ^ w

/-- One bit of `x`. -/
def bit (x i : Nat) : Bool := x.testBit i

/-- `x` with bits [lo + w − 1 : lo] replaced by `v`. -/
def setBits (x lo w v : Nat) : Nat := x - (bits x lo w <<< lo) + ((v % 2 ^ w) <<< lo)

/-- The little-endian number of a byte list (R8). -/
def leNat : Bytes → Nat
  | [] => 0
  | b :: bs => b.toNat + 256 * leNat bs

/-- `n` little-endian bytes of `x` (R8). -/
def leBytes : Nat → Nat → Bytes
  | 0, _ => []
  | n + 1, x => BitVec.ofNat 8 x :: leBytes n (x / 256)

/-- A signed field of `w` bits. -/
def sext (w x : Nat) : Int := if x < 2 ^ (w - 1) then (x : Int) else (x : Int) - (2 ^ w : Nat)

/-- A signed value as a `w`-bit two's complement field. -/
def unsext (w : Nat) (i : Int) : Nat := (i % ((2 ^ w : Nat) : Int)).toNat

/-- Addition that saturates at all ones of `w` bits (R50, R463). -/
def satAdd (w x n : Nat) : Nat := min (x + n) (2 ^ w - 1)

def inRange (lo hi x : Nat) : Bool := decide (lo ≤ x) && decide (x ≤ hi)

/-- ⌈a / b⌉. -/
def ceilDiv (a b : Nat) : Nat := (a + b - 1) / b

/-- Free-running 32-bit count arithmetic (R418): x − y modulo 2³². -/
def cntSub (x y : Nat) : Nat := (x + (2 ^ 32 - y % 2 ^ 32)) % 2 ^ 32
def cntAdd (x n : Nat) : Nat := (x + n) % 2 ^ 32

/-- [0, 1, …, n − 1]. -/
def upTo (n : Nat) : List Nat := List.range n

/-- Replace position `i` of a list. -/
def setAt {α : Type} (l : List α) (i : Nat) (a : α) : List α := l.set i a

/-- Drop the first `n` bytes. -/
def bytesAt (b : Bytes) (off n : Nat) : Bytes := (b.drop off).take n

/-- Split a byte list into chunks of `n`, at most `k` of them. -/
def chunks {α : Type} (n : Nat) : Nat → List α → List (List α)
  | 0, _ => []
  | k + 1, l => l.take n :: chunks n k (l.drop n)

end Sys2Proof.Machine
end

