-- ==== Sys2Proof/Machine/Operands.lean ====
section
/-! DEFINITION. Number formats (R130, R131), exact values, rounding and narrowing (R132, R133), FP32 arithmetic with one
rounding a step (R95, R160), and comparison. -/
namespace Sys2Proof.Machine

/-- An exact value: NaN, an infinity, or (−1)^neg · m · 2^e. -/
inductive FVal where
  | nan
  | inf (neg : Bool)
  | fin (neg : Bool) (m : Nat) (e : Int)
deriving DecidableEq, Repr

/-- A floating format of Table 5.1: exponent and mantissa bits, bias, code of the largest finite magnitude, whether it has
infinities, code of the canonical NaN. -/
structure Fmt where
  eb : Nat
  mb : Nat
  bias : Nat
  top : Nat
  hasInf : Bool
  nan : Nat
deriving DecidableEq, Repr

def Fmt.fp32 : Fmt := ⟨8, 23, 127, 0x7F7FFFFF, true, 0x7FC00000⟩
def Fmt.bf16 : Fmt := ⟨8, 7, 127, 0x7F7F, true, 0x7FC0⟩
def Fmt.fp16 : Fmt := ⟨5, 10, 15, 0x7BFF, true, 0x7E00⟩
def Fmt.e4m3 : Fmt := ⟨4, 3, 7, 0x7E, false, 0x7F⟩
def Fmt.e5m2 : Fmt := ⟨5, 2, 15, 0x7B, true, 0x7E⟩
def Fmt.e5m4 : Fmt := ⟨5, 4, 15, 0x1EF, true, 0x1F8⟩

/-- Exponent of the last place of subnormals. -/
def Fmt.emin (f : Fmt) : Int := 1 - (f.bias : Int) - (f.mb : Int)
def Fmt.signBit (f : Fmt) : Nat := 2 ^ (f.eb + f.mb)

/-- Widening is exact (R132). -/
def Fmt.value (f : Fmt) (code : Nat) : FVal :=
  let neg := bit code (f.eb + f.mb)
  let mag := code % f.signBit
  let ex := mag / 2 ^ f.mb
  let m := mag % 2 ^ f.mb
  if f.hasInf ∧ ex = 2 ^ f.eb - 1 then (if m = 0 then .inf neg else .nan)
  else if !f.hasInf ∧ mag = f.nan then .nan
  else if ex = 0 then .fin neg m f.emin
  else .fin neg (2 ^ f.mb + m) (f.emin + ((ex : Int) - 1))

/-- `m` shifted right `k` bits, to nearest with ties to even. -/
def rneShift (m k : Nat) : Nat :=
  let q := m >>> k
  let r := m % 2 ^ k
  if 2 * r > 2 ^ k ∨ (2 * r = 2 ^ k ∧ q % 2 = 1) then q + 1 else q

/-- The code magnitude of m · 2^e rounded to `f` as if its exponent range had no upper end. -/
def Fmt.roundMag (f : Fmt) (m : Nat) (e : Int) : Nat :=
  if m = 0 then 0
  else
    let len : Int := (m.log2 : Int) + 1
    let q := max (e + len - ((f.mb : Int) + 1)) f.emin
    let mant := if q ≤ e then m <<< (e - q).toNat else rneShift m (q - e).toNat
    (q - f.emin).toNat * 2 ^ f.mb + mant

/-- What a narrowing notes: a saturation, a non-finite value. -/
structure Note where
  sat : Bool
  nonfin : Bool
deriving DecidableEq, Repr

/-- Narrow with RNE (R132). -/
def Fmt.narrow (f : Fmt) (v : FVal) : Nat × Note :=
  match v with
  | .nan => (f.nan, ⟨false, true⟩)
  | .inf neg => if f.hasInf then ((if neg then f.signBit else 0) + (2 ^ f.eb - 1) * 2 ^ f.mb, ⟨false, true⟩) else (f.nan, ⟨false, true⟩)
  | .fin neg m e =>
    let s := if neg then f.signBit else 0
    let c := f.roundMag m e
    if c ≤ f.top then (s + c, ⟨false, false⟩)
    else if f.hasInf then (s + (2 ^ f.eb - 1) * 2 ^ f.mb, ⟨false, true⟩)
    else (s + f.top, ⟨true, false⟩)

/-- rne32 as a code. -/
def rne32 (v : FVal) : Word32 := BitVec.ofNat 32 (Fmt.fp32.narrow v).1
def f32 (x : Word32) : FVal := Fmt.fp32.value x.toNat
def bf16 (x : Nat) : FVal := Fmt.bf16.value x

/-- A feeder product rounded to E5M4, saturating (R103): the value and whether it saturated. -/
def toE5M4 (v : FVal) : FVal × Bool :=
  match v with
  | .nan => (.nan, false)
  | .inf n => (.inf n, false)
  | .fin neg m e =>
    let c := Fmt.e5m4.roundMag m e
    if c ≤ Fmt.e5m4.top then (Fmt.e5m4.value ((if neg then Fmt.e5m4.signBit else 0) + c), false)
    else (Fmt.e5m4.value ((if neg then Fmt.e5m4.signBit else 0) + Fmt.e5m4.top), true)

/-! ## Exact arithmetic -/

def FVal.isFin : FVal → Bool
  | .fin .. => true
  | _ => false
def FVal.isNan : FVal → Bool
  | .nan => true
  | _ => false
def FVal.isZero : FVal → Bool
  | .fin _ m _ => m == 0
  | _ => false
def FVal.zero : FVal := .fin false 0 0
def FVal.one : FVal := .fin false 1 0

def FVal.neg : FVal → FVal
  | .nan => .nan
  | .inf n => .inf !n
  | .fin n m e => .fin (!n) m e
def FVal.abs : FVal → FVal
  | .nan => .nan
  | .inf _ => .inf false
  | .fin _ m e => .fin false m e

def signed (neg : Bool) (m : Nat) : Int := if neg then -(m : Int) else m

/-- The exact sum; an exact zero is −0 only when both terms are (R131). -/
def FVal.add : FVal → FVal → FVal
  | .nan, _ => .nan
  | _, .nan => .nan
  | .inf a, .inf b => if a = b then .inf a else .nan
  | .inf a, _ => .inf a
  | _, .inf b => .inf b
  | .fin na ma ea, .fin nb mb eb =>
    let e := min ea eb
    let v := signed na (ma <<< (ea - e).toNat) + signed nb (mb <<< (eb - e).toNat)
    if v = 0 then .fin (na && nb) 0 e else .fin (decide (v < 0)) v.natAbs e

/-- The exact product. -/
def FVal.mul : FVal → FVal → FVal
  | .nan, _ => .nan
  | _, .nan => .nan
  | .inf a, .inf b => .inf (a != b)
  | .inf a, .fin nb mb _ => if mb = 0 then .nan else .inf (a != nb)
  | .fin na ma _, .inf b => if ma = 0 then .nan else .inf (na != b)
  | .fin na ma ea, .fin nb mb eb => .fin (na != nb) (ma * mb) (ea + eb)

/-- The order of real numbers and infinities; false when a NaN takes part. +0 and −0 are equal here. -/
def FVal.lt : FVal → FVal → Bool
  | .nan, _ => false
  | _, .nan => false
  | .inf a, .inf b => a && !b
  | .inf a, _ => a
  | _, .inf b => !b
  | .fin na ma ea, .fin nb mb eb =>
    let e := min ea eb
    decide (signed na (ma <<< (ea - e).toNat) < signed nb (mb <<< (eb - e).toNat))
def FVal.eq (a b : FVal) : Bool := !a.isNan && !b.isNan && !a.lt b && !b.lt a
def FVal.le (a b : FVal) : Bool := a.lt b || a.eq b

/-- The quotient of two finite values rounded once to FP32: enough quotient bits and a sticky bit for any rounding. -/
def FVal.div : FVal → FVal → FVal
  | .nan, _ => .nan
  | _, .nan => .nan
  | .inf _, .inf _ => .nan
  | .inf a, .fin nb _ _ => .inf (a != nb)
  | .fin na _ _, .inf b => .fin (na != b) 0 0
  | .fin na ma ea, .fin nb mb eb =>
    if mb = 0 then (if ma = 0 then .nan else .inf (na != nb))
    else
      let k := mb.log2 + 320
      let n := ma <<< k
      .fin (na != nb) (2 * (n / mb) + (if n % mb = 0 then 0 else 1)) (ea - eb - (k : Int) - 1)

/-- A whole number as an exact value. -/
def FVal.ofNat (n : Nat) : FVal := .fin false n 0

/-! ## FP32 operations, one rounding each -/

def fAdd (a b : Word32) : Word32 := rne32 ((f32 a).add (f32 b))
def fSub (a b : Word32) : Word32 := rne32 ((f32 a).add (f32 b).neg)
def fMul (a b : Word32) : Word32 := rne32 ((f32 a).mul (f32 b))
def fFma (a b c : Word32) : Word32 := rne32 (((f32 a).mul (f32 b)).add (f32 c))
def fDiv (a b : Word32) : Word32 := rne32 ((f32 a).div (f32 b))
def fOfNat (n : Nat) : Word32 := rne32 (.ofNat n)
/-- A value over a whole number, and one whole number over another: one rounding. -/
def fOver (a : Word32) (n : Nat) : Word32 := rne32 ((f32 a).div (.ofNat n))
def fRatio (a b : Nat) : Word32 := rne32 ((FVal.ofNat a).div (.ofNat b))
def fNeg (a : Word32) : Word32 := rne32 (f32 a).neg
def fAbs (a : Word32) : Word32 := rne32 (f32 a).abs
def fOne : Word32 := 0x3F800000#32
def fZero : Word32 := 0#32
def fNonfin (a : Word32) : Bool := !(f32 a).isFin
def fLt (a b : Word32) : Bool := (f32 a).lt (f32 b)

/-- −0 is below +0 in maxima and minima (R165). -/
def FVal.below (a b : FVal) : Bool :=
  a.lt b || (a.isZero && b.isZero && (match a, b with | .fin true _ _, .fin false _ _ => true | _, _ => false))

def fMax (a b : Word32) : Word32 :=
  if (f32 a).isNan || (f32 b).isNan then rne32 .nan else if (f32 a).below (f32 b) then b else a
def fMin (a b : Word32) : Word32 :=
  if (f32 a).isNan || (f32 b).isNan then rne32 .nan else if (f32 b).below (f32 a) then b else a

/-! ## Infinities and NaN -/

def fInf (neg : Bool) : Word32 := rne32 (.inf neg)
def fNan : Word32 := rne32 .nan

/-! ## FP32 sums in a fixed order (R164) -/

/-- Adjacent pairs combined, one level of the tree. -/
def treeLevel (op : Word32 → Word32 → Word32) : List Word32 → List Word32
  | a :: b :: l => op a b :: treeLevel op l
  | l => l

/-- `n` levels of the tree. -/
def treeUp (op : Word32 → Word32 → Word32) : Nat → List Word32 → List Word32
  | 0, l => l
  | n + 1, l => treeUp op n (treeLevel op l)

/-- Pad a list to a length. -/
def padTo (n : Nat) (a : Word32) (l : List Word32) : List Word32 := l ++ List.replicate (n - l.length) a

/-- One segment of length 2^k: tree over passes of 64, running value over passes; `id` stands for absent elements. -/
def treeSum (op : Word32 → Word32 → Word32) (id : Word32) (k : Nat) (l : List Word32) : Word32 :=
  if k < 6 then (treeUp op k (padTo (2 ^ k) id l)).headD id
  else
    let passes := chunks 64 (2 ^ (k - 6)) (padTo (2 ^ k) id l)
    match passes.map fun p => (treeUp op 6 p).headD id with
    | [] => id
    | q :: qs => qs.foldl op q

/-! ## Stored elements (R97, R498) -/

/-- Code `i` of packed `w`-bit elements. -/
def packedAt (b : Bytes) (w i : Nat) : Nat :=
  if w = 4 then bits ((b.getD (i / 2) 0#8).toNat) (4 * (i % 2)) 4
  else leNat (bytesAt b (i * (w / 8)) (w / 8))

/-- Little-endian bytes of a list of `w`-bit codes; two to a byte for w = 4. -/
def packCodes (w : Nat) : List Nat → Bytes
  | [] => []
  | [a] => if w = 4 then [BitVec.ofNat 8 a] else leBytes (w / 8) a
  | a :: b :: l => if w = 4 then BitVec.ofNat 8 (a + 16 * b) :: packCodes w l else leBytes (w / 8) a ++ packCodes w (b :: l)

def word32s (b : Bytes) (n : Nat) : List Word32 := (upTo n).map fun i => BitVec.ofNat 32 (packedAt b 32 i)
def word32Bytes (l : List Word32) : Bytes := l.flatMap fun w => leBytes 4 w.toNat

end Sys2Proof.Machine
end

