-- ==== Sys2Proof/Machine/Elementary.lean ====
section
/-! DEFINITION. The transcendental functions of the vector engine (R161) and of the statistics unit (R292): exact special values, and for every
other argument some FP32 value within 2 units in the last place of the real result, fixed by the argument's bits (log entry 8). The real results
are formed in fixed point with 200 binary places. -/
namespace Sys2Proof.Machine

/-! ## Real results -/

/-- Binary places of the fixed-point numbers below. -/
def places : Nat := 200
def fixOne : Nat := 2 ^ places
def fixMul (a b : Nat) : Nat := (a * b) >>> places

/-- 2 · artanh(t) = 2 (t + t³/3 + t⁵/5 + …), for t at most 1/3. -/
def fixArtanh2 (t : Nat) : Nat :=
  let t2 := fixMul t t
  2 * ((upTo 66).foldl (fun (a : Nat × Nat) k => (a.1 + a.2 / (2 * k + 1), fixMul a.2 t2)) (0, t)).1

/-- The natural logarithm of 2. -/
def fixLn2 : Nat := fixArtanh2 (fixOne / 3)

/-- e^y = 1 + y + y²/2! + …, for y below 1. -/
def fixExp (y : Nat) : Nat := ((upTo 56).foldl (fun (a : Nat × Nat) k => (a.1 + a.2, fixMul a.2 y / (k + 1))) (0, fixOne)).1

/-- cos y = 1 − y²/2! + y⁴/4! − …, for y below 4: the positive and the negative terms. -/
def fixCos (y : Nat) : Nat × Nat :=
  let y2 := fixMul y y
  let r := (upTo 60).foldl (fun (a : Nat × Nat × Nat) k =>
    (if k % 2 = 0 then a.1 + a.2.2 else a.1, if k % 2 = 0 then a.2.1 else a.2.1 + a.2.2, fixMul a.2.2 y2 / ((2 * k + 1) * (2 * k + 2)))) (0, 0, fixOne)
  (r.1, r.2.1)

/-- m · 2^e in fixed point. -/
def fixOf (m : Nat) (e : Int) : Nat := if 0 ≤ e + places then m <<< (e + places).toNat else m >>> (-(e + places)).toNat

/-- 2^x for x = (−1)^neg · m · 2^e of moderate size: 2^n · e^(f ln 2) with n the integer part and f the rest. -/
def realExp2 (neg : Bool) (m : Nat) (e : Int) : FVal :=
  let x : Int := if neg then -(fixOf m e : Int) else fixOf m e
  let n := x.fdiv fixOne
  .fin false (fixExp (fixMul (x - n * fixOne).toNat fixLn2)) (n - places)

/-- log2 of m · 2^e, m not 0: n + ln z / ln 2 with z in [1, 2). -/
def realLog2 (m : Nat) (e : Int) : FVal :=
  let n : Int := e + m.log2
  let z := fixOf m (-(m.log2 : Int))
  let l := fixArtanh2 (((z - fixOne) <<< places) / (z + fixOne))
  let v : Int := n * fixOne + ((l <<< places) / fixLn2 : Nat)
  .fin (decide (v < 0)) v.natAbs (-(places : Int))

/-- The square root of m · 2^e. -/
def realSqrt (m : Nat) (e : Int) : FVal :=
  let k := if e % 2 = 0 then 400 else 401
  .fin false (Nat.sqrt (m <<< k)) ((e - (k : Int)) / 2)

/-- tanh of (−1)^neg · m · 2^e: the odd series below 2⁻¹⁰, else (E − 1)/(E + 1) with E = e^(2x), x taken as 96 beyond 96. -/
def realTanh (neg : Bool) (m : Nat) (e : Int) : FVal :=
  let x := if 8 ≤ e + m.log2 then 96 * fixOne else fixOf m e
  if e + m.log2 < -10 then
    let q := fixMul x x
    let c := fixOne - q / 3 + fixMul q q * 2 / 15 - fixMul q (fixMul q q) * 17 / 315 + fixMul (fixMul q q) (fixMul q q) * 62 / 2835
    .fin neg (m * c) (e - places)
  else
    let y := 2 * (min x (96 * fixOne))
    let n := y / fixLn2
    let big := fixExp (y - n * fixLn2) <<< n
    .fin neg (((big - fixOne) <<< places) / (big + fixOne)) (-(places : Int))

def realCos (m : Nat) (e : Int) : FVal :=
  let c := fixCos (fixOf m e)
  .fin (decide (c.1 < c.2)) (if c.1 < c.2 then c.2 - c.1 else c.1 - c.2) (-(places : Int))

/-! ## Results within 2 units in the last place -/

/-- The unit in the last place of FP32 at m · 2^e, as an exponent of 2. -/
def ulpExp (m : Nat) (e : Int) : Int := if m = 0 then Fmt.fp32.emin else max (e + m.log2 - 23) Fmt.fp32.emin

/-- FP32 magnitude `c` differs from the real m · 2^e by at most 2 units in the last place. -/
def within2 (c m : Nat) (e : Int) : Bool :=
  match Fmt.fp32.value c with
  | .fin _ m' e' => ((FVal.fin false m' e').add (.fin true m e)).abs.le (.fin false 2 (ulpExp m e))
  | _ => false

/-- The function's own value near the real result `v`: the nearest FP32 value, or one up to 2 codes from it if that is within 2 units in the
last place. Which one is free: a fixed function of the unit's function `fn` and the argument's bits `x` (R161; log entry 8). -/
def near (fn : Nat) (x : Word32) (v : FVal) : Word32 :=
  match v with
  | .fin neg m e =>
    let r := Fmt.fp32.roundMag m e
    let c := r + Config.ulps fn x % 5 - 2
    if c ≤ Fmt.fp32.top ∧ within2 c m e then BitVec.ofNat 32 ((if neg then Fmt.fp32.signBit else 0) + c) else rne32 v
  | _ => rne32 v

/-! ## The functions: `u` is 0 on the vector engine, 1 on the statistics unit -/

/-- Below −150 the result rounds to +0 and from 128 on it overflows to +∞ (Table 6.2). -/
def fExp2 (u : Nat) (x : Word32) : Word32 :=
  match f32 x with
  | .nan => fNan
  | .inf n => if n then fZero else fInf false
  | .fin n m e => if m = 0 then fOne
    else if fLt x 0xC3160000#32 then fZero
    else if fLt 0x42FFFFFF#32 x && !n then fInf false
    else near u x (realExp2 n m e)

def fLog2 (u : Nat) (x : Word32) : Word32 :=
  match f32 x with
  | .nan => fNan
  | .inf n => if n then fNan else fInf false
  | .fin n m e => if m = 0 then fInf true else if n then fNan else if x = fOne then fZero else near (2 + u) x (realLog2 m e)

def fRecip (x : Word32) : Word32 :=
  match f32 x with
  | .nan => fNan
  | .inf n => rne32 (.fin n 0 0)
  | .fin n m e => if m = 0 then fInf n else near 4 x (FVal.one.div (.fin n m e))

def fRsqrt (u : Nat) (x : Word32) : Word32 :=
  match f32 x with
  | .nan => fNan
  | .inf n => if n then fNan else fZero
  | .fin n m e => if m = 0 then fInf n else if n then fNan else near (6 + u) x (FVal.one.div (realSqrt m e))

def fTanh (x : Word32) : Word32 :=
  match f32 x with
  | .nan => fNan
  | .inf n => rne32 (.fin n 1 0)
  | .fin n m e => if m = 0 then x else near 8 x (realTanh n m e)

/-- sqrt of the statistics unit; of a negative number or NaN it is NaN, of +∞ it is +∞ (log entry 8). -/
def fSqrt (x : Word32) : Word32 :=
  match f32 x with
  | .nan => fNan
  | .inf n => if n then fNan else fInf false
  | .fin n m e => if m = 0 then x else if n then fNan else near 9 x (realSqrt m e)

/-- Cosine of the statistics unit, for arguments from 0 to π (R294). -/
def fCos (x : Word32) : Word32 :=
  match f32 x with
  | .fin _ m e => near 10 x (realCos m e)
  | _ => fNan

end Sys2Proof.Machine
end

