-- ==== Sys2Proof/Machine/Sparse.lean ====
section
/-! DEFINITION. Sparse stores in one canonical form: keys strictly rising, and no entry equal to what an unlisted
key reads as. Equal stores are therefore equal lists. -/
namespace Sys2Proof.Machine

/-- Read key `k`; an unlisted key reads as `d`. -/
def sGet {β : Type} (d : β) : List (Nat × β) → Nat → β
  | [], _ => d
  | (k', v) :: m, k => if k = k' then v else sGet d m k

/-- Put `v` at `k` with no regard to the default (used by `sSet` once `v` differs from it). -/
def sPut {β : Type} (k : Nat) (v : β) : List (Nat × β) → List (Nat × β)
  | [] => [(k, v)]
  | (k', v') :: m =>
    if k < k' then (k, v) :: (k', v') :: m
    else if k = k' then (k, v) :: m
    else (k', v') :: sPut k v m

/-- Drop key `k`. -/
def sDel {β : Type} (k : Nat) : List (Nat × β) → List (Nat × β)
  | [] => []
  | (k', v') :: m => if k = k' then m else (k', v') :: sDel k m

/-- Write `v` at `k`; writing what an unlisted key reads as removes the entry. -/
def sSet {β : Type} [DecidableEq β] (d : β) (m : List (Nat × β)) (k : Nat) (v : β) : List (Nat × β) :=
  if v = d then sDel k m else sPut k v m

/-- The keys rise strictly from above `lo` and no entry holds the default. -/
def sWfFrom {β : Type} [DecidableEq β] (d : β) : Nat → List (Nat × β) → Bool
  | _, [] => true
  | lo, (k, v) :: m => decide (lo ≤ k) && decide (v ≠ d) && sWfFrom d (k + 1) m

/-- The canonical form of a sparse store. -/
def sWf {β : Type} [DecidableEq β] (d : β) (m : List (Nat × β)) : Bool := sWfFrom d 0 m

/-- Drop every entry whose key lies in [lo, hi): those keys read as the default again. -/
def sClear {β : Type} (lo hi : Nat) (m : List (Nat × β)) : List (Nat × β) :=
  m.filter fun e => !(decide (lo ≤ e.1) && decide (e.1 < hi))

/-- Byte store: read, write; an unlisted byte reads 0 (T0 and T1 are cleared to zero at start-up, R471, R472). -/
def mGet (m : Mem) (a : Nat) : Byte := sGet 0#8 m a
def mSet (m : Mem) (a : Nat) (v : Byte) : Mem := sSet 0#8 m a v

/-- `n` bytes from `a`, lowest address first. -/
def mRead (m : Mem) (a : Nat) : Nat → Bytes
  | 0 => []
  | n + 1 => mGet m a :: mRead m (a + 1) n

/-- Write bytes from `a` upwards. -/
def mWrite (m : Mem) (a : Nat) : Bytes → Mem
  | [] => m
  | b :: bs => mWrite (mSet m a b) (a + 1) bs

/-- Word store: read, write; an unlisted key reads 0. -/
def tGet (m : Tab) (k : Nat) : Nat := sGet 0 m k
def tSet (m : Tab) (k v : Nat) : Tab := sSet 0 m k v

/-- `Mem.wf`: the byte store is in canonical form. -/
def memWf (m : Mem) : Bool := sWf 0#8 m
def tabWf (m : Tab) : Bool := sWf 0 m

end Sys2Proof.Machine
end

