-- ==== Sys2Proof/Machine/RegMap.lean ====
section
/-! DEFINITION. The register map of BAR0 (R503 to R515): a name for every field, written from the register tables of
the chapters and the offsets of Tables 19.1 to 19.10, and the table of all registers with access codes (R9) and reset
values. The fields of the chapters' tables are those of R154, R171, R206, R233, R251, R258, R382, R416, R444 and R486. Offsets are absolute in BAR0; the offset of a per-die register is that of copy 0. -/
namespace Sys2Proof.Machine

/-- Access codes (Table 0.3). -/
inductive Acc where
  | ro | rw | rwl | w1c | wo | rws
deriving DecidableEq, Repr

/-- Where a field's reset value comes from: a value of the table, a strap (Table 17.2), a fuse, or none given. -/
inductive Rst where
  | val (n : Nat)
  | strap
  | fuse
  | none
deriving DecidableEq, Repr

/-- The blocks of Table 19.1 that hold registers of this manual. -/
inductive Blk where
  | hub | plc | ing | cel | sec | err | caller | cd | mu | ld
deriving DecidableEq, Repr

/-- A named field: BAR0 offset of its register (copy 0), lowest bit, width. -/
structure Field where
  off : Nat
  lo : Nat
  w : Nat
deriving DecidableEq, Repr

/-- One field of a register row. -/
structure FieldRow where
  lo : Nat
  w : Nat
  acc : Acc
  rst : Rst
deriving DecidableEq, Repr

/-- One register: block, offset in the block's window, bytes, number of copies in the window and their stride. -/
structure RegRow where
  name : String
  blk : Blk
  off : Nat
  bytes : Nat
  n : Nat
  stride : Nat
  fields : List FieldRow
deriving DecidableEq, Repr

/-- The field's copy in the window of compute die, memory-update die or link die `k`, or of Caller window `k`. -/
def Field.cd (f : Field) (k : Nat) : Field := { f with off := f.off + k * 0x10000 }
def Field.mu (f : Field) (k : Nat) : Field := { f with off := f.off + k * 0x10000 }
def Field.ld (f : Field) (k : Nat) : Field := { f with off := f.off + k * 0x10000 }
def Field.caller (f : Field) (k : Nat) : Field := { f with off := f.off + k * 0x1000 }
/-- Copy `k` of an indexed register of stride `st`. -/
def Field.at (f : Field) (st k : Nat) : Field := { f with off := f.off + k * st }

-- CALLER_BEAT_CFG
def F.CALLER_BEAT_CFG_LEN_US : Field := ⟨0x60000, 0, 15⟩
def F.CALLER_BEAT_CFG_RIND_US : Field := ⟨0x60000, 16, 15⟩
def F.CALLER_BEAT_CFG_STRICT : Field := ⟨0x60000, 31, 1⟩
-- CALLER_WHEY_LATE
def F.CALLER_WHEY_LATE_COUNT : Field := ⟨0x60010, 0, 32⟩
-- CALLER_WHEY_FAULT
def F.CALLER_WHEY_FAULT_COUNT : Field := ⟨0x60014, 0, 32⟩
-- CALLER_WHEY_CASCADE
def F.CALLER_WHEY_CASCADE_COUNT : Field := ⟨0x60018, 0, 32⟩
-- CALLER_WHEY_VOID
def F.CALLER_WHEY_VOID_COUNT : Field := ⟨0x6001C, 0, 32⟩
-- CALLER_WHEY_MB
def F.CALLER_WHEY_MB_COUNT : Field := ⟨0x60020, 0, 32⟩
-- CALLER_WHEY_LOG_LOST
def F.CALLER_WHEY_LOG_LOST_COUNT : Field := ⟨0x60024, 0, 32⟩
-- CALLER_VERDICT_DROP
def F.CALLER_VERDICT_DROP_COUNT : Field := ⟨0x60028, 0, 32⟩
-- PLC_PLAN_CFG
def F.PLC_PLAN_CFG_PHRASE : Field := ⟨0x10000, 0, 13⟩
def F.PLC_PLAN_CFG_HEADROOM : Field := ⟨0x10000, 16, 7⟩
def F.PLC_PLAN_CFG_LEAD : Field := ⟨0x10000, 24, 4⟩
-- PLC_MARGIN
def F.PLC_MARGIN_CHAIN : Field := ⟨0x10004, 0, 8⟩
def F.PLC_MARGIN_MAND : Field := ⟨0x10004, 8, 8⟩
def F.PLC_MARGIN_PRO : Field := ⟨0x10004, 16, 8⟩
-- CD_ARRAY_BUBBLE
def F.CD_ARRAY_BUBBLE_COUNT : Field := ⟨0x100010, 0, 32⟩
-- CD_ARRAY_STALL
def F.CD_ARRAY_STALL_COUNT : Field := ⟨0x100014, 0, 32⟩
-- CD_ARRAY_SKIDFULL
def F.CD_ARRAY_SKIDFULL_COUNT : Field := ⟨0x100018, 0, 32⟩
-- CD_ARRAY_LAST
def F.CD_ARRAY_LAST_CLUSTER : Field := ⟨0x10001C, 0, 10⟩
def F.CD_ARRAY_LAST_ARRAY : Field := ⟨0x10001C, 10, 1⟩
def F.CD_ARRAY_LAST_CAUSE : Field := ⟨0x10001C, 11, 2⟩
-- CD_SPARE_MAP
def F.CD_SPARE_MAP_ROWS : Field := ⟨0x100020, 0, 12⟩
def F.CD_SPARE_MAP_COLS : Field := ⟨0x100020, 12, 12⟩
-- CD_NUM_SAT
def F.CD_NUM_SAT_COUNT : Field := ⟨0x100030, 0, 32⟩
-- CD_NUM_NONFINITE
def F.CD_NUM_NONFINITE_COUNT : Field := ⟨0x100034, 0, 32⟩
-- CD_NUM_CLAMP
def F.CD_NUM_CLAMP_COUNT : Field := ⟨0x100038, 0, 32⟩
-- CD_NUM_LAST
def F.CD_NUM_LAST_CLUSTER : Field := ⟨0x10003C, 0, 10⟩
def F.CD_NUM_LAST_UNIT : Field := ⟨0x10003C, 10, 3⟩
def F.CD_NUM_LAST_KIND : Field := ⟨0x10003C, 13, 1⟩
-- MU_NUM_SAT
def F.MU_NUM_SAT_COUNT : Field := ⟨0x180034, 0, 32⟩
-- MU_NUM_NONFINITE
def F.MU_NUM_NONFINITE_COUNT : Field := ⟨0x180038, 0, 32⟩
-- MU_SCALE_CLAMP
def F.MU_SCALE_CLAMP_COUNT : Field := ⟨0x18003C, 0, 32⟩
-- CD_VEC_STICKY
def F.CD_VEC_STICKY_EMPTY : Field := ⟨0x100040, 0, 1⟩
def F.CD_VEC_STICKY_PERM_RANGE : Field := ⟨0x100040, 1, 1⟩
-- CD_VEC_EMPTY
def F.CD_VEC_EMPTY_COUNT : Field := ⟨0x100044, 0, 32⟩
-- CD_VEC_PERM
def F.CD_VEC_PERM_COUNT : Field := ⟨0x100048, 0, 32⟩
-- CD_VEC_LAST
def F.CD_VEC_LAST_CLUSTER : Field := ⟨0x10004C, 0, 10⟩
def F.CD_VEC_LAST_KIND : Field := ⟨0x10004C, 10, 1⟩
-- CD_GME_INDEX_RANGE
def F.CD_GME_INDEX_RANGE_COUNT : Field := ⟨0x100050, 0, 32⟩
-- CD_GME_EXPERT_DROP
def F.CD_GME_EXPERT_DROP_COUNT : Field := ⟨0x100054, 0, 32⟩
-- CD_GME_CAM_SPILL
def F.CD_GME_CAM_SPILL_COUNT : Field := ⟨0x100058, 0, 32⟩
-- CD_T24_META
def F.CD_T24_META_COUNT : Field := ⟨0x10005C, 0, 32⟩
-- CD_GME_LAST
def F.CD_GME_LAST_CLUSTER : Field := ⟨0x100060, 0, 10⟩
def F.CD_GME_LAST_KIND : Field := ⟨0x100060, 10, 3⟩
-- MU_PRUNE_OVF
def F.MU_PRUNE_OVF_COUNT : Field := ⟨0x180040, 0, 32⟩
-- MU_PRUNE_REFIT
def F.MU_PRUNE_REFIT_COUNT : Field := ⟨0x180044, 0, 32⟩
-- MU_REPRUNE
def F.MU_REPRUNE_COUNT : Field := ⟨0x180048, 0, 32⟩
-- PLC_META_DUP
def F.PLC_META_DUP_COUNT : Field := ⟨0x10038, 0, 32⟩
-- CD_SP_CFG
def F.CD_SP_CFG_MODE : Field := ⟨0x100000, 0, 1⟩
-- CD_SP_ECC_CORR
def F.CD_SP_ECC_CORR_COUNT : Field := ⟨0x100070, 0, 32⟩
-- CD_SP_BANK_LATE_DROP
def F.CD_SP_BANK_LATE_DROP_COUNT : Field := ⟨0x100074, 0, 32⟩
-- CD_VAT_FAULT
def F.CD_VAT_FAULT_COUNT : Field := ⟨0x100078, 0, 32⟩
-- CD_VAT_STALL
def F.CD_VAT_STALL_COUNT : Field := ⟨0x10007C, 0, 32⟩
-- CD_VAT_REALIGN
def F.CD_VAT_REALIGN_COUNT : Field := ⟨0x100080, 0, 32⟩
-- CD_SYNC_OVF
def F.CD_SYNC_OVF_COUNT : Field := ⟨0x100084, 0, 32⟩
-- CD_SYNC_REALIGN
def F.CD_SYNC_REALIGN_COUNT : Field := ⟨0x100088, 0, 32⟩
-- HUB_KILL_CFG
def F.HUB_KILL_CFG_SCRUB : Field := ⟨0x1C, 0, 1⟩
-- ING_CLIP_CUT
def F.ING_CLIP_CUT_COUNT : Field := ⟨0x20068, 0, 32⟩
-- ING_SEG_CUT
def F.ING_SEG_CUT_COUNT : Field := ⟨0x2006C, 0, 32⟩
-- ING_MB_TRUNC
def F.ING_MB_TRUNC_COUNT : Field := ⟨0x20070, 0, 32⟩
-- PLC_LSCALE_CFG
def F.PLC_LSCALE_CFG_INIT_EXP : Field := ⟨0x10010, 0, 8⟩
def F.PLC_LSCALE_CFG_MIN_EXP : Field := ⟨0x10010, 8, 8⟩
def F.PLC_LSCALE_CFG_MAX_EXP : Field := ⟨0x10010, 16, 8⟩
def F.PLC_LSCALE_CFG_FIXED : Field := ⟨0x10010, 24, 1⟩
-- PLC_LSCALE_GROW
def F.PLC_LSCALE_GROW_GROWTH : Field := ⟨0x10014, 0, 16⟩
-- PLC_LSCALE
def F.PLC_LSCALE_EXP : Field := ⟨0x10018, 0, 8⟩
def F.PLC_LSCALE_CLEAN : Field := ⟨0x10018, 8, 16⟩
-- PLC_LSCALE_HALVE
def F.PLC_LSCALE_HALVE_COUNT : Field := ⟨0x1001C, 0, 32⟩
-- PLC_LSCALE_DOUBLE
def F.PLC_LSCALE_DOUBLE_COUNT : Field := ⟨0x10020, 0, 32⟩
-- MU_ARB_CFG
def F.MU_ARB_CFG_NTH : Field := ⟨0x180000, 0, 7⟩
def F.MU_ARB_CFG_STARVE_US : Field := ⟨0x180000, 8, 10⟩
def F.MU_ARB_CFG_GAP : Field := ⟨0x180000, 18, 11⟩
-- MU_ARB_RANK
def F.MU_ARB_RANK_RANK : Field := ⟨0x180004, 0, 21⟩
-- MU_ARB_STARVE
def F.MU_ARB_STARVE_FLAG : Field := ⟨0x180008, 0, 7⟩
-- MU_ARB_GRANT_n
def F.MU_ARB_GRANT_n_COUNT : Field := ⟨0x180100, 0, 32⟩
-- MU_ARB_WAIT_n
def F.MU_ARB_WAIT_n_CYCLES : Field := ⟨0x180120, 0, 48⟩
-- MU_ARB_MAXWAIT_n
def F.MU_ARB_MAXWAIT_n_CYCLES : Field := ⟨0x180160, 0, 32⟩
-- MU_REF_CFG
def F.MU_REF_CFG_RATE : Field := ⟨0x18000C, 0, 2⟩
def F.MU_REF_CFG_GUARD : Field := ⟨0x18000C, 2, 1⟩
-- MU_REF_COST
def F.MU_REF_COST_X1 : Field := ⟨0x180010, 0, 10⟩
def F.MU_REF_COST_X2 : Field := ⟨0x180010, 10, 10⟩
def F.MU_REF_COST_X4 : Field := ⟨0x180010, 20, 10⟩
-- MU_REF_EXTRA
def F.MU_REF_EXTRA_COUNT : Field := ⟨0x180020, 0, 32⟩
-- MU_SCRUB_CFG
def F.MU_SCRUB_CFG_PERIOD_H : Field := ⟨0x180014, 0, 8⟩
-- MU_ECC_CORR
def F.MU_ECC_CORR_COUNT : Field := ⟨0x180024, 0, 32⟩
-- MU_ECC_UNCORR
def F.MU_ECC_UNCORR_COUNT : Field := ⟨0x180028, 0, 32⟩
-- MU_LINK_CORR
def F.MU_LINK_CORR_COUNT : Field := ⟨0x18002C, 0, 32⟩
-- MU_ACC_LATE
def F.MU_ACC_LATE_COUNT : Field := ⟨0x180030, 0, 32⟩
-- PLC_STEP
def F.PLC_STEP_T : Field := ⟨0x10024, 0, 32⟩
-- PLC_STEP_INIT
def F.PLC_STEP_INIT_T : Field := ⟨0x10028, 0, 32⟩
-- PLC_LR_MUL
def F.PLC_LR_MUL_VALUE : Field := ⟨0x1002C, 0, 32⟩
-- PLC_STEP_SKEW
def F.PLC_STEP_SKEW_COUNT : Field := ⟨0x10030, 0, 32⟩
-- PLC_FROZEN_SKIP
def F.PLC_FROZEN_SKIP_COUNT : Field := ⟨0x10034, 0, 32⟩
-- MU_UPD_CLIP
def F.MU_UPD_CLIP_COUNT : Field := ⟨0x18004C, 0, 32⟩
-- MU_UPD_SLICE
def F.MU_UPD_SLICE_COUNT : Field := ⟨0x180050, 0, 32⟩
-- MU_UPD_TAG_FAULT
def F.MU_UPD_TAG_FAULT_COUNT : Field := ⟨0x180054, 0, 32⟩
-- ING_POOL_CFG
def F.ING_POOL_CFG_SIZE_MIB : Field := ⟨0x20000, 0, 17⟩
-- ING_SHUF_CFG
def F.ING_SHUF_CFG_DECK_MAX : Field := ⟨0x20004, 0, 16⟩
def F.ING_SHUF_CFG_EXCH_EN : Field := ⟨0x20004, 16, 1⟩
def F.ING_SHUF_CFG_EXCH_FRAC : Field := ⟨0x20004, 17, 7⟩
-- ING_RNG_SEED
def F.ING_RNG_SEED_SEED : Field := ⟨0x20008, 0, 64⟩
-- ING_RNG_CFG
def F.ING_RNG_CFG_OFFSET_EN : Field := ⟨0x20010, 0, 1⟩
-- ING_RNG_OFFSET
def F.ING_RNG_OFFSET_DRAWS : Field := ⟨0x20014, 0, 32⟩
-- ING_TS_RESYNC
def F.ING_TS_RESYNC_COUNT : Field := ⟨0x20040, 0, 32⟩
-- ING_TS_CC_ERR
def F.ING_TS_CC_ERR_COUNT : Field := ⟨0x20044, 0, 32⟩
-- ING_UNSUPPORTED
def F.ING_UNSUPPORTED_COUNT : Field := ⟨0x20048, 0, 32⟩
-- ING_CLIP_SHORT
def F.ING_CLIP_SHORT_COUNT : Field := ⟨0x2004C, 0, 32⟩
-- ING_CLIP_BIG
def F.ING_CLIP_BIG_COUNT : Field := ⟨0x20050, 0, 32⟩
-- ING_PIC_DAMAGED
def F.ING_PIC_DAMAGED_COUNT : Field := ⟨0x20054, 0, 32⟩
-- ING_TTX_PARITY
def F.ING_TTX_PARITY_COUNT : Field := ⟨0x20058, 0, 32⟩
-- ING_AUX_TRUNC
def F.ING_AUX_TRUNC_COUNT : Field := ⟨0x2005C, 0, 32⟩
-- ING_DECK_EARLY
def F.ING_DECK_EARLY_COUNT : Field := ⟨0x20060, 0, 32⟩
-- ING_RNG_REALIGN
def F.ING_RNG_REALIGN_COUNT : Field := ⟨0x20064, 0, 32⟩
-- LD_DOMAIN_CFG
def F.LD_DOMAIN_CFG_ID : Field := ⟨0x240000, 0, 32⟩
-- LD_TOPO_CFG
def F.LD_TOPO_CFG_DIM0 : Field := ⟨0x240004, 0, 4⟩
def F.LD_TOPO_CFG_DIM1 : Field := ⟨0x240004, 4, 4⟩
def F.LD_TOPO_CFG_DIM2 : Field := ⟨0x240004, 8, 4⟩
def F.LD_TOPO_CFG_DIM3 : Field := ⟨0x240004, 12, 4⟩
-- LD_FORM_CFG
def F.LD_FORM_CFG_SETTLE : Field := ⟨0x240008, 0, 16⟩
-- LD_TWIN_CFG
def F.LD_TWIN_CFG_ROLE : Field := ⟨0x24000C, 0, 2⟩
-- LD_SEAT
def F.LD_SEAT_SEAT : Field := ⟨0x240010, 0, 12⟩
def F.LD_SEAT_LEADER : Field := ⟨0x240010, 12, 1⟩
def F.LD_SEAT_FORMED : Field := ⟨0x240010, 13, 1⟩
def F.LD_SEAT_COORD : Field := ⟨0x240010, 14, 16⟩
-- LD_PORT_n
def F.LD_PORT_n_UP : Field := ⟨0x240100, 0, 1⟩
def F.LD_PORT_n_WIDTH : Field := ⟨0x240100, 1, 2⟩
def F.LD_PORT_n_PEER_SEAT : Field := ⟨0x240100, 3, 12⟩
def F.LD_PORT_n_PEER_PORT : Field := ⟨0x240100, 15, 5⟩
def F.LD_PORT_n_DELAY_NS : Field := ⟨0x240100, 20, 12⟩
-- LD_BEAT_OFFSET
def F.LD_BEAT_OFFSET_OFFSET : Field := ⟨0x240014, 0, 16⟩
def F.LD_BEAT_OFFSET_MAXABS : Field := ⟨0x240014, 16, 16⟩
-- LD_FEC_CORR
def F.LD_FEC_CORR_COUNT : Field := ⟨0x240020, 0, 32⟩
-- LD_REPLAY
def F.LD_REPLAY_COUNT : Field := ⟨0x240024, 0, 32⟩
-- LD_RETRAIN
def F.LD_RETRAIN_COUNT : Field := ⟨0x240028, 0, 32⟩
-- LD_LINK_DOWN
def F.LD_LINK_DOWN_COUNT : Field := ⟨0x24002C, 0, 32⟩
-- LD_MARKER_MISS
def F.LD_MARKER_MISS_COUNT : Field := ⟨0x240030, 0, 32⟩
-- LD_FLIT_STALE
def F.LD_FLIT_STALE_COUNT : Field := ⟨0x240034, 0, 32⟩
-- LD_CREDIT_WAIT
def F.LD_CREDIT_WAIT_COUNT : Field := ⟨0x240038, 0, 32⟩
-- LD_JOIN_REFUSED
def F.LD_JOIN_REFUSED_COUNT : Field := ⟨0x24003C, 0, 32⟩
-- CEL_CFG
def F.CEL_CFG_KEEP : Field := ⟨0x30000, 0, 4⟩
def F.CEL_CFG_TWIN_SHARE : Field := ⟨0x30000, 4, 7⟩
def F.CEL_CFG_YEARS : Field := ⟨0x30000, 11, 5⟩
-- CEL_RING
def F.CEL_RING_MIB : Field := ⟨0x30004, 0, 16⟩
-- CEL_INTERVAL
def F.CEL_INTERVAL_EFFECTIVE : Field := ⟨0x30008, 0, 16⟩
-- CEL_STATUS
def F.CEL_STATUS_OPEN : Field := ⟨0x3000C, 0, 1⟩
def F.CEL_STATUS_RO : Field := ⟨0x3000C, 1, 1⟩
def F.CEL_STATUS_MIRROR_UP : Field := ⟨0x3000C, 2, 1⟩
-- CEL_OPEN
def F.CEL_OPEN_MEASURE : Field := ⟨0x30010, 0, 48⟩
-- CEL_LAST
def F.CEL_LAST_MEASURE : Field := ⟨0x30018, 0, 48⟩
-- CEL_DOMAIN_LAST
def F.CEL_DOMAIN_LAST_MEASURE : Field := ⟨0x30020, 0, 48⟩
-- CEL_WEAR
def F.CEL_WEAR_WRITTEN_TB : Field := ⟨0x30028, 0, 32⟩
-- CEL_CUT
def F.CEL_CUT_COUNT : Field := ⟨0x30040, 0, 32⟩
-- CEL_COMPLETE
def F.CEL_COMPLETE_COUNT : Field := ⟨0x30044, 0, 32⟩
-- CEL_ABANDON
def F.CEL_ABANDON_COUNT : Field := ⟨0x30048, 0, 32⟩
-- CEL_CUT_DEFER
def F.CEL_CUT_DEFER_COUNT : Field := ⟨0x3004C, 0, 32⟩
-- CEL_CBW
def F.CEL_CBW_COUNT : Field := ⟨0x30050, 0, 32⟩
-- CEL_RING_PEAK
def F.CEL_RING_PEAK_MIB : Field := ⟨0x30054, 0, 32⟩
-- CEL_DETACH
def F.CEL_DETACH_COUNT : Field := ⟨0x30058, 0, 32⟩
-- CEL_NAND_RETIRE
def F.CEL_NAND_RETIRE_COUNT : Field := ⟨0x3005C, 0, 32⟩
-- CEL_FRAME_ERR
def F.CEL_FRAME_ERR_COUNT : Field := ⟨0x30060, 0, 32⟩
-- HUB_ID
def F.HUB_ID_SKU : Field := ⟨0x0, 0, 4⟩
def F.HUB_ID_STEPPING : Field := ⟨0x0, 4, 8⟩
-- HUB_STATE
def F.HUB_STATE_STATE : Field := ⟨0x4, 0, 3⟩
def F.HUB_STATE_HALT : Field := ⟨0x4, 3, 3⟩
def F.HUB_STATE_LINK : Field := ⟨0x4, 6, 1⟩
def F.HUB_STATE_WIDTH : Field := ⟨0x4, 7, 2⟩
def F.HUB_STATE_SPEED : Field := ⟨0x4, 9, 1⟩
-- HUB_FEAT_OFFER_k
def F.HUB_FEAT_OFFER_k_BITS : Field := ⟨0x40, 0, 32⟩
-- HUB_FEAT_ACCEPT_k
def F.HUB_FEAT_ACCEPT_k_BITS : Field := ⟨0x60, 0, 32⟩
-- HUB_START
def F.HUB_START_GO : Field := ⟨0x18, 0, 1⟩
def F.HUB_START_STATUS : Field := ⟨0x18, 16, 16⟩
-- HUB_WIN_CFG
def F.HUB_WIN_CFG_SIZE_MIB : Field := ⟨0x80, 0, 19⟩
-- HUB_CRING_n_CFG
def F.HUB_CRING_n_CFG_EN : Field := ⟨0x1000, 0, 1⟩
def F.HUB_CRING_n_CFG_LOG2 : Field := ⟨0x1000, 1, 5⟩
def F.HUB_CRING_n_CFG_VEC : Field := ⟨0x1000, 6, 11⟩
-- HUB_CRING_n_BASE
def F.HUB_CRING_n_BASE_ADDR : Field := ⟨0x1008, 0, 64⟩
-- HUB_CRING_n_CPL
def F.HUB_CRING_n_CPL_ADDR : Field := ⟨0x1010, 0, 64⟩
-- HUB_CRING_n_DB
def F.HUB_CRING_n_DB_ADDR : Field := ⟨0x1018, 0, 64⟩
-- HUB_CRING_n_STAT
def F.HUB_CRING_n_STAT_ADDR : Field := ⟨0x1020, 0, 64⟩
-- HUB_EVQ_CFG
def F.HUB_EVQ_CFG_EN : Field := ⟨0xA0, 0, 1⟩
def F.HUB_EVQ_CFG_LOG2 : Field := ⟨0xA0, 1, 5⟩
def F.HUB_EVQ_CFG_VEC : Field := ⟨0xA0, 6, 11⟩
-- HUB_EVQ_BASE
def F.HUB_EVQ_BASE_ADDR : Field := ⟨0xA8, 0, 64⟩
-- HUB_PHQ_CFG
def F.HUB_PHQ_CFG_EN : Field := ⟨0xB0, 0, 1⟩
def F.HUB_PHQ_CFG_LOG2 : Field := ⟨0xB0, 1, 5⟩
def F.HUB_PHQ_CFG_VEC : Field := ⟨0xB0, 6, 11⟩
-- HUB_PHQ_BASE
def F.HUB_PHQ_BASE_ADDR : Field := ⟨0xB8, 0, 64⟩
-- HUB_HLINE_IN
def F.HUB_HLINE_IN_ADDR : Field := ⟨0xC0, 0, 64⟩
-- HUB_HLINE_OUT
def F.HUB_HLINE_OUT_ADDR : Field := ⟨0xC8, 0, 64⟩
-- HUB_IRQ_CFG
def F.HUB_IRQ_CFG_MOD_US : Field := ⟨0x84, 0, 8⟩
-- HUB_EVT_IRQ
def F.HUB_EVT_IRQ_MASK : Field := ⟨0x90, 0, 64⟩
-- HUB_POLL_CFG
def F.HUB_POLL_CFG_US : Field := ⟨0x88, 0, 10⟩
-- HUB_EVT_LOST
def F.HUB_EVT_LOST_COUNT : Field := ⟨0x100, 0, 32⟩
-- HUB_PHQ_LOST
def F.HUB_PHQ_LOST_COUNT : Field := ⟨0x104, 0, 32⟩
-- HUB_RING_FAULT
def F.HUB_RING_FAULT_COUNT : Field := ⟨0x108, 0, 32⟩
-- HUB_CMD_REFUSED
def F.HUB_CMD_REFUSED_COUNT : Field := ⟨0x10C, 0, 32⟩
-- HUB_WIN_EARLY
def F.HUB_WIN_EARLY_COUNT : Field := ⟨0x110, 0, 32⟩
-- HUB_REG_REFUSED
def F.HUB_REG_REFUSED_OFFSET : Field := ⟨0x118, 0, 26⟩
def F.HUB_REG_REFUSED_STATUS : Field := ⟨0x118, 32, 16⟩
def F.HUB_REG_REFUSED_COUNT : Field := ⟨0x118, 48, 16⟩
-- ERR_STATUS
def F.ERR_STATUS_BUSY : Field := ⟨0x50000, 0, 1⟩
def F.ERR_STATUS_CUR : Field := ⟨0x50000, 1, 2⟩
def F.ERR_STATUS_DOUBLE : Field := ⟨0x50000, 3, 1⟩
def F.ERR_STATUS_MAX : Field := ⟨0x50000, 4, 2⟩
-- ERR_LOG_TAIL
def F.ERR_LOG_TAIL_COUNT : Field := ⟨0x50004, 0, 32⟩
-- ERR_LOG_HEAD
def F.ERR_LOG_HEAD_COUNT : Field := ⟨0x50008, 0, 32⟩
-- ERR_OVERFLOW
def F.ERR_OVERFLOW_COUNT : Field := ⟨0x5000C, 0, 32⟩
-- ERR_COUNT_C
def F.ERR_COUNT_C_COUNT : Field := ⟨0x50010, 0, 32⟩
-- ERR_COUNT_D
def F.ERR_COUNT_D_COUNT : Field := ⟨0x50014, 0, 32⟩
-- ERR_COUNT_S
def F.ERR_COUNT_S_COUNT : Field := ⟨0x50018, 0, 32⟩
-- ERR_COUNT_F
def F.ERR_COUNT_F_COUNT : Field := ⟨0x5001C, 0, 32⟩
-- ERR_POISON_PROP
def F.ERR_POISON_PROP_COUNT : Field := ⟨0x50020, 0, 32⟩
-- ERR_LOG_n
def F.ERR_LOG_n_ENTRY : Field := ⟨0x51000, 0, 256⟩
-- HUB_STRAP
def F.HUB_STRAP_RAW : Field := ⟨0x8, 0, 16⟩
def F.HUB_STRAP_BAD : Field := ⟨0x8, 16, 1⟩
-- HUB_BOOT_CFG
def F.HUB_BOOT_CFG_SRC : Field := ⟨0x10, 0, 1⟩
def F.HUB_BOOT_CFG_ACTIVE : Field := ⟨0x10, 1, 1⟩
-- HUB_BOOT_STATUS
def F.HUB_BOOT_STATUS_SLOT : Field := ⟨0xC, 0, 1⟩
def F.HUB_BOOT_STATUS_CODE : Field := ⟨0xC, 1, 3⟩
def F.HUB_BOOT_STATUS_T1_CLEAR : Field := ⟨0xC, 4, 1⟩
def F.HUB_BOOT_STATUS_LAST_RESET : Field := ⟨0xC, 5, 2⟩
-- HUB_BOOT_IMG_ADDR
def F.HUB_BOOT_IMG_ADDR_ADDR : Field := ⟨0x20, 0, 64⟩
-- HUB_BOOT_IMG_LEN
def F.HUB_BOOT_IMG_LEN_BYTES : Field := ⟨0x28, 0, 32⟩
-- HUB_BOOT_IMG_GO
def F.HUB_BOOT_IMG_GO_GO : Field := ⟨0x2C, 0, 1⟩
-- HUB_RESET
def F.HUB_RESET_COLD : Field := ⟨0x14, 0, 1⟩
def F.HUB_RESET_WARM : Field := ⟨0x14, 1, 1⟩
-- PLC_POWER_CFG
def F.PLC_POWER_CFG_CAP : Field := ⟨0x10008, 0, 7⟩
-- PLC_PLACE_CFG
def F.PLC_PLACE_CFG_SLOT : Field := ⟨0x1000C, 0, 6⟩
-- SEC_ARB
def F.SEC_ARB_FUSED : Field := ⟨0x40000, 0, 7⟩
def F.SEC_ARB_COMMIT : Field := ⟨0x40000, 7, 1⟩
-- SEC_FUSE
def F.SEC_FUSE_REVOKED : Field := ⟨0x40004, 0, 4⟩
def F.SEC_FUSE_DBG_DIS : Field := ⟨0x40004, 4, 1⟩
-- SEC_DBG_NONCE
def F.SEC_DBG_NONCE_VALUE : Field := ⟨0x40010, 0, 128⟩
-- SEC_DBG_CTL
def F.SEC_DBG_CTL_SUBMIT : Field := ⟨0x40008, 0, 1⟩
def F.SEC_DBG_CTL_LEVEL : Field := ⟨0x40008, 1, 2⟩
def F.SEC_DBG_CTL_FAILS : Field := ⟨0x40008, 3, 4⟩
-- SEC_DBG_BUF
def F.SEC_DBG_BUF_TOKEN : Field := ⟨0x40100, 0, 10752⟩

/-- Registers of the CALLER block. -/
def regRowsCALLER : List RegRow := [
  ⟨"CALLER_BEAT_CFG", .caller, 0x0, 4, 1, 4, [⟨0, 15, .rwl, .strap⟩, ⟨16, 15, .rwl, .val 0⟩, ⟨31, 1, .rwl, .val 0⟩]⟩,
  ⟨"CALLER_WHEY_LATE", .caller, 0x10, 4, 1, 4, [⟨0, 32, .ro, .val 0⟩]⟩,
  ⟨"CALLER_WHEY_FAULT", .caller, 0x14, 4, 1, 4, [⟨0, 32, .ro, .val 0⟩]⟩,
  ⟨"CALLER_WHEY_CASCADE", .caller, 0x18, 4, 1, 4, [⟨0, 32, .ro, .val 0⟩]⟩,
  ⟨"CALLER_WHEY_VOID", .caller, 0x1C, 4, 1, 4, [⟨0, 32, .ro, .val 0⟩]⟩,
  ⟨"CALLER_WHEY_MB", .caller, 0x20, 4, 1, 4, [⟨0, 32, .ro, .val 0⟩]⟩,
  ⟨"CALLER_WHEY_LOG_LOST", .caller, 0x24, 4, 1, 4, [⟨0, 32, .ro, .val 0⟩]⟩,
  ⟨"CALLER_VERDICT_DROP", .caller, 0x28, 4, 1, 4, [⟨0, 32, .ro, .val 0⟩]⟩]

/-- Registers of the PLC block. -/
def regRowsPLC : List RegRow := [
  ⟨"PLC_PLAN_CFG", .plc, 0x0, 4, 1, 4, [⟨0, 13, .rw, .val 64⟩, ⟨16, 7, .rw, .val 25⟩, ⟨24, 4, .rw, .val 2⟩]⟩,
  ⟨"PLC_MARGIN", .plc, 0x4, 4, 1, 4, [⟨0, 8, .rw, .val 5⟩, ⟨8, 8, .rw, .val 20⟩, ⟨16, 8, .rw, .val 10⟩]⟩,
  ⟨"PLC_META_DUP", .plc, 0x38, 4, 1, 4, [⟨0, 32, .ro, .val 0⟩]⟩,
  ⟨"PLC_LSCALE_CFG", .plc, 0x10, 4, 1, 4, [⟨0, 8, .rwl, .val 16⟩, ⟨8, 8, .rwl, .val 0⟩, ⟨16, 8, .rwl, .val 32⟩, ⟨24, 1, .rwl, .val 0⟩]⟩,
  ⟨"PLC_LSCALE_GROW", .plc, 0x14, 4, 1, 4, [⟨0, 16, .rwl, .val 1000⟩]⟩,
  ⟨"PLC_LSCALE", .plc, 0x18, 4, 1, 4, [⟨0, 8, .ro, .val 0⟩, ⟨8, 16, .ro, .val 0⟩]⟩,
  ⟨"PLC_LSCALE_HALVE", .plc, 0x1C, 4, 1, 4, [⟨0, 32, .ro, .val 0⟩]⟩,
  ⟨"PLC_LSCALE_DOUBLE", .plc, 0x20, 4, 1, 4, [⟨0, 32, .ro, .val 0⟩]⟩,
  ⟨"PLC_STEP", .plc, 0x24, 4, 1, 4, [⟨0, 32, .ro, .val 1⟩]⟩,
  ⟨"PLC_STEP_INIT", .plc, 0x28, 4, 1, 4, [⟨0, 32, .rwl, .val 1⟩]⟩,
  ⟨"PLC_LR_MUL", .plc, 0x2C, 4, 1, 4, [⟨0, 32, .rw, .val 1065353216⟩]⟩,
  ⟨"PLC_STEP_SKEW", .plc, 0x30, 4, 1, 4, [⟨0, 32, .ro, .val 0⟩]⟩,
  ⟨"PLC_FROZEN_SKIP", .plc, 0x34, 4, 1, 4, [⟨0, 32, .ro, .val 0⟩]⟩,
  ⟨"PLC_POWER_CFG", .plc, 0x8, 4, 1, 4, [⟨0, 7, .rwl, .strap⟩]⟩,
  ⟨"PLC_PLACE_CFG", .plc, 0xC, 4, 1, 4, [⟨0, 6, .rwl, .strap⟩]⟩]

/-- Registers of the CD block. -/
def regRowsCD : List RegRow := [
  ⟨"CD_ARRAY_BUBBLE", .cd, 0x10, 4, 1, 4, [⟨0, 32, .ro, .val 0⟩]⟩,
  ⟨"CD_ARRAY_STALL", .cd, 0x14, 4, 1, 4, [⟨0, 32, .ro, .val 0⟩]⟩,
  ⟨"CD_ARRAY_SKIDFULL", .cd, 0x18, 4, 1, 4, [⟨0, 32, .ro, .val 0⟩]⟩,
  ⟨"CD_ARRAY_LAST", .cd, 0x1C, 4, 1, 4, [⟨0, 10, .ro, .val 0⟩, ⟨10, 1, .ro, .val 0⟩, ⟨11, 2, .ro, .val 0⟩]⟩,
  ⟨"CD_SPARE_MAP", .cd, 0x20, 4, 1, 4, [⟨0, 12, .ro, .fuse⟩, ⟨12, 12, .ro, .fuse⟩]⟩,
  ⟨"CD_NUM_SAT", .cd, 0x30, 4, 1, 4, [⟨0, 32, .ro, .val 0⟩]⟩,
  ⟨"CD_NUM_NONFINITE", .cd, 0x34, 4, 1, 4, [⟨0, 32, .ro, .val 0⟩]⟩,
  ⟨"CD_NUM_CLAMP", .cd, 0x38, 4, 1, 4, [⟨0, 32, .ro, .val 0⟩]⟩,
  ⟨"CD_NUM_LAST", .cd, 0x3C, 4, 1, 4, [⟨0, 10, .ro, .val 0⟩, ⟨10, 3, .ro, .val 0⟩, ⟨13, 1, .ro, .val 0⟩]⟩,
  ⟨"CD_VEC_STICKY", .cd, 0x40, 4, 1, 4, [⟨0, 1, .w1c, .val 0⟩, ⟨1, 1, .w1c, .val 0⟩]⟩,
  ⟨"CD_VEC_EMPTY", .cd, 0x44, 4, 1, 4, [⟨0, 32, .ro, .val 0⟩]⟩,
  ⟨"CD_VEC_PERM", .cd, 0x48, 4, 1, 4, [⟨0, 32, .ro, .val 0⟩]⟩,
  ⟨"CD_VEC_LAST", .cd, 0x4C, 4, 1, 4, [⟨0, 10, .ro, .val 0⟩, ⟨10, 1, .ro, .val 0⟩]⟩,
  ⟨"CD_GME_INDEX_RANGE", .cd, 0x50, 4, 1, 4, [⟨0, 32, .ro, .val 0⟩]⟩,
  ⟨"CD_GME_EXPERT_DROP", .cd, 0x54, 4, 1, 4, [⟨0, 32, .ro, .val 0⟩]⟩,
  ⟨"CD_GME_CAM_SPILL", .cd, 0x58, 4, 1, 4, [⟨0, 32, .ro, .val 0⟩]⟩,
  ⟨"CD_T24_META", .cd, 0x5C, 4, 1, 4, [⟨0, 32, .ro, .val 0⟩]⟩,
  ⟨"CD_GME_LAST", .cd, 0x60, 4, 1, 4, [⟨0, 10, .ro, .val 0⟩, ⟨10, 3, .ro, .val 0⟩]⟩,
  ⟨"CD_SP_CFG", .cd, 0x0, 4, 1, 4, [⟨0, 1, .rwl, .strap⟩]⟩,
  ⟨"CD_SP_ECC_CORR", .cd, 0x70, 4, 1, 4, [⟨0, 32, .ro, .val 0⟩]⟩,
  ⟨"CD_SP_BANK_LATE_DROP", .cd, 0x74, 4, 1, 4, [⟨0, 32, .ro, .val 0⟩]⟩,
  ⟨"CD_VAT_FAULT", .cd, 0x78, 4, 1, 4, [⟨0, 32, .ro, .val 0⟩]⟩,
  ⟨"CD_VAT_STALL", .cd, 0x7C, 4, 1, 4, [⟨0, 32, .ro, .val 0⟩]⟩,
  ⟨"CD_VAT_REALIGN", .cd, 0x80, 4, 1, 4, [⟨0, 32, .ro, .val 0⟩]⟩,
  ⟨"CD_SYNC_OVF", .cd, 0x84, 4, 1, 4, [⟨0, 32, .ro, .val 0⟩]⟩,
  ⟨"CD_SYNC_REALIGN", .cd, 0x88, 4, 1, 4, [⟨0, 32, .ro, .val 0⟩]⟩]

/-- Registers of the MU block. -/
def regRowsMU : List RegRow := [
  ⟨"MU_NUM_SAT", .mu, 0x34, 4, 1, 4, [⟨0, 32, .ro, .val 0⟩]⟩,
  ⟨"MU_NUM_NONFINITE", .mu, 0x38, 4, 1, 4, [⟨0, 32, .ro, .val 0⟩]⟩,
  ⟨"MU_SCALE_CLAMP", .mu, 0x3C, 4, 1, 4, [⟨0, 32, .ro, .val 0⟩]⟩,
  ⟨"MU_PRUNE_OVF", .mu, 0x40, 4, 1, 4, [⟨0, 32, .ro, .val 0⟩]⟩,
  ⟨"MU_PRUNE_REFIT", .mu, 0x44, 4, 1, 4, [⟨0, 32, .ro, .val 0⟩]⟩,
  ⟨"MU_REPRUNE", .mu, 0x48, 4, 1, 4, [⟨0, 32, .ro, .val 0⟩]⟩,
  ⟨"MU_ARB_CFG", .mu, 0x0, 4, 1, 4, [⟨0, 7, .rw, .val 8⟩, ⟨8, 10, .rw, .val 50⟩, ⟨18, 11, .rw, .val 32⟩]⟩,
  ⟨"MU_ARB_RANK", .mu, 0x4, 4, 1, 4, [⟨0, 21, .rw, .val 129809⟩]⟩,
  ⟨"MU_ARB_STARVE", .mu, 0x8, 4, 1, 4, [⟨0, 7, .w1c, .val 0⟩]⟩,
  ⟨"MU_ARB_GRANT_n", .mu, 0x100, 4, 7, 4, [⟨0, 32, .ro, .val 0⟩]⟩,
  ⟨"MU_ARB_WAIT_n", .mu, 0x120, 8, 7, 8, [⟨0, 48, .ro, .val 0⟩]⟩,
  ⟨"MU_ARB_MAXWAIT_n", .mu, 0x160, 4, 7, 4, [⟨0, 32, .ro, .val 0⟩]⟩,
  ⟨"MU_REF_CFG", .mu, 0xC, 4, 1, 4, [⟨0, 2, .ro, .val 0⟩, ⟨2, 1, .rw, .val 1⟩]⟩,
  ⟨"MU_REF_COST", .mu, 0x10, 4, 1, 4, [⟨0, 10, .ro, .none⟩, ⟨10, 10, .ro, .none⟩, ⟨20, 10, .ro, .none⟩]⟩,
  ⟨"MU_REF_EXTRA", .mu, 0x20, 4, 1, 4, [⟨0, 32, .ro, .val 0⟩]⟩,
  ⟨"MU_SCRUB_CFG", .mu, 0x14, 4, 1, 4, [⟨0, 8, .rw, .val 24⟩]⟩,
  ⟨"MU_ECC_CORR", .mu, 0x24, 4, 1, 4, [⟨0, 32, .ro, .val 0⟩]⟩,
  ⟨"MU_ECC_UNCORR", .mu, 0x28, 4, 1, 4, [⟨0, 32, .ro, .val 0⟩]⟩,
  ⟨"MU_LINK_CORR", .mu, 0x2C, 4, 1, 4, [⟨0, 32, .ro, .val 0⟩]⟩,
  ⟨"MU_ACC_LATE", .mu, 0x30, 4, 1, 4, [⟨0, 32, .ro, .val 0⟩]⟩,
  ⟨"MU_UPD_CLIP", .mu, 0x4C, 4, 1, 4, [⟨0, 32, .ro, .val 0⟩]⟩,
  ⟨"MU_UPD_SLICE", .mu, 0x50, 4, 1, 4, [⟨0, 32, .ro, .val 0⟩]⟩,
  ⟨"MU_UPD_TAG_FAULT", .mu, 0x54, 4, 1, 4, [⟨0, 32, .ro, .val 0⟩]⟩]

/-- Registers of the HUB block. -/
def regRowsHUB : List RegRow := [
  ⟨"HUB_KILL_CFG", .hub, 0x1C, 4, 1, 4, [⟨0, 1, .rwl, .strap⟩]⟩,
  ⟨"HUB_ID", .hub, 0x0, 4, 1, 4, [⟨0, 4, .ro, .fuse⟩, ⟨4, 8, .ro, .fuse⟩]⟩,
  ⟨"HUB_STATE", .hub, 0x4, 4, 1, 4, [⟨0, 3, .ro, .val 1⟩, ⟨3, 3, .ro, .val 0⟩, ⟨6, 1, .ro, .none⟩, ⟨7, 2, .ro, .none⟩, ⟨9, 1, .ro, .none⟩]⟩,
  ⟨"HUB_FEAT_OFFER_k", .hub, 0x40, 4, 8, 4, [⟨0, 32, .ro, .none⟩]⟩,
  ⟨"HUB_FEAT_ACCEPT_k", .hub, 0x60, 4, 8, 4, [⟨0, 32, .rwl, .val 0⟩]⟩,
  ⟨"HUB_START", .hub, 0x18, 4, 1, 4, [⟨0, 1, .wo, .val 0⟩, ⟨16, 16, .ro, .val 0⟩]⟩,
  ⟨"HUB_WIN_CFG", .hub, 0x80, 4, 1, 4, [⟨0, 19, .rwl, .val 0⟩]⟩,
  ⟨"HUB_CRING_n_CFG", .hub, 0x1000, 4, 64, 64, [⟨0, 1, .rwl, .val 0⟩, ⟨1, 5, .rwl, .val 6⟩, ⟨6, 11, .rwl, .val 0⟩]⟩,
  ⟨"HUB_CRING_n_BASE", .hub, 0x1008, 8, 64, 64, [⟨0, 64, .rwl, .val 0⟩]⟩,
  ⟨"HUB_CRING_n_CPL", .hub, 0x1010, 8, 64, 64, [⟨0, 64, .rwl, .val 0⟩]⟩,
  ⟨"HUB_CRING_n_DB", .hub, 0x1018, 8, 64, 64, [⟨0, 64, .rwl, .val 0⟩]⟩,
  ⟨"HUB_CRING_n_STAT", .hub, 0x1020, 8, 64, 64, [⟨0, 64, .rwl, .val 0⟩]⟩,
  ⟨"HUB_EVQ_CFG", .hub, 0xA0, 4, 1, 4, [⟨0, 1, .rwl, .val 0⟩, ⟨1, 5, .rwl, .val 12⟩, ⟨6, 11, .rwl, .val 0⟩]⟩,
  ⟨"HUB_EVQ_BASE", .hub, 0xA8, 8, 1, 8, [⟨0, 64, .rwl, .val 0⟩]⟩,
  ⟨"HUB_PHQ_CFG", .hub, 0xB0, 4, 1, 4, [⟨0, 1, .rwl, .val 0⟩, ⟨1, 5, .rwl, .val 10⟩, ⟨6, 11, .rwl, .val 0⟩]⟩,
  ⟨"HUB_PHQ_BASE", .hub, 0xB8, 8, 1, 8, [⟨0, 64, .rwl, .val 0⟩]⟩,
  ⟨"HUB_HLINE_IN", .hub, 0xC0, 8, 1, 8, [⟨0, 64, .rwl, .val 0⟩]⟩,
  ⟨"HUB_HLINE_OUT", .hub, 0xC8, 8, 1, 8, [⟨0, 64, .rwl, .val 0⟩]⟩,
  ⟨"HUB_IRQ_CFG", .hub, 0x84, 4, 1, 4, [⟨0, 8, .rw, .val 8⟩]⟩,
  ⟨"HUB_EVT_IRQ", .hub, 0x90, 8, 1, 8, [⟨0, 64, .rw, .val 18446744073709551615⟩]⟩,
  ⟨"HUB_POLL_CFG", .hub, 0x88, 4, 1, 4, [⟨0, 10, .rwl, .val 5⟩]⟩,
  ⟨"HUB_EVT_LOST", .hub, 0x100, 4, 1, 4, [⟨0, 32, .ro, .val 0⟩]⟩,
  ⟨"HUB_PHQ_LOST", .hub, 0x104, 4, 1, 4, [⟨0, 32, .ro, .val 0⟩]⟩,
  ⟨"HUB_RING_FAULT", .hub, 0x108, 4, 1, 4, [⟨0, 32, .ro, .val 0⟩]⟩,
  ⟨"HUB_CMD_REFUSED", .hub, 0x10C, 4, 1, 4, [⟨0, 32, .ro, .val 0⟩]⟩,
  ⟨"HUB_WIN_EARLY", .hub, 0x110, 4, 1, 4, [⟨0, 32, .ro, .val 0⟩]⟩,
  ⟨"HUB_REG_REFUSED", .hub, 0x118, 8, 1, 8, [⟨0, 26, .ro, .val 0⟩, ⟨32, 16, .ro, .val 0⟩, ⟨48, 16, .ro, .val 0⟩]⟩,
  ⟨"HUB_STRAP", .hub, 0x8, 4, 1, 4, [⟨0, 16, .ro, .strap⟩, ⟨16, 1, .ro, .val 0⟩]⟩,
  ⟨"HUB_BOOT_CFG", .hub, 0x10, 4, 1, 4, [⟨0, 1, .rws, .strap⟩, ⟨1, 1, .rws, .val 0⟩]⟩,
  ⟨"HUB_BOOT_STATUS", .hub, 0xC, 4, 1, 4, [⟨0, 1, .ro, .val 0⟩, ⟨1, 3, .ro, .val 0⟩, ⟨4, 1, .ro, .val 0⟩, ⟨5, 2, .ro, .val 0⟩]⟩,
  ⟨"HUB_BOOT_IMG_ADDR", .hub, 0x20, 8, 1, 8, [⟨0, 64, .rw, .val 0⟩]⟩,
  ⟨"HUB_BOOT_IMG_LEN", .hub, 0x28, 4, 1, 4, [⟨0, 32, .rw, .val 0⟩]⟩,
  ⟨"HUB_BOOT_IMG_GO", .hub, 0x2C, 4, 1, 4, [⟨0, 1, .wo, .val 0⟩]⟩,
  ⟨"HUB_RESET", .hub, 0x14, 4, 1, 4, [⟨0, 1, .wo, .val 0⟩, ⟨1, 1, .wo, .val 0⟩]⟩]

/-- Registers of the ING block. -/
def regRowsING : List RegRow := [
  ⟨"ING_CLIP_CUT", .ing, 0x68, 4, 1, 4, [⟨0, 32, .ro, .val 0⟩]⟩,
  ⟨"ING_SEG_CUT", .ing, 0x6C, 4, 1, 4, [⟨0, 32, .ro, .val 0⟩]⟩,
  ⟨"ING_MB_TRUNC", .ing, 0x70, 4, 1, 4, [⟨0, 32, .ro, .val 0⟩]⟩,
  ⟨"ING_POOL_CFG", .ing, 0x0, 4, 1, 4, [⟨0, 17, .rwl, .val 0⟩]⟩,
  ⟨"ING_SHUF_CFG", .ing, 0x4, 4, 1, 4, [⟨0, 16, .rwl, .val 0⟩, ⟨16, 1, .rwl, .val 0⟩, ⟨17, 7, .rwl, .val 10⟩]⟩,
  ⟨"ING_RNG_SEED", .ing, 0x8, 8, 1, 8, [⟨0, 64, .rwl, .val 0⟩]⟩,
  ⟨"ING_RNG_CFG", .ing, 0x10, 4, 1, 4, [⟨0, 1, .rwl, .val 0⟩]⟩,
  ⟨"ING_RNG_OFFSET", .ing, 0x14, 4, 1, 4, [⟨0, 32, .rwl, .val 0⟩]⟩,
  ⟨"ING_TS_RESYNC", .ing, 0x40, 4, 1, 4, [⟨0, 32, .ro, .val 0⟩]⟩,
  ⟨"ING_TS_CC_ERR", .ing, 0x44, 4, 1, 4, [⟨0, 32, .ro, .val 0⟩]⟩,
  ⟨"ING_UNSUPPORTED", .ing, 0x48, 4, 1, 4, [⟨0, 32, .ro, .val 0⟩]⟩,
  ⟨"ING_CLIP_SHORT", .ing, 0x4C, 4, 1, 4, [⟨0, 32, .ro, .val 0⟩]⟩,
  ⟨"ING_CLIP_BIG", .ing, 0x50, 4, 1, 4, [⟨0, 32, .ro, .val 0⟩]⟩,
  ⟨"ING_PIC_DAMAGED", .ing, 0x54, 4, 1, 4, [⟨0, 32, .ro, .val 0⟩]⟩,
  ⟨"ING_TTX_PARITY", .ing, 0x58, 4, 1, 4, [⟨0, 32, .ro, .val 0⟩]⟩,
  ⟨"ING_AUX_TRUNC", .ing, 0x5C, 4, 1, 4, [⟨0, 32, .ro, .val 0⟩]⟩,
  ⟨"ING_DECK_EARLY", .ing, 0x60, 4, 1, 4, [⟨0, 32, .ro, .val 0⟩]⟩,
  ⟨"ING_RNG_REALIGN", .ing, 0x64, 4, 1, 4, [⟨0, 32, .ro, .val 0⟩]⟩]

/-- Registers of the LD block. -/
def regRowsLD : List RegRow := [
  ⟨"LD_DOMAIN_CFG", .ld, 0x0, 4, 1, 4, [⟨0, 32, .rwl, .val 0⟩]⟩,
  ⟨"LD_TOPO_CFG", .ld, 0x4, 4, 1, 4, [⟨0, 4, .rwl, .val 0⟩, ⟨4, 4, .rwl, .val 0⟩, ⟨8, 4, .rwl, .val 0⟩, ⟨12, 4, .rwl, .val 0⟩]⟩,
  ⟨"LD_FORM_CFG", .ld, 0x8, 4, 1, 4, [⟨0, 16, .rwl, .val 256⟩]⟩,
  ⟨"LD_TWIN_CFG", .ld, 0xC, 4, 1, 4, [⟨0, 2, .rwl, .strap⟩]⟩,
  ⟨"LD_SEAT", .ld, 0x10, 4, 1, 4, [⟨0, 12, .ro, .val 4095⟩, ⟨12, 1, .ro, .val 0⟩, ⟨13, 1, .ro, .val 0⟩, ⟨14, 16, .ro, .val 0⟩]⟩,
  ⟨"LD_PORT_n", .ld, 0x100, 4, 18, 4, [⟨0, 1, .ro, .val 0⟩, ⟨1, 2, .ro, .val 0⟩, ⟨3, 12, .ro, .val 4095⟩, ⟨15, 5, .ro, .val 0⟩, ⟨20, 12, .ro, .val 0⟩]⟩,
  ⟨"LD_BEAT_OFFSET", .ld, 0x14, 4, 1, 4, [⟨0, 16, .ro, .val 0⟩, ⟨16, 16, .ro, .val 0⟩]⟩,
  ⟨"LD_FEC_CORR", .ld, 0x20, 4, 1, 4, [⟨0, 32, .ro, .val 0⟩]⟩,
  ⟨"LD_REPLAY", .ld, 0x24, 4, 1, 4, [⟨0, 32, .ro, .val 0⟩]⟩,
  ⟨"LD_RETRAIN", .ld, 0x28, 4, 1, 4, [⟨0, 32, .ro, .val 0⟩]⟩,
  ⟨"LD_LINK_DOWN", .ld, 0x2C, 4, 1, 4, [⟨0, 32, .ro, .val 0⟩]⟩,
  ⟨"LD_MARKER_MISS", .ld, 0x30, 4, 1, 4, [⟨0, 32, .ro, .val 0⟩]⟩,
  ⟨"LD_FLIT_STALE", .ld, 0x34, 4, 1, 4, [⟨0, 32, .ro, .val 0⟩]⟩,
  ⟨"LD_CREDIT_WAIT", .ld, 0x38, 4, 1, 4, [⟨0, 32, .ro, .val 0⟩]⟩,
  ⟨"LD_JOIN_REFUSED", .ld, 0x3C, 4, 1, 4, [⟨0, 32, .ro, .val 0⟩]⟩]

/-- Registers of the CEL block. -/
def regRowsCEL : List RegRow := [
  ⟨"CEL_CFG", .cel, 0x0, 4, 1, 4, [⟨0, 4, .rwl, .val 2⟩, ⟨4, 7, .rwl, .val 0⟩, ⟨11, 5, .rwl, .val 5⟩]⟩,
  ⟨"CEL_RING", .cel, 0x4, 4, 1, 4, [⟨0, 16, .rw, .val 0⟩]⟩,
  ⟨"CEL_INTERVAL", .cel, 0x8, 4, 1, 4, [⟨0, 16, .ro, .val 0⟩]⟩,
  ⟨"CEL_STATUS", .cel, 0xC, 4, 1, 4, [⟨0, 1, .ro, .val 0⟩, ⟨1, 1, .ro, .val 0⟩, ⟨2, 1, .ro, .val 0⟩]⟩,
  ⟨"CEL_OPEN", .cel, 0x10, 8, 1, 8, [⟨0, 48, .ro, .val 0⟩]⟩,
  ⟨"CEL_LAST", .cel, 0x18, 8, 1, 8, [⟨0, 48, .ro, .val 0⟩]⟩,
  ⟨"CEL_DOMAIN_LAST", .cel, 0x20, 8, 1, 8, [⟨0, 48, .ro, .val 0⟩]⟩,
  ⟨"CEL_WEAR", .cel, 0x28, 4, 1, 4, [⟨0, 32, .ro, .val 0⟩]⟩,
  ⟨"CEL_CUT", .cel, 0x40, 4, 1, 4, [⟨0, 32, .ro, .val 0⟩]⟩,
  ⟨"CEL_COMPLETE", .cel, 0x44, 4, 1, 4, [⟨0, 32, .ro, .val 0⟩]⟩,
  ⟨"CEL_ABANDON", .cel, 0x48, 4, 1, 4, [⟨0, 32, .ro, .val 0⟩]⟩,
  ⟨"CEL_CUT_DEFER", .cel, 0x4C, 4, 1, 4, [⟨0, 32, .ro, .val 0⟩]⟩,
  ⟨"CEL_CBW", .cel, 0x50, 4, 1, 4, [⟨0, 32, .ro, .val 0⟩]⟩,
  ⟨"CEL_RING_PEAK", .cel, 0x54, 4, 1, 4, [⟨0, 32, .ro, .val 0⟩]⟩,
  ⟨"CEL_DETACH", .cel, 0x58, 4, 1, 4, [⟨0, 32, .ro, .val 0⟩]⟩,
  ⟨"CEL_NAND_RETIRE", .cel, 0x5C, 4, 1, 4, [⟨0, 32, .ro, .val 0⟩]⟩,
  ⟨"CEL_FRAME_ERR", .cel, 0x60, 4, 1, 4, [⟨0, 32, .ro, .val 0⟩]⟩]

/-- Registers of the ERR block. -/
def regRowsERR : List RegRow := [
  ⟨"ERR_STATUS", .err, 0x0, 4, 1, 4, [⟨0, 1, .ro, .val 0⟩, ⟨1, 2, .ro, .val 0⟩, ⟨3, 1, .rws, .val 0⟩, ⟨4, 2, .rws, .val 0⟩]⟩,
  ⟨"ERR_LOG_TAIL", .err, 0x4, 4, 1, 4, [⟨0, 32, .ro, .val 0⟩]⟩,
  ⟨"ERR_LOG_HEAD", .err, 0x8, 4, 1, 4, [⟨0, 32, .rws, .val 0⟩]⟩,
  ⟨"ERR_OVERFLOW", .err, 0xC, 4, 1, 4, [⟨0, 32, .rws, .val 0⟩]⟩,
  ⟨"ERR_COUNT_C", .err, 0x10, 4, 1, 4, [⟨0, 32, .ro, .val 0⟩]⟩,
  ⟨"ERR_COUNT_D", .err, 0x14, 4, 1, 4, [⟨0, 32, .ro, .val 0⟩]⟩,
  ⟨"ERR_COUNT_S", .err, 0x18, 4, 1, 4, [⟨0, 32, .ro, .val 0⟩]⟩,
  ⟨"ERR_COUNT_F", .err, 0x1C, 4, 1, 4, [⟨0, 32, .ro, .val 0⟩]⟩,
  ⟨"ERR_POISON_PROP", .err, 0x20, 4, 1, 4, [⟨0, 32, .ro, .val 0⟩]⟩,
  ⟨"ERR_LOG_n", .err, 0x1000, 32, 256, 32, [⟨0, 256, .ro, .val 0⟩]⟩]

/-- Registers of the SEC block. -/
def regRowsSEC : List RegRow := [
  ⟨"SEC_ARB", .sec, 0x0, 4, 1, 4, [⟨0, 7, .ro, .fuse⟩, ⟨7, 1, .wo, .val 0⟩]⟩,
  ⟨"SEC_FUSE", .sec, 0x4, 4, 1, 4, [⟨0, 4, .ro, .fuse⟩, ⟨4, 1, .ro, .fuse⟩]⟩,
  ⟨"SEC_DBG_NONCE", .sec, 0x10, 16, 1, 16, [⟨0, 128, .ro, .none⟩]⟩,
  ⟨"SEC_DBG_CTL", .sec, 0x8, 4, 1, 4, [⟨0, 1, .wo, .val 0⟩, ⟨1, 2, .ro, .val 0⟩, ⟨3, 4, .ro, .val 0⟩]⟩,
  ⟨"SEC_DBG_BUF", .sec, 0x100, 1344, 1, 1344, [⟨0, 10752, .wo, .val 0⟩]⟩]

/-- Every register of BAR0. -/
def regTable : List RegRow :=
  regRowsCALLER ++ regRowsPLC ++ regRowsCD ++ regRowsMU ++ regRowsHUB ++ regRowsING ++ regRowsLD ++ regRowsCEL ++ regRowsERR ++ regRowsSEC

/-- The first offset of a block's window 0, and the distance between its windows (Table 19.1). -/
def Blk.base : Blk → Nat
  | .hub => 0 | .plc => 0x10000 | .ing => 0x20000 | .cel => 0x30000 | .sec => 0x40000 | .err => 0x50000
  | .caller => 0x60000 | .cd => 0x100000 | .mu => 0x180000 | .ld => 0x240000
def Blk.step : Blk → Nat
  | .caller => 0x1000
  | _ => 0x10000

/-- A decoded BAR0 offset: block, window, offset in the window. `window` 4 of CD and 8 of MU are the broadcast windows. -/
structure BarAddr where
  blk : Blk
  window : Nat
  rel : Nat
deriving DecidableEq, Repr

/-- The block that covers an offset (Table 19.1); none for reserved offsets, the CXL component registers and MSI-X. -/
def barAddr (off : Nat) : Option BarAddr :=
  if off < 0x10000 then some ⟨.hub, 0, off⟩
  else if off < 0x20000 then some ⟨.plc, 0, off - 0x10000⟩
  else if off < 0x30000 then some ⟨.ing, 0, off - 0x20000⟩
  else if off < 0x40000 then some ⟨.cel, 0, off - 0x30000⟩
  else if off < 0x50000 then some ⟨.sec, 0, off - 0x40000⟩
  else if off < 0x60000 then some ⟨.err, 0, off - 0x50000⟩
  else if off < 0x70000 then some ⟨.caller, (off - 0x60000) / 0x1000, (off - 0x60000) % 0x1000⟩
  else if 0x100000 ≤ off ∧ off < 0x150000 then some ⟨.cd, (off - 0x100000) / 0x10000, (off - 0x100000) % 0x10000⟩
  else if 0x180000 ≤ off ∧ off < 0x210000 then some ⟨.mu, (off - 0x180000) / 0x10000, (off - 0x180000) % 0x10000⟩
  else if 0x240000 ≤ off ∧ off < 0x260000 then some ⟨.ld, (off - 0x240000) / 0x10000, (off - 0x240000) % 0x10000⟩
  else none

/-- A register row covers an offset of its window. -/
def RegRow.covers (r : RegRow) (b : Blk) (rel : Nat) : Bool :=
  r.blk == b && decide (r.off ≤ rel) && decide ((rel - r.off) / r.stride < r.n)
    && decide ((rel - r.off) % r.stride < r.bytes)

/-- The register row at an offset of a block's window. -/
def regAt (b : Blk) (rel : Nat) : Option RegRow := regTable.find? fun r => r.covers b rel

/-- The registers that stand only in Caller window 14 (R513) and only in the LD0 window (R512). -/
def hdOnly (b : Blk) (rel : Nat) : Bool := b == .caller && (rel == 0 || rel == 0x28)
def ld0Only (b : Blk) (rel : Nat) : Bool := b == .ld && decide (rel < 0x14)

/-- The default beat a strap selects (Table 17.1), in µs. -/
def strapBeatUs (straps : Nat) : Nat :=
  match bits straps 0 3 with
  | 0 => 500 | 1 => 160 | 2 => 250 | 3 => 1000 | 4 => 2000 | 5 => 5000 | 6 => 10000 | _ => 20000

/-- The default power cap a strap selects (Table 17.1), in % of TDP. -/
def strapCap (straps : Nat) : Nat :=
  match bits straps 13 2 with
  | 0 => 100 | 1 => 85 | 2 => 70 | _ => 55

/-- The twin role a strap loads: 3 loads 0 (R467). -/
def strapTwin (straps : Nat) : Nat := if bits straps 3 2 = 3 then 0 else bits straps 3 2

/-- The BAR0 words with a non-zero reset value (R515 and the tables of the chapters), with the sampled straps
(Table 17.2), the fused SKU, stepping and anti-rollback count and the word of SEC_FUSE given; offsets rise. -/
def resetWords (straps sku stepping arb fuse : Nat) : List (Nat × Nat) :=
  [(0x0, sku + 16 * stepping), (0x8, straps + (if bits straps 3 2 = 3 then 0x10000 else 0)), (0x10, bits straps 15 1),
   (0x1C, bits straps 12 1), (0x84, 8), (0x88, 5), (0x90, 0xFFFFFFFF), (0x94, 0xFFFFFFFF), (0xA0, 24), (0xB0, 20)]
  ++ (upTo 64).map (fun n => (0x1000 + 64 * n, 12))
  ++ [(0x10000, 64 + 25 * 2 ^ 16 + 2 * 2 ^ 24), (0x10004, 5 + 20 * 2 ^ 8 + 10 * 2 ^ 16), (0x10008, strapCap straps),
   (0x1000C, bits straps 5 6), (0x10010, 16 + 32 * 2 ^ 16), (0x10014, 1000), (0x10024, 1), (0x10028, 1), (0x1002C, 0x3F800000),
   (0x20004, 10 * 2 ^ 17), (0x30000, 2 + 5 * 2 ^ 11), (0x40000, arb), (0x40004, fuse),
   (0x6E000, strapBeatUs straps)]
  ++ (upTo 4).map (fun n => (0x100000 + n * 0x10000, bits straps 11 1))
  ++ (upTo 8).flatMap (fun n => [(0x180000 + n * 0x10000, 8 + 50 * 2 ^ 8 + 32 * 2 ^ 18), (0x180004 + n * 0x10000, 0x1FB11),
        (0x18000C + n * 0x10000, 4), (0x180014 + n * 0x10000, 24)])
  ++ [(0x240008, 256), (0x24000C, strapTwin straps), (0x240010, 0xFFF)]
  ++ (upTo 2).flatMap (fun d => (upTo 18).map fun n => (0x240100 + d * 0x10000 + 4 * n, 0xFFF * 8))

/-- A register file from (offset, value) pairs in rising order, zero values left out. -/
def tabOf (l : List (Nat × Nat)) : Tab := l.filter fun e => e.2 != 0

end Sys2Proof.Machine
end

