-- ==== Sys2Proof/Machine/State.lean ====
section
/-! DEFINITION. The state of the module as plain data. Every register and table the manual names has its place here or
in the BAR0 register file `regs`; the queue of waiting commands is `pending`. -/
namespace Sys2Proof.Machine

/-- Device states (Table 15.9). -/
inductive DevState where
  | off | boot | unconfigured | negotiated | running | draining | halted
deriving DecidableEq, Repr

/-- Reset kinds (Table 17.3). -/
inductive ResetKind where
  | power | cold | warm | fabric
deriving DecidableEq, Repr

structure Pins where
  pwrgd : Bool
  perstN : Bool
  vin : Bool
  latched : Bool
  refclk : Bool
deriving DecidableEq, Repr

structure Fuses where
  sku : Nat
  stepping : Nat
  spareRows : List Nat
  spareCols : List Nat
  arb : Nat
  revoked : Nat
  dbgDis : Bool
  keyHash : List Nat
  dbgHash : Nat
  serial : Nat
deriving DecidableEq, Repr

/-- A module-flash slot: the image bytes and whether the slot is marked valid (R475, R485). -/
structure FlashSlot where
  image : Bytes
  valid : Bool
deriving DecidableEq, Repr

structure Flash where
  a : FlashSlot
  b : FlashSlot
deriving DecidableEq, Repr

/-- Progress of BOOT (R471): the kind of reset, the cycles step 2 waited for an image, whether it waits for the host or is
in recovery, whether the LPDDR5X training results are held, a held START (R472), an accepted one (R9), the running image's SVN, self-test. -/
structure Boot where
  kind : ResetKind
  delay : Nat
  waitHost : Bool
  recovery : Bool
  trained : Bool
  startHeld : Bool
  started : Bool
  svn : Nat
  test : BootTest
deriving DecidableEq, Repr

/-- The time base: `base` is the count of cycles at the edge that opened the beat (waits that span edges, R286). -/
structure Clock where
  beat : Nat
  base : Nat
  cyc : Nat
  epoch : Nat
  lenUs : Nat
  rindCyc : Nat
  measBeats : Nat
  phraseLen : Nat
  measure : Nat
  pos : Option Nat
  phrPos : Nat
  phrase : Nat
  ticking : Bool
deriving DecidableEq, Repr

/-- A fetched command: its 512-bit descriptor (Table 15.3). -/
structure Cmd where
  desc : BitVec 512
deriving DecidableEq, Repr

/-- A started, uncompleted command, with its opcode's own progress datum (a stream index, a snapshot measure). -/
structure ActiveCmd where
  desc : BitVec 512
  datum : Nat
deriving DecidableEq, Repr

structure Ring where
  tail : Nat
  cplHead : Nat
  fetched : Nat
  completed : Nat
  stopped : Bool
  queue : List Cmd
  active : List ActiveCmd
deriving DecidableEq, Repr

/-- An event record before encoding (Tables 16.5, 16.6). -/
structure EvtRec where
  kind : Nat
  die : Nat
  seat : Nat
  beat : Nat
  cyc : Nat
  payload : Nat
deriving DecidableEq, Repr

/-- A host-visible line (rings 0 to 63, 64 the hub status line) with records written and awaiting GO, the status line
awaiting GO, the vectors whose records no status write covers yet, and those the written status line covers (R435). -/
structure GoLine where
  line : Nat
  recWait : Bool
  statWait : Bool
  vecs : List Nat
  covered : List Nat
deriving DecidableEq, Repr

structure HostIf where
  link : Bool
  training : Bool
  rings : List Ring
  rr : Nat
  evTail : Nat
  evHead : Nat
  phTail : Nat
  phHead : Nat
  evLost : Nat
  evHeld : List EvtRec
  evOpen : Nat
  mem : Mem
  go : List GoLine
  irqHot : List Nat
  irqCause : List Nat
  irqSent : List Nat
  crs : Nat
  cfgOk : Nat
  memRsp : List (Nat × BitVec 512 × Bool)
deriving DecidableEq, Repr

/-- An error that has been stamped and charged and is on its way to HD (R446, R451). -/
structure ErrRec where
  code : Nat
  src : Source
  beat : Nat
  cyc : Nat
  figure : Nat
  detail : Nat
deriving DecidableEq, Repr

/-- A log entry (Table 16.3), and one waiting for or in handling: `slot` none when the record was discarded (R450). -/
structure LogEntry where
  handled : Bool
  err : ErrRec
  count : Nat
  lastBeat : Nat
deriving DecidableEq, Repr

structure Handling where
  slot : Option Nat
  entry : LogEntry
  begun : Bool
deriving DecidableEq, Repr

structure Errors where
  log : List (Option LogEntry)
  inFlight : List ErrRec
  wait : List Handling
  cur : Option Handling
  susp : List Handling
deriving DecidableEq, Repr

/-- A PLDM firmware transfer in progress (R485). -/
structure FwXfer where
  slot : Nat
  bytes : Bytes
  done : Bool
deriving DecidableEq, Repr

structure Security where
  meas : List Nat
  aliasK : Nat
  aliasCert : Bool
  draws : Nat
  fw : Option FwXfer
  spdmStage : Nat
  sessions : Nat
  replies : List Nat
deriving DecidableEq, Repr

/-- A resident work graph (R65 to R67, R529, R530): the header and the entries as bit vectors. -/
structure Graph where
  hdr : BitVec 2048
  tensors : List (BitVec 512)
  ops : List (BitVec 1024)
  axes : List (BitVec 128)
  codebooks : List (BitVec 4096)
  policy : Option (BitVec 256)
  image : Bytes
  maskImg : Bytes
  digest : Nat
  places : List Placement
deriving DecidableEq, Repr

/-- A figure body (R489 to R502): a matrix descriptor with its extension, a vector program, a GME or DMA descriptor, a
TPL entry. -/
inductive Body where
  | matrix (d : BitVec 256) (ext : Option (BitVec 256))
  | vec (prog : List (BitVec 128))
  | gme (d : BitVec 256)
  | dma (d : BitVec 256)
  | tpl (d : BitVec 128)
deriving DecidableEq, Repr

/-- A figure of a section, before repetition (R490, R492): its FIG entry, DEP entries, WAIT and SIGNAL entries, body. -/
structure FigProg where
  fig : BitVec 128
  deps : List (BitVec 128)
  waits : List (BitVec 128)
  body : Body
  signals : List (BitVec 128)
deriving DecidableEq, Repr

/-- A section: its BEAT entry, the figures, and on the SEQ queue its control entries. -/
structure Section where
  beat : BitVec 128
  figs : List FigProg
  seq : List (BitVec 128)
deriving DecidableEq, Repr

structure Queue where
  num : Nat
  secs : List Section
deriving DecidableEq, Repr

structure Slice where
  die : Nat
  group : Nat
  queues : List Queue
deriving DecidableEq, Repr

/-- A dance card: the header (Table 18.1) and its slices. -/
structure Card where
  hdr : BitVec 512
  slices : List Slice
  gen : Nat
  side : CardSide
deriving DecidableEq, Repr

/-- What a build carries (R85): the plan commands received since the last build start. -/
structure PlanReq where
  len : Option (Nat × Nat)
  cap : Option Nat
  phrase : Option Nat
  force : Bool
deriving DecidableEq, Repr

/-- A migration of a page (R73). -/
structure Migr where
  page : Nat
  mu : Nat
  fromOff : Nat
  toMu : Nat
  toOff : Nat
  cursor : Nat
  done : Bool
deriving DecidableEq, Repr

/-- A figure template (R75): the same work on the same resource; the range of a TPL entry counts by its length alone (log entry 43). -/
structure Template where
  die : Nat
  group : Nat
  queue : Nat
  cls : Nat
  body : Body
deriving DecidableEq, Repr

/-- What the placement controller holds (R65 to R92): the resident graph, whether its command still waits for its first card and the
next card is the calibration card, the cards, the build, what was measured (`basis`: up to the build's start) with PLC_MARGIN,
HEADROOM and each die's GAP as they stood then, the slots flagged requesters need as (die, requester, slots) (R289), joins the build carries, the last phase record, the largest ratio of measured to planned energy (ppm), the
coefficients of the next build and of the card in force, page table and migrations. -/
structure Plan where
  graph : Option Graph
  loading : Bool
  calib : Bool
  card : Option Card
  next : Option Card
  gen : Nat
  building : Bool
  req : PlanReq
  carried : PlanReq
  ready : Bool
  swapBit : Bool
  cap : Nat
  rate : Nat
  t2gbs : Nat
  tmpl : List (Template × Nat × List Nat)
  basis : List (Template × Nat × List Nat)
  margins : Nat × Nat × List Nat
  needs : List (Nat × Nat × Nat)
  joins : Nat
  phaseRec : Nat
  energyRatio : Nat
  coefMil : Nat
  cardCoef : Nat
  pages : Tab
  migr : List Migr
deriving DecidableEq, Repr

/-- Where a figure of the current measure stands. -/
inductive FigPhase where
  | waiting | running | complete | skipped | dropped
deriving DecidableEq, Repr

structure FigStat where
  fid : Nat
  phase : FigPhase
  yield : Bool
  nonfin : Bool
  poison : Bool
  start : Nat
  pos : Nat
  done : Nat
  quantity : List Nat
  at_ : Nat
deriving DecidableEq, Repr

/-- Seat flags that decide verdicts (Table 2.6). -/
structure Flags where
  nonfin : Bool
  mandLate : Bool
  errS : Bool
  skew : Bool
  depart : Bool
  sealMiss : Bool
  verdLate : Bool
  empty : Bool
deriving DecidableEq, Repr

/-- The combined header of the verdict figure (R53, R373). -/
structure VHeader where
  nonfin : Bool
  mandLate : Bool
  errS : Bool
  skew : Bool
  ldr : Bool
  count : Nat
  step : Nat
deriving DecidableEq, Repr

/-- An accumulate tile on its way to a memory-update die (R275). -/
structure AccWrite where
  src : Nat
  mu : Nat
  gran : Nat
  vals : List Word32
  tokens : Nat
  nonfin : Bool
  poison : Bool
  fid : Nat
  beat : Nat
deriving DecidableEq, Repr

/-- A signal on its way to a sync object: `key` is die × 8192 + object, or 15 × 8192 + object for a hub object; `near` is the
cluster (die × 1024 + cluster) whose waiters it reaches 20 cycles before `due` (Table 8.6); the figure whose body issues it, and the
cycle of issue (R228). `Run.sigDone` holds those that have applied in the clock's own cycle (R227). -/
structure Signal where
  key : Nat
  n : Nat
  due : Nat
  isSet : Bool
  near : Option Nat
  owner : Option Nat
  sent : Nat
deriving DecidableEq, Repr

/-- Writes of a running figure: the tier (0 T0, 1 vector registers, 2 mask registers, 3 T1), and for each byte its key, what it held
and what was written. -/
structure Undo where
  fid : Nat
  space : Nat
  cells : List (Nat × Byte × Byte)
deriving DecidableEq, Repr

structure Run where
  figs : List FigStat
  mbDrop : List Nat
  mbDone : List Nat
  wheyLog : Tab
  flags : Flags
  nextFlags : Flags
  vhdr : Option VHeader
  local_ : Option Bool
  sealSent : Bool
  commit : Option Bool
  cause : Nat
  applied : Bool
  swapped : Bool
  wheyFig : Nat
  wheyDirect : Nat
  wheyUs : Nat
  nextWhey : Nat × Nat × Nat
  peakUj : Nat
  swapMiss : Bool
  expertDrop : Nat
  acc : List AccWrite
  sig : List Signal
  sigDone : List Signal
  undo : List Undo
  skewEvt : Bool
  limEvt : Bool
  numEvt : List Nat
  staleEvt : Bool
  noData : List Nat
  cutOpened : Bool
  lastCommit : Bool
  tailOnly : Bool
  stopped : Bool
deriving DecidableEq, Repr

/-- An unplanned requester that waits on a vat (R220). -/
structure VatWait where
  key : Nat
  fid : Nat
  push : Bool
  bytes : Nat
  since : Nat
deriving DecidableEq, Repr

structure T0 where
  mem : Mem
  vreg : Mem
  mask : Mem
  konst : Tab
  cb : List (Nat × List Nat)
  vat : Tab
  slot : Tab
  slotSel : Tab
  sync : Tab
  hub : Tab
  armed : List (Nat × Nat)
  bankOff : List Nat
  bankNext : List Nat
  bankDefer : List Nat
  sticky : Tab
  poison : List Nat
  regPoison : List Nat
  vatWait : List VatWait
deriving DecidableEq, Repr

/-- A raised arbiter request on one channel (R285, R286): `key` is die × 24 + channel. -/
structure ArbReq where
  key : Nat
  req : Nat
  since : Nat
deriving DecidableEq, Repr

/-- A CXL.mem access of the host window that waits for a HOST grant (R413): a write with its data, or a read of a line. -/
structure CxlReq where
  write : Bool
  line : Nat
  data : BitVec 512
deriving DecidableEq, Repr

/-- Staged PARAM_WRITE values (R431). -/
structure Staged where
  ring : Nat
  tag : Nat
  handle : Nat
  scale : Bool
  off : Nat
  count : Nat
  src : Bytes
deriving DecidableEq, Repr

/-- A PARAM_READ in progress (R432): what it reads, where to, and the pieces not yet read: a granule with 4 × the
location that was current at its start + a quarter of it, or of a frozen working copy its die with 8 + the number of a 1 KiB block. -/
structure Reading where
  ring : Nat
  tag : Nat
  handle : Nat
  scale : Bool
  off : Nat
  count : Nat
  dst : Nat
  left : List (Nat × Nat)
deriving DecidableEq, Repr

/-- Partial terms of one shard's update in die SRAM (R150, R303): squared-gradient sums and touched counts by row and
column, whether the accumulators are formed, their row sum, Σu², touched elements, the clip factor and whether it is
formed, and the master term B by scale group. -/
structure Factored where
  op : Nat
  rowSum : List (Nat × Word32)
  rowCnt : Tab
  colSum : List (Nat × Word32)
  colCnt : Tab
  formed : Bool
  sum : Word32
  usq : Word32
  touched : Nat
  clipped : Bool
  clip : Word32
  bsum : List (Nat × Word32)
deriving DecidableEq, Repr

/-- The memory-update dies: T1, pairs with their tags and counts, touched, dirty and newly dirty bits, the sealed map of an open cut, spares begun in the measure,
the allocator, refresh, arbiter (with the slots each requester took in the phrase, and of the granule it is moving, as (requester, item, piece), the pieces moved), poison,
host accesses and window accesses that wait and update state (R265 to R311, R390, R393); the granules whose working copy
has been encoded, the parameters whose scales stand, the scales the host supplied (R143), parameters due a re-prune, and granules whose
dropped re-encode was one (R194). -/
structure T1 where
  mem : Mem
  pair : Mem
  tag : Tab
  cnt : Tab
  touch0 : Tab
  touch1 : Tab
  bank : Bool
  dirty : Tab
  fresh : Tab
  sealedMap : Tab
  started : List Nat
  part : List Factored
  free : List (Nat × Nat × Nat)
  mr4 : List Nat
  refNext : List Nat
  extraLog : List Nat
  req : List ArbReq
  grants : Tab
  rank : Tab
  settled : Tab
  flagged : List (Nat × Nat)
  moved : Tab
  wb : List Nat
  patrol : Tab
  reread : List Nat
  poison : List Nat
  persistBad : List Nat
  cxl : List CxlReq
  served : List (Nat × Nat × Nat)
  staged : List Staged
  reading : List Reading
  repair : List Nat
  lrMul : Word32
  encoded : List Nat
  scaled : List Nat
  supplied : List (Nat × Nat × Nat)
  pruneDue : List Nat
  pruneRedo : List Nat
deriving DecidableEq, Repr

/-- An accepted stream (R315): its descriptor, its command's ring and tag, bytes consumed. -/
structure Stream where
  index : Nat
  desc : BitVec 512
  ring : Nat
  tag : Nat
  off : Nat
deriving DecidableEq, Repr

/-- A clip, open or stored in a deck (R324): its number, stream and offset, the last PAT before it, bytes, first PTS, end and
pictures in 90 kHz ticks from it (each with its damage), coded luma samples of each, decode factor in twelfths and entropy rate in
Mbit/s (R330), picture format, interlaced content, its segments (tick, bytes and pictures before), audio present, format beyond Table 12.3. -/
structure Clip where
  num : Nat
  stream : Nat
  off : Nat
  psi : Nat
  bytes : Nat
  startPts : Nat
  dur : Nat
  luma : List Nat
  factor : Nat
  entropy : Nat
  fmt : Nat
  inter : Bool
  pics : List (Nat × Bool)
  segs : List (Nat × Nat × Nat)
  audio : Bool
  unsup : Bool
deriving DecidableEq, Repr

/-- The demultiplexer on the stream at the fill cursor (R316 to R319): sync, bytes not yet consumed, the selected program's
PIDs, whether its video is H.262, continuity by PID (PID, counter, the last packet was a duplicate), the video PES under reassembly with its stream
offset and damage, the last PAT, pictures of a raw stream, damage up to the next random-access point, and sections of tables under reassembly as
(PID, stream offset of their first packet, bytes). -/
structure Demux where
  sync : Bool
  buf : Bytes
  pmtPid : Option Nat
  pmtVer : Option Nat
  pcrPid : Option Nat
  videoPid : Option Nat
  h262 : Bool
  audioPid : Option Nat
  ttxPid : Option Nat
  cc : List (Nat × Nat × Bool)
  pes : Bytes
  pesOff : Nat
  pesBad : Bool
  lastPat : Nat
  raw : Nat
  spread : Bool
  psi : List (Nat × Nat × Bytes)
deriving DecidableEq, Repr

/-- A deck (R325 to R328): number, clips, order, bytes, the phrase of its exchange (all ones: none) and the positions
swapped. -/
structure Deck where
  num : Nat
  clips : List Clip
  perm : List Nat
  bytes : Nat
  exch : Nat
  exchN : Nat
deriving DecidableEq, Repr

/-- A micro-batch under packing or packed (R248, R341): its number in its measure and the measure, clips as (clip, first
row, rows), rows filled, the data position its draws left, and that its pack figure has copied it. -/
structure Pack where
  mb : Nat
  meas : Nat
  parts : List (Clip × Nat × Nat)
  rows : Nat
  pos : BitVec 1024
  taken : Bool
deriving DecidableEq, Repr

/-- The tensors of the last packed micro-batch (R339): its number, the offset table, the token index table, the codes of each
valid or damaged video row in order with their data scales, the audio rows with theirs and their offset table, the caption records and
the bytes of padding after them. Padding rows have no stated content and stand empty. Of a host-packed micro-batch, whose tensors
have no stated layout in the window: its offset there, the rows taken, and TRUNC (R250, R342). -/
structure Tables where
  mb : Nat
  offsets : List Nat
  index : List Nat
  video : List (List Nat)
  scales : List (List Word32)
  audioOffsets : List Nat
  audio : List (List Nat)
  audioScales : List (List Word32)
  captions : Bytes
  capPad : Nat
  host : Option (Nat × Nat)
  trunc : Bool
deriving DecidableEq, Repr

/-- The ingest engine. `from_` is the place before which nothing is cut and `recut` the recorded drawing deck while decks
are rebuilt (R348): clips, shuffle, number, exchange phrase and count; `refill` the filling deck's recorded exchange phrase and the
positions of it still to repeat. -/
structure Ingest where
  nStream : Nat
  nClip : Nat
  seed : Nat
  streams : List Stream
  demux : Demux
  clip : Option Clip
  draw : Deck
  fill : Deck
  drawn : Nat
  skip : Nat
  carry : Option (Clip × Nat)
  nextMb : Nat
  nextMeas : Nat
  open_ : Pack
  ready : List Pack
  hostMb : List (Nat × Nat × Nat × Nat)
  posMeas : BitVec 1024
  exchPending : Bool
  from_ : Nat × Nat
  psiFrom : Nat
  recut : Option (Nat × Nat × Nat × Nat × Nat)
  refill : Option (Nat × Nat)
  starved : Bool
  out : Option Tables
deriving DecidableEq, Repr

/-- One direction pair of a fabric or twin port (R353 to R361): link state, sequences, replay buffer, flits waiting for a
credit with the time-base reading at which they began to wait, credits and owed credits by class code, markers missed. -/
structure Port where
  up : Bool
  hello : Bool
  width : Nat
  fails : Nat
  txSeq : Nat
  rxSeq : Nat
  replay : List (Nat × Flit)
  out : List (Nat × Flit)
  discard : Bool
  nakDue : Bool
  since : Nat
  replays : Nat
  credits : List Nat
  owed : List Nat
  miss : Nat
  heard : Bool
  peerSerial : Nat
  retrained : Bool
  held : Bool
deriving DecidableEq, Repr

/-- A device at a position (R362, R364); serial 2^64: not heard. -/
structure Member where
  seat : Nat
  serial : Nat
  occupied : Bool
deriving DecidableEq, Repr

/-- A collective being combined (R373, R374): the work-graph operation it serves (all ones: the verdict figure), header
fields so far, poisoned granules, vote tallies by granule, by granule the count and the values, the vote flits taken, as (source, index), and those whose other half has not come, with their payload. -/
structure Coll where
  op : Nat
  hdr : VHeader
  poison : List Nat
  votes : List (Nat × List Int)
  data : List (Nat × Nat × List Word32)
  seen : List (Nat × Nat)
  half : List (Nat × Nat × Nat)
deriving DecidableEq, Repr

structure Fabric where
  ports : List Port
  feat : Nat
  lowSerial : Nat
  held : Nat
  leader : Bool
  formed : Bool
  members : List Member
  route : List Tab
  routeNext : List Tab
  sets : List (Nat × List Nat)
  rx : List (Nat × Nat)
  coll : List Coll
  marks : List (Nat × Marker)
  comb : Option Marker
  noLdr : Nat
  far : Nat
  skewEvt : Bool
  part : Bool
  joins : List Nat
  pendingJoin : Bool
  calibrating : Nat
  rxData : List (Nat × Nat × Flit)
  txData : List (Nat × Bytes)
  lost : List (Nat × Nat × Nat)
deriving DecidableEq, Repr

/-- A reader of an open cut (R395 to R398): 0 drain, 1 mirror, 2 shipment; granules left to read. -/
structure Reader where
  kind : Nat
  left : List Nat
  attached : Bool
deriving DecidableEq, Repr

/-- An open cut (R388 to R398): `ring` holds copied granules, `got` the bytes the drain has taken, by key × 4096; `blocks`
its granules; `opened` the time-base reading at its opening. -/
structure Cut where
  measure : Nat
  tag : Nat
  no : Nat
  exp : Nat
  clean : Nat
  dataPos : BitVec 1024
  cardGen : Nat
  wheels : List Nat
  readers : List Reader
  ring : List (Nat × Bytes)
  got : Mem
  blocks : Nat
  opened : Nat
deriving DecidableEq, Repr

/-- The cellar: snapshots, the open cut, cuts since LOAD_GRAPH or restore, the last cut's measure, spare blocks, bytes written
over the module's life, waiting SHIP commands (ring, tag, measure; 2^48 the next cut), mirrors and shipments that go on
from the cellar, completion reports (seat, measure), a due cut deferred by DROP, shards with a complete wheel, the
snapshot the next journal builds on, each shard's newly dirty granules between the last two cuts, the shards the build in force
journals (R392, R393), the ring size of the build in force, and the longest drain, in cycles, of the phrase and of the last phrase that had one. -/
structure Cellar where
  snaps : List Snap
  open_ : Option Cut
  cutNo : Nat
  lastCut : Option Nat
  spare : Nat
  readOnly : Bool
  wear : Nat
  ships : List (Nat × Nat × Nat)
  mirrors : List Nat
  shipping : List Nat
  reports : List (Nat × Nat)
  dueDeferred : Bool
  wheeled : List Nat
  base : Option Snap
  newDirty : List (Nat × Nat)
  journal : List Nat
  ringMib : Nat
  drainCyc : Nat
  drainOld : Nat
deriving DecidableEq, Repr

/-- The module. -/
structure State where
  pending : List Instr
  dev : DevState
  halt : Nat
  free : Nat
  pins : Pins
  fuses : Fuses
  flash : Flash
  boot : Boot
  regs : Tab
  clk : Clock
  host : HostIf
  err : Errors
  sec : Security
  plan : Plan
  run : Run
  t0 : T0
  t1 : T1
  ing : Ingest
  fab : Fabric
  cel : Cellar
deriving DecidableEq, Repr

/-- No command of the table stops the machine with a fault: errors of the module are effects on its state (R445). -/
inductive Fault where
  /-- Raised by no meaning: every happening the manual describes is a next state. Safe. -/
  | none
deriving DecidableEq, Repr

/-- Why a command has no meaning here. -/
inductive Refusal where
  /-- Raised by an arm of exec whose command is not yet modelled; safe. -/
  | notModelled (mnemonic : String)
deriving DecidableEq, Repr

def Ring.reset : Ring := ⟨0, 0, 0, 0, false, [], []⟩
def Port.reset : Port := ⟨false, false, 0, 0, 0, 0, [], [], false, false, 0, 0, [], [], 0, false, 0, false, false⟩
def Demux.reset : Demux := ⟨true, [], none, none, none, none, false, none, none, [], [], 0, false, 0, 0, false, []⟩
def Deck.reset : Deck := ⟨0, [], [], 0, 0xFFFFFFFF, 0⟩
def Pack.reset : Pack := ⟨0, 0, [], 0, 0#1024, false⟩
def Flags.reset : Flags := ⟨false, false, false, false, false, false, false, false⟩
def Fuses.reset : Fuses := ⟨1, 0, [0, 0, 0, 0], [0, 0, 0, 0], 0, 0, false, [0, 0, 0, 0], 0, 1⟩
def Pins.reset : Pins := ⟨true, true, true, false, true⟩
def Flash.reset : Flash := ⟨⟨[], false⟩, ⟨[], false⟩⟩
def Boot.reset (k : ResetKind) (t : BootTest) : Boot := ⟨k, 0, false, false, false, false, false, 0, t⟩
def Clock.reset : Clock := ⟨0, 0, 0, 0, 500, 19000, 0, 64, 0, none, 0, 0, false⟩
def HostIf.reset : HostIf := ⟨false, false, List.replicate 64 Ring.reset, 0, 0, 0, 0, 0, 0, [], 0, [], [], [], [], [], 0, 0, []⟩
def Errors.reset : Errors := ⟨List.replicate 256 none, [], [], none, []⟩
def Security.reset : Security := ⟨[0, 0, 0, 0, 0, 0, 0], 0, false, 0, none, 0, 0, []⟩
def Plan.reset : Plan :=
  ⟨none, false, false, none, none, 0, false, ⟨none, none, none, false⟩, ⟨none, none, none, false⟩, false, false,
   100, 0, 48, [], [], (0, 0, []), [], 0, 0, 0, 1000, 1000, [], []⟩
def Run.reset : Run :=
  ⟨[], [], [], [], Flags.reset, Flags.reset, none, none, false, none, 0, false, false, 0, 0, 0, (0, 0, 0), 0, false, 0, [], [], [], [], false,
   false, [], false, [], false, false, false, false⟩
def T0.reset : T0 := ⟨[], [], [], [], [], [], [], [], [], [], [], [], [], [], [], [], [], []⟩
def T1.reset : T1 :=
  { mem := [], pair := [], tag := [], cnt := [], touch0 := [], touch1 := [], bank := false, dirty := [], fresh := [], sealedMap := [], started := [], part := []
    free := [], mr4 := List.replicate 8 0, refNext := List.replicate 8 0, extraLog := [], req := [], grants := [], rank := (upTo 8).map fun mu => (mu, 0x1FB11)
    settled := [], flagged := [], moved := [], wb := [], patrol := [], reread := [], poison := [], persistBad := [], cxl := [], served := [], staged := [], reading := []
    repair := [], lrMul := 0x3F800000, encoded := [], scaled := [], supplied := [], pruneDue := [], pruneRedo := [] }
def Ingest.reset : Ingest :=
  ⟨0, 0, 0, [], Demux.reset, none, Deck.reset, Deck.reset, 0, 0, none, 0, 0, Pack.reset, [], [],
    BitVec.ofNat 1024 (0xFFFFFFFF * 2 ^ 480 + 0xFFFFFFFF * 2 ^ 704), false, (0, 0), 0, none, none, false, none⟩
def Fabric.reset (serial : Nat) : Fabric :=
  ⟨List.replicate 18 Port.reset, 0, serial, 0, false, false, [], [[], []], [[], []], [], [], [], [], none, 0, 0, false, false,
   [], false, 0, [], [], []⟩
def Cellar.reset : Cellar := ⟨[], none, 0, none, 1024, false, 0, [], [], [], [], false, [], none, [], [], 0, 0, 0⟩

/-- The machine right after PWRGD rose with straps 0 (log entries 2 to 5): BOOT, registers at their reset values. -/
def State.reset : State where
  pending := []
  dev := .boot
  halt := 0
  free := 0
  pins := Pins.reset
  fuses := Fuses.reset
  flash := Flash.reset
  boot := Boot.reset .power ⟨none, (0, 0, 0)⟩
  regs := tabOf (resetWords 0 1 0 0 0)
  clk := Clock.reset
  host := HostIf.reset
  err := Errors.reset
  sec := Security.reset
  plan := Plan.reset
  run := Run.reset
  t0 := T0.reset
  t1 := T1.reset
  ing := Ingest.reset
  fab := Fabric.reset Fuses.reset.serial
  cel := Cellar.reset

end Sys2Proof.Machine
end

