-- ==== Sys2Proof/Machine/Ops.lean ====
section
/-! DEFINITION. Operations every family shares: register fields of State, the populated dies of the SKU, the time stamp,
device states, status codes, host lines and records (R418, R434 to R437), vectors (R417), event records (R456 to R458). -/
namespace Sys2Proof.Machine

/-! ## Register fields -/

/-- The `n` 32-bit words of the register file from `off`, lowest first. -/
def rdWords (t : Tab) (off : Nat) : Nat → Nat
  | 0 => 0
  | n + 1 => tGet t off + 2 ^ 32 * rdWords t (off + 4) n

/-- Write `n` 32-bit words from `off`. -/
def wrWords (t : Tab) (off : Nat) : Nat → Nat → Tab
  | 0, _ => t
  | n + 1, v => wrWords (tSet t off (v % 2 ^ 32)) (off + 4) n (v / 2 ^ 32)

def Field.words (f : Field) : Nat := (f.lo + f.w + 31) / 32

def fget (t : Tab) (f : Field) : Nat := bits (rdWords t f.off f.words) f.lo f.w

def fset (t : Tab) (f : Field) (v : Nat) : Tab :=
  wrWords t f.off f.words (setBits (rdWords t f.off f.words) f.lo f.w v)

def State.get (s : State) (f : Field) : Nat := fget s.regs f
def State.set (s : State) (f : Field) (v : Nat) : State := { s with regs := fset s.regs f v }

/-- A counter counts `n`; counters saturate (R463). -/
def State.count (s : State) (f : Field) (n : Nat) : State := s.set f (satAdd f.w (s.get f) n)

/-! ## The SKU (R2, Table 1.1, R352) -/

def State.vg4 (s : State) : Bool := s.fuses.sku == 1
def State.nCd (s : State) : Nat := if s.vg4 then 4 else 2
def State.nMu (s : State) : Nat := if s.vg4 then 8 else 4
def State.nLd (s : State) : Nat := if s.vg4 then 2 else 1

/-- A die code of Table 16.3 whose die is populated. -/
def State.hasDie (s : State) (d : Nat) : Bool :=
  if d < 4 then decide (d < s.nCd) else if d < 12 then decide (d - 4 < s.nMu)
  else if d < 14 then decide (d - 12 < s.nLd) else d == 14

/-- Die codes of the populated dies, in ascending order. -/
def State.dies (s : State) : List Nat := (upTo 15).filter s.hasDie

/-- The module has fabric or twin port `n` (R352). -/
def State.hasPort (s : State) (n : Nat) : Bool := decide (n < 18) && (s.vg4 || decide (n < 8) || decide (16 ≤ n))

/-- The link die that carries port `n` (Table 13.1). -/
def State.portLd (s : State) (n : Nat) : Nat := if !s.vg4 then 0 else if n < 8 ∨ n = 16 then 0 else 1

/-! ## Time -/

/-- Cycles of one beat (R30). -/
def Clock.beatCycles (c : Clock) : Nat := c.lenUs * 1900

/-- The rind in cycles: the largest of 2 µs, 2 % of the beat and the request (R32). -/
def rindCycles (lenUs rindUs : Nat) : Nat := max (max 3800 (lenUs * 38)) (rindUs * 1900)

/-- First cycle of the rind (R32). -/
def Clock.rindStart (c : Clock) : Nat := c.beatCycles - c.rindCyc

/-- The seat number as LD_SEAT holds it. -/
def State.seat (s : State) : Nat := s.get F.LD_SEAT_SEAT

/-! ## Device states and status codes -/

/-- HUB_STATE.STATE encoding (Table 15.9). -/
def DevState.code : DevState → Nat
  | .off => 0 | .boot => 1 | .unconfigured => 2 | .negotiated => 3 | .running => 4 | .draining => 5 | .halted => 6

/-- Completion status codes (Table 15.5). -/
def St.ok : Nat := 0x00
def St.expertDenied : Nat := 0x01
def St.beatRange : Nat := 0x02
def St.graphBusy : Nat := 0x03
def St.graphFormat : Nat := 0x04
def St.graphSku : Nat := 0x05
def St.graphLimit : Nat := 0x06
def St.graphUnbounded : Nat := 0x07
def St.graphMask : Nat := 0x08
def St.graphAxes : Nat := 0x09
def St.graphFit : Nat := 0x0A
def St.planReject : Nat := 0x0B
def St.planRange : Nat := 0x0C
def St.dataNonfinite : Nat := 0x0D
def St.ingSeq : Nat := 0x0E
def St.ingFormat : Nat := 0x0F
def St.restoreMix : Nat := 0x10
def St.restoreNone : Nat := 0x11
def St.restoreFrame : Nat := 0x12
def St.restoreSku : Nat := 0x13
def St.restoreFeat : Nat := 0x14
def St.restoreSeats : Nat := 0x15
def St.featReject : Nat := 0x16
def St.noGraph : Nat := 0x17
def St.state : Nat := 0x18
def St.killed : Nat := 0x19
def St.badOpcode : Nat := 0x1A
def St.badArg : Nat := 0x1B
def St.hostErr : Nat := 0x1C
def St.graphMismatch : Nat := 0x1D
def St.readStale : Nat := 0x1E

/-- Event kinds (Table 16.6). -/
def Ev.lost : Nat := 0
def Ev.state : Nat := 1
def Ev.error : Nat := 2
def Ev.whey : Nat := 3
def Ev.verdict : Nat := 4
def Ev.loss : Nat := 5
def Ev.numeric : Nat := 6
def Ev.sync : Nat := 7
def Ev.arbStarve : Nat := 8
def Ev.stepSkew : Nat := 9
def Ev.replanLate : Nat := 10
def Ev.planNofit : Nat := 11
def Ev.powerOver : Nat := 12
def Ev.lscaleFloor : Nat := 13
def Ev.linkWidth : Nat := 14
def Ev.linkDown : Nat := 15
def Ev.miscable : Nat := 16
def Ev.joinRefused : Nat := 17
def Ev.partition : Nat := 18
def Ev.beatSkew : Nat := 19
def Ev.routeChanged : Nat := 20
def Ev.snapDone : Nat := 21
def Ev.snapDomain : Nat := 22
def Ev.snapAbandon : Nat := 23
def Ev.snapInterval : Nat := 24
def Ev.rngRealign : Nat := 25
def Ev.ringFault : Nat := 26
def Ev.ingStarve : Nat := 27
def Ev.regRefused : Nat := 28
def Ev.stepLimit : Nat := 29

/-! ## Features (Table 15.8) -/

/-- Bit `i` of the accepted feature word. -/
def State.feat (s : State) (i : Nat) : Bool := bit (rdWords s.regs F.HUB_FEAT_ACCEPT_k_BITS.off 8) i

/-- Rings are served (Table 15.9). -/
def State.ringsOn (s : State) : Bool := s.dev == .running || s.dev == .draining

/-! ## Rings and lines in host memory -/

def State.ring (s : State) (n : Nat) : Ring := s.host.rings.getD n Ring.reset
def State.setRing (s : State) (n : Nat) (r : Ring) : State :=
  { s with host := { s.host with rings := s.host.rings.set n r } }

def State.ringOn (s : State) (n : Nat) : Bool := s.get (F.HUB_CRING_n_CFG_EN.at 64 n) == 1
/-- Entries of ring `n` (R421). -/
def State.ringSize (s : State) (n : Nat) : Nat := 2 ^ s.get (F.HUB_CRING_n_CFG_LOG2.at 64 n)

/-- Write `n` little-endian bytes of `v` to host memory. -/
def State.hostPut (s : State) (addr n v : Nat) : State :=
  { s with host := { s.host with mem := mWrite s.host.mem addr (leBytes n v) } }

/-- The go-tracking entry of a line: rings 0 to 63, 64 the hub status line. -/
def State.goLine (s : State) (l : Nat) : GoLine :=
  (s.host.go.find? fun g => g.line == l).getD ⟨l, false, false, [], []⟩

/-- Replace a line's entry; a line with nothing outstanding has none. -/
def State.setGo (s : State) (g : GoLine) : State :=
  let rest := s.host.go.filter fun x => x.line != g.line
  { s with host := { s.host with go := if g.recWait || g.statWait then rest ++ [g] else rest } }

/-- A record (or a status change) of a line was written and waits for GO; `vec` is signalled after the status line that
covers it (R435). -/
def State.recorded (s : State) (line : Nat) (vec : Option Nat) : State :=
  let g := s.goLine line
  let vs := match vec with
    | some v => if g.vecs.contains v then g.vecs else g.vecs ++ [v]
    | none => g.vecs
  s.setGo { g with recWait := true, vecs := vs }

/-! ## Vectors -/

/-- Signal a vector: at once for vector 0 and with MOD_US 0, otherwise at most once per interval, later causes being
covered by one message at its end (R417). -/
def State.signal (s : State) (v : Nat) : State :=
  if v = 0 ∨ s.get F.HUB_IRQ_CFG_MOD_US = 0 then { s with host := { s.host with irqSent := s.host.irqSent ++ [v] } }
  else if s.host.irqHot.contains v then
    if s.host.irqCause.contains v then s else { s with host := { s.host with irqCause := s.host.irqCause ++ [v] } }
  else { s with host := { s.host with irqSent := s.host.irqSent ++ [v], irqHot := s.host.irqHot ++ [v] } }

def State.signalAll (s : State) (vs : List Nat) : State := vs.foldl State.signal s

/-! ## Events -/

def State.evqOn (s : State) : Bool := s.get F.HUB_EVQ_CFG_EN == 1
def State.evqSize (s : State) : Nat := 2 ^ s.get F.HUB_EVQ_CFG_LOG2

/-- The 32 bytes of an event record (Table 16.5). -/
def EvtRec.encode (e : EvtRec) : Nat :=
  e.kind + e.die * 2 ^ 8 + e.seat * 2 ^ 12 + (e.beat % 2 ^ 48) * 2 ^ 32 + (e.cyc % 2 ^ 32) * 2 ^ 80
    + (e.payload % 2 ^ 128) * 2 ^ 128

/-- Put a record into the event ring, and its vector behind the status line if HUB_EVT_IRQ has its kind's bit. -/
def State.putEvent (s : State) (e : EvtRec) : State :=
  let s1 := s.hostPut (s.get F.HUB_EVQ_BASE_ADDR + 32 * (s.host.evTail % s.evqSize)) 32 e.encode
  let s2 := { s1 with host := { s1.host with evTail := cntAdd s1.host.evTail 1 } }
  s2.recorded 64 (if bit (s.get F.HUB_EVT_IRQ_MASK) e.kind then some (s.get F.HUB_EVQ_CFG_VEC) else none)

/-- Records written and not consumed. -/
def State.evqUsed (s : State) : Nat := cntSub s.host.evTail s.host.evHead

/-- A record whose turn has come: discarded and counted when the ring is full; otherwise written, behind the EVT_LOST
record if any were lost (R436). -/
def State.writeEvent (s : State) (e : EvtRec) : State :=
  let s1 := if s.host.evLost = 0 ∨ s.evqUsed ≥ s.evqSize then s
    else
      let t := s.putEvent ⟨Ev.lost, 14, s.seat, s.clk.beat, s.clk.cyc, s.host.evLost⟩
      { t with host := { t.host with evLost := 0 } }
  if s1.evqUsed ≥ s1.evqSize then
    let t := s1.count F.HUB_EVT_LOST_COUNT 1
    { t with host := { t.host with evLost := satAdd 32 t.host.evLost 1 } }
  else s1.putEvent e

/-- A record stamped by die `die` now: written at once if its beat is open in the ring, else held for beat order (R458);
without an event ring there is none. -/
def State.emit (s : State) (kind die payload : Nat) : State :=
  if !s.evqOn then s
  else
    let e : EvtRec := ⟨kind, die, s.seat, s.clk.beat, s.clk.cyc, payload⟩
    if s.clk.beat ≤ s.host.evOpen then s.writeEvent e
    else { s with host := { s.host with evHeld := s.host.evHeld ++ [e] } }

/-- HD has every die's token up to beat `b` − 1: records of beats up to `b` may be written, held ones in their order
(R458). -/
def State.openEvents (s : State) (b : Nat) : State :=
  let now := s.host.evHeld.filter fun e => decide (e.beat ≤ b)
  let later := s.host.evHeld.filter fun e => !decide (e.beat ≤ b)
  now.foldl State.writeEvent { s with host := { s.host with evOpen := max b s.host.evOpen, evHeld := later } }

/-- Every pending record is written now (R451). -/
def State.flushEvents (s : State) : State :=
  s.host.evHeld.foldl State.writeEvent { s with host := { s.host with evOpen := max s.clk.beat s.host.evOpen, evHeld := [] } }

/-! ## Device state changes -/

/-- A window access outside RUNNING and DRAINING: a read answers poison, a write is discarded, each counts (R413). -/
def State.winEarly (s : State) (x : CxlReq) : State :=
  let s1 := s.count F.HUB_WIN_EARLY_COUNT 1
  { s1 with host := { s1.host with memRsp := if x.write then s1.host.memRsp else s1.host.memRsp ++ [(x.line, 0, true)] } }

/-- In a state in which the window is not served, the accesses that wait end so. -/
def State.flushWin (s : State) : State :=
  if s.ringsOn then s else s.t1.cxl.foldl State.winEarly { s with t1 := { s.t1 with cxl := [] } }

/-- Enter device state `d` with HALT cause `h`; the change writes a STATE event unless it leaves OFF or BOOT (R441), and
the hub status line shows it. -/
def State.enter (s : State) (d : DevState) (h : Nat) : State :=
  let ev := s.dev != .off && s.dev != .boot
  let p := s.dev.code + d.code * 8 + h * 64
  let s1 : State := { s with dev := d, halt := h }
  if ev then (s1.emit Ev.state 14 p).recorded 64 none else s1

/-! ## Completions -/

/-- The 16 bytes of a completion (Table 15.6). -/
def cplRecord (tag status ring result : Nat) : Nat :=
  tag + status * 2 ^ 32 + ring * 2 ^ 48 + (result % 2 ^ 64) * 2 ^ 64

/-- Complete a command of ring `n`: the record at slot COMPLETED, the count, the vector if IRQ asks for it (R434, R435);
every status other than OK counts in HUB_CMD_REFUSED (R428). -/
def State.complete (s : State) (n tag : Nat) (irq : Bool) (status result : Nat) : State :=
  let r := s.ring n
  let s1 := s.hostPut (s.get (F.HUB_CRING_n_CPL_ADDR.at 64 n) + 16 * (r.completed % s.ringSize n)) 16
    (cplRecord tag status n result)
  let s2 := s1.setRing n { r with completed := cntAdd r.completed 1 }
  let s3 := s2.recorded n (if irq then some (s.get (F.HUB_CRING_n_CFG_VEC.at 64 n)) else none)
  if status = St.ok then s3 else s3.count F.HUB_CMD_REFUSED_COUNT 1

/-! ## Descriptor fields (Table 15.3) -/

def dOpcode (d : BitVec 512) : Nat := bits d.toNat 0 8
def dFence (d : BitVec 512) : Bool := bit d.toNat 8
def dIrq (d : BitVec 512) : Bool := bit d.toNat 9
def dFlag (d : BitVec 512) : Bool := bit d.toNat 16
def dTag (d : BitVec 512) : Nat := bits d.toNat 32 32
/-- Operand word W1 to W7. -/
def dW (d : BitVec 512) (k : Nat) : Nat := bits d.toNat (64 * k) 64

/-- Complete the command with descriptor `d` of ring `n`. -/
def State.finish (s : State) (n : Nat) (d : BitVec 512) (status result : Nat) : State :=
  s.complete n (dTag d) (dIrq d) status result

/-- Complete and forget every started command of any ring that `p` selects, ring by ring. -/
def State.finishWhere (s : State) (p : ActiveCmd → Bool) (status : Nat) (result : ActiveCmd → Nat) : State :=
  (upTo 64).foldl (fun t n =>
    let r := t.ring n
    let gone := r.active.filter p
    let t1 := if gone.isEmpty then t else t.setRing n { r with active := r.active.filter fun c => !p c }
    gone.foldl (fun u c => u.finish n c.desc status (result c)) t1) s

/-- Put a started command of ring `n` among the uncompleted ones. -/
def State.activate (s : State) (n : Nat) (d : BitVec 512) (datum : Nat) : State :=
  let r := s.ring n
  s.setRing n { r with active := r.active ++ [⟨d, datum⟩] }

/-- A state command (R425). -/
def stateCmd (op : Nat) : Bool := op == 1 || op == 2 || op == 3 || op == 4 || op == 6

/-- A state command runs on some ring. -/
def State.stateBusy (s : State) : Bool := s.host.rings.any fun r => r.active.any fun c => stateCmd (dOpcode c.desc)

/-- The front command of ring `n` may start: its opcode passes `p`, FENCE waits for every earlier command of the ring, a
state command waits for the one that runs (R425). -/
def State.startable (s : State) (n : Nat) (p : Nat → Bool) : Option (BitVec 512) :=
  match (s.ring n).queue with
  | [] => none
  | c :: _ =>
    if s.ringsOn && decide (n < 64) && p (dOpcode c.desc) && !(dFence c.desc && !(s.ring n).active.isEmpty)
        && !(stateCmd (dOpcode c.desc) && s.stateBusy) then some c.desc else none

/-- The front command leaves the ring's fetched commands. -/
def State.popCmd (s : State) (n : Nat) : State :=
  s.setRing n { s.ring n with queue := (s.ring n).queue.tail }

/-- Start the front command of ring `n` if its opcode is `op` and it may start; otherwise nothing happens. Outside
`states` it completes with STATE, and one that needs a graph completes with NO_GRAPH while none is resident (R426). These come before the
EXPERT_DENIED of a feature not accepted, which is the command's own (R6; DESIGN CHOICE, log entry 76: no rule orders them). -/
def State.start (s : State) (n op : Nat) (draining needGraph : Bool) (f : BitVec 512 → State → State) : State :=
  match s.startable n (fun o => o == op) with
  | none => s
  | some d =>
    let t := s.popCmd n
    if !(s.dev == .running || (draining && s.dev == .draining)) then t.finish n d St.state 0
    else if needGraph && s.plan.graph.isNone then t.finish n d St.noGraph 0
    else f d t

/-! ## Free values -/

/-- Draw a free value and advance the counter (log entry 5). -/
def State.draw (s : State) : Nat × State := (Config.freeNat s.free, { s with free := s.free + 1 })

end Sys2Proof.Machine
end

