-- ==== Sys2Proof/Machine/Graph.lean ====
section
/-! DEFINITION. Fields of the resident work graph: header (Table 3.11), tensor entries (Table 3.2), operation entries
(Table 3.12), axis map and snapshot policy. -/
namespace Sys2Proof.Machine

/-! ## Header -/

def Graph.h (g : Graph) (lo w : Nat) : Nat := bits g.hdr.toNat lo w
def Graph.budget (g : Graph) : Nat := g.h 32 32

/-! ## Tensor entries -/

def tFld (t : BitVec 512) (lo w : Nat) : Nat := bits t.toNat lo w
def tFormat (t : BitVec 512) : Nat := tFld t 0 4
def tRank (t : BitVec 512) : Nat := tFld t 4 3
def tGran (t : BitVec 512) : Nat := tFld t 7 2
def tParam (t : BitVec 512) : Bool := bit t.toNat 9
def tFrozen (t : BitVec 512) : Bool := bit t.toNat 10
def tT2 (t : BitVec 512) : Bool := bit t.toNat 11
def tPin (t : BitVec 512) : Bool := bit t.toNat 12
def tSnap (t : BitVec 512) : Nat := tFld t 13 2
def tMask24 (t : BitVec 512) : Bool := bit t.toNat 15
def tCodebook (t : BitVec 512) : Nat := tFld t 16 12
/-- Extent `k`, outermost first. -/
def tDim (t : BitVec 512) (k : Nat) : Nat := tFld t (32 + 32 * k) 32
def tDims (t : BitVec 512) : List Nat := (upTo (tRank t)).map (tDim t)
def tElems (t : BitVec 512) : Nat := (tDims t).foldl (· * ·) 1
def tTrainable (t : BitVec 512) : Bool := tParam t && !tFrozen t

/-- The tensor as a matrix: the product of all extents but the last, and the last. -/
def tRows (t : BitVec 512) : Nat := ((tDims t).dropLast).foldl (· * ·) 1
def tCols (t : BitVec 512) : Nat := (tDims t).getLastD 1

/-- An entry of the tensor table. -/
def Graph.whole (g : Graph) (h : Nat) : Option (BitVec 512) := g.tensors[h]?

def Graph.place (g : Graph) (h : Nat) : Option Placement := g.places.find? fun p => p.handle == h

/-- A tensor entry with the extents of a shard of `r` rows and `c` columns. -/
def shardOf (t : BitVec 512) (r c : Nat) : BitVec 512 :=
  let dims := if tRank t ≤ 1 then c + 2 ^ 32 * 1 else r + 2 ^ 32 * c
  let ones := 2 ^ 64 + 2 ^ 96 + 2 ^ 128 + 2 ^ 160
  BitVec.ofNat 512 (setBits (setBits t.toNat 4 3 (if tRank t ≤ 1 then 1 else 2)) 32 192 (dims + ones))

/-- Tensor `h` as this seat holds it: of a parameter placed in part, the shard (R302, R531). -/
def Graph.tensor (g : Graph) (h : Nat) : Option (BitVec 512) := (g.whole h).map fun t => match (g.place h).bind (·.shard) with
  | some x => shardOf t x.2.1 x.2.2.2
  | none => t

/-! ## Operation entries -/

def oFld (o : BitVec 1024) (lo w : Nat) : Nat := bits o.toNat lo w
def oKind (o : BitVec 1024) : Nat := oFld o 0 8
def oRole (o : BitVec 1024) : Nat := oFld o 8 2
def oNin (o : BitVec 1024) : Nat := oFld o 16 3
def oNout (o : BitVec 1024) : Nat := oFld o 19 2
def oSplit (o : BitVec 1024) : Nat := oFld o 21 3
def oIn (o : BitVec 1024) (k : Nat) : Nat := oFld o (32 + 18 * k) 18
def oIns (o : BitVec 1024) : List Nat := (upTo (oNin o)).map (oIn o)
def oOut (o : BitVec 1024) (k : Nat) : Nat := oFld o (144 + 18 * k) 18
def oOuts (o : BitVec 1024) : List Nat := (upTo (oNout o)).map (oOut o)
def oBound (o : BitVec 1024) : Nat := oFld o 192 32
/-- Bits of the parameter block, counted from its own bit 0. -/
def oParam (o : BitVec 1024) (lo w : Nat) : Nat := oFld o (512 + lo) w

/-- Operation kinds (Table 3.12). -/
def K.matmul : Nat := 0
def K.attention : Nat := 1
def K.elementwise : Nat := 2
def K.norm : Nat := 3
def K.softmax : Nat := 4
def K.route : Nat := 5
def K.merge : Nat := 6
def K.sparseMatmul : Nat := 7
def K.raggedPack : Nat := 8
def K.loss : Nat := 9
def K.loop : Nat := 10
def K.collective : Nat := 11
def K.ingest : Nat := 12
def K.update : Nat := 13

def Graph.op (g : Graph) (i : Nat) : Option (BitVec 1024) := g.ops[i]?

/-- The graph has an update step (R446). -/
def Graph.hasUpdate (g : Graph) : Bool := g.ops.any fun o => oKind o == K.update

/-- The INGEST operation, if any. -/
def Graph.ingest (g : Graph) : Option (BitVec 1024) := g.ops.find? fun o => oKind o == K.ingest

/-- The UPDATE operation that names parameter `h`, with its index. -/
def Graph.updateOf (g : Graph) (h : Nat) : Option (BitVec 1024) := g.ops.find? fun o => oKind o == K.update && oIn o 0 == h

/-- The block axis of tensor `h` is its outer axis: operand B of its first MATMUL, as operand A or without one its inner axis
(R139; log entry 56). -/
def Graph.kOuter (g : Graph) (h : Nat) : Bool :=
  match g.ops.find? fun o => oKind o == K.matmul && (oIn o 0 == h || oIn o 1 == h) with
  | some o => oIn o 0 != h
  | none => false

/-- Snapshot interval in measures, and twin mirroring (Table 3.1); no policy: 0 and off (R529). -/
def Graph.snapInterval (g : Graph) : Nat := match g.policy with
  | some p => bits p.toNat 0 16
  | none => 0
def Graph.snapMirror (g : Graph) : Bool := match g.policy with
  | some p => bit p.toNat 16
  | none => false

end Sys2Proof.Machine
end

