-- ==== Sys2Proof/Machine/Codebook.lean ====
section
/-! DEFINITION. Codebooks (R134 to R137), scales (R139, R141), the one encode algorithm (R142), group scales (R143, R144)
and decoding (R146). A codebook is its list of BF16 codes. -/
namespace Sys2Proof.Machine

/-- Table 5.2. -/
def defaultC4 : List Nat :=
  [0xBF80, 0xBF60, 0xBF40, 0xBF10, 0xBEE0, 0xBEA0, 0xBE40, 0xBD80, 0x0000, 0x3D80, 0x3E40, 0x3EA0, 0x3EE0, 0x3F10, 0x3F40, 0x3F80]

/-- The BF16 code of g(n) (R137). -/
def c8Mag (n : Nat) : Nat := Fmt.bf16.roundMag (16 + n % 16) ((n / 16 : Nat) - 11)

/-- Entry `i` of the default C8 table (Table 5.3). -/
def c8Entry (i : Nat) : Nat := if i = 128 then 0 else if 128 < i then c8Mag (i - 128) else 0x8000 + c8Mag (127 - i)
def defaultC8 : List Nat := (upTo 256).map c8Entry

/-- The table of a width: 4 bits for C4, 8 for C8 (R137). -/
def defaultCb (w : Nat) : List Nat := if w = 4 then defaultC4 else defaultC8

/-- BF16 entries of graph codebook `n` (R529): 256 of 16 bits. -/
def Graph.codebook (g : Graph) (n : Nat) : Option (List Nat) :=
  (g.codebooks[n]?).map fun c => (upTo 256).map fun i => bits c.toNat (16 * i) 16

/-- The codebook of a tensor: 0xFFF is its format's default (R137). -/
def Graph.tensorCb (g : Graph) (t : BitVec 512) : List Nat :=
  let w := if tFormat t = 5 then 4 else 8
  if tCodebook t = 0xFFF then defaultCb w else ((g.codebook (tCodebook t)).getD (defaultCb w)).take (2 ^ w)

/-! ## Validity (R134) -/

def rising (l : List FVal) : Bool := ((l.zip l.tail).all fun p => p.1.lt p.2)

/-- The E5M4 form of an entry (R135). -/
def e5m4Form (c : Nat) : FVal := (Fmt.e5m4.value (Fmt.e5m4.narrow (bf16 c)).1)

/-- R134 over the entries a tensor reads. -/
def cbValid (l : List Nat) : Bool :=
  rising (l.map bf16) && (l.filter (· == 0)).length == 1 && !l.contains 0x8000 && l.all (fun c => (bf16 c).isFin)
    && l.all (fun c => (e5m4Form c).isFin) && rising (l.map e5m4Form)

/-! ## Scales -/

def scaleMin : Word32 := 0x21800000#32
def scaleMax : Word32 := 0x5D800000#32

/-- R141: the scale in range, and whether it was replaced; a NaN keeps the previous value. -/
def clampScale (prev : Word32) (x : Word32) : Word32 × Bool :=
  if (f32 x).isNan then (prev, true)
  else if (f32 x).lt (f32 scaleMin) then (scaleMin, true)
  else if (f32 scaleMax).lt (f32 x) then (scaleMax, true)
  else (x, false)

/-- The largest of a list of finite values by magnitude. -/
def maxAbs (l : List FVal) : FVal := l.foldl (fun a v => if a.lt v.abs then v.abs else a) .zero

/-- The three cases of R143 over a group's finite values; a group without one takes 1.0 (R144). -/
def groupScale (cb : List Nat) (l : List FVal) : Word32 :=
  let fin := l.filter FVal.isFin
  match fin with
  | [] => fOne
  | v :: rest =>
    if rest.any (fun u => !u.eq v) then
      rne32 ((maxAbs fin).div (maxAbs [bf16 (cb.headD 0), bf16 (cb.getLastD 0)]))
    else if v.isZero then fOne
    else rne32 v.abs

/-- The clamped scale of a group (R141). -/
def groupScaleClamped (cb : List Nat) (l : List FVal) : Word32 × Bool := clampScale fOne (groupScale cb l)

/-! ## Encoding (R142) -/

/-- Index of the +0 entry. -/
def zeroIndex (cb : List Nat) : Nat := cb.findIdx (· == 0)

/-- y of R142. -/
def encodeY (x s : Word32) : FVal := f32 (fMul x (fDiv fOne s))

/-- The nearest index, ties to the even one; `y` lies within the entries. -/
def nearest (cb : List Nat) (y : FVal) : Nat :=
  let i := (cb.takeWhile fun c => (bf16 c).lt y).length
  if i = 0 then 0
  else
    let up := (bf16 (cb.getD i 0)).add y.neg
    let dn := y.add (bf16 (cb.getD (i - 1) 0)).neg
    if up.lt dn then i else if dn.lt up then i - 1 else if i % 2 = 0 then i else i - 1

/-- encode(x, s, e, n, data_scaled). -/
def encode1 (x s : Word32) (cb : List Nat) (dataScaled : Bool) : Nat × Note :=
  if fNonfin x then (zeroIndex cb, ⟨false, true⟩)
  else
    let y := encodeY x s
    if (bf16 (cb.getLastD 0)).lt y then (cb.length - 1, ⟨!dataScaled, false⟩)
    else if y.lt (bf16 (cb.headD 0)) then (0, ⟨!dataScaled, false⟩)
    else (nearest cb y, ⟨false, false⟩)

/-- The vector engine's decode: rne32(e × s) (R146). -/
def decode1 (code : Nat) (s : Word32) (cb : List Nat) : Word32 := rne32 ((bf16 (cb.getD code 0)).mul (f32 s))

/-- Group index of element (i, j) of a matrix with `cols` columns: per tensor, per outer row, per outer column, per K-block
of 32 on the inner axis or (`outer`) on the outer axis (R139, Table 5.4). -/
def groupOf (gran : Nat) (outer : Bool) (cols i j : Nat) : Nat :=
  match gran with
  | 0 => 0
  | 1 => i
  | 2 => j
  | _ => if outer then i / 32 * cols + j else i * ceilDiv cols 32 + j / 32

/-- Number of scale groups of an r × c tensor. -/
def groupCount (gran : Nat) (outer : Bool) (r c : Nat) : Nat :=
  match gran with
  | 0 => 1
  | 1 => r
  | 2 => c
  | _ => if outer then ceilDiv r 32 * c else r * ceilDiv c 32

end Sys2Proof.Machine
end

