-- ==== Sys2Proof/Machine/Card.lean ====
section
/-! DEFINITION. Dance cards: header fields (Table 18.1), control entries (Table 18.3), and the figures a card places in a
beat, with the repetition rule of R492 applied. -/
namespace Sys2Proof.Machine

/-! ## Header (Table 18.1) -/

def Card.h (c : Card) (lo w : Nat) : Nat := bits c.hdr.toNat lo w
def Card.measBeats (c : Card) : Nat := c.h 32 16
def Card.lenUs (c : Card) : Nat := c.h 48 15
def Card.rindUs (c : Card) : Nat := c.h 64 15
def Card.phrase (c : Card) : Nat := c.h 79 13
def Card.sliceCount (c : Card) : Nat := c.h 96 16
def Card.cap (c : Card) : Nat := c.h 112 7
def Card.rate (c : Card) : Nat := c.h 119 2

/-! ## Entries (Table 18.3) -/

def ent (e : BitVec 128) (lo w : Nat) : Nat := bits e.toNat lo w
def entType (e : BitVec 128) : Nat := ent e 0 8

/-- Figure classes (Table 2.3). -/
def Cls.chain : Nat := 0
def Cls.mandatory : Nat := 1
def Cls.prologue : Nat := 2
def Cls.tail : Nat := 3

/-- A figure as placed in one beat. -/
structure Fig where
  fid : Nat
  cls : Nat
  cond : Nat
  mb : Nat
  start : Nat
  dur : Nat
  pos : Nat
  die : Nat
  group : Nat
  queue : Nat
  deps : List Nat
  waits : List (BitVec 128)
  body : Body
  signals : List (BitVec 128)
deriving DecidableEq, Repr

def Section.pos (x : Section) : Nat := ent x.beat 8 16
/-- RPT; 0 means 1. -/
def Section.rpt (x : Section) : Nat := max 1 (ent x.beat 24 16)
def Section.mbStep (x : Section) : Bool := bit x.beat.toNat 40

def FigProg.fid (f : FigProg) : Nat := ent f.fig 32 32

/-- An identifier `r` repetitions on: bits [31:4] grow by r (R492). -/
def fidAdd (fid r : Nat) : Nat := fid + 16 * r

/-- The producers of one DEP entry in repetition `r` (R491, R492). -/
def depFids (e : BitVec 128) (r : Nat) : List Nat :=
  (upTo (ent e 8 2)).map fun k =>
    let p := ent e (32 + 32 * k) 32
    if bit e.toNat (10 + k) then fidAdd p r else p

/-- Figure program `f` of queue `q`, section `x`, in repetition `r` (R492). -/
def FigProg.inst (f : FigProg) (sl : Slice) (q : Queue) (x : Section) (r : Nat) : Fig :=
  { fid := fidAdd f.fid r
    cls := ent f.fig 8 3
    cond := ent f.fig 11 2
    mb := if x.mbStep && ent f.fig 16 16 != 0xFFFF then ent f.fig 16 16 + r else ent f.fig 16 16
    start := ent f.fig 64 32
    dur := ent f.fig 96 32
    pos := x.pos + r
    die := sl.die
    group := sl.group
    queue := q.num
    deps := f.deps.flatMap (depFids · r)
    waits := f.waits
    body := f.body
    signals := f.signals }

/-- The figures of a card in beat position `pos`, slice by slice, queue by queue. -/
def Card.figsAt (c : Card) (pos : Nat) : List Fig :=
  c.slices.flatMap fun sl => sl.queues.flatMap fun q => q.secs.flatMap fun x =>
    if x.pos ≤ pos ∧ pos < x.pos + x.rpt then x.figs.map fun f => f.inst sl q x (pos - x.pos) else []

/-- The figure with identifier `fid` (R488). -/
def Card.fig (c : Card) (fid : Nat) : Option Fig :=
  c.slices.findSome? fun sl => if sl.die != fid % 16 then none else
    sl.queues.findSome? fun q => q.secs.findSome? fun x => x.figs.findSome? fun f =>
      let base := f.fid / 16
      let n := fid / 16
      if base ≤ n ∧ n - base < x.rpt then some (f.inst sl q x (n - base)) else none

/-- The repetitions in which a DEP entry names `fid` among its producers. -/
def depReps (e : BitVec 128) (fid rpt : Nat) : List Nat :=
  (upTo (ent e 8 2)).flatMap fun k =>
    let p := ent e (32 + 32 * k) 32
    if bit e.toNat (10 + k) then
      if p % 16 = fid % 16 ∧ p / 16 ≤ fid / 16 ∧ fid / 16 - p / 16 < rpt then [fid / 16 - p / 16] else []
    else if p = fid then upTo rpt else []

/-- The figures of the measure that consume an output of `fid` directly (R44). -/
def Card.consumers (c : Card) (fid : Nat) : List Fig :=
  c.slices.flatMap fun sl => sl.queues.flatMap fun q => q.secs.flatMap fun x => x.figs.flatMap fun f =>
    (f.deps.flatMap fun e => depReps e fid x.rpt).map fun r => f.inst sl q x r

/-! ## TPL bodies (Table 18.13) -/

def tplPart (d : BitVec 128) : Nat := ent d 8 8
def tplOp (d : BitVec 128) : Nat := ent d 32 32
def tplFirst (d : BitVec 128) : Nat := ent d 64 32
def tplCount (d : BitVec 128) : Nat := ent d 96 32
def tplNoOp : Nat := 0xFFFFFFFF

/-- The verdict figure: TPL part 8 on a link die, belonging to no operation (R53). -/
def Fig.isVerdict (f : Fig) : Bool := match f.body with
  | .tpl d => (f.die == 12 || f.die == 13) && tplOp d == tplNoOp && tplPart d == 8
  | _ => false

/-- Beat positions of the verdict figure's sections. -/
def Card.verdictPos (c : Card) : Option Nat :=
  c.slices.findSome? fun sl => sl.queues.findSome? fun q => q.secs.findSome? fun x =>
    if x.figs.any (fun f => (f.inst sl q x 0).isVerdict) then some x.pos else none

/-- Banks the card has off in beat `pos` (R222). -/
def Card.offAt (c : Card) (pos : Nat) : List Nat := (c.side.banks.filter fun b => b.1 == pos).map (·.2)

/-- The control entries of the sequencer queues of cluster (die, group) that apply in beat `pos`, with their sections'
repetition ignored: entries hold in each repetition (R494). -/
def Card.seqAt (c : Card) (pos : Nat) : List (Nat × Nat × BitVec 128) :=
  c.slices.flatMap fun sl => sl.queues.flatMap fun q => q.secs.flatMap fun x =>
    if x.pos ≤ pos ∧ pos < x.pos + x.rpt then x.seq.map fun e => (sl.die, sl.group, e) else []

/-- Every sequencer entry of the card. -/
def Card.seqAll (c : Card) : List (Nat × Nat × BitVec 128) :=
  c.slices.flatMap fun sl => sl.queues.flatMap fun q => q.secs.flatMap fun x =>
    x.seq.map fun e => (sl.die, sl.group, e)

/-- Micro-batches of the chain figures of the card, each once. -/
def Card.mbs (c : Card) : List Nat :=
  (c.slices.flatMap fun sl => sl.queues.flatMap fun q => q.secs.flatMap fun x => x.figs.flatMap fun f =>
    if ent f.fig 8 3 = Cls.chain ∧ ent f.fig 16 16 ≠ 0xFFFF then
      (if x.mbStep then (upTo x.rpt).map (ent f.fig 16 16 + ·) else [ent f.fig 16 16]) else []).eraseDups

/-- The chain figures of micro-batch `m`, by identifier and beat position. -/
def Card.chainOf (c : Card) (m : Nat) : List Fig :=
  (c.slices.flatMap fun sl => sl.queues.flatMap fun q => q.secs.flatMap fun x => x.figs.flatMap fun f =>
    (upTo x.rpt).map fun r => f.inst sl q x r).filter fun g => g.cls == Cls.chain && g.mb == m

end Sys2Proof.Machine
end

