-- ==== Sys2Proof/Machine/Tiers.lean ====
section
/-! DEFINITION. Addresses of the two tiers: scratchpad slices (R16, R209), vector and mask registers (R156), T1 bytes and lines (R265), pages
under migration (R73); and what a running figure has written, so that a stopped one leaves only what it wrote so far (R109, R157). -/
namespace Sys2Proof.Machine

/-! ## Slices -/

/-- Cluster number over all dies. -/
def clKey (die cl : Nat) : Nat := die * 1024 + cl
/-- Key of a byte of a slice: a 21-bit offset (R209). An access past its end goes on at its start: no access reaches another cluster's slice
(R16; DESIGN CHOICE, log entry 71: no rule says what lies past the end). -/
def t0Addr (die cl off : Nat) : Nat := clKey die cl * 2 ^ 21 + off % 2 ^ 21
/-- Key of byte `b` of vector register `r` (R156); bytes past its 16 KiB lie in the next register, after V15 in V0 (R167; log entry 71). -/
def vrAddr (die cl r b : Nat) : Nat := (clKey die cl * 16 + (r + b / 16384) % 16) * 16384 + b % 16384

/-- `n` bytes of a slice from offset `off`. -/
def t0Get (m : Mem) (die cl off n : Nat) : Bytes := (upTo n).map fun i => mGet m (t0Addr die cl (off + i))
/-- Write bytes into a slice from offset `off`. -/
def t0Put (m : Mem) (die cl : Nat) : Nat → Bytes → Mem
  | _, [] => m
  | off, b :: bs => t0Put (mSet m (t0Addr die cl off) b) die cl (off + 1) bs

/-- `n` bytes of the vector registers from byte `b` of register `r`, and writing them. -/
def vrGet (m : Mem) (die cl r b n : Nat) : Bytes := (upTo n).map fun i => mGet m (vrAddr die cl r (b + i))
def vrPut (m : Mem) (die cl r : Nat) : Nat → Bytes → Mem
  | _, [] => m
  | o, b :: bs => vrPut (mSet m (vrAddr die cl r o) b) die cl r (o + 1) bs

/-! ## T1 -/

/-- A T1 byte: die and offset (R265). -/
def t1Addr (mu off : Nat) : Nat := mu * 2 ^ 38 + off % 2 ^ 38
/-- T1 line key: a line of a die's space, or from 2^32 on one of a pair. -/
def t1Line (mu line : Nat) : Nat := mu * 2 ^ 40 + line
/-- Channel of a T1 byte offset: 1 KiB blocks rotate through the 24 channels (R265). -/
def flatCh (off : Nat) : Nat := off / 1024 % 24
/-- Channel of a checked line. -/
def lineCh (line : Nat) : Nat := (if line < 2 ^ 32 then line else line - 2 ^ 32) / 16 % 24

/-- Part of a write of bytes at `off` of die `mu` that a started migration carries on: behind its cursor (R73). -/
def Migr.forward (m : Migr) (mu off : Nat) (b : Bytes) : List (Nat × Byte) :=
  if m.mu ≠ mu then [] else (b.zipIdx.filter fun x =>
    decide (m.fromOff ≤ off + x.2) && decide (off + x.2 < m.fromOff + min (m.cursor * 4096) (2 ^ 21))).map fun x => (m.toOff + (off + x.2 - m.fromOff), x.1)

/-- A writeback that waits for a line of `n` bytes at `off` of die `mu` is cancelled (R282). -/
def State.unqueue (s : State) (mu off n : Nat) : State :=
  { s with t1 := { s.t1 with wb := s.t1.wb.filter fun l => !(decide (t1Line mu (off / 64) ≤ l) && decide (l < t1Line mu ((off + n + 63) / 64))) } }

/-- Write a flat T1 range; a page whose copy has passed the place is written at both locations (R73), and a
writeback that waits for a line it touches is cancelled (R282). -/
def State.t1Write (s : State) (mu off : Nat) (b : Bytes) : State :=
  let m1 := mWrite s.t1.mem (t1Addr mu off) b
  let m2 := s.plan.migr.foldl (fun m g => (g.forward mu off b).foldl (fun m x => mSet m (t1Addr g.toMu x.1) x.2) m) m1
  State.unqueue { s with t1 := { s.t1 with mem := m2 } } mu off b.length
def State.t1Read (s : State) (mu off n : Nat) : Bytes := mRead s.t1.mem (t1Addr mu off) n

/-- Die and byte offset of line `line` of the host window: granules rotate through the dies; the window is the topmost part of a die's space,
the shuffle pool below it (R266; log entry 23). -/
def State.winAddr (s : State) (line : Nat) : Nat × Nat :=
  let g := line / 64
  let share := s.get F.HUB_WIN_CFG_SIZE_MIB * 2 ^ 20 / s.nMu
  (g % s.nMu, 186 * 2 ^ 30 - share + g / s.nMu * 4096 + line % 64 * 64)
/-- `n` bytes of the host window from byte `off`. -/
def State.winRead (s : State) (off n : Nat) : Bytes :=
  (upTo n).map fun i => let a := s.winAddr ((off + i) / 64); mGet s.t1.mem (t1Addr a.1 (a.2 + (off + i) % 64))

/-! ## What a running figure has written -/

/-- Note a write of figure `fid`: in `space`, at these keys, from what `old` held to what `new` holds. -/
def State.noteWrite (s : State) (fid space : Nat) (old new : Mem) (keys : List Nat) : State :=
  { s with run := { s.run with undo := s.run.undo ++ [⟨fid, space, keys.map fun a => (a, mGet old a, mGet new a)⟩] } }

/-- The figure has completed: what it wrote stands. -/
def State.keepWrites (s : State) (fid : Nat) : State := { s with run := { s.run with undo := s.run.undo.filter fun u => u.fid != fid } }

/-- Take one cell back, unless another has written it since. -/
def unwriteCell (m : Mem) (c : Nat × Byte × Byte) : Mem := if mGet m c.1 = c.2.2 then mSet m c.1 c.2.1 else m

def State.unwriteOne (s : State) (u : Undo) : State :=
  match u.space with
  | 0 => { s with t0 := { s.t0 with mem := u.cells.foldl unwriteCell s.t0.mem } }
  | 1 => { s with t0 := { s.t0 with vreg := u.cells.foldl unwriteCell s.t0.vreg } }
  | 2 => { s with t0 := { s.t0 with mask := u.cells.foldl unwriteCell s.t0.mask } }
  | _ => u.cells.foldl (fun t c => if mGet t.t1.mem c.1 = c.2.2 then t.t1Write (c.1 / 2 ^ 38) (c.1 % 2 ^ 38) [c.2.1] else t) s

/-- A figure is stopped: of its writes, in their order, those not yet made are never made (R109, R157). How many it has made by then no rule
says: a free value (log entry 64). -/
def State.unwrite (s : State) (fid : Nat) : State :=
  let mine := s.run.undo.filter fun u => u.fid == fid
  if mine.isEmpty then s
  else
    let n := Config.freeNat s.free % (mine.length + 1)
    ((mine.drop n).reverse.foldl State.unwriteOne { s with free := s.free + 1 }).keepWrites fid

end Sys2Proof.Machine
end

