-- ==== Sys2Proof/Machine/Caller.lean ====
section
/-! DEFINITION. The Callers: status of the figures of the running measure, drops and the cascade (R40 to R46), whey
accounting (R50, R51, R528), the seat's verdict flags (R52, R58). -/
namespace Sys2Proof.Machine

/-- The running card's figure with identifier `fid`. -/
def State.figure (s : State) (fid : Nat) : Option Fig := s.plan.card.bind fun c => c.fig fid

def FigStat.fresh (fid : Nat) : FigStat := ⟨fid, .waiting, false, false, false, 0, 0, 0, [], 0⟩

/-- Where figure `fid` stands; one without an entry waits. -/
def State.stat (s : State) (fid : Nat) : FigStat :=
  (s.run.figs.find? fun x => x.fid == fid).getD (FigStat.fresh fid)

def State.setStat (s : State) (x : FigStat) : State :=
  let l := if s.run.figs.any fun y => y.fid == x.fid then s.run.figs.map fun y => (if y.fid == x.fid then x else y)
    else s.run.figs ++ [x]
  { s with run := { s.run with figs := l } }

/-- The figures now running. -/
def State.running (s : State) : List FigStat := s.run.figs.filter fun x => x.phase == .running

/-- A measure runs (beats of no measure run tail figures only, R86, R442) and its graph has an update step (R446). -/
def State.measuring (s : State) : Bool := s.clk.pos.isSome && !s.run.tailOnly && s.plan.graph.any Graph.hasUpdate

/-! ## Seat flags -/

/-- Change the flags of the measure, or of the next one once the seal marker is sent (R58). -/
def State.flag (s : State) (f : Flags → Flags) : State :=
  if s.run.sealSent then { s with run := { s.run with nextFlags := f s.run.nextFlags } }
  else { s with run := { s.run with flags := f s.run.flags } }

def Flags.setMand (f : Flags) : Flags := { f with mandLate := true }
def Flags.setErr (f : Flags) : Flags := { f with errS := true }
def Flags.setNonfin (f : Flags) : Flags := { f with nonfin := true }
def Flags.setSkew (f : Flags) : Flags := { f with skew := true }
def Flags.setDepart (f : Flags) : Flags := { f with depart := true }
def Flags.setSealMiss (f : Flags) : Flags := { f with sealMiss := true }
def Flags.setVerdLate (f : Flags) : Flags := { f with verdLate := true }
def Flags.setEmpty (f : Flags) : Flags := { f with empty := true }

/-- The CAUSE field, one bit per cause in the order of Table 2.6. -/
def Flags.causes (f : Flags) : Nat :=
  (if f.mandLate then 1 else 0) + (if f.nonfin then 2 else 0) + (if f.skew then 4 else 0) + (if f.errS then 8 else 0)
    + (if f.empty then 16 else 0) + (if f.depart then 32 else 0) + (if f.sealMiss then 64 else 0)
    + (if f.verdLate then 128 else 0)

/-! ## WHEY records -/

/-- Fabric and twin ports of a link die (R17): LD0 carries F0 to F7 and T0, on VG2 T1 too; LD1 F8 to F15 and T1. -/
def State.portsOf (s : State) (die : Nat) : List Nat := (upTo 18).filter fun n => s.hasPort n && s.portLd n + 12 == die

/-- A link-die figure runs on the collective engine: the verdict figure, a stage of a reduction, a stage of a COLLECTIVE. -/
def State.onEngine (s : State) (d : BitVec 128) : Bool :=
  tplOp d == tplNoOp || decide (16 ≤ tplPart d) || (s.plan.graph.bind fun g => g.op (tplOp d)).any fun o => oKind o == K.collective

/-- The resource code of a figure (Table 2.10) and, where its TPL entry names one of several like units (a port, a decode core, a
post-processing unit, an audio engine) and no rule says which, some code of theirs (log entry 12). -/
def State.resource (s : State) (f : Fig) : Nat × State :=
  if f.die < 4 then (f.group * 8 + f.queue, s)
  else match f.body with
    | .tpl d =>
      if f.die < 12 then (if tplOp d = tplNoOp then tplFirst d * 4 % 24 else 0x100, s)
      else if f.die < 14 then
        if s.onEngine d then (0x100, s) else
          let ps := s.portsOf f.die
          (ps.getD (s.draw.1 % max 1 ps.length) 0, s.draw.2)
      else if tplOp d = tplNoOp then (0x60, s)
      else match tplPart d with
        | 0 => (0x59, s)
        | 1 => (s.draw.1 % 64, s.draw.2)
        | 2 => (0x40 + s.draw.1 % 16, s.draw.2)
        | 3 => (0x50 + s.draw.1 % 4, s.draw.2)
        | 4 => (0x58, s)
        | _ => (0x5A, s)
    | _ => (f.queue, s)

/-- Cause codes (Table 2.5). -/
def Cause.late : Nat := 0
def Cause.error : Nat := 1
def Cause.plan : Nat := 2
def Cause.bankLate : Nat := 3
def Cause.bound : Nat := 4

/-- How a figure is dropped: directly with a cause of Table 2.5, by cascade, or on a VOID flit (R46). -/
inductive DropKind where
  | direct (cause : Nat)
  | cascade
  | void
deriving DecidableEq, Repr

/-- The whey counter of Table 2.4 that counts a drop. -/
def DropKind.counter : DropKind → Field
  | .direct c => if c = Cause.late then F.CALLER_WHEY_LATE_COUNT else F.CALLER_WHEY_FAULT_COUNT
  | .cascade => F.CALLER_WHEY_CASCADE_COUNT
  | .void => F.CALLER_WHEY_VOID_COUNT

/-- The WHEY record of a direct drop: at most 16 per Caller and beat, beyond that counted (R50). -/
def State.wheyEvent (s : State) (f : Fig) (cause : Nat) : State :=
  let n := tGet s.run.wheyLog f.die
  if n < 16 then
    let r := s.resource f
    let s1 := r.2.emit Ev.whey f.die
      (f.fid + r.1 * 2 ^ 32 + f.cls * 2 ^ 48 + f.mb * 2 ^ 51 + cause * 2 ^ 67)
    { s1 with run := { s1.run with wheyLog := tSet s1.run.wheyLog f.die (n + 1) } }
  else s.count (F.CALLER_WHEY_LOG_LOST_COUNT.caller f.die) 1

/-! ## Drops -/

/-- The granules of working copy a dropped prologue figure leaves invalid wait for REPAIR (R37). -/
def State.repairOf (s : State) (f : Fig) : List Nat :=
  match f.body, s.plan.graph with
  | .tpl d, some g =>
    match (g.op (tplOp d)).bind fun o => g.place (oIn o 0) with
    | some p => (upTo (tplCount d)).map fun i => p.mu * 2 ^ 26 + p.gran + tplFirst d + i
    | none => []
  | _, _ => []

/-- Those of them whose re-encode would have pruned again do so when they are redone (R194). -/
def State.redoOf (s : State) (f : Fig) : List Nat :=
  match f.body, s.plan.graph with
  | .tpl d, some g => if (g.op (tplOp d)).any fun o => s.t1.pruneDue.contains (oIn o 0) then s.repairOf f else []
  | _, _ => []

/-- A chain drop drops its micro-batch: counted once (R45). -/
def State.dropMb (s : State) (f : Fig) : State :=
  if f.cls != Cls.chain || f.mb == 0xFFFF || s.run.mbDrop.contains f.mb then s
  else
    let s1 := s.count (F.CALLER_WHEY_MB_COUNT.caller f.die) 1
    { s1 with run := { s1.run with mbDrop := s1.run.mbDrop ++ [f.mb], mbDone := s1.run.mbDone.filter (· != f.mb) } }

/-- What a drop of a figure's class costs (Table 2.3, R64). -/
def State.dropCost (s : State) (f : Fig) : State :=
  let s1 := s.dropMb f
  let s2 := if f.cls = Cls.mandatory ∨ (s.get (F.CALLER_BEAT_CFG_STRICT.caller 14) = 1 ∧ f.cls ≠ Cls.tail)
    then s1.flag Flags.setMand else s1
  if f.cls = Cls.prologue then { s2 with t1 := { s2.t1 with repair := s2.t1.repair ++ s2.repairOf f, pruneRedo := s2.t1.pruneRedo ++ s2.redoOf f } } else s2

/-- A drop in the measure's whey, or in the next one's once the seal marker is sent (R58). -/
def State.chargeWhey (s : State) (direct dur : Nat) : State :=
  if s.run.sealSent then
    let n := s.run.nextWhey
    { s with run := { s.run with nextWhey := (satAdd 32 n.1 1, satAdd 16 n.2.1 direct, n.2.2 + dur) } }
  else { s with run := { s.run with
    wheyFig := satAdd 32 s.run.wheyFig 1
    wheyDirect := satAdd 16 s.run.wheyDirect direct
    wheyUs := s.run.wheyUs + dur } }

/-- A figure is stopped: of its accumulate tiles that have not arrived, those on their way stay so (R43, R275) and the others are discarded
with its accumulators (R109). How many are on their way no rule says: a free value (log entry 64). -/
def State.unsend (s : State) (fid : Nat) : State :=
  let mine := s.run.acc.filter fun a => a.fid == fid
  if mine.isEmpty then s
  else
    let n := Config.freeNat s.free % (mine.length + 1)
    { s with free := s.free + 1, run := { s.run with acc := s.run.acc.filter fun a => !(mine.drop n).contains a } }

/-- Drop one figure: yield bit clear, stopped, counted at its Caller and in the measure, logged if direct (R41, R42, R44,
R50, R61); signals its body has not issued yet are not issued (R228), writes not yet made are not made (R109, R157) and accumulate tiles not yet sent are
not sent (R43, R109); a vat access of its that waits ends (R220); the planned duration counts as whey time (Table 3.10). -/
def State.dropOne (s : State) (f : Fig) (k : DropKind) : State :=
  let s0 : State := { s with run := { s.run with
    sig := s.run.sig.filter fun g => !(g.owner == some f.fid && decide (s.clk.cyc < g.sent)) } }
  let s1 := (State.unsend (State.unwrite { s0 with t0 := { s0.t0 with vatWait := s0.t0.vatWait.filter fun w => w.fid != f.fid } } f.fid) f.fid).setStat { s.stat f.fid with phase := .dropped, yield := false, pos := f.pos }
  let s2 := s1.count (k.counter.caller f.die) 1
  let direct := match k with | .direct _ => true | _ => false
  let s3 := s2.chargeWhey (if direct then 1 else 0) f.dur
  let s4 := match k with | .direct c => s3.wheyEvent f c | _ => s3
  s4.dropCost f

/-- The figures a drop stops or invalidates at once: consumers that have started or completed (R44), and later chain
figures of its micro-batch that run (R45). -/
def State.victims (s : State) (f : Fig) : List Fig :=
  match s.plan.card with
  | none => []
  | some c =>
    let used := (c.consumers f.fid).filter fun g =>
      (s.stat g.fid).phase == .running || (s.stat g.fid).phase == .complete
    let mates := if f.cls != Cls.chain || f.mb == 0xFFFF then [] else
      (s.running.filterMap fun x => c.fig x.fid).filter fun g => g.cls == Cls.chain && g.mb == f.mb && g.fid != f.fid
        && (decide (f.pos < g.pos) || (g.pos == f.pos && decide (f.start < g.start)))
    used ++ mates

/-- Drop a figure and, `n` levels deep, everything its drop stops at once. A figure dropped already stays dropped. -/
def State.dropFig : Nat → State → Fig → DropKind → State
  | 0, s, f, k => if (s.stat f.fid).phase == .dropped then s else s.dropOne f k
  | n + 1, s, f, k =>
    if (s.stat f.fid).phase == .dropped then s
    else (s.victims f).foldl (fun t g => State.dropFig n t g .cascade) (s.dropOne f k)

/-- Drop a figure and all its drop stops: each level drops a figure that has an entry, so the entries bound the depth. -/
def State.drop (s : State) (f : Fig) (k : DropKind) : State := s.dropFig (s.run.figs.length + 1) f k

/-- `f` is a chain figure planned later than a dropped one of its micro-batch (R45); the partner of equal START is not later (R106). -/
def State.mbCut (s : State) (f : Fig) : Bool :=
  f.cls == Cls.chain && f.mb != 0xFFFF && s.run.mbDrop.contains f.mb && s.run.figs.any fun x => x.phase == .dropped &&
    (s.figure x.fid).any fun g => g.cls == Cls.chain && g.mb == f.mb && (decide (g.pos < f.pos) || (g.pos == f.pos && decide (g.start < f.start)))

/-- A producer of `f` was dropped, or `f` is a later chain figure of a dropped micro-batch: `f` is dropped by cascade
(R44, R45). -/
def State.cascaded (s : State) (f : Fig) : Bool :=
  f.deps.any (fun p => (s.stat p).phase == .dropped) || s.mbCut f

/-- The COND of a figure is met in this measure (Table 18.3). -/
def State.condMet (s : State) (f : Fig) : Bool :=
  match f.cond with
  | 0 => true
  | 1 => s.run.lastCommit
  | 2 => s.run.cutOpened
  | _ => false

end Sys2Proof.Machine
end

