-- ==== Sys2Proof/Machine/Errors.lean ====
section
/-! DEFINITION. Errors: charge and class effects at detection (R445, R446), the log (R448 to R450), the handler
(R451, R452) and its registers (R464). -/
namespace Sys2Proof.Machine

/-- Error codes (Table 16.2). -/
def Er.spCorr : Nat := 0x0101
def Er.t1Corr : Nat := 0x0102
def Er.indexRange : Nat := 0x0103
def Er.extraRefresh : Nat := 0x0104
def Er.syncSat : Nat := 0x0105
def Er.staleFlit : Nat := 0x0106
def Er.offBank : Nat := 0x0107
def Er.hostMbTrunc : Nat := 0x0108
def Er.unsupported : Nat := 0x0109
def Er.damagedPic : Nat := 0x010A
def Er.cellarBlock : Nat := 0x010B
def Er.spFatal : Nat := 0x0201
def Er.t1Fatal : Nat := 0x0202
def Er.hostRead : Nat := 0x0203
def Er.poisonFlit : Nat := 0x0204
def Er.t24Meta : Nat := 0x0301
def Er.nonfinUpdate : Nat := 0x0302
def Er.poisonUpdate : Nat := 0x0303
def Er.stepLimit : Nat := 0x0304
def Er.d2dLost : Nat := 0x0401
def Er.overTdp : Nat := 0x0402
def Er.verdictMismatch : Nat := 0x0403
def Er.scrubVerify : Nat := 0x0404
def Er.dramTemp : Nat := 0x0405
def Er.pairTag : Nat := 0x0406
def Er.beatOffset : Nat := 0x0407
def Er.hostLink : Nat := 0x0408
def Er.persistPoison : Nat := 0x0409
def Er.selfTest : Nat := 0x040A

/-- Class 0 to 3 (C, D, S, F) of a code: its upper byte less 1 (R447). -/
def errClass (code : Nat) : Nat := code / 256 - 1

/-- The figure runs on the resource a source names (R446, Table 16.3). -/
def Fig.onSource (f : Fig) (src : Source) : Bool :=
  f.die == src.die && match src.unit with
    | 0 => f.group == src.index && decide (f.queue ≤ 4)
    | 1 => f.group == src.index && (f.queue == 5 || f.queue == 6)
    | 2 => true
    | 5 => true
    | 7 => true
    | 8 => match f.body with | .tpl d => tplOp d == tplNoOp | _ => false
    | 9 => true
    | 4 => true
    | _ => false

/-- `x` started before `y`, or with it under a lower identifier. -/
def FigStat.before (x y : FigStat) : Bool :=
  decide (x.pos < y.pos) || (x.pos == y.pos && (decide (x.start < y.start) || (x.start == y.start && decide (x.fid < y.fid))))

/-- The figure an error without an access identifier is charged to (R446). -/
def State.chargee (s : State) (src : Source) : Option Nat :=
  let cand := s.running.filter fun x => (s.figure x.fid).any fun f => f.onSource src
  (cand.foldl (fun b x => match b with
    | none => some x
    | some y => some (if x.before y then x else y)) none).map fun x => x.fid

/-- Figure `fid` has read poison: what it writes from then on is poisoned, and ERR_POISON_PROP counts it once (R453). -/
def State.poisonFid (s : State) (fid : Nat) : State :=
  if (s.stat fid).poison then s
  else (s.setStat { s.stat fid with poison := true }).count F.ERR_POISON_PROP_COUNT 1

/-- The cycle offset of a stamp (R11): the clock's; before the time base starts (R34) some offset of a beat, which no rule gives
(log entry 63). -/
def State.stamp (s : State) : Nat × State :=
  if s.dev == .boot then (s.draw.1 % s.clk.beatCycles, s.draw.2) else (s.clk.cyc, s)

/-- A detected error: stamped, charged, with its class's effect on the figure, and sent to HD (R445, R446, R451). A class
S error drops its figure directly and sets ERR_S; a class D error poisons the outputs of its figure. -/
def State.detect (s : State) (e : ErrIn) : State :=
  let fid : Option Nat := if e.code = Er.stepLimit then none else match e.fid with
    | some f => some f
    | none => s.chargee e.src
  let st := s.stamp
  let rec_ : ErrRec := ⟨e.code, e.src, s.clk.beat, st.1, fid.getD 0xFFFFFFFF, e.detail⟩
  let s1 : State := { st.2 with err := { st.2.err with inFlight := st.2.err.inFlight ++ [rec_] } }
  match errClass e.code with
  | 1 => match fid with
    | some f => s1.poisonFid f
    | none => s1
  | 2 =>
    let s2 : State := match (fid.bind fun x => s1.figure x : Option Fig) with
      | some f => if (s1.stat f.fid).phase == FigPhase.running then s1.drop f (.direct Cause.error) else s1
      | none => s1
    if s2.measuring then s2.flag Flags.setErr else s2
  | _ => s1

/-- An error of a unit with no figure of its own. -/
def State.detectAt (s : State) (code die unit index detail : Nat) : State :=
  s.detect ⟨code, ⟨die, unit, index⟩, none, detail⟩

/-- An error in an access of figure `fid`. -/
def State.detectFor (s : State) (code die unit index : Nat) (fid : Nat) : State :=
  s.detect ⟨code, ⟨die, unit, index⟩, some fid, 0⟩

/-- A die finds neither location of a pair tagged below the step counter: class F, charged to the figure that reads it (R298). -/
def State.pairLost (s : State) (mu : Nat) (fid : Option Nat) : State :=
  (s.count (F.MU_UPD_TAG_FAULT_COUNT.mu mu) 1).detect ⟨Er.pairTag, ⟨4 + mu, 9, 0⟩, fid, 0⟩

/-! ## The log -/

/-- A log entry as software reads it (Table 16.3). -/
def LogEntry.encode (l : LogEntry) : Nat :=
  errClass l.err.code % 4 + (if l.handled then 4 else 0) + l.err.src.die * 2 ^ 4 + l.err.src.unit * 2 ^ 8
    + (l.err.src.index % 2 ^ 10) * 2 ^ 12 + l.err.code * 2 ^ 32 + l.count * 2 ^ 48 + (l.err.beat % 2 ^ 48) * 2 ^ 64
    + (l.err.cyc % 2 ^ 32) * 2 ^ 112 + (l.lastBeat % 2 ^ 48) * 2 ^ 144 + l.err.figure * 2 ^ 192
    + (l.err.detail % 2 ^ 32) * 2 ^ 224

def errCounter (cls : Nat) : Field :=
  match cls with
  | 0 => F.ERR_COUNT_C_COUNT | 1 => F.ERR_COUNT_D_COUNT | 2 => F.ERR_COUNT_S_COUNT | _ => F.ERR_COUNT_F_COUNT

def State.logTail (s : State) : Nat := s.get F.ERR_LOG_TAIL_COUNT
def State.logHead (s : State) : Nat := s.get F.ERR_LOG_HEAD_COUNT
def State.logUnread (s : State) : Nat := cntSub s.logTail s.logHead

/-- Slots of the unread entries, newest first. -/
def State.unreadSlots (s : State) : List Nat :=
  (upTo (min 256 s.logUnread)).map fun k => cntSub s.logTail (k + 1) % 256

def State.logSlot (s : State) (k : Nat) : Option LogEntry := s.err.log.getD k none

def State.setSlot (s : State) (k : Nat) (l : LogEntry) : State :=
  { s with err := { s.err with log := s.err.log.set k (some l) } }

/-- The slot into which a class C or D error coalesces: the newest entry of its source, unread, of its class and code
(R449). -/
def State.coalesce (s : State) (e : ErrRec) : Option Nat :=
  let own := s.unreadSlots.filter fun k => (s.logSlot k).any fun l => l.err.src == e.src
  match own.head? with
  | some k => if (s.logSlot k).any (fun l => l.err.code == e.code) && decide (errClass e.code < 2) then some k else none
  | none => none

/-- Queue an entry for the handler (R451): behind those that wait; a higher class suspends the entry in hand (R452). -/
def State.toHandler (s : State) (h : Handling) : State :=
  let s1 := { s with err := { s.err with wait := s.err.wait ++ [h] } }
  match s1.err.cur with
  | none => s1
  | some c =>
    let nc := errClass h.entry.err.code
    if errClass c.entry.err.code < nc then
      { s1 with err := { s1.err with cur := none, susp := if nc = 3 then [] else c :: s1.err.susp } }
    else s1

/-- Enter HALTED at once: Callers stopped (R441), window accesses that wait ended (R413). -/
def State.halted (s : State) (cause : Nat) : State :=
  let s1 := (s.enter .halted cause).flushWin
  { s1 with run := { s1.run with stopped := true } }

/-- Take the fabric ports down: no port is up, nothing is sent (R451, R469). -/
def State.portsDown (s : State) : State :=
  let s1 := { s with fab := { s.fab with ports := s.fab.ports.map fun p => { p with up := false, hello := false, out := [], replay := [] } } }
  (upTo 18).foldl (fun t n => t.set ((F.LD_PORT_n_UP.at 4 n).ld (s.portLd n)) 0) s1

/-- HALTED with a cause, without a record (R441, R443, R452, R473). -/
def State.haltQuiet (s : State) (cause : Nat) : State := { s with dev := .halted, halt := cause }

/-- Every Caller stops (R441, R451). -/
def State.stopCallers (s : State) : State := { s with run := { s.run with stopped := true } }

/-- The host port stops (R452). -/
def State.linkOff (s : State) : State := { s with host := { s.host with link := false } }

/-- The double fault: DOUBLE is set, HALTED with cause 4, fabric ports and host port stop (R452). -/
def State.doubleFault (s : State) : State := ((((s.haltQuiet 4).stopCallers).set F.ERR_STATUS_DOUBLE 1).portsDown).linkOff

/-- Put the record of an error that does not coalesce into the log; the slot it stands in, none if it is discarded
(R449, R450). -/
def State.placeEntry (s : State) (cls : Nat) (entry : LogEntry) : State × Option Nat :=
  if s.logUnread < 256 then
    let k := s.logTail % 256
    ((s.setSlot k entry).set F.ERR_LOG_TAIL_COUNT (cntAdd s.logTail 1), some k)
  else
    let s1 := s.set F.ERR_OVERFLOW_COUNT (satAdd 32 (s.get F.ERR_OVERFLOW_COUNT) 1)
    if cls < 2 then (s1, none)
    else match s1.unreadSlots.reverse.find? fun k => (s1.logSlot k).any fun l => errClass l.err.code == 0 with
      | some k => (s1.setSlot k entry, some k)
      | none => (s1, none)

/-- Log one error that reached HD: counted by class; a class F error during class F handling is the double fault (R452);
otherwise coalesced, written, or put over an unread class C entry or discarded when the log is full (R449, R450). -/
def State.logError (s : State) (e : ErrRec) : State :=
  let cls := errClass e.code
  let s1 := (s.count (errCounter cls) 1).set F.ERR_STATUS_MAX (max (s.get F.ERR_STATUS_MAX) cls)
  let entry : LogEntry := ⟨false, e, 1, e.beat⟩
  match s1.coalesce e with
  | some k =>
    match s1.logSlot k with
    | some l => s1.setSlot k { l with count := satAdd 16 l.count 1, lastBeat := e.beat }
    | none => s1
  | none =>
    let r := s1.placeEntry cls entry
    if cls = 3 ∧ r.1.err.cur.any (fun c => errClass c.entry.err.code == 3) then r.1.doubleFault
    else r.1.toHandler ⟨r.2, entry, false⟩

/-- The error that HD logs next: earliest stamp, then descending class, then ascending DIE (R452). -/
def ErrRec.before (x y : ErrRec) : Bool :=
  decide (x.beat < y.beat) || (x.beat == y.beat && (decide (x.cyc < y.cyc) || (x.cyc == y.cyc &&
    (decide (errClass y.code < errClass x.code) || (errClass x.code == errClass y.code && decide (x.src.die < y.src.die))))))

def firstErr : List ErrRec → Option ErrRec
  | [] => none
  | x :: l => match firstErr l with
    | none => some x
    | some y => some (if y.before x then y else x)

/-- Take the next error in flight and log it. -/
def State.logNext (s : State) : State :=
  match firstErr s.err.inFlight with
  | none => s
  | some e => ({ s with err := { s.err with inFlight := s.err.inFlight.erase e } }).logError e

/-! ## The handler -/

/-- An event record with the stamp of an error. -/
def State.emitStamped (s : State) (kind die beat cyc payload : Nat) : State :=
  if !s.evqOn then s
  else
    let e : EvtRec := ⟨kind, die, s.seat, beat, cyc, payload⟩
    if beat ≤ s.host.evOpen then s.writeEvent e
    else { s with host := { s.host with evHeld := s.host.evHeld ++ [e] } }

/-- The ERROR event of an entry (Table 16.6). -/
def State.errorEvent (s : State) (l : LogEntry) : State :=
  s.emitStamped Ev.error l.err.src.die l.err.beat l.err.cyc
    (l.encode % 2 ^ 64 + l.err.figure * 2 ^ 64 + (l.err.detail % 2 ^ 32) * 2 ^ 96)

/-- Highest class first, then arrival; a suspended handling arrived before any that waits (R451, R452). -/
def topHandling : List Handling → Option Handling
  | [] => none
  | x :: l => match topHandling l with
    | none => some x
    | some y => some (if errClass x.entry.err.code < errClass y.entry.err.code then y else x)

/-- Class F steps at take-up: every Caller stops, beat markers stop and the ports go down (Table 16.4). -/
def State.fatalStop (s : State) : State :=
  { s with run := { s.run with stopped := true } }.portsDown

/-- The handler takes up the next entry and carries out its steps (Table 16.4); nothing while it works one or none
waits. -/
def State.takeUp (s : State) : State :=
  match s.err.cur with
  | some _ => s
  | none =>
    match topHandling (s.err.susp ++ s.err.wait) with
    | none => s
    | some h =>
      let s1 := { s with err := { s.err with susp := s.err.susp.erase h, wait := s.err.wait.erase h, cur := some { h with begun := true } } }
      let cls := errClass h.entry.err.code
      let s2 := (s1.set F.ERR_STATUS_BUSY 1).set F.ERR_STATUS_CUR cls
      if h.begun then s2
      else if cls = 3 then s2.fatalStop
      else s2.errorEvent h.entry

/-- HALT cause of a class F error (R441, R443). -/
def haltOf (code : Nat) : Nat := if code = Er.hostLink then 3 else 2

/-- The entry in hand is done: HANDLED is set unless its record was discarded; a class F entry writes every pending
record, then the ERROR event, then the STATE event on entering HALTED, and signals vector 0; with the host link lost
nothing reaches the host (R441, R450, R451). -/
def State.handled (s : State) : State :=
  match s.err.cur with
  | none => s
  | some h =>
    let s1 := { s with err := { s.err with cur := none } }
    let s2 := (s1.set F.ERR_STATUS_BUSY 0).set F.ERR_STATUS_CUR 0
    let s3 := match h.slot with
      | some k => match s2.logSlot k with
        | some l => s2.setSlot k { l with handled := true }
        | none => s2
      | none => s2
    if errClass h.entry.err.code = 3 then
      if s3.dev == .halted then s3
      else if s3.host.link then
        ((s3.flushEvents.errorEvent h.entry).halted (haltOf h.entry.err.code)).recorded 64 (some 0)
      else s3.haltQuiet (haltOf h.entry.err.code)
    else s3

end Sys2Proof.Machine
end

