-- ==== Sys2Proof/Machine/Sync.lean ====
section
/-! DEFINITION. Scratchpad addresses (R209, R210), vats (R217, R218), sync objects (R225 to R229). -/
namespace Sys2Proof.Machine

/-! ## Scratchpad addresses -/

/-- The bank of an offset: by slot mode or hash mode (R210). -/
def bankOf (hash : Bool) (off : Nat) : Nat :=
  if hash then Nat.xor (Nat.xor (bits off 6 4) (bits off 10 4)) (bits off 14 4) else bits off 6 4

def bankKey (die cl bank : Nat) : Nat := clKey die cl * 16 + bank

/-- Read `n` bytes of a slice from line `line`. -/
def State.t0Read (s : State) (die cl line n : Nat) : Bytes := t0Get s.t0.mem die cl (line * 64) n
def State.t0Write (s : State) (die cl line : Nat) (b : Bytes) : State :=
  { s with t0 := { s.t0 with mem := t0Put s.t0.mem die cl (line * 64) b } }

/-! ## Poison of T0 lines (R453, R454) -/

def t0Line (die cl line : Nat) : Nat := clKey die cl * 32768 + line % 32768
/-- Line key `k` is one of `n` lines of a slice from `line` on. -/
def t0Among (die cl line n k : Nat) : Bool :=
  k / 32768 == clKey die cl && decide ((k + 32768 - line % 32768) % 32768 < n)
def State.t0Poisoned (s : State) (die cl line n : Nat) : Bool := s.t0.poison.any (t0Among die cl line n)
/-- Lines written whole: they carry poison exactly if the writer's data did (R454). -/
def State.t0Mark (s : State) (die cl line n : Nat) (p : Bool) : State :=
  let rest := s.t0.poison.filter fun k => !t0Among die cl line n k
  { s with t0 := { s.t0 with poison := if p then rest ++ (upTo (min n 32768)).map fun i => t0Line die cl (line + i) else rest } }

/-! ## Vats (Table 8.4) -/

def vatKey (die cl v : Nat) : Nat := clKey die cl * 64 + v
def vatBase (e : Nat) : Nat := bits e 0 9
def vatUnits (e : Nat) : Nat := bits e 9 10
def vatPlanned (e : Nat) : Bool := bit e 19
def vatEn (e : Nat) : Bool := bit e 20
def vatHead (e : Nat) : Nat := bits e 32 21
def vatTail (e : Nat) : Nat := bits e 64 21
def vatSize (e : Nat) : Nat := vatUnits e * 4096

/-- Occupancy from the pointers and wrap bits (R218). -/
def vatOcc (e : Nat) : Nat :=
  if bit e 53 = bit e 85 then vatTail e - vatHead e else vatSize e - (vatHead e - vatTail e)

/-- Pointer and wrap bit at [lo + 21 : lo] after `b` bytes (R218). -/
def vatAdvance (e lo b : Nat) : Nat :=
  let p := bits e lo 21 + b
  if p < vatSize e then setBits e lo 21 p
  else setBits (setBits e lo 21 (p - vatSize e)) (lo + 21) 1 (if bit e (lo + 21) then 0 else 1)

/-- Byte offsets in the slice of `b` bytes of a vat from pointer `p`, wrapping at its end (R218). -/
def vatOffsets (e p b : Nat) : List Nat :=
  (upTo b).map fun i => vatBase e * 4096 + (if vatSize e = 0 then 0 else (p + i) % vatSize e)

/-! ## Sync objects -/

/-- Key of a cluster-side object of a compute die, and of a hub object. -/
def syncKey (die obj : Nat) : Nat := die * 8192 + obj
def hubKey (obj : Nat) : Nat := 15 * 8192 + obj

/-- The value of a sync object. -/
def State.syncGet (s : State) (key : Nat) : Nat :=
  if 15 * 8192 ≤ key then tGet s.t0.hub (key - 15 * 8192) else tGet s.t0.sync key

def State.syncPut (s : State) (key v : Nat) : State :=
  if 15 * 8192 ≤ key then { s with t0 := { s.t0 with hub := tSet s.t0.hub (key - 15 * 8192) v } }
  else { s with t0 := { s.t0 with sync := tSet s.t0.sync key v } }

/-- A hub object that has reached its armed threshold writes one SYNC event and is disarmed (R229). -/
def State.armFire (s : State) (obj : Nat) : State :=
  match s.t0.armed.find? fun a => a.1 == obj with
  | none => s
  | some a =>
    let v := tGet s.t0.hub obj
    if a.2 ≤ v then
      let s1 : State := { s with t0 := { s.t0 with armed := s.t0.armed.filter fun x => x.1 != obj } }
      s1.emit Ev.sync 14 (obj + v * 2 ^ 32)
    else s

/-- Signals of one cycle to one object, summed; a sum beyond all ones saturates, counts once and is a class C error
(R227). -/
def State.syncAdd (s : State) (key n : Nat) : State :=
  let v := s.syncGet key + n
  let s1 := s.syncPut key (min v 0xFFFFFFFF)
  let s2 := if v ≤ 0xFFFFFFFF then s1
    else if 15 * 8192 ≤ key then s1.detectAt Er.syncSat 14 2 0 0
    else (if key / 8192 < 4 then s1.count (F.CD_SYNC_OVF_COUNT.cd (key / 8192)) 1 else s1).detectAt Er.syncSat (key / 8192) 2 0 0
  if 15 * 8192 ≤ key then s2.armFire (key - 15 * 8192) else s2

/-- The operations on one object that fall in one cycle: SET first, then the signals' sum (R227). -/
def State.syncCycle (s : State) (key due : Nat) : State :=
  let mine := s.run.sig.filter fun g => g.key == key && g.due == due
  let left := s.run.sig.filter fun g => !(g.key == key && g.due == due)
  let s1 : State := { s with run := { s.run with sig := left, sigDone := s.run.sigDone ++ mine.filter fun g => !g.isSet } }
  let s2 := match (mine.filter (·.isSet)).getLast? with
    | some g => s1.syncPut key (g.n % 2 ^ 32)
    | none => s1
  let sum := (mine.filter fun g => !g.isSet).foldl (fun a g => a + g.n) 0
  if sum = 0 then s2 else s2.syncAdd key sum

/-- A SET in the clock's own cycle: before the signals that have applied in it (R227). -/
def State.syncSetNow (s : State) (key v : Nat) : State :=
  let sum := (s.run.sigDone.filter fun g => g.key == key && g.due == s.clk.cyc).foldl (fun a g => a + g.n) 0
  let s1 := s.syncPut key v
  if sum = 0 then s1 else s1.syncAdd key sum

/-! ## Signals of a figure -/

/-- Some WAIT of the running card on object `obj` of compute die `die` stands in another cluster than `cl`. -/
def State.farWaiter (s : State) (die cl obj : Nat) : Bool :=
  match s.plan.card with
  | none => true
  | some c => c.slices.any fun sl => sl.die == die && sl.group != cl && sl.queues.any fun q => q.secs.any fun x =>
      x.figs.any fun f =>
        (f.waits ++ (match f.body with | .vec p => p | _ => [])).any fun e =>
          entType e == 0x84 && !bit e.toNat 21 && ent e 8 13 == obj

/-- Cycles until a signal of figure `f` applies (Table 8.6). -/
def State.latency (s : State) (f : Fig) (hub : Bool) (obj : Nat) : Nat :=
  if hub then 96
  else if f.die < 4 ∧ f.queue ≤ 4 ∧ !s.farWaiter f.die f.group obj then 4 else 24

/-- Issue a signal: it applies after its latency (R227). -/
def State.signalAt (s : State) (key n lat : Nat) (isSet : Bool) : State :=
  { s with run := { s.run with sig := s.run.sig ++ [⟨key, n, s.clk.cyc + lat, isSet, none, none, s.clk.cyc⟩] } }

/-- The object and increment of a WAIT or SIGNAL entry of a figure on die `die` (Table 18.3). -/
def entKey (e : BitVec 128) (die : Nat) : Nat := if bit e.toNat 21 then hubKey (ent e 8 9) else syncKey die (ent e 8 13)

/-- What signals on their way to object `key` have already brought to the waiters of cluster `cl` (Table 8.6). -/
def State.nearSum (s : State) (key cl : Nat) : Nat :=
  (s.run.sig.filter fun g => g.key == key && g.near == some cl && decide (g.due ≤ s.clk.cyc + 20)).foldl (fun a g => a + g.n) 0

/-- A WAIT entry of figure `f` is satisfied (R226). -/
def State.waitMet (s : State) (f : Fig) (e : BitVec 128) : Bool :=
  decide (ent e 32 32 ≤ s.syncGet (entKey e f.die) + s.nearSum (entKey e f.die) (clKey f.die f.group))

/-- Issue a SIGNAL entry of figure `f`, `el` cycles from now (R226). An object with waiters in its cluster and in another takes
24 cycles, but 4 to those of its own (Table 8.6). -/
def State.issue (s : State) (f : Fig) (e : BitVec 128) (el : Nat) : State :=
  let hub := bit e.toNat 21
  let near := !hub && decide (f.die < 4) && decide (f.queue ≤ 4) && s.farWaiter f.die f.group (ent e 8 13)
  { s with run := { s.run with sig := s.run.sig ++ [⟨entKey e f.die, ent e 32 32, s.clk.cyc + el + s.latency f hub (ent e 8 13), false,
    if near then some (clKey f.die f.group) else none, some f.fid, s.clk.cyc + el⟩] } }

end Sys2Proof.Machine
end

