-- ==== Sys2Proof/Machine/Flags.lean ====
section
/-! DEFINITION. Figure flags: non-finite flag, saturation and clamp counts with the NUMERIC event (R153, R154), poison of
what a figure reads and writes (R453, R454). -/
namespace Sys2Proof.Machine

/-- What the elements of one figure counted, and the latest of them: 1 a saturation, 2 a non-finite value, 0 neither. -/
structure Tally where
  sat : Nat
  nonfin : Nat
  clamp : Nat
  last : Nat
deriving DecidableEq, Repr

def Tally.zero : Tally := ⟨0, 0, 0, 0⟩
def Tally.add (a b : Tally) : Tally := ⟨a.sat + b.sat, a.nonfin + b.nonfin, a.clamp + b.clamp, if b.last = 0 then a.last else b.last⟩
def Note.tally (n : Note) : Tally :=
  ⟨if n.sat then 1 else 0, if n.nonfin then 1 else 0, 0, if n.nonfin then 2 else if n.sat then 1 else 0⟩
/-- `n` scales replaced under R141. -/
def clampTally (n : Nat) : Tally := ⟨0, 0, n, 0⟩
def satTally (n : Nat) : Tally := ⟨n, 0, 0, if n = 0 then 0 else 1⟩
def nonfinTally (n : Nat) : Tally := ⟨0, n, 0, if n = 0 then 0 else 2⟩
def sumTally (l : List Tally) : Tally := l.foldl Tally.add Tally.zero

/-- Units of CD_NUM_LAST (Table 5.8). -/
def Unit.drainA : Nat := 0
def Unit.drainB : Nat := 1
def Unit.feeder : Nat := 2
def Unit.thin : Nat := 3
def Unit.vec : Nat := 4
def Unit.gme : Nat := 5

/-- The figure's non-finite flag: with a measure's verdict to come, a chain or mandatory figure up to the verdict figure
sets the seat's flag; in the seal beat, once the seal marker is sent, that of the next measure (R58). The first of its die and beat writes a
NUMERIC event (R153). -/
def State.setNonfinite (s : State) (f : Fig) (unit : Nat) : State :=
  let s1 := s.setStat { s.stat f.fid with nonfin := true }
  let s2 := if s1.run.numEvt.contains f.die then s1
    else { s1 with run := { s1.run with numEvt := s1.run.numEvt ++ [f.die] } }.emit Ev.numeric f.die (f.fid + unit * 2 ^ 32 + 2 ^ 35)
  let upTo := match s2.plan.card.bind Card.verdictPos with
    | some v => decide (f.pos ≤ v)
    | none => true
  if s2.measuring && (f.cls == Cls.chain || f.cls == Cls.mandatory) && (upTo || s2.run.sealSent) then s2.flag Flags.setNonfin else s2

/-- Count what a compute-die figure's elements did (R154). -/
def State.tally (s : State) (f : Fig) (unit : Nat) (t : Tally) : State :=
  let s1 := ((s.count (F.CD_NUM_SAT_COUNT.cd f.die) t.sat).count (F.CD_NUM_NONFINITE_COUNT.cd f.die) t.nonfin).count
    (F.CD_NUM_CLAMP_COUNT.cd f.die) t.clamp
  let s2 := if t.sat = 0 ∧ t.nonfin = 0 then s1
    else ((s1.set (F.CD_NUM_LAST_CLUSTER.cd f.die) f.group).set (F.CD_NUM_LAST_UNIT.cd f.die) unit).set
      (F.CD_NUM_LAST_KIND.cd f.die) (if t.last = 2 then 1 else 0)
  if t.nonfin = 0 then s2 else s2.setNonfinite f unit

/-! ## Data a figure moves -/

/-- Figure `f` has read poison (R453). -/
def State.poisonFig (s : State) (f : Fig) : State := s.poisonFid f.fid

def linesOf (off n : Nat) : Nat × Nat := (off / 64, (off + n + 63) / 64 - off / 64)

/-- Figure `f` reads `n` bytes of its slice from byte offset `off`. -/
def State.useT0 (s : State) (f : Fig) (off n : Nat) : Bytes × State :=
  let (l, k) := linesOf off n
  (t0Get s.t0.mem f.die f.group off n, if n != 0 && s.t0Poisoned f.die f.group l k then s.poisonFig f else s)

/-- Figure `f` writes bytes to its slice from byte offset `off`: the lines carry poison if the figure's data does; a line
written in part keeps its poison (R454). -/
def State.putT0 (s : State) (f : Fig) (off : Nat) (b : Bytes) : State :=
  let m := t0Put s.t0.mem f.die f.group off b
  let s1 := State.noteWrite { s with t0 := { s.t0 with mem := m } } f.fid 0 s.t0.mem m ((upTo b.length).map fun i => t0Addr f.die f.group (off + i))
  let (l, k) := linesOf off b.length
  if b.isEmpty then s
  else if (s1.stat f.fid).poison then s1.t0Mark f.die f.group l k true
  else if off % 64 = 0 ∧ b.length % 64 = 0 then s1.t0Mark f.die f.group l k false
  else s1

/-- Codebook slot `k` of cluster (die, group), read for `w`-bit codes: as loaded, or the format's default table when the
card named none (R136; log entry 17). -/
def State.slotCb (s : State) (f : Fig) (k w : Nat) : List Nat :=
  match s.t0.cb.find? fun e => e.1 == clKey f.die f.group * 64 + k with
  | some e => e.2.take (2 ^ w)
  | none => defaultCb w

/-- Constant slot `k` of a figure's cluster (R157). -/
def State.const (s : State) (f : Fig) (k : Nat) : Word32 :=
  BitVec.ofNat 32 (tGet s.t0.konst (clKey f.die f.group * 64 + k))

/-- FP32 word `i` of a table at a line address. -/
def State.t0Word (s : State) (f : Fig) (line i : Nat) : Nat := leNat (t0Get s.t0.mem f.die f.group (line * 64 + 4 * i) 4)

end Sys2Proof.Machine
end

