-- ==== Sys2Proof/Machine/Vector.lean ====
section
/-! DEFINITION. The vector engine (R156 to R171, R498): registers, masks, element-wise, transcendental, reduction, permute,
row-statistics and load/store instructions. -/
namespace Sys2Proof.Machine

/-! ## Instruction fields (Table 18.6) -/

/-- Element width in bits of a vector type. -/
def vWidth (t : Nat) : Nat :=
  match t with
  | 0 => 32 | 1 => 16 | 2 => 16 | 3 => 8 | 4 => 8 | 5 => 8 | 6 => 4 | _ => 32

/-- The floating format of a vector type; codes and U32 have none. -/
def vFmt (t : Nat) : Option Fmt :=
  match t with
  | 0 => some Fmt.fp32 | 1 => some Fmt.bf16 | 2 => some Fmt.fp16 | 3 => some Fmt.e4m3 | 4 => some Fmt.e5m2 | _ => none

structure VInst where
  opc : Nat
  ts : Nat
  td : Nat
  dst : Nat
  src1 : Nat
  src2 : Nat
  src3 : Nat
  mreg : Nat
  men : Bool
  mz : Bool
  n : Nat
  seg : Nat
  kslot : Nat
  ks2 : Bool
  addr : Nat
  lines : Nat
  zrow : Bool
  cb : Nat
  scl : Nat
deriving DecidableEq, Repr

/-- Read an instruction, in repetition `r` of a VREP with load stride `ls`, store stride `ss` and register step `rs`
(Table 18.3). -/
def vInst (e : BitVec 128) (r : Nat) (ls ss : Int) (rs : Nat) : VInst :=
  let opc := ent e 0 8
  let step := r * rs
  let stride : Int := if opc = 0x50 ∨ opc = 0x52 then ls else if opc = 0x51 ∨ opc = 0x53 then ss else 0
  { opc := opc, ts := ent e 8 3, td := ent e 11 3
    dst := (ent e 14 4 + step) % 16, src1 := (ent e 18 4 + step) % 16, src2 := (ent e 22 4 + step) % 16
    src3 := (ent e 26 4 + step) % 16
    mreg := ent e 30 3, men := bit e.toNat 33, mz := bit e.toNat 34, n := ent e 35 14, seg := ent e 49 4, kslot := ent e 53 6
    ks2 := bit e.toNat 59, addr := unsext 15 ((ent e 64 15 : Int) + stride * (r : Int)), lines := ent e 79 9
    zrow := bit e.toNat 88, cb := ent e 89 6, scl := ent e 95 2 }

/-! ## Registers and masks -/

def regKey (f : Fig) (r : Nat) : Nat := clKey f.die f.group * 32 + r
def maskKey (f : Fig) (m : Nat) : Nat := clKey f.die f.group * 32 + 16 + m
def maskAddr (f : Fig) (m b : Nat) : Nat := (clKey f.die f.group * 8 + m % 8) * 1024 + b

/-- The first `n` codes of `w` bits in register `r`; elements past its end lie in the next registers (R167; log entry 71). -/
def State.vCodes (s : State) (f : Fig) (r w n : Nat) : List Nat :=
  (upTo n).map (packedAt (vrGet s.t0.vreg f.die f.group r 0 (ceilDiv (n * w) 8)) w)

/-- The registers that `n` elements of `w` bits from register `r` on lie in. -/
def vRegs (r w n : Nat) : List Nat := (upTo (max 1 (ceilDiv (n * w) 131072))).map fun i => (r + i) % 16

/-- A register read by the figure: poison passes to it (R453). -/
def State.vTouch (s : State) (f : Fig) (rs : List Nat) : State :=
  if rs.any (fun r => s.t0.regPoison.contains r) then s.poisonFig f else s

/-- Mark a register or mask the figure has written whole or in part. -/
def State.vMark (s : State) (f : Fig) (key : Nat) : State :=
  let rest := s.t0.regPoison.filter (· != key)
  if (s.stat f.fid).poison then { s with t0 := { s.t0 with regPoison := rest ++ [key] } } else s

/-- Write the first codes of register `r`; those past its 16 KiB lie in the next registers (log entry 71); the other half of a last byte is kept. -/
def State.vPut (s : State) (f : Fig) (r w : Nat) (codes : List Nat) : State :=
  let all := if w = 4 ∧ codes.length % 2 = 1 then codes ++ ((s.vCodes f r w (codes.length + 1)).drop codes.length) else codes
  let b := packCodes w all
  let m := vrPut s.t0.vreg f.die f.group r 0 b
  let s1 := State.noteWrite { s with t0 := { s.t0 with vreg := m } } f.fid 1 s.t0.vreg m ((upTo b.length).map fun i => vrAddr f.die f.group r i)
  (vRegs r 8 b.length).foldl (fun t k => t.vMark f (regKey f k)) s1

/-- Bit `i` of mask register `m`. -/
def State.maskBit (s : State) (f : Fig) (m i : Nat) : Bool := bit (mGet s.t0.mask (maskAddr f m (i / 8))).toNat (i % 8)

/-- Bytes of a list of bits, lowest first. -/
def bitBytes : Nat → List Bool → Bytes
  | 0, _ => []
  | n + 1, l => BitVec.ofNat 8 ((l.take 8).zipIdx.foldl (fun a p => a + (if p.1 then 2 ^ p.2 else 0)) 0) :: bitBytes n (l.drop 8)

/-- Write the first bits of mask register `m`. -/
def State.maskPut (s : State) (f : Fig) (m : Nat) (l : List Bool) : State :=
  let n := ceilDiv l.length 8
  let keep := (upTo (8 * n - l.length)).map fun k => s.maskBit f m (l.length + k)
  let new := mWrite s.t0.mask (maskAddr f m 0) (bitBytes n (l ++ keep))
  let s1 := State.noteWrite { s with t0 := { s.t0 with mask := new } } f.fid 2 s.t0.mask new ((upTo n).map fun i => maskAddr f m i)
  s1.vMark f (maskKey f m)

/-- Element `i` takes part (R159). -/
def State.enabled (s : State) (f : Fig) (v : VInst) (i : Nat) : Bool := !v.men || s.maskBit f v.mreg i

/-! ## Writing results -/

/-- The code of +0 in the destination type: for C8 and C4 that of an entry of the codebook, which ENCODE names; for any other instruction the
default table's (R142, R159, R186; DESIGN CHOICE, log entry 18: R167 and R159 name no codebook there). -/
def State.vZero (s : State) (f : Fig) (v : VInst) : Nat :=
  if v.td = 5 ∨ v.td = 6 then zeroIndex (if v.opc = 0x0F then s.slotCb f v.cb (vWidth v.td) else defaultCb (vWidth v.td)) else 0

/-- Destination codes: enabled elements take their result, disabled ones keep their value or take +0 (R159). -/
def State.vWrite (s : State) (f : Fig) (v : VInst) (w : Nat) (res : List Nat) : State :=
  let old := s.vCodes f v.dst w res.length
  s.vPut f v.dst w (((res.zip old).zipIdx).map fun p =>
    if s.enabled f v p.2 then p.1.1 else if v.mz then s.vZero f v else p.1.2)

/-- Round results to the destination type, count their notes for the enabled elements, and write them (R160). A
destination type that is no floating format has no stated result: free values (log entry 5). -/
def State.vRound (s : State) (f : Fig) (v : VInst) (vals : List FVal) : State :=
  match vFmt v.td with
  | some fm =>
    let res := vals.map fm.narrow
    let t := sumTally ((res.zipIdx).map fun p => if s.enabled f v p.2 then p.1.2.tally else Tally.zero)
    (s.vWrite f v (vWidth v.td) (res.map (·.1))).tally f Unit.vec t
  | none =>
    let (x, s1) := s.draw
    s1.vWrite f v (vWidth v.td) ((upTo vals.length).map fun i => bits (x / 2 ^ (32 * i)) 0 (vWidth v.td))

/-- `n` elements of a source as exact values, in the source type; a type that is no floating format has no stated value (log entry 5). -/
def State.vSrcN (s : State) (f : Fig) (v : VInst) (r n : Nat) : List FVal :=
  let codes := s.vCodes f r (vWidth v.ts) n
  match vFmt v.ts with
  | some fm => codes.map fm.value
  | none => codes.map fun c => f32 (BitVec.ofNat 32 (Config.freeNat (s.free + c)))
def State.vSrc (s : State) (f : Fig) (v : VInst) (r : Nat) : List FVal := s.vSrcN f v r v.n

/-- The second source, or the constant of KSLOT broadcast. -/
def State.vSrc2 (s : State) (f : Fig) (v : VInst) : List FVal :=
  if v.ks2 then List.replicate v.n (f32 (s.const f v.kslot)) else s.vSrc f v v.src2

def State.vTouch2 (s : State) (f : Fig) (v : VInst) (rs : List Nat) : State :=
  s.vTouch f ((rs.map (regKey f)) ++ if v.men then [maskKey f v.mreg] else [])

/-! ## Element-wise (R160, R161) -/

def vMax (a b : FVal) : FVal := if a.isNan || b.isNan then .nan else if a.below b then b else a
def vMin (a b : FVal) : FVal := if a.isNan || b.isNan then .nan else if b.below a then b else a

/-- Two-operand results by opcode. -/
def vBin (opc : Nat) (a b : FVal) : FVal :=
  match opc with
  | 0x01 => a.add b
  | 0x02 => a.add b.neg
  | 0x03 => a.mul b
  | 0x05 => vMax a b
  | 0x06 => vMin a b
  | 0x07 => a.abs
  | _ => a.neg

def vCmp (opc : Nat) (a b : FVal) : Bool :=
  match opc with
  | 0x0A => a.eq b
  | 0x0B => !a.eq b
  | 0x0C => a.lt b
  | _ => a.le b

def vTrans (opc : Nat) (a : Word32) : Word32 :=
  match opc with
  | 0x20 => fExp2 0 a
  | 0x21 => fLog2 0 a
  | 0x22 => fRecip a
  | 0x23 => fRsqrt 0 a
  | _ => fTanh a

def State.vElem (s : State) (f : Fig) (v : VInst) : State :=
  let s1 := s.vTouch2 f v (if v.ks2 || v.opc == 0x07 || v.opc == 0x08 then [v.src1] else [v.src1, v.src2])
  s1.vRound f v (((s1.vSrc f v v.src1).zip (s1.vSrc2 f v)).map fun p => vBin v.opc p.1 p.2)

def State.vFma (s : State) (f : Fig) (v : VInst) : State :=
  let s1 := s.vTouch2 f v [v.src1, v.src2, v.src3]
  s1.vRound f v ((((s1.vSrc f v v.src1).zip (s1.vSrc2 f v)).zip (s1.vSrc f v v.src3)).map fun p => (p.1.1.mul p.1.2).add p.2)

/-- SELECT: the first source where the selector mask is set, else the second (log entry 18); codes and U32 pass as they are. -/
def State.vSelect (s : State) (f : Fig) (v : VInst) : State :=
  let s1 := s.vTouch f ([regKey f v.src1, regKey f v.src2, maskKey f (v.src3 % 8)] ++ if v.men then [maskKey f v.mreg] else [])
  let pick := fun {α : Type} (p : (α × α) × Nat) => if s1.maskBit f (v.src3 % 8) p.2 then p.1.1 else p.1.2
  if v.ts = v.td ∧ vFmt v.ts = none ∧ !v.ks2 then
    s1.vWrite f v (vWidth v.td) ((((s1.vCodes f v.src1 (vWidth v.ts) v.n).zip (s1.vCodes f v.src2 (vWidth v.ts) v.n)).zipIdx).map pick)
  else s1.vRound f v ((((s1.vSrc f v v.src1).zip (s1.vSrc2 f v)).zipIdx).map pick)

/-- Comparisons write mask register DST (R159). -/
def State.vCompare (s : State) (f : Fig) (v : VInst) : State :=
  let s1 := s.vTouch2 f v [v.src1, v.src2]
  let res := ((s1.vSrc f v v.src1).zip (s1.vSrc2 f v)).map fun p => vCmp v.opc p.1 p.2
  s1.maskPut f (v.dst % 8) ((res.zipIdx).map fun p =>
    if s1.enabled f v p.2 then p.1 else if v.mz then false else s1.maskBit f (v.dst % 8) p.2)

/-- Transcendentals: the FP32 result, rounded once more to a narrower destination (R161). -/
def State.vTransc (s : State) (f : Fig) (v : VInst) : State :=
  let s1 := s.vTouch2 f v [v.src1]
  s1.vRound f v ((s1.vSrc f v v.src1).map fun a => f32 (vTrans v.opc (rne32 a)))

/-! ## Codebooks (R162) -/

/-- Scales of an encode or decode: the constant, or one per 32 elements from the scale register, clamped (R141). -/
def State.vScales (s : State) (f : Fig) (v : VInst) : List (Word32 × Bool) :=
  let k := ceilDiv v.n 32
  if v.scl = 0 then List.replicate k (clampScale fOne (s.const f v.kslot))
  else (s.vCodes f v.src2 32 k).map fun c => clampScale fOne (BitVec.ofNat 32 c)

/-- Replaced scales of an instruction: a constant that stands for every element counts once (R141, R162; DESIGN CHOICE, log entry 69). -/
def vClamps (v : VInst) (sc : List (Word32 × Bool)) : Tally := clampTally ((if v.scl = 0 then sc.take 1 else sc).filter (·.2)).length

/-- Data scales of R144, by 32 elements, over the enabled ones. -/
def State.vDataScales (s : State) (f : Fig) (v : VInst) (cb : List Nat) (xs : List FVal) : List (Word32 × Bool) :=
  (upTo (ceilDiv v.n 32)).map fun g => groupScaleClamped cb
    (((xs.zipIdx).filter fun p => p.2 / 32 == g && s.enabled f v p.2).map (·.1))

/-- ENCODE (R142, R162). A TD that is neither C8 nor C4 takes the codebook at that type's width (DESIGN CHOICE, log entry 18). -/
def State.vEncode (s : State) (f : Fig) (v : VInst) : State :=
  let w := vWidth v.td
  let cb := s.slotCb f v.cb w
  let s1 := s.vTouch2 f v (if v.scl = 1 then [v.src1, v.src2] else [v.src1])
  let xs := s1.vSrc f v v.src1
  let sc := if v.scl = 2 then s1.vDataScales f v cb xs else s1.vScales f v
  let res := (xs.zipIdx).map fun p => encode1 (rne32 p.1) ((sc.getD (p.2 / 32) (fOne, false)).1) cb (v.scl == 2)
  let s2 := if v.scl = 2 then s1.vPut f v.src2 32 (sc.map fun c => c.1.toNat) else s1
  let t := (vClamps v sc).add (sumTally ((res.zipIdx).map fun p => if s2.enabled f v p.2 then p.1.2.tally else Tally.zero))
  (s2.vWrite f v w (res.map (·.1))).tally f Unit.vec t

/-- DECODE (R146, R162): SCL 2 names the scale register as SCL 1 does (DESIGN CHOICE, log entry 18: Table 18.6 gives SCL 2 for data scales
that are written). A TS that is neither C8 nor C4 indexes the codebook at that type's width (DESIGN CHOICE, log entry 18). -/
def State.vDecode (s : State) (f : Fig) (v : VInst) : State :=
  let w := vWidth v.ts
  let cb := s.slotCb f v.cb w
  let s1 := s.vTouch2 f v (if v.scl = 0 then [v.src1] else [v.src1, v.src2])
  let sc := s1.vScales f v
  let vals := ((s1.vCodes f v.src1 w v.n).zipIdx).map fun p => f32 (decode1 p.1 (sc.getD (p.2 / 32) (fOne, false)).1 cb)
  (s1.vRound f v vals).tally f Unit.vec (vClamps v sc)

/-! ## Reductions (R164 to R166) -/

/-- The enabled elements of segment `k` with their index in the segment. -/
def State.vSeg (s : State) (f : Fig) (v : VInst) (xs : List FVal) (k : Nat) : List (FVal × Nat) :=
  ((((xs.zipIdx).drop (k * 2 ^ v.seg)).take (2 ^ v.seg)).filter fun p => s.enabled f v p.2).map fun p => (p.1, p.2 % 2 ^ v.seg)

/-- Segment `k` with the identity at absent places. -/
def State.vSegFull (s : State) (f : Fig) (v : VInst) (id : Word32) (xs : List Word32) (k : Nat) : List Word32 :=
  (((xs.zipIdx).drop (k * 2 ^ v.seg)).take (2 ^ v.seg)).map fun p => if s.enabled f v p.2 then p.1 else id

def vRedOp (opc : Nat) : Word32 → Word32 → Word32 :=
  match opc with
  | 0x30 => fAdd
  | 0x31 => fMul
  | 0x32 => fMax
  | _ => fMin

/-- The identity in FP32 and, for an E4M3 destination, as its code (Table 6.4). -/
def vIdent (opc : Nat) : Word32 :=
  match opc with
  | 0x30 => fZero
  | 0x31 => fOne
  | 0x32 => fInf true
  | _ => fInf false
def vIdentCode (opc : Nat) (fm : Fmt) : Nat :=
  if fm.hasInf then (fm.narrow (f32 (vIdent opc))).1
  else match opc with
    | 0x30 => 0 | 0x31 => (fm.narrow .one).1 | 0x32 => fm.signBit + fm.top | _ => fm.top

/-- An instruction set EMPTY (`perm` false) or PERM_RANGE in its cluster (R171). -/
def State.vSticky (s : State) (f : Fig) (perm : Bool) : State :=
  let b := if perm then 2 else 1
  let k := clKey f.die f.group
  let s1 : State := { s with t0 := { s.t0 with sticky := tSet s.t0.sticky k (Nat.lor (tGet s.t0.sticky k) b) } }
  let s2 := if perm then (s1.count (F.CD_VEC_PERM_COUNT.cd f.die) 1).set (F.CD_VEC_STICKY_PERM_RANGE.cd f.die) 1
    else (s1.count (F.CD_VEC_EMPTY_COUNT.cd f.die) 1).set (F.CD_VEC_STICKY_EMPTY.cd f.die) 1
  (s2.set (F.CD_VEC_LAST_CLUSTER.cd f.die) f.group).set (F.CD_VEC_LAST_KIND.cd f.die) (if perm then 1 else 0)

def vSegs (v : VInst) : Nat := ceilDiv v.n (2 ^ v.seg)

def State.vReduce (s : State) (f : Fig) (v : VInst) : State :=
  let s1 := s.vTouch2 f v [v.src1]
  let xs := s1.vSrc f v v.src1
  let ws := xs.map rne32
  match vFmt v.td with
  | none =>
    let (x, s2) := s1.draw
    let s3 := s2.vPut f v.dst (vWidth v.td) ((upTo (vSegs v)).map fun i => bits (x / 2 ^ (32 * i)) 0 (vWidth v.td))
    if (upTo (vSegs v)).any fun k => (s1.vSeg f v xs k).isEmpty then s3.vSticky f false else s3
  | some fm =>
    let res := (upTo (vSegs v)).map fun k =>
      if (s1.vSeg f v xs k).isEmpty then (vIdentCode v.opc fm, (⟨false, false⟩ : Note))
      else fm.narrow (f32 (treeSum (vRedOp v.opc) (vIdent v.opc) v.seg (s1.vSegFull f v (vIdent v.opc) ws k)))
    let empty := (upTo (vSegs v)).any fun k => (s1.vSeg f v xs k).isEmpty
    let s2 := (s1.vPut f v.dst (vWidth v.td) (res.map (·.1))).tally f Unit.vec (sumTally (res.map fun r => r.2.tally))
    if empty then s2.vSticky f false else s2

/-- The index R165 returns among the enabled elements of a segment. -/
def argBest (mx : Bool) (l : List (FVal × Nat)) : Nat :=
  match l.find? fun p => p.1.isNan with
  | some p => p.2
  | none => match l with
    | [] => 0xFFFFFFFF
    | p :: rest => (rest.foldl (fun b q => if (if mx then b.1.below q.1 else q.1.below b.1) then q else b) p).2

/-- ARGMAX, ARGMIN: 32-bit indices (R165, R166). -/
def State.vArg (s : State) (f : Fig) (v : VInst) : State :=
  let s1 := s.vTouch2 f v [v.src1]
  let xs := s1.vSrc f v v.src1
  let segs := (upTo (vSegs v)).map (s1.vSeg f v xs)
  let s2 := s1.vPut f v.dst 32 (segs.map (argBest (v.opc == 0x34)))
  if segs.any List.isEmpty then s2.vSticky f false else s2

/-! ## Permute (R167) -/

def State.vPerm (s : State) (f : Fig) (v : VInst) : State :=
  let s1 := s.vTouch2 f v (v.src1 :: vRegs v.src2 32 v.n)
  let idx := s1.vCodes f v.src2 32 v.n
  let bad := (idx.zipIdx).any fun p => s1.enabled f v p.2 && decide (v.n ≤ p.1)
  let s2 := if v.ts = v.td ∧ vFmt v.ts = none then
      let src := s1.vCodes f v.src1 (vWidth v.ts) v.n
      s1.vWrite f v (vWidth v.td) (idx.map fun i => src.getD i (s1.vZero f v))
    else
      let src := s1.vSrc f v v.src1
      s1.vRound f v (idx.map fun i => src.getD i .zero)
  if bad then s2.vSticky f true else s2

/-! ## Row statistics and softmax (R168 to R170) -/

/-- log2 e and ln 2 in FP32. -/
def fLog2e : Word32 := 0x3FB8AA3B#32
def fLn2 : Word32 := 0x3F317218#32

/-- (mean, rstd) of a row; none enabled: no row. -/
def rowNorm (k : Nat) (eps : Word32) (cnt : Nat) (sum : Word32) (row : List Word32) (on : List Bool) : Word32 × Word32 :=
  let inv := rne32 (FVal.one.div (.ofNat cnt))
  let mean := fMul sum inv
  let sq := (row.zip on).map fun p => if p.2 then let d := fSub p.1 mean; fMul d d else fZero
  (mean, fRsqrt 0 (fAdd (fMul (treeSum fAdd fZero k sq) inv) eps))

/-- Write the pairs in the destination type, count non-finite results of rows that are not empty; in a type that is no floating format the
pairs have no stated codes (log entry 5). -/
def State.vPairs (s : State) (f : Fig) (v : VInst) (rows : List (Word32 × Word32 × Bool)) : State :=
  match vFmt v.td with
  | none =>
    let (x, s1) := s.draw
    let s2 := (s1.vPut f v.dst (vWidth v.td) ((upTo (2 * rows.length)).map fun i => bits (x / 2 ^ (32 * i)) 0 (vWidth v.td))).tally f Unit.vec
      (nonfinTally ((rows.filter fun r => !r.2.2).flatMap fun r => [r.1, r.2.1].filter fNonfin).length)
    if rows.any fun r => r.2.2 then s2.vSticky f false else s2
  | some fm =>
    let a := rows.flatMap fun r => [(fm.narrow (f32 r.1), r.2.2), (fm.narrow (f32 r.2.1), r.2.2)]
    let s1 := (s.vPut f v.dst (vWidth v.td) (a.map fun p => p.1.1)).tally f Unit.vec
      (sumTally (a.map fun p => if p.2 then Tally.zero else p.1.2.tally))
    if rows.any fun r => r.2.2 then s1.vSticky f false else s1

def State.vRowNorm (s : State) (f : Fig) (v : VInst) : State :=
  let s1 := s.vTouch2 f v [v.src1]
  let xs := s1.vSrc f v v.src1
  let ws := xs.map rne32
  let rows := (upTo (vSegs v)).map fun k =>
    let cnt := (s1.vSeg f v xs k).length
    if cnt = 0 then (fZero, fZero, true)
    else
      let row := s1.vSegFull f v fZero ws k
      let on := (((upTo v.n).drop (k * 2 ^ v.seg)).take (2 ^ v.seg)).map (s1.enabled f v)
      let r := rowNorm v.seg (s1.const f v.kslot) cnt (treeSum fAdd fZero v.seg row) row on
      (r.1, r.2, false)
  s1.vPairs f v rows
/-- (m, l) of a row of τx (R169). -/
def rowSmax (k : Nat) (row : List Word32) (on : List Bool) : Word32 × Word32 :=
  let m := treeSum fMax (fInf true) k row
  let ex := (row.zip on).map fun p => if p.2 then fExp2 0 (fMul (fSub p.1 m) fLog2e) else fZero
  (m, fAdd m (fMul fLn2 (fLog2 0 (treeSum fAdd fZero k ex))))

def State.vRowSmax (s : State) (f : Fig) (v : VInst) : State :=
  let s1 := s.vTouch2 f v [v.src1]
  let xs := (s1.vSrc f v v.src1).map fun a => f32 (fMul (s1.const f v.kslot) (rne32 a))
  let rows := (upTo (vSegs v)).map fun k =>
    let seg := s1.vSeg f v xs k
    if seg.all (fun p => p.1 == .inf true) then (fInf true, fInf true, true)
    else if seg.any (fun p => p.1.isNan || p.1 == .inf false) then (fNan, fNan, false)
    else
      let row := s1.vSegFull f v (fInf true) (xs.map rne32) k
      let on := (((upTo v.n).drop (k * 2 ^ v.seg)).take (2 ^ v.seg)).map (s1.enabled f v)
      let r := rowSmax v.seg row on
      (r.1, r.2, false)
  s1.vPairs f v rows

/-- SOFTMAX: l of each row is the second of its pair in SRC2, in the source type (R156, R170, R498). -/
def State.vSoftmax (s : State) (f : Fig) (v : VInst) : State :=
  let s1 := s.vTouch2 f v (v.src1 :: vRegs v.src2 (vWidth v.ts) (2 * vSegs v))
  let xs := s1.vSrc f v v.src1
  let ls := (s1.vSrcN f v v.src2 (2 * vSegs v)).map rne32
  let vals := (xs.zipIdx).map fun p =>
    let l := ls.getD (2 * (p.2 / 2 ^ v.seg) + 1) (fInf true)
    if f32 l == .inf true then .zero
    else f32 (fExp2 0 (fMul (fSub (fMul (s1.const f v.kslot) (rne32 p.1)) l) fLog2e))
  s1.vRound f { v with mz := true } vals

/-! ## Loads and stores -/

def State.vLoad (s : State) (f : Fig) (v : VInst) : State :=
  let (b, s1) := s.useT0 f (v.addr * 64) (min 16384 (v.lines * 64))
  s1.vPut f v.dst 8 (b.map (·.toNat))

def State.vStore (s : State) (f : Fig) (v : VInst) : State :=
  let s1 := s.vTouch f [regKey f v.src1]
  s1.putT0 f (v.addr * 64) ((s1.vCodes f v.src1 8 (min 16384 (v.lines * 64))).map (BitVec.ofNat 8))

/-- Lines a mask load or store takes: those of n bits, or with ZROW of a zero word for each 32 (R158, R187). -/
def VInst.maskLines (v : VInst) : Nat := min v.lines (if v.zrow ∧ v.opc = 0x52 then ceilDiv v.n 256 else ceilDiv v.n 512)

/-- Bits [31:0] of successive zero words, as row masks (R187). -/
def rowzBits (b : Bytes) (n : Nat) : List Bool :=
  (upTo n).flatMap fun k => (upTo 32).map fun r => bit (leNat (bytesAt b (8 * k) 4)) r

def State.vMLoad (s : State) (f : Fig) (v : VInst) : State :=
  let (b, s1) := s.useT0 f (v.addr * 64) (v.maskLines * 64)
  let l := if v.zrow then rowzBits b (b.length / 8) else b.flatMap fun x => (upTo 8).map fun i => bit x.toNat i
  s1.maskPut f (v.dst % 8) (l.take (min 8192 v.n))

def State.vMStore (s : State) (f : Fig) (v : VInst) : State :=
  let s1 := s.vTouch f [maskKey f (v.src1 % 8)]
  let n := min (min 8192 v.n) (512 * v.lines)
  let old := mGet s1.t0.mem (t0Addr f.die f.group (v.addr * 64 + n / 8))
  let last := if n % 8 = 0 then [] else
    [BitVec.ofNat 8 (setBits old.toNat 0 (n % 8) (bits (mGet s1.t0.mask (maskAddr f (v.src1 % 8) (n / 8))).toNat 0 (n % 8)))]
  s1.putT0 f (v.addr * 64) (mRead s1.t0.mask (maskAddr f (v.src1 % 8) 0) (n / 8) ++ last)

/-! ## One instruction -/

/-- Carry out one instruction (Table 18.7). With n = 0 only loads and stores of vector registers do anything (R158). -/
def State.vRun (s : State) (f : Fig) (v : VInst) : State :=
  match v.opc with
  | 0x50 => s.vLoad f v
  | 0x51 => s.vStore f v
  | _ =>
    if v.n = 0 then s
    else match v.opc with
      | 0x52 => s.vMLoad f v
      | 0x53 => s.vMStore f v
      | 0x04 => s.vFma f v
      | 0x09 => s.vSelect f v
      | 0x0A | 0x0B | 0x0C | 0x0D => s.vCompare f v
      | 0x0E => (s.vTouch2 f v [v.src1]).vRound f v (s.vSrc f v v.src1)
      | 0x0F => s.vEncode f v
      | 0x10 => s.vDecode f v
      | 0x20 | 0x21 | 0x22 | 0x23 | 0x24 => s.vTransc f v
      | 0x30 | 0x31 | 0x32 | 0x33 => s.vReduce f v
      | 0x34 | 0x35 => s.vArg f v
      | 0x38 => s.vPerm f v
      | 0x40 => s.vRowNorm f v
      | 0x41 => s.vRowSmax f v
      | 0x42 => s.vSoftmax f v
      | _ => s.vElem f v

/-! ## Bodies -/

/-- One step of a vector body: an instruction with its repetition and its VREP's strides, a wait or a signal. -/
inductive VStep where
  | inst (v : VInst)
  | wait (e : BitVec 128)
  | signal (e : BitVec 128)
deriving DecidableEq, Repr

/-- A body in program order with VREP entries unrolled (R498); `fuel` bounds its entries. -/
def vSteps : Nat → List (BitVec 128) → List VStep
  | 0, _ => []
  | _, [] => []
  | n + 1, e :: l =>
    if entType e = 0x84 then .wait e :: vSteps n l
    else if entType e = 0x83 then .signal e :: vSteps n l
    else if entType e = 0x82 then
      let body := l.take (ent e 8 4)
      ((upTo (ent e 12 12)).flatMap fun r => body.map fun b =>
        .inst (vInst b r (sext 16 (ent e 32 16)) (sext 16 (ent e 48 16)) (ent e 64 4))) ++ vSteps n (l.drop (ent e 8 4))
    else .inst (vInst e 0 0 0 0) :: vSteps n l

/-- Cycles of a vector instruction (R163, Table 6.3). -/
def instTime (v : VInst) : Nat :=
  let n := v.n
  let segs := ceilDiv n (2 ^ v.seg)
  if inRange 0x20 0x24 v.opc then 12 + ceilDiv n 16
  else if inRange 0x30 0x35 v.opc then 18 + ceilDiv n 64
  else if v.opc = 0x38 then 12 + ceilDiv n 32
  else if v.opc = 0x40 then 24 + 2 * ceilDiv n 64 + ceilDiv segs 16
  else if v.opc = 0x41 then 24 + ceilDiv n 64 + ceilDiv n 16 + ceilDiv segs 16
  else if v.opc = 0x42 then 12 + ceilDiv n 16
  else if v.opc = 0x50 ∨ v.opc = 0x51 then 12 + ceilDiv (v.lines * 64) 256
  else if v.opc = 0x52 ∨ v.opc = 0x53 then 12 + ceilDiv n 2048
  else 12 + ceilDiv n (if vWidth v.ts ≤ 16 ∧ vWidth v.td ≤ 16 then 128 else 64)

/-- Run a body on from its current step until it ends or a WAIT is not satisfied (R226, R490): the state and how many
steps have run. A SIGNAL acts `el` cycles on, after the instructions before it, each of which takes `w` times its cycles (R163;
log entry 62). -/
def State.vBody (s : State) (f : Fig) (w : Nat) : Nat → Nat → List VStep → State × Nat
  | _, k, [] => (s, k)
  | el, k, x :: l =>
    match x with
    | .inst v => State.vBody (s.vRun f v) f w (el + w * instTime v) (k + 1) l
    | .signal e => State.vBody (s.issue f e el) f w el (k + 1) l
    | .wait e => if s.waitMet f e then State.vBody s f w el (k + 1) l else (s, k)

end Sys2Proof.Machine
end

