-- ==== Sys2Proof/Machine/Clock.lean ====
section
/-! DEFINITION. The clock of a command: signals in flight apply when their cycle is reached (R227), and vector bodies whose WAIT they satisfy go
on from it (R226). -/
namespace Sys2Proof.Machine

/-- A vector body runs on from the step it stopped at: with the cycles its instructions take (`w` 1), at its
completion with its signals issued by then (`w` 0; log entry 62). -/
def State.vecRun (s : State) (f : Fig) (prog : List (BitVec 128)) (w : Nat) : State :=
  let k := (s.stat f.fid).at_
  let r := s.vBody f w 0 k ((vSteps prog.length prog).drop k)
  r.1.setStat { r.1.stat f.fid with at_ := r.2 }

/-- Steps of a running vector body not yet run. -/
def State.stepsLeft (s : State) (x : FigStat) : List VStep :=
  match s.figure x.fid with
  | none => []
  | some f => match f.body with
    | .vec prog => (vSteps prog.length prog).drop x.at_
    | _ => []

/-- A running vector body stands at a WAIT that is satisfied now: it goes on (R226). -/
def State.resumeOne (s : State) (x : FigStat) : State :=
  match s.figure x.fid, s.stepsLeft x with
  | some f, .wait e :: _ => if s.waitMet f e then (match f.body with | .vec prog => s.vecRun f prog 1 | _ => s) else s
  | _, _ => s

def State.resume (s : State) : State := if s.ringsOn && !s.run.stopped then s.running.foldl State.resumeOne s else s

/-- The earliest signal in flight. -/
def firstSig : List Signal → Option Signal
  | [] => none
  | x :: l => match firstSig l with
    | none => some x
    | some y => some (if y.due < x.due then y else x)

/-- Apply every signal whose cycle is reached, cycle by cycle, waiting bodies going on at each; `n` bounds the signals. -/
def State.syncUpTo : Nat → Nat → State → State
  | 0, _, s => s
  | n + 1, c, s =>
    match firstSig s.run.sig with
    | none => s
    | some g => if g.due ≤ c then
        State.syncUpTo n c (State.syncCycle { s with clk := { s.clk with cyc := max s.clk.cyc g.due } } g.key g.due).resume
      else s

/-- Signals in flight, and those that running bodies may still issue. -/
def State.sigBound (s : State) : Nat := s.run.sig.length + (s.running.map fun x => (s.stepsLeft x).length).sum

/-- The time-base reading. -/
def State.clock (s : State) : Nat := s.clk.base + s.clk.cyc

def chKey (mu ch : Nat) : Nat := mu * 24 + ch

/-- Waiting cycles of a die are accounted up to now: each requester that waits on any of its channels, once a cycle (R286). -/
def State.settleWaits (s : State) (mu : Nat) : State :=
  let now := s.clock
  let mine := s.t1.req.filter fun r => r.key / 24 == mu
  if mine.isEmpty then s
  else
    let s1 := (upTo 7).foldl (fun t n =>
      let rs := mine.filter fun r => r.req == n
      if rs.isEmpty then t
      else
        let since := rs.foldl (fun a r => min a r.since) now
        t.count ((F.MU_ARB_WAIT_n_CYCLES.at 8 n).mu mu) (now - max since (tGet s.t1.settled mu))) s
    { s1 with t1 := { s1.t1 with settled := tSet s1.t1.settled mu now } }

/-- Time moves to cycle `cyc` of the beat (never back, never past the last cycle), in BOOT to cycle `cyc` since BOOT
started; signals due by then have applied and waits on the arbiters are accounted (R11, R227, R286; log entry 1). -/
def State.tick (s : State) (cyc : Nat) : State :=
  let c := if s.dev == .boot || s.dev == .off then max s.clk.cyc cyc
    else min (max s.clk.cyc cyc) (s.clk.beatCycles - 1)
  let s1 := if s.run.sig.isEmpty then s else s.syncUpTo s.sigBound c
  let s2 : State := { s1 with clk := { s1.clk with cyc := c }, run := { s1.run with sigDone := s1.run.sigDone.filter fun g => g.due == c } }
  if s2.t1.req.isEmpty then s2 else (upTo 8).foldl State.settleWaits s2

end Sys2Proof.Machine
end

