-- ==== Sys2Proof/Machine/EventRows.lean ====
section
/-! DEFINITION. Rows of errors and events (R446 to R452, R458) and the two that only report one: a scratchpad ECC error
(R211) and a die-to-die retry (R19). -/
namespace Sys2Proof.Machine

/-- ERROR_DETECTED (R446): stamped, charged, class effects, sent to HD. -/
def execErrorDetected (cyc : Nat) (e : ErrIn) (s : State) : Host.Outcome State Fault Refusal :=
  if s.dev == .off then .next s else
  .next ((s.tick cyc).detect e)

/-- ERROR_LOGGED (R449, R450, R452): the earliest error on its way to HD reaches it. -/
def execErrorLogged (cyc : Nat) (s : State) : Host.Outcome State Fault Refusal :=
  if s.dev == .off then .next s else
  .next (s.tick cyc).logNext

/-- ERROR_HANDLING (R451, R452): the handler takes up the next entry. -/
def execErrorHandling (cyc : Nat) (s : State) : Host.Outcome State Fault Refusal :=
  if s.dev == .off then .next s else
  .next (s.tick cyc).takeUp

/-- ERROR_HANDLED (R451): the entry in hand is done. -/
def execErrorHandled (cyc : Nat) (s : State) : Host.Outcome State Fault Refusal :=
  if s.dev == .off then .next s else
  .next (s.tick cyc).handled

/-- EVENT_BEAT_CLOSE (R458): every die's end-of-beat token of the closed beat has arrived; records of the open beat may be
written. -/
def execEventBeatClose (cyc : Nat) (s : State) : Host.Outcome State Fault Refusal :=
  if s.dev == .off then .next s else
  let s1 := s.tick cyc
  .next (s1.openEvents s1.clk.beat)

/-- Source of a scratchpad error. -/
def spSource (die cl : Nat) : Source := ⟨die, 0, cl⟩

/-- SCRATCHPAD_ECC (R211): a corrected error counts and is class C; an uncorrectable one returns the line as poison and is
class D. The 3 cycles a correction adds are the completion's (*figure* operands carry the times). -/
def execScratchpadEcc (cyc : Nat) (die cluster line : Nat) (fatal : Bool) (fid : Option Nat) (s : State) : Host.Outcome State Fault Refusal :=
  if s.dev == .off then .next s else
  let s1 := s.tick cyc
  if !s1.hasDie die then .next s1
  else if fatal then
    .next ((s1.t0Mark die cluster line 1 true).detect ⟨Er.spFatal, spSource die cluster, fid, line⟩)
  else .next ((s1.count (F.CD_SP_ECC_CORR_COUNT.cd die) 1).detect ⟨Er.spCorr, spSource die cluster, fid, line⟩)

/-- The die-to-die links of Table 1.3 (R17), as pairs of die codes: mesh, home memory-update dies, hub, link dies. -/
def State.dieLinks (s : State) : List (Nat × Nat) :=
  (if s.vg4 then [(0, 1), (0, 2), (1, 3), (2, 3)] else [(0, 1)])
    ++ (upTo s.nMu).map (fun m => (m / 2, 4 + m)) ++ (upTo s.nCd).map (fun c => (c, 14)) ++ (upTo s.nCd).map fun c => (c, if s.vg4 then 12 + c / 2 else 12)

/-- Die-to-die ports of a die: one for each of its links, numbered in the order of Table 1.3 (log entry 72). -/
def State.linkPorts (s : State) (die : Nat) : Nat := (s.dieLinks.filter fun l => l.1 == die || l.2 == die).length

/-- DIE_TO_DIE_RETRY (R19): a retry delivers the same data later and changes nothing else; a link that cannot be retrained
is class F. A port the die does not have has no link. -/
def execDieToDieRetry (cyc : Nat) (die port lanes : Nat) (retrained : Bool) (s : State) : Host.Outcome State Fault Refusal :=
  if s.dev == .off then .next s else
  let s1 := s.tick cyc
  if retrained || !s1.hasDie die || decide (s1.linkPorts die ≤ port) then .next s1 else .next (s1.detectAt Er.d2dLost die 3 port lanes)

end Sys2Proof.Machine
end

