-- ==== Sys2Proof/Machine/Regs.lean ====
section
/-! DEFINITION. Reads and writes of BAR0 (R503 to R513): what a read returns, what a write of each access code does
(R9, R10, R509), and the registers whose own rules refuse or ignore a write (R87, R281, R291, R311, R410, R510). -/
namespace Sys2Proof.Machine

/-- RWL fields and the feature word are locked: from an accepted START until reset, or from GO until a held START is evaluated
(R9, R440, R507). -/
def State.locked (s : State) : Bool :=
  s.boot.startHeld || s.boot.started || s.dev == .running || s.dev == .draining

/-- The registers that answer before UNCONFIGURED (R471, R507). -/
def State.servedEarly (s : State) (off : Nat) : Bool :=
  off == 0x0 || off == 0x4 || off == 0x8 || off == 0xC
    || (s.boot.waitHost && (off == 0x20 || off == 0x24 || off == 0x28 || off == 0x2C))

/-- BAR0 answers at this word. -/
def State.barServed (s : State) (off : Nat) : Bool :=
  match s.dev with
  | .off => false
  | .boot => s.servedEarly off
  | _ => true

/-- A window of a block is populated (R506, R513). -/
def State.windowOn (s : State) (a : BarAddr) : Bool :=
  match a.blk with
  | .cd => decide (a.window < s.nCd)
  | .mu => decide (a.window < s.nMu)
  | .ld => decide (a.window < s.nLd)
  | .caller => s.hasDie a.window && (!hdOnly .caller a.rel || a.window == 14)
  | _ => true

/-- HUB_STATE: the device state and HALT cause, and the link fields as trained (Table 15.10). -/
def State.hubState (s : State) : Nat := s.dev.code + s.halt * 8 + bits (tGet s.regs 0x4) 6 4 * 64

/-- The stored word a register of a populated window reads as: of MU_ARB_CFG, NTH reads 0 on VG4 and STARVE_US on VG2 (R291). -/
def State.wordAt (s : State) (a : BarAddr) : Nat :=
  let off := a.blk.base + a.window * a.blk.step + a.rel
  if a.blk = .hub ∧ a.rel = 4 then s.hubState
  else if a.blk = .err ∧ 0x1000 ≤ a.rel ∧ a.rel < 0x3000 then
    match s.logSlot ((a.rel - 0x1000) / 32) with
    | some l => bits l.encode (8 * ((a.rel - 0x1000) % 32)) 32
    | none => 0
  else if a.blk = .mu ∧ a.rel = 0 then
    let w := tGet s.regs off
    if s.vg4 then setBits w 0 7 0 else setBits w 8 10 0
  else if ld0Only a.blk a.rel then tGet s.regs (Blk.ld.base + a.rel)
  else if a.blk = .ld ∧ 0x100 ≤ a.rel ∧ a.rel < 0x148 ∧ (!s.hasPort ((a.rel - 0x100) / 4) || s.portLd ((a.rel - 0x100) / 4) != a.window) then 0
  else match regAt a.blk a.rel with
    | none => 0
    | some r => if r.fields.all (fun f => f.acc == .wo) then 0 else tGet s.regs off

/-- The window a read reaches: broadcast windows read the lowest-numbered die's copy (R511). -/
def readWindow (a : BarAddr) : BarAddr :=
  if (a.blk = .cd ∧ a.window = 4) ∨ (a.blk = .mu ∧ a.window = 8) then { a with window := 0 } else a

/-- A 4-byte read at an aligned offset (R503, R506, R507). -/
def State.readWord (s : State) (off : Nat) : Nat :=
  if !s.barServed off then 0
  else match barAddr off with
    | none => 0
    | some a => let b := readWindow a; if s.windowOn b then s.wordAt b else 0

/-- A read of BAR0: naturally aligned reads of 4 and 8 bytes, any other reads 0 (R504). -/
def State.readBar0 (s : State) (off size : Nat) : Nat :=
  if size = 4 ∧ off % 4 = 0 then s.readWord off
  else if size = 8 ∧ off % 8 = 0 then s.readWord off + 2 ^ 32 * s.readWord (off + 4)
  else 0

/-! ## Stored writes by access code -/

/-- One field's part of a stored word after a write of `v` to a word whose lowest bit is bit `base` of the register. -/
def fieldWrite (locked : Bool) (base old v acc : Nat) (f : FieldRow) : Nat :=
  let lo := max f.lo base
  let hi := min (f.lo + f.w) (base + 32)
  if hi ≤ lo then acc
  else
    let w := hi - lo
    match f.acc with
    | .ro => acc
    | .rw | .rws => setBits acc (lo - base) w (bits v (lo - base) w)
    | .rwl => if locked then acc else setBits acc (lo - base) w (bits v (lo - base) w)
    | .w1c => setBits acc (lo - base) w (Nat.land (bits old (lo - base) w) (2 ^ w - 1 - bits v (lo - base) w))
    | .wo => if f.w ≤ 1 then acc else setBits acc (lo - base) w (bits v (lo - base) w)

/-- Store a 4-byte write into the populated window `a` names, field by field; reserved bits are ignored (R10). -/
def State.storeWord (s : State) (a : BarAddr) (v : Nat) : State :=
  match regAt a.blk a.rel with
  | none => s
  | some r =>
    let off := a.blk.base + a.window * a.blk.step + a.rel
    let base := ((a.rel - r.off) % r.stride) * 8
    let old := tGet s.regs off
    { s with regs := tSet s.regs off (r.fields.foldl (fun acc f => fieldWrite s.locked base old v acc f) old) }

/-! ## Refusals (R510) -/

/-- A register write is refused: no field changes; HUB_REG_REFUSED takes offset and status and counts; one REG_REFUSED
event (R510). -/
def State.refuseReg (s : State) (off status : Nat) : State :=
  let s1 := (s.set F.HUB_REG_REFUSED_OFFSET off).set F.HUB_REG_REFUSED_STATUS status
  (s1.count F.HUB_REG_REFUSED_COUNT 1).emit Ev.regRefused 14 (off + status * 2 ^ 32)

/-- PLC_PLAN_CFG (R87): PHRASE 1 to 4,096, HEADROOM 0 to 100, LEAD 1 to 8. A SET_PHRASE that no build carries yet gives way to the later
write (R85, R529). -/
def State.writePlanCfg (s : State) (v : Nat) : State :=
  if inRange 1 4096 (bits v 0 13) && inRange 0 100 (bits v 16 7) && inRange 1 8 (bits v 24 4) then
    State.storeWord { s with plan := { s.plan with req := { s.plan.req with phrase := none } } } ⟨.plc, 0, 0⟩ v
  else s.refuseReg 0x10000 St.planRange

/-- PLC_MARGIN (R87): CHAIN 0 to 100, MAND 5 to 200, PRO 0 to 100. -/
def State.writeMargin (s : State) (v : Nat) : State :=
  if inRange 0 100 (bits v 0 8) && inRange 5 200 (bits v 8 8) && inRange 0 100 (bits v 16 8) then
    s.storeWord ⟨.plc, 0, 4⟩ v
  else s.refuseReg 0x10004 St.planRange

/-- PLC_LR_MUL (R311): refused without the explicit learning-rate feature. -/
def State.writeLrMul (s : State) (v : Nat) : State :=
  if s.feat 6 then s.storeWord ⟨.plc, 0, 0x2C⟩ v else s.refuseReg 0x1002C St.expertDenied

/-- The windows a write reaches: every populated die for a broadcast window (R511). -/
def State.writeWindows (s : State) (a : BarAddr) : List BarAddr :=
  if a.blk = .cd ∧ a.window = 4 then (upTo s.nCd).map fun k => { a with window := k }
  else if a.blk = .mu ∧ a.window = 8 then (upTo s.nMu).map fun k => { a with window := k }
  else if s.windowOn a && !(ld0Only a.blk a.rel && a.window != 0) then [a] else []

/-- MU_ARB_RANK in window `w` (8: broadcast): refused without the explicit arbiter feature (R281, R291). -/
def State.writeArbRank (s : State) (w v : Nat) : State :=
  let a : BarAddr := ⟨.mu, w, 4⟩
  if (s.writeWindows a).isEmpty then s
  else if s.feat 4 then (s.writeWindows a).foldl (fun t b => t.storeWord b v) s
  else s.refuseReg (0x180004 + w * 0x10000) St.expertDenied

/-- CEL_RING: refused without the expert snapshot feature; CEL_CFG: refused out of range, ignored once locked
(R410). -/
def State.writeCelRing (s : State) (v : Nat) : State :=
  if s.feat 9 then s.storeWord ⟨.cel, 0, 4⟩ v else s.refuseReg 0x30004 St.expertDenied

def State.writeCelCfg (s : State) (v : Nat) : State :=
  if s.locked then s
  else if inRange 1 15 (bits v 0 4) && inRange 0 75 (bits v 4 7) && inRange 1 31 (bits v 11 5) then
    s.storeWord ⟨.cel, 0, 0⟩ v
  else s.refuseReg 0x30000 St.planRange

/-- A field of a memory-update die register: written if in range and of this SKU, otherwise left as it was (R291). -/
def State.putIf (s : State) (f : Field) (ok : Bool) (v : Nat) : State := if ok then s.set f v else s

/-- MU_ARB_CFG of die `k`: NTH exists on VG2, STARVE_US on VG4 (R291, Table 10.6). -/
def State.writeArbCfg (s : State) (k v : Nat) : State :=
  ((s.putIf (F.MU_ARB_CFG_NTH.mu k) (!s.vg4 && inRange 4 64 (bits v 0 7)) (bits v 0 7)).putIf (F.MU_ARB_CFG_STARVE_US.mu k)
    (s.vg4 && inRange 1 1000 (bits v 8 10)) (bits v 8 10)).putIf (F.MU_ARB_CFG_GAP.mu k) (inRange 8 1024 (bits v 18 11)) (bits v 18 11)

/-- MU_SCRUB_CFG of die `k`: PERIOD_H 1 to 255 (Table 10.6). -/
def State.writeScrubCfg (s : State) (k v : Nat) : State :=
  s.putIf (F.MU_SCRUB_CFG_PERIOD_H.mu k) (decide (1 ≤ bits v 0 8)) (bits v 0 8)

/-! ## Writes with an action of their own -/

/-- Clear W1C bits of a register word; a device set in the same cycle prevails and counts as a transition from 0
(R509). The newly set bits are the second component. -/
def State.w1c (s : State) (f : Field) (v setNow : Nat) : State × Nat :=
  let kept := Nat.land (s.get f) (2 ^ f.w - 1 - v % 2 ^ f.w)
  (s.set f (Nat.lor kept (setNow % 2 ^ f.w)), Nat.land (setNow % 2 ^ f.w) (2 ^ f.w - 1 - kept))

/-- ERR_STATUS: a write whose DOUBLE bit is 0 clears DOUBLE and MAX; any other is ignored (R464, R509). -/
def State.writeErrStatus (s : State) (v : Nat) : State :=
  if bit v 3 then s else (s.set F.ERR_STATUS_DOUBLE 0).set F.ERR_STATUS_MAX 0

/-- ERR_LOG_HEAD: a value above ERR_LOG_TAIL, or more than 256 below it, is ignored (R509). -/
def State.writeLogHead (s : State) (v : Nat) : State :=
  if cntSub s.logTail v ≤ 256 then s.set F.ERR_LOG_HEAD_COUNT v else s

/-- HUB_FEAT_ACCEPT_k: stored and, in UNCONFIGURED, the device becomes NEGOTIATED; ignored once locked (R439, R440). -/
def State.writeFeat (s : State) (k v : Nat) : State :=
  if s.locked || (s.dev != .unconfigured && s.dev != .negotiated) || decide (8 ≤ k) then s
  else
    let s1 := s.storeWord ⟨.hub, 0, 0x60 + 4 * k⟩ v
    if s.dev == .unconfigured then s1.enter .negotiated 0 else s1

/-- A bit of MU_ARB_STARVE went from 0 to 1: an ARB_STARVE event, and the placement controller knows (R288, R289). -/
def State.starveEvent (s : State) (mu req ch wait : Nat) : State :=
  State.emit { s with t1 := { s.t1 with flagged := s.t1.flagged ++ [(mu, req)] } } Ev.arbStarve (4 + mu) (req + ch * 8 + (wait % 2 ^ 32) * 2 ^ 32)

/-- The request of requester `req` that has waited longest on die `mu`, if it waits beyond STARVE_US (R288). -/
def State.starving (s : State) (mu req : Nat) : Option ArbReq :=
  (s.t1.req.filter fun r => r.key / 24 == mu && r.req == req && decide (s.get (F.MU_ARB_CFG_STARVE_US.mu mu) * 1900 < s.clock - r.since)).foldl
    (fun b r => match b with
      | none => some r
      | some x => some (if r.since < x.since then r else x)) none

end Sys2Proof.Machine
end

