-- ==== Sys2Proof/Machine/Boot.lean ====
section
/-! DEFINITION. Power, resets and BOOT (R465 to R477, R515, R519 to R524), identity (R479, R481), START (R21, R30, R439,
R440, R463, R470), and the rows of those happenings. -/
namespace Sys2Proof.Machine

/-! ## Measurements (Table 17.7) -/

def measure512 (b : Bytes) : Nat := Config.shake256 512 b

/-- The fuse state that index 4 measures. -/
def State.fuseBytes (s : State) : Bytes :=
  leBytes 1 s.fuses.sku ++ leBytes 1 s.fuses.revoked ++ leBytes 1 s.fuses.arb ++ leBytes 1 (s.get F.SEC_DBG_CTL_LEVEL)
    ++ s.fuses.keyHash.flatMap (leBytes 32)

def State.setMeas (s : State) (i v : Nat) : State := { s with sec := { s.sec with meas := s.sec.meas.set (i - 1) v } }

/-- The key unit derives the DICE key from indices 1 to 4; its certificate needs the identity key, which signs nothing
while a debug level is open (R479, R483). -/
def State.deriveAlias (s : State) : State :=
  { s with sec := { s.sec with aliasK := Config.aliasKey (s.sec.meas.take 4), aliasCert := s.get F.SEC_DBG_CTL_LEVEL == 0 } }

/-- A new unlock nonce (R482). -/
def State.drawNonce (s : State) : State :=
  let s1 : State := { s with sec := { s.sec with draws := s.sec.draws + 1 } }
  s1.set F.SEC_DBG_NONCE_VALUE (Config.nonce s1.sec.draws % 2 ^ 128)

/-! ## Firmware images (R475, R476) -/

def imgFld (b : Bytes) (byte n : Nat) : Nat := leNat (bytesAt b byte n)
def imgSvn (b : Bytes) : Nat := imgFld b 6 2

/-- The first check of R476 that an image fails: 0 none, 6 no image. -/
def State.verifyImage (s : State) (b : Bytes) : Nat :=
  let slot := imgFld b 16 1 % 4
  let key := bytesAt b 64 1793
  let payload := bytesAt b 4096 (imgFld b 20 4)
  if b.length < 4096 then 6
  else if imgFld b 0 4 ≠ 0x56474657 ∨ imgFld b 4 2 ≠ 1 then 1
  else if Config.shake256 256 key ≠ s.fuses.keyHash.getD slot 0 ∨ bit s.fuses.revoked slot then 2
  else if !Config.falconVerify key (Config.shake256 512 (b.take 2048 ++ payload)) (bytesAt b 2048 1280) then 3
  else if imgSvn b < s.fuses.arb ∨ 64 < imgSvn b then 4
  else if !Config.sectionsOk b then 5
  else 0

def State.flashSlot (s : State) (k : Nat) : FlashSlot := if k = 0 then s.flash.a else s.flash.b

/-- The check of a flash slot: a slot not marked valid holds no image. -/
def State.verifySlot (s : State) (k : Nat) : Nat :=
  if (s.flashSlot k).valid then s.verifyImage (s.flashSlot k).image else 6

/-! ## BOOT -/

/-- Steps 2 to 6 with image `b` accepted: the dies are released, spares mapped (R111), firmware measured, LPDDR5X trained or
restored with its refresh cost (R271), and the self-test run; a failure is logged and HALTs with cause 2 (R471, R473). -/
def State.bootDies (s : State) (b : Bytes) : State :=
  let s0 : State := { s with boot := { s.boot with svn := imgSvn b, waitHost := false, recovery := false, trained := true } }
  let s1 := ((s0.setMeas 2 (measure512 (Config.hdSection b))).setMeas 3 (measure512 (Config.dieSections b))).deriveAlias
  let s2 := (upTo s1.nCd).foldl (fun t k => (t.set (F.CD_SPARE_MAP_ROWS.cd k) (t.fuses.spareRows.getD k 0)).set
    (F.CD_SPARE_MAP_COLS.cd k) (t.fuses.spareCols.getD k 0)) s1
  let c := s2.boot.test.cost
  let s3 := if s2.boot.kind == .warm || s2.boot.kind == .fabric then s2 else
    (upTo s2.nMu).foldl (fun t k => ((t.set (F.MU_REF_COST_X1.mu k) c.1).set (F.MU_REF_COST_X2.mu k) c.2.1).set
      (F.MU_REF_COST_X4.mu k) c.2.2) s2
  match s3.boot.test.fail with
  | none => s3
  | some e =>
    let st := s3.stamp
    (st.2.logError ⟨if errClass e.code = 3 then e.code else Er.selfTest, e.src, st.2.clk.beat, st.1, 0xFFFFFFFF, e.detail⟩).haltQuiet 2

/-- Step 2 from module flash: the slot ACTIVE names, then the other (R476); with no image the device stays in BOOT in
recovery (R477). -/
def State.bootFlash (s : State) : State :=
  let a := s.get F.HUB_BOOT_CFG_ACTIVE
  let ra := s.verifySlot a
  if ra = 0 then
    ((s.set F.HUB_BOOT_STATUS_SLOT a).set F.HUB_BOOT_STATUS_CODE 0).bootDies (s.flashSlot a).image
  else
    let rb := s.verifySlot (1 - a)
    if rb = 0 then
      ((s.set F.HUB_BOOT_STATUS_SLOT (1 - a)).set F.HUB_BOOT_STATUS_CODE 0).bootDies (s.flashSlot (1 - a)).image
    else
      let s1 := s.set F.HUB_BOOT_STATUS_CODE rb
      { s1 with boot := { s1.boot with recovery := true } }

/-- BOOT from its first step: fuses (already in the registers), the fuse measurement, a new nonce, then the image from
flash or the wait for the host (R471, R474). -/
def State.bootSteps (s : State) : State :=
  let s1 := ((s.setMeas 1 Config.romMeasure).setMeas 4 (measure512 s.fuseBytes)).drawNonce
  if s1.get F.HUB_BOOT_CFG_SRC = 1 then
    let s2 := s1.set F.HUB_BOOT_STATUS_CODE 7
    { s2 with boot := { s2.boot with waitHost := true } }
  else s1.bootFlash

/-! ## Which words a reset keeps (Table 17.3, R515) -/

/-- RO registers with a reset value that are no counters. -/
def notCounter : List String :=
  ["HUB_STATE", "HUB_BOOT_STATUS", "HUB_STRAP", "PLC_LSCALE", "PLC_STEP", "LD_SEAT", "LD_PORT_n", "LD_BEAT_OFFSET", "CEL_INTERVAL",
   "CEL_STATUS", "CEL_OPEN", "CEL_LAST", "CEL_DOMAIN_LAST", "CEL_WEAR", "ERR_LOG_TAIL", "ERR_LOG_n"]

/-- A counter of Table 16.8: cleared at START (R463), kept through resets but power-on (R515). -/
def RegRow.counter (r : RegRow) : Bool :=
  r.fields.all (fun f => f.acc == .ro && f.rst == .val 0) && !notCounter.contains r.name

def isCounterWord (off : Nat) : Bool :=
  match barAddr off with
  | some a => (regAt a.blk a.rel).any RegRow.counter
  | none => false

/-- Words of RWS fields, and ERR_LOG_TAIL (R9, R448). -/
def isStickyWord (off : Nat) : Bool := off == 0x10 || off == 0x50004 || off == 0x50008 || off == 0x5000C
/-- Link-die words (R515). -/
def isLinkWord (off : Nat) : Bool := decide (0x240000 ≤ off) && decide (off < 0x260000)
def isRefCost (off : Nat) : Bool := decide (0x180000 ≤ off) && decide (off < 0x200000) && off % 0x10000 == 0x10

/-- The word survives a reset of this kind. -/
def keptWord (k : ResetKind) (off : Nat) : Bool :=
  match k with
  | .power => false
  | .cold => isCounterWord off || isStickyWord off
  | .warm => isCounterWord off || isStickyWord off || isRefCost off || off == 0x4
  | .fabric => isCounterWord off || isStickyWord off || isRefCost off || off == 0x4 || isLinkWord off

def resetKindCode : ResetKind → Nat
  | .power => 0 | .cold => 1 | .warm => 2 | .fabric => 3

/-- The register file after a reset. -/
def State.regsAfter (s : State) (k : ResetKind) (straps : Nat) : Tab :=
  let fuse := s.fuses.revoked + (if s.fuses.dbgDis then 16 else 0)
  let base := tabOf (resetWords straps s.fuses.sku s.fuses.stepping s.fuses.arb fuse)
  let base1 := if k == .power then base
    else base.filter fun e => !(keptWord k e.1)
  let kept := s.regs.filter fun e => keptWord k e.1
  let t1 := kept.foldl (fun t e => tSet t e.1 e.2) base1
  let t2 := fset t1 F.HUB_BOOT_STATUS_LAST_RESET (resetKindCode k)
  let t3 := if k == .power then t2
    else fset (fset t2 F.ERR_STATUS_DOUBLE (s.get F.ERR_STATUS_DOUBLE)) F.ERR_STATUS_MAX (s.get F.ERR_STATUS_MAX)
  if k == .warm || k == .fabric then
    fset (fset t3 F.SEC_DBG_CTL_LEVEL (s.get F.SEC_DBG_CTL_LEVEL)) F.SEC_DBG_CTL_FAILS (s.get F.SEC_DBG_CTL_FAILS)
  else t3

/-- The cellar after a reset: what it holds is kept, its open cut is abandoned and its volatile work ends (R400, R469). -/
def Cellar.afterReset (c : Cellar) : Cellar :=
  { Cellar.reset with snaps := c.snaps, spare := c.spare, readOnly := c.readOnly, wear := c.wear }

/-- A reset of kind `k` (Table 17.3): BOOT starts at its first step; every Caller stops; commands not yet completed are
discarded without a completion (R468, R469); a transfer of firmware ends with its slot invalid (R485). -/
def State.reset_ (s : State) (k : ResetKind) (straps : Nat) (test : BootTest) : State :=
  let fab := if k == .fabric then s.fab else Fabric.reset s.fuses.serial
  let link := (k == .warm || k == .fabric) && s.host.link
  let clk := if k == .fabric then { Clock.reset with beat := s.clk.beat, epoch := s.clk.epoch, lenUs := s.clk.lenUs, rindCyc := s.clk.rindCyc, ticking := true }
    else { Clock.reset with lenUs := strapBeatUs straps, rindCyc := rindCycles (strapBeatUs straps) 0 }
  let trained := (k == .warm || k == .fabric) && s.boot.trained
  let s1 : State :=
    { pending := s.pending, dev := .boot, halt := 0, free := s.free, pins := s.pins, fuses := s.fuses, flash := s.flash
      boot := { Boot.reset k test with trained := trained }
      regs := s.regsAfter k straps
      clk := clk
      host := { HostIf.reset with link := link, mem := s.host.mem, irqSent := s.host.irqSent, crs := s.host.crs, cfgOk := s.host.cfgOk }
      err := if k == .power then Errors.reset else { Errors.reset with log := s.err.log }
      sec := { Security.reset with draws := s.sec.draws, replies := s.sec.replies }
      plan := Plan.reset, run := Run.reset, t0 := T0.reset, t1 := T1.reset, ing := Ingest.reset, fab := fab
      cel := s.cel.afterReset }
  let s2 := if s.cel.open_.isSome then s1.count F.CEL_ABANDON_COUNT 1 else s1
  let s3 := if k == .fabric then (s2.set (F.CALLER_BEAT_CFG_LEN_US.caller 14) s.clk.lenUs).set (F.CALLER_BEAT_CFG_RIND_US.caller 14) (s.clk.rindCyc / 1900) else s2
  s3.bootSteps

/-- A reset that keeps the sampled straps (R465). -/
def State.resetKept (s : State) (k : ResetKind) (test : BootTest) : State :=
  s.reset_ k (s.get F.HUB_STRAP_RAW) test

/-- Enter OFF: every die held in reset, nothing written anywhere (R469). -/
def State.powerOff (s : State) : State := { s with dev := .off, run := { s.run with stopped := true }, host := { s.host with link := false } }

/-! ## Rows: power and resets -/

/-- POWER_ON_RESET (R468): PWRGD rises; straps are sampled (R465, R467) and everything but fuses, flash and cellar starts
again. A module that shut its power stages off stays OFF until PWRGD has fallen (R519). -/
def execPowerOnReset (_cyc : Nat) (straps : BitVec 16) (test : BootTest) (s : State) : Host.Outcome State Fault Refusal :=
  if s.pins.latched then .next s
  else
    let s1 : State := { s with pins := { s.pins with pwrgd := true, vin := true, refclk := true } }
    .next (s1.reset_ .power straps.toNat test)

/-- The module is powered and out of OFF. -/
def State.powered (s : State) : Bool := s.dev != .off

/-- PWRGD_FALL (R469, R524): OFF at once, nothing written; a latched shutdown is released by it (R519). -/
def execPwrgdFall (cyc : Nat) (s : State) : Host.Outcome State Fault Refusal :=
  let s1 := if s.powered then s.tick cyc else s
  let s2 : State := { s1 with pins := { s1.pins with pwrgd := false, latched := false } }
  .next s2.powerOff

/-- COLD_RESET (R468, R523): PERST# asserted while PWRGD is high. -/
def execColdReset (cyc : Nat) (test : BootTest) (s : State) : Host.Outcome State Fault Refusal :=
  if s.powered then
    let s1 := s.tick cyc
    .next ({ s1 with pins := { s1.pins with perstN := false } }.resetKept .cold test)
  else .next s

/-- Link fields of HUB_STATE as trained, and the T2 limit they give (R412, R415). -/
def t2Limit (width speed : Nat) : Nat := (48 / 2 ^ width) / 2 ^ speed

def State.trainLink (s : State) (cxl : Bool) (width speed : Nat) : State :=
  let w := (if cxl then 0 else 1) + width * 2 + speed * 8
  let s1 : State := { s with regs := fset s.regs ⟨0x4, 6, 4⟩ w }
  { s1 with host := { s1.host with link := true } }

/-- PERST_RELEASE (R523): PERST_N rises and the host link trains; BOOT does not restart. -/
def execPerstRelease (cyc : Nat) (cxl : Bool) (width speed : Nat) (s : State) : Host.Outcome State Fault Refusal :=
  if s.powered then
    let s1 := s.tick cyc
    let s2 : State := { s1 with pins := { s1.pins with perstN := true } }
    .next (s2.trainLink cxl width speed)
  else .next { s with pins := { s.pins with perstN := true } }

/-- HUB_RESET may be written: BAR0 serves it outside BOOT (R471). -/
def State.mayHubReset (s : State) : Bool := s.powered && s.dev != .boot

/-- HUB_RESET_COLD (R468): a write of HUB_RESET.COLD. -/
def execHubResetCold (cyc : Nat) (test : BootTest) (s : State) : Host.Outcome State Fault Refusal :=
  if s.mayHubReset then .next ((s.tick cyc).resetKept .cold test) else .next s

/-- HUB_RESET_WARM (R468): a write of HUB_RESET.WARM; LPDDR5X training and the host link are kept. -/
def execHubResetWarm (cyc : Nat) (test : BootTest) (s : State) : Host.Outcome State Fault Refusal :=
  if s.mayHubReset then .next ((s.tick cyc).resetKept .warm test) else .next s

/-- PLDM_RESET (R468, R485): a warm reset asked for over the management bus, in any state but OFF. -/
def execPldmReset (cyc : Nat) (test : BootTest) (s : State) : Host.Outcome State Fault Refusal :=
  if s.powered then .next ((s.tick cyc).resetKept .warm test) else .next s

/-- HOST_BOOT_IMAGE (R474): the image the host supplied is read and verified like a flash image; it never reaches flash. -/
def execHostBootImage (cyc : Nat) (image : Bytes) (test : BootTest) (s : State) : Host.Outcome State Fault Refusal :=
  if s.dev == .boot && s.boot.waitHost then
    let s1 := s.tick cyc
    let s2 : State := { s1 with boot := { s1.boot with delay := s1.clk.cyc, waitHost := false, test := test } }
    let r := s2.verifyImage image
    let s3 := s2.set F.HUB_BOOT_STATUS_CODE r
    if r = 0 then .next (s3.bootDies image)
    else .next { s3 with boot := { s3.boot with recovery := true } }
  else .next s

/-- Times of BOOT in cycles: 1,900,000 per millisecond. The end of step 4 is 90 ms after its start, the host's wait not
counted (Table 17.4). -/
def bootMs : Nat := 1900000

/-- CONFIGURATION_REQUEST (R471): retry status from link training until step 4 ends, except from the start of the wait for
a host image; completed normally otherwise; unanswered while the port has not trained. -/
def execConfigurationRequest (cyc : Nat) (s : State) : Host.Outcome State Fault Refusal :=
  if !s.powered then .next s
  else
    let s1 := s.tick cyc
    let ok : State := { s1 with host := { s1.host with cfgOk := s1.host.cfgOk + 1 } }
    let retry : State := { s1 with host := { s1.host with crs := s1.host.crs + 1 } }
    if s1.dev == .boot then
      if !s1.pins.perstN || decide (s1.clk.cyc < 5 * bootMs) then .next s1
      else if s1.boot.waitHost && decide (2 * bootMs ≤ s1.clk.cyc) then .next ok
      else if s1.boot.recovery then .next retry
      else if s1.clk.cyc - s1.boot.delay < 90 * bootMs then .next retry
      else .next ok
    else if s1.host.link then .next ok else .next s1

/-- BOOT_COMPLETE (R471): the last step has ended: cellar mounted with its wear, features offered by the trained link (R415, R438),
UNCONFIGURED entered, the time base started (R34) and the T1 clear begun (R472). -/
def execBootComplete (cyc : Nat) (s : State) : Host.Outcome State Fault Refusal :=
  if s.dev == .boot && !s.boot.waitHost && !s.boot.recovery then
    let s1 := s.tick cyc
    let s2 := (s1.set F.CEL_WEAR_WRITTEN_TB (s1.cel.wear / 10 ^ 12)).set F.CEL_STATUS_RO (if s1.cel.readOnly then 1 else 0)
    let s3 : State := { s2 with host := { s2.host with link := s2.host.link || s2.pins.perstN } }
    let s4 := (s3.set F.HUB_FEAT_OFFER_k_BITS 0x3FF).set (F.HUB_FEAT_OFFER_k_BITS.at 4 1)
      (if bit (tGet s3.regs 0x4) 6 then 0 else 3)
    let s5 := s4.set F.HUB_BOOT_STATUS_T1_CLEAR 0
    .next { s5.enter .unconfigured 0 with clk := { s5.clk with cyc := 0, ticking := true } }
  else .next s

/-! ## START -/

/-- Block of 2 MiB units: the largest order at `a`, aligned, within `n` units (R273). -/
def blockOrder (a n : Nat) : Nat → Nat
  | 0 => 0
  | k + 1 => if a % 2 ^ (k + 1) = 0 ∧ 2 ^ (k + 1) ≤ n then k + 1 else blockOrder a n k

/-- The fewest aligned blocks that cover [a, a + n) (R273); `fuel` bounds their number. -/
def coverBlocks (mu : Nat) : Nat → Nat → Nat → List (Nat × Nat × Nat)
  | 0, _, _ => []
  | fuel + 1, a, n =>
    if n = 0 then [] else
      let k := blockOrder a n 16
      (mu, a, k) :: coverBlocks mu fuel (a + 2 ^ k) (n - 2 ^ k)

/-- 2 MiB units of a die's placement pool: 186 GiB less its share of window and shuffle pool at the top (R21, R266). -/
def State.poolUnits (s : State) : Nat :=
  95232 - (s.get F.HUB_WIN_CFG_SIZE_MIB + s.get F.ING_POOL_CFG_SIZE_MIB) / s.nMu / 2

/-- The allocator's free space after the carve (R273). -/
def State.freeBlocks (s : State) : List (Nat × Nat × Nat) :=
  (upTo s.nMu).flatMap fun k => coverBlocks k 64 0 s.poolUnits

/-- The extents n_d of the domain (Table 13.9). -/
def State.dims (s : State) : List Nat :=
  [s.get F.LD_TOPO_CFG_DIM0 + 1, s.get F.LD_TOPO_CFG_DIM1 + 1, s.get F.LD_TOPO_CFG_DIM2 + 1, s.get F.LD_TOPO_CFG_DIM3 + 1]
def State.positions (s : State) : Nat := s.dims.foldl (· * ·) 1

/-- A feature bit is offered. -/
def State.offered (s : State) (i : Nat) : Bool := bit (rdWords s.regs F.HUB_FEAT_OFFER_k_BITS.off 8) i
def State.acceptWord (s : State) : Nat := rdWords s.regs F.HUB_FEAT_ACCEPT_k_BITS.off 8

/-- An address field meets an alignment. -/
def State.aligned (s : State) (f : Field) (n : Nat) : Bool := s.get f % n == 0

/-- Ring `n`, if enabled, has aligned addresses (R421). -/
def State.ringOk (s : State) (n : Nat) : Bool :=
  inRange 6 16 (s.get (F.HUB_CRING_n_CFG_LOG2.at 64 n)) && (!s.ringOn n || (s.aligned (F.HUB_CRING_n_BASE_ADDR.at 64 n) 4096
    && s.aligned (F.HUB_CRING_n_CPL_ADDR.at 64 n) 4096 && s.aligned (F.HUB_CRING_n_DB_ADDR.at 64 n) 64
    && s.aligned (F.HUB_CRING_n_STAT_ADDR.at 64 n) 64))

/-- The rings meet R421. -/
def State.ringsOk (s : State) : Bool :=
  (upTo 64).any s.ringOn && s.evqOn && (upTo 64).all s.ringOk && inRange 8 20 (s.get F.HUB_EVQ_CFG_LOG2)
    && inRange 4 16 (s.get F.HUB_PHQ_CFG_LOG2) && s.aligned F.HUB_EVQ_BASE_ADDR 4096
    && (s.get F.HUB_PHQ_CFG_EN == 0 || s.aligned F.HUB_PHQ_BASE_ADDR 4096) && s.aligned F.HUB_HLINE_IN_ADDR 64
    && s.aligned F.HUB_HLINE_OUT_ADDR 64

/-- Window and pool sizes (R266, R413). -/
def State.carveOk (s : State) : Bool :=
  let u := if s.vg4 then 16 else 8
  let w := s.get F.HUB_WIN_CFG_SIZE_MIB
  let p := s.get F.ING_POOL_CFG_SIZE_MIB
  decide (w ≤ 262144) && w % u == 0 && (w == 0 || s.feat 33) && decide (p ≤ 65536) && p % u == 0

/-- Check 1 of R439, with R470's comparison after a fabric-preserving reset. -/
def State.featOk (s : State) : Bool :=
  let off := rdWords s.regs F.HUB_FEAT_OFFER_k_BITS.off 8
  decide (Nat.land s.acceptWord (2 ^ 256 - 1 - off) = 0) && (s.boot.kind != .fabric || s.acceptWord == s.fab.feat)

/-- Check 2 of R439: expert settings without their feature (R64, R212, R260, R349), and R483. -/
def State.expertOk (s : State) : Bool :=
  (s.get (F.CALLER_BEAT_CFG_STRICT.caller 14) == 0 || s.feat 0)
    && ((upTo s.nCd).all (fun k => s.get (F.CD_SP_CFG_MODE.cd k) == 0) || s.feat 0)
    && (s.get F.PLC_LSCALE_CFG_FIXED == 0 || s.feat 5)
    && ((s.get F.ING_RNG_CFG_OFFSET_EN == 0 && s.get F.ING_RNG_OFFSET_DRAWS == 0) || s.feat 8)
    && s.get F.SEC_DBG_CTL_LEVEL != 2

/-- Check 3 of R439 (R30, R32). -/
def State.beatOk (s : State) : Bool :=
  let len := s.get (F.CALLER_BEAT_CFG_LEN_US.caller 14)
  inRange 20 20000 len && decide (rindCycles len (s.get (F.CALLER_BEAT_CFG_RIND_US.caller 14)) * 4 ≤ len * 1900)

/-- Check 4 of R439. -/
def State.rangesOk (s : State) : Bool :=
  let init := sext 8 (s.get F.PLC_LSCALE_CFG_INIT_EXP)
  s.ringsOk && s.carveOk && decide (-32 ≤ init ∧ init ≤ 63) && decide (sext 8 (s.get F.PLC_LSCALE_CFG_MIN_EXP) ≤ init)
    && decide (init ≤ sext 8 (s.get F.PLC_LSCALE_CFG_MAX_EXP)) && s.get F.PLC_LSCALE_GROW_GROWTH != 0
    && s.get F.PLC_STEP_INIT_T != 0 && s.get F.PLC_STEP_INIT_T != 0xFFFFFFFF && inRange 25 100 (s.get F.PLC_POWER_CFG_CAP)
    && inRange 16 65535 (s.get F.LD_FORM_CFG_SETTLE) && s.get F.LD_TWIN_CFG_ROLE != 3 && decide (s.positions ≤ 4096)
    && inRange 1 1000 (s.get F.HUB_POLL_CFG_US) && decide (s.get F.ING_SHUF_CFG_EXCH_FRAC ≤ 25)
    && decide (1 ≤ s.get F.CEL_CFG_KEEP) && decide (s.get F.CEL_CFG_TWIN_SHARE ≤ 75) && decide (1 ≤ s.get F.CEL_CFG_YEARS)

/-- Check 5 of R439 (R212). -/
def State.modesAgree (s : State) : Bool :=
  (upTo s.nCd).all fun k => s.get (F.CD_SP_CFG_MODE.cd k) == s.get F.CD_SP_CFG_MODE

/-- The status START records: the first failing check in the order of R439. -/
def State.startStatus (s : State) : Nat :=
  if !s.featOk then St.featReject
  else if !s.expertOk then St.expertDenied
  else if !s.beatOk then St.beatRange
  else if !s.rangesOk then St.planRange
  else if !s.modesAgree then St.planReject
  else St.ok

/-- The bytes index 6 measures: the RWL register words. -/
def State.rwlBytes (s : State) : Bytes :=
  (s.regs.filter fun e => match barAddr e.1 with
    | some a => (regAt a.blk a.rel).any fun r => r.fields.any fun f => f.acc == .rwl
    | none => false).flatMap fun e => leBytes 4 e.1 ++ leBytes 4 e.2

/-- Every counter is cleared (R463). -/
def State.clearCounters (s : State) : State := { s with regs := s.regs.filter fun e => !isCounterWord e.1 }

/-- A device with one position, or without a domain identifier, forms a one-seat domain and leads it (R362, Table 13.9);
one whose link dies kept a formed domain adopts it (R470). -/
def State.formAlone (s : State) : State :=
  if s.fab.formed then s
  else if s.positions = 1 ∨ s.get F.LD_DOMAIN_CFG_ID = 0 then
    let s1 := (((s.set F.LD_SEAT_SEAT 0).set F.LD_SEAT_LEADER 1).set F.LD_SEAT_FORMED 1).set F.LD_SEAT_COORD 0
    { s1 with fab := { s1.fab with leader := true, formed := true, members := [⟨0, s1.fuses.serial, true⟩] } }
  else s

/-- The ingest engine at START (R325, R346, R349): the generator key and, with explicit offsets, the initial SHUFFLE. -/
def State.startIngest (s : State) : Ingest :=
  let sh := if s.get F.ING_RNG_CFG_OFFSET_EN = 1 then s.get F.ING_RNG_OFFSET_DRAWS else 0
  let seed := s.get F.ING_RNG_SEED_SEED
  { Ingest.reset with
    seed := seed, skip := sh
    posMeas := BitVec.ofNat 1024 (sh * 2 ^ 144 + seed * 2 ^ 192 + 0xFFFFFFFF * 2 ^ 480 + 0xFFFFFFFF * 2 ^ 704) }

/-- An accepted START (R440): settings taken, counters and hub objects cleared, T1 carved, step counter and loss scale set
(R257, R305), measurements 5 and 6 taken, ports and formation begun, RUNNING entered. -/
def State.accept (s : State) : State :=
  let s1 := s.clearCounters
  let s2 := ((((s1.set F.HUB_START_STATUS 0).set F.HUB_REG_REFUSED_OFFSET 0).set F.HUB_REG_REFUSED_STATUS 0).set F.PLC_STEP_T
    (s.get F.PLC_STEP_INIT_T)).set F.PLC_LSCALE_EXP (s.get F.PLC_LSCALE_CFG_INIT_EXP)
  let s3 := s2.set F.PLC_LSCALE_CLEAN 0
  let len := s.get (F.CALLER_BEAT_CFG_LEN_US.caller 14)
  let rind := rindCycles len (s.get (F.CALLER_BEAT_CFG_RIND_US.caller 14))
  let link := bits (tGet s.regs 0x4) 6 4
  let s4 : State := { s3 with
    boot := { s3.boot with startHeld := false, started := true }
    clk := if s.fab.formed then s3.clk else { s3.clk with lenUs := len, rindCyc := rind, cyc := min s3.clk.cyc (len * 1900 - 1) }
    plan := { Plan.reset with cap := s.get F.PLC_POWER_CFG_CAP, t2gbs := t2Limit (bits link 1 2) (bits link 3 1) }
    t0 := { s3.t0 with hub := [], armed := [] }
    t1 := { s3.t1 with free := s.freeBlocks, rank := (upTo s.nMu).foldl (fun t k => tSet t k 0x1FB11) [], lrMul := BitVec.ofNat 32 (s.get F.PLC_LR_MUL_VALUE) }
    ing := s.startIngest
    host := { s3.host with evOpen := s3.clk.beat }
    fab := { s3.fab with feat := s.acceptWord } }
  let ov := leBytes 4 (tGet s.regs 0x8) ++ leBytes 4 len ++ leBytes 1 (s.get F.LD_TWIN_CFG_ROLE) ++ leBytes 1 (s.get F.PLC_PLACE_CFG_SLOT)
    ++ leBytes 1 (s.get F.CD_SP_CFG_MODE) ++ leBytes 1 (s.get F.HUB_KILL_CFG_SCRUB) ++ leBytes 1 (s.get F.PLC_POWER_CFG_CAP) ++ leBytes 1 (s.get F.HUB_BOOT_CFG_SRC)
  let s5 := (s4.setMeas 5 (measure512 ov)).setMeas 6 (measure512 (leBytes 32 s.acceptWord ++ s.rwlBytes))
  (s5.enter .running 0).formAlone

/-- Evaluate START (R439): a refused one records its status and leaves the device in NEGOTIATED, every field writable. -/
def State.evalStart (s : State) : State :=
  let st := s.startStatus
  if st = St.ok then s.accept
  else
    let s1 : State := { s with boot := { s.boot with startHeld := false } }
    let s2 := s1.set F.HUB_START_STATUS st
    if s2.dev == .unconfigured then s2.enter .negotiated 0 else s2

/-- A write of HUB_START: GO requests START in UNCONFIGURED or NEGOTIATED (log entry 13); before the T1 clear completes
it is held (R472). -/
def State.writeStart (s : State) (go : Bool) : State :=
  if go && (s.dev == .unconfigured || s.dev == .negotiated) && !s.boot.startHeld then
    if s.get F.HUB_BOOT_STATUS_T1_CLEAR = 1 then s.evalStart
    else { s with boot := { s.boot with startHeld := true } }
  else s

/-- T1_CLEAR_DONE (R472): T1 holds zeros, T1_CLEAR reads 1, a held START is evaluated. -/
def execT1ClearDone (cyc : Nat) (s : State) : Host.Outcome State Fault Refusal :=
  if s.dev == .off then .next s else
  let s1 := s.tick cyc
  if (s1.dev == .unconfigured || s1.dev == .negotiated) && s1.get F.HUB_BOOT_STATUS_T1_CLEAR == 0 then
    let s2 := s1.set F.HUB_BOOT_STATUS_T1_CLEAR 1
    let s3 : State := { s2 with t1 := { s2.t1 with mem := [], pair := [] } }
    .next (if s3.boot.startHeld then s3.evalStart else s3)
  else .next s1

/-- START (R439, R440). -/
def execStart (cyc : Nat) (go : Bool) (s : State) : Host.Outcome State Fault Refusal :=
  if s.dev == .off then .next s else
  .next ((s.tick cyc).writeStart go)

/-- FEAT_ACCEPT_WRITE (R439). -/
def execFeatAcceptWrite (cyc : Nat) (k : Nat) (v : Word32) (s : State) : Host.Outcome State Fault Refusal :=
  if s.dev == .off then .next s else
  .next ((s.tick cyc).writeFeat k v.toNat)

/-! ## Rows: supply, heat, clocks, host link -/

/-- INPUT_VOLTAGE_FAULT (R519): below 39 V or above 61 V for more than 50 µs the module turns off as if PWRGD had fallen,
and stays off until PWRGD cycles. -/
def execInputVoltageFault (cyc : Nat) (mv ns : Nat) (s : State) : Host.Outcome State Fault Refusal :=
  let s1 := if s.powered then s.tick cyc else s
  if (mv < 39000 ∨ 61000 < mv) ∧ 50000 < ns ∧ s.powered then
    .next { s1 with pins := { s1.pins with vin := false, latched := true } }.powerOff
  else .next { s1 with pins := { s1.pins with vin := inRange 40000 60000 mv } }

/-- THERMAL_SHUTDOWN (R527): a junction at 115 °C turns the power stages off; nothing is logged. -/
def execThermalShutdown (cyc : Nat) (tempC : Nat) (s : State) : Host.Outcome State Fault Refusal :=
  if 115 ≤ tempC ∧ s.powered then
    let s1 := s.tick cyc
    .next { s1 with pins := { s1.pins with latched := true } }.powerOff
  else .next s

/-- Thermal design power in watts (Table 0.2, R26). -/
def State.tdp (s : State) : Nat := if s.vg4 then 3600 else 1900

/-- INPUT_POWER_OVER_TDP (R26, R518): above the TDP for more than 1 ms is class F error 0x0402, in BOOT too. -/
def execInputPowerOverTdp (cyc : Nat) (watts us : Nat) (s : State) : Host.Outcome State Fault Refusal :=
  if s.dev == .off then .next s else
  let s1 := s.tick cyc
  if s1.tdp < watts ∧ 1000 < us ∧ s1.powered then .next (s1.detectAt Er.overTdp 14 10 0 0) else .next s1

/-- REFCLK156_LOSS (R521): the beat stops. -/
def execRefclk156Loss (cyc : Nat) (s : State) : Host.Outcome State Fault Refusal :=
  if s.dev == .off then .next s else
  let s1 := s.tick cyc
  .next { s1 with pins := { s1.pins with refclk := false }, clk := { s1.clk with ticking := false } }

/-- HOST_LINK_LOST (R443): in RUNNING or DRAINING a loss that does not recover without data loss is class F error 0x0408;
elsewhere the link is only down (R469). Sessions over the link end (R414). -/
def execHostLinkLost (cyc : Nat) (recovered : Bool) (s : State) : Host.Outcome State Fault Refusal :=
  if s.dev == .off then .next s else
  let s1 := s.tick cyc
  if recovered then .next s1
  else
    let s2 : State := { s1 with host := { s1.host with link := false }, sec := { s1.sec with spdmStage := 0, sessions := 0 } }
    if s2.ringsOn then .next (s2.detectAt Er.hostLink 14 6 0 0) else .next s2

/-- HOST_LINK_RETRAIN (R412): width and rate as retrained; the new T2 limit counts from the next build. -/
def execHostLinkRetrain (cyc : Nat) (width speed : Nat) (s : State) : Host.Outcome State Fault Refusal :=
  if s.dev == .off then .next s else
  let s1 := s.tick cyc
  if s1.powered ∧ s1.host.link then
    .next (s1.trainLink (!bit (tGet s1.regs 0x4) 6) width speed)
  else .next s1

/-! ## Power states (R525) -/

inductive Power where
  | active | idle | parked | boot | off
deriving DecidableEq, Repr

/-- The power state of Table 20.5: it follows from the device state, the T1 clear and the resident graph. -/
def State.power (s : State) : Power :=
  match s.dev with
  | .off => .off
  | .boot => .boot
  | .halted => .parked
  | .unconfigured | .negotiated => if s.get F.HUB_BOOT_STATUS_T1_CLEAR = 1 then .parked else .boot
  | .running => if s.plan.graph.isSome then .active else .idle
  | .draining => .active

end Sys2Proof.Machine
end

