-- ==== Sys2Proof/Machine/RegRows.lean ====
section
/-! DEFINITION. The rows that write registers (R87, R171, R281, R288, R311, R410, R464, R478, R482, R503 to R512), debug
unlock, and the management bus (R478 to R485). -/
namespace Sys2Proof.Machine

/-- BAR0 takes writes: past BOOT. -/
def State.regsOn (s : State) : Bool := s.powered && s.dev != .boot

/-- PLAN_CFG_WRITE (R87): PLC_MARGIN or PLC_PLAN_CFG. -/
def execPlanCfgWrite (cyc : Nat) (margin : Bool) (v : Word32) (s : State) : Host.Outcome State Fault Refusal :=
  if s.dev == .off then .next s else
  let s1 := s.tick cyc
  if !s1.regsOn then .next s1
  else if margin then .next (s1.writeMargin v.toNat) else .next (s1.writePlanCfg v.toNat)

/-- LR_MUL_WRITE (R311). -/
def execLrMulWrite (cyc : Nat) (v : Word32) (s : State) : Host.Outcome State Fault Refusal :=
  if s.dev == .off then .next s else
  let s1 := s.tick cyc
  if s1.regsOn then .next (s1.writeLrMul v.toNat) else .next s1

/-- ARB_RANK_WRITE (R281): die `mu`, or 8 for the broadcast window. -/
def execArbRankWrite (cyc : Nat) (mu : Nat) (v : Word32) (s : State) : Host.Outcome State Fault Refusal :=
  if s.dev == .off then .next s else
  let s1 := s.tick cyc
  if s1.regsOn then .next (s1.writeArbRank mu v.toNat) else .next s1

/-- CEL_REG_WRITE (R410). -/
def execCelRegWrite (cyc : Nat) (ring : Bool) (v : Word32) (s : State) : Host.Outcome State Fault Refusal :=
  if s.dev == .off then .next s else
  let s1 := s.tick cyc
  if !s1.regsOn then .next s1
  else if ring then .next (s1.writeCelRing v.toNat) else .next (s1.writeCelCfg v.toNat)

/-- ERR_STATUS_WRITE (R464, R509). -/
def execErrStatusWrite (cyc : Nat) (v : Word32) (s : State) : Host.Outcome State Fault Refusal :=
  if s.dev == .off then .next s else
  let s1 := s.tick cyc
  if s1.regsOn then .next (s1.writeErrStatus v.toNat) else .next s1

/-- ERR_LOG_HEAD_WRITE (R509). -/
def execErrLogHeadWrite (cyc : Nat) (v : Word32) (s : State) : Host.Outcome State Fault Refusal :=
  if s.dev == .off then .next s else
  let s1 := s.tick cyc
  if s1.regsOn then .next (s1.writeLogHead v.toNat) else .next s1

/-- Clear starvation flags of die `k`; bits set in the same cycle, by a wait beyond STARVE_US, prevail and write their events (R288, R509). -/
def State.clearStarve (s : State) (k v setNow : Nat) : State :=
  if !s.vg4 then s
  else
    let up := ((upTo 7).filter fun r => bit setNow r && (s.starving k r).isSome).foldl (fun a r => a + 2 ^ r) 0
    let (s1, new) := s.w1c (F.MU_ARB_STARVE_FLAG.mu k) v up
    ((upTo 7).filter fun r => bit new r).foldl (fun t r => match s.starving k r with
      | some x => t.starveEvent k r (x.key % 24) (s.clock - x.since)
      | none => t) s1

/-- STARVE_FLAG_CLEAR (R288): die `mu`, or 8 for the broadcast window. -/
def execStarveFlagClear (cyc : Nat) (mu : Nat) (v : Word32) (setNow : Nat) (s : State) : Host.Outcome State Fault Refusal :=
  if s.dev == .off then .next s else
  let s1 := s.tick cyc
  if s1.regsOn then
    .next ((s1.writeWindows ⟨.mu, mu, 8⟩).foldl (fun t b => t.clearStarve b.window v.toNat setNow) s1)
  else .next s1

/-- Clear the sticky bits of die `k` and of its clusters (R171); a bit set in the same cycle prevails. -/
def State.clearSticky (s : State) (k v setNow : Nat) : State :=
  let s1 := (s.w1c ⟨F.CD_VEC_STICKY_EMPTY.off + k * 0x10000, 0, 2⟩ v setNow).1
  let t := (upTo 1024).foldl (fun t c => let key := clKey k c
    let x := tGet t key
    if x = 0 then t else tSet t key (Nat.land x (3 - v % 4))) s1.t0.sticky
  { s1 with t0 := { s1.t0 with sticky := t } }

/-- VEC_STICKY_CLEAR (R171): die `cd`, or 4 for the broadcast window. -/
def execVecStickyClear (cyc : Nat) (cd : Nat) (v : Word32) (setNow : Nat) (s : State) : Host.Outcome State Fault Refusal :=
  if s.dev == .off then .next s else
  let s1 := s.tick cyc
  if s1.regsOn then
    .next ((s1.writeWindows ⟨.cd, cd, 0x40⟩).foldl (fun t b => t.clearSticky b.window v.toNat setNow) s1)
  else .next s1

/-! ## Anti-rollback and debug unlock -/

/-- Raise the fused count to the running image's SVN; it never falls and never passes 64 (R478). -/
def State.commitArb (s : State) : State :=
  let n := max s.fuses.arb (min s.boot.svn 64)
  let s1 : State := { s with fuses := { s.fuses with arb := n } }
  s1.set F.SEC_ARB_FUSED n

/-- SEC_ARB_COMMIT (R478): in UNCONFIGURED only. -/
def execSecArbCommit (cyc : Nat) (s : State) : Host.Outcome State Fault Refusal :=
  if s.dev == .off then .next s else
  let s1 := s.tick cyc
  if s1.dev == .unconfigured then .next s1.commitArb else .next s1

/-- The token in SEC_DBG_BUF. -/
def State.token (s : State) : Bytes := (upTo 336).flatMap fun i => leBytes 4 (tGet s.regs (0x40100 + 4 * i))

/-- The body names this module, the current nonce and a level, with zeros reserved; the order of its fields is the
manual's order of naming them, packed (log entry 14). -/
def State.tokenOk (s : State) : Bool :=
  let b := s.token.take 64
  leNat (bytesAt b 0 4) == 0x44424755 && leNat (bytesAt b 4 8) == s.fuses.serial
    && leNat (bytesAt b 12 16) == s.get F.SEC_DBG_NONCE_VALUE && inRange 1 2 (leNat (bytesAt b 28 1))
    && leNat (bytesAt b 29 35) == 0 && Config.debugSigOk s.fuses.dbgHash b (s.token.drop 64)

/-- A submitted token (R482): checked in UNCONFIGURED or NEGOTIATED, a failure elsewhere; after 8 failures or with unlock
fused off every attempt fails; the nonce is drawn again. Success opens the level and changes measurement 4 (R483). -/
def State.submitToken (s : State) : State :=
  let may := (s.dev == .unconfigured || s.dev == .negotiated) && decide (s.get F.SEC_DBG_CTL_FAILS < 8) && !s.fuses.dbgDis
  let s1 :=
    if may && s.tokenOk then
      let t := s.set F.SEC_DBG_CTL_LEVEL (leNat (bytesAt s.token 28 1))
      (t.setMeas 4 (measure512 t.fuseBytes)).deriveAlias
    else s.count F.SEC_DBG_CTL_FAILS 1
  s1.drawNonce

/-- DEBUG_UNLOCK (R482). -/
def execDebugUnlock (cyc : Nat) (s : State) : Host.Outcome State Fault Refusal :=
  if s.dev == .off then .next s else
  let s1 := s.tick cyc
  if s1.powered then .next s1.submitToken else .next s1

/-! ## REGISTER_WRITE -/

/-- A 4-byte write at an aligned offset: absent windows and reserved offsets ignore it; registers with rules of their own
follow them; every other register is written by its access codes (R503 to R512). HUB_BOOT_IMG.GO and the reset bits act
through their own rows, whose further inputs a register write does not carry; a reset bit here resets with a passing
self-test (log entry 15). -/
def State.writeWord (s : State) (off v : Nat) : State :=
  if !s.barServed off then s
  else match barAddr off with
    | none => s
    | some a =>
      let pass : BootTest := ⟨none, s.boot.test.cost⟩
      if s.dev == .boot && decide (off < 0x20) then s
      else match a.blk, a.rel with
        | .hub, 0x14 => if bit v 0 then s.resetKept .cold pass else if bit v 1 then s.resetKept .warm pass else s
        | .hub, 0x18 => s.writeStart (bit v 0)
        | .hub, rel =>
          if 0x60 ≤ rel ∧ rel < 0x80 then s.writeFeat ((rel - 0x60) / 4) v else s.storeWord a v
        | .plc, 0 => s.writePlanCfg v
        | .plc, 4 => s.writeMargin v
        | .plc, 0x2C => s.writeLrMul v
        | .cel, 0 => s.writeCelCfg v
        | .cel, 4 => s.writeCelRing v
        | .err, 0 => s.writeErrStatus v
        | .err, 8 => s.writeLogHead v
        | .sec, 0 => if bit v 7 && s.dev == .unconfigured then s.commitArb else s
        | .sec, 8 => if bit v 0 then s.submitToken else s
        | .mu, 4 => s.writeArbRank a.window v
        | .mu, 0 => (s.writeWindows a).foldl (fun t b => t.writeArbCfg b.window v) s
        | .mu, 8 => (s.writeWindows a).foldl (fun t b => t.clearStarve b.window v 0) s
        | .mu, 0x14 => (s.writeWindows a).foldl (fun t b => t.writeScrubCfg b.window v) s
        | .cd, 0x40 => (s.writeWindows a).foldl (fun t b => t.clearSticky b.window v 0) s
        | .caller, 0 =>
          if s.boot.kind == .fabric then s else (s.writeWindows a).foldl (fun t b => t.storeWord b v) s
        | _, _ => (s.writeWindows a).foldl (fun t b => t.storeWord b v) s

/-- A write of BAR0: naturally aligned, 4 bytes, or 8 bytes as two words (R504, R505); any other is ignored. -/
def State.writeBar0 (s : State) (off size v : Nat) : State :=
  if size = 4 ∧ off % 4 = 0 then s.writeWord off (v % 2 ^ 32)
  else if size = 8 ∧ off % 8 = 0 then (s.writeWord off (v % 2 ^ 32)).writeWord (off + 4) (v / 2 ^ 32 % 2 ^ 32)
  else s

/-- REGISTER_WRITE (R504). -/
def execRegisterWrite (cyc : Nat) (off size : Nat) (v : Word64) (s : State) : Host.Outcome State Fault Refusal :=
  if s.dev == .off then .next s else
  .next ((s.tick cyc).writeBar0 off size v.toNat)

/-! ## Management -/

/-- A reply was sent: its content is appended to the list of replies (log entry 7). -/
def State.reply (s : State) (v : Nat) : State := { s with sec := { s.sec with replies := s.sec.replies ++ [v] } }

/-- SPDM request codes, for the opaque payloads. -/
def spdmCode : SpdmReq → Nat
  | .getVersion => 0x84 | .getCapabilities => 0xE1 | .negotiateAlgorithms => 0xE3 | .getDigests => 0x81
  | .getCertificate => 0x82 | .challenge => 0x83 | .getMeasurements _ => 0xE0 | .keyExchange => 0xE4 | .finish => 0xE5
  | .endSession => 0xEC | .keyUpdate => 0xE9 | .heartbeat => 0xE8 | .other c => c

/-- The request stage SPDM needs: version, capabilities, algorithms in order, then the rest. -/
def spdmStage : SpdmReq → Nat
  | .getVersion => 0 | .getCapabilities => 1 | .negotiateAlgorithms => 2 | _ => 3

/-- SPDM_REQUEST (R480): answered while the module is powered, over DOE or MCTP; in recovery only version and capabilities
(R477). A measurement index answers its value, one without content zero (R481); requests of no supported kind answer an
error; sessions are counted. The identity key signs nothing while a debug level is open (R483). -/
def execSpdmRequest (cyc : Nat) (req : SpdmReq) (s : State) : Host.Outcome State Fault Refusal :=
  if s.dev == .off then .next s else
  let s1 := s.tick cyc
  let err := s1.reply 0x7F
  if !s1.powered then .next s1
  else if s1.boot.recovery && s1.dev == .boot && decide (2 ≤ spdmStage req) then .next s1
  else if s1.sec.spdmStage < spdmStage req then .next err
  else
    let up (t : State) (n : Nat) : State := { t with sec := { t.sec with spdmStage := n } }
    let say (t : State) : State := t.reply (Config.spdmPayload (spdmCode req) t.sec.replies.length)
    match req with
    | .getVersion => .next (say (up { s1 with sec := { s1.sec with sessions := 0 } } 1))
    | .getCapabilities => .next (say (up s1 (max 2 s1.sec.spdmStage)))
    | .negotiateAlgorithms => .next (say (up s1 (max 3 s1.sec.spdmStage)))
    | .getMeasurements i => if inRange 1 7 i then .next (s1.reply (s1.sec.meas.getD (i - 1) 0)) else .next err
    | .keyExchange => .next (say { s1 with sec := { s1.sec with sessions := s1.sec.sessions + 1 } })
    | .endSession => .next (say { s1 with sec := { s1.sec with sessions := s1.sec.sessions - 1 } })
    | .challenge => if s1.sec.aliasCert then .next (say s1) else .next err
    | .getDigests | .getCertificate | .finish | .keyUpdate | .heartbeat => .next (say s1)
    | .other _ => .next err

/-- PLDM_REQUEST (R478, R484): discovery, sensors, the state sensor that reports HUB_STATE, the anti-rollback commit; in
recovery nothing of it is answered (R477). -/
def execPldmRequest (cyc : Nat) (req : PldmReq) (s : State) : Host.Outcome State Fault Refusal :=
  if s.dev == .off then .next s else
  let s1 := s.tick cyc
  if !s1.powered || (s1.boot.recovery && s1.dev == .boot) then .next s1
  else match req with
    | .discovery => .next (s1.reply (Config.spdmPayload 0 s1.sec.replies.length))
    | .numericSensor id =>
      .next (s1.reply (if id = 8 then s1.cel.wear else Config.sensor id s1.sec.replies.length))
    | .stateSensor => .next (s1.reply s1.hubState)
    | .arbCommit => if s1.dev == .unconfigured then .next s1.commitArb else .next s1

def State.setFlash (s : State) (k : Nat) (f : FlashSlot) : State :=
  if k = 0 then { s with flash := { s.flash with a := f } } else { s with flash := { s.flash with b := f } }

/-- PLDM_FIRMWARE_UPDATE (R485): the inactive slot only; invalid during the transfer; activation names it in
HUB_BOOT_CFG.ACTIVE. A new image written in recovery ends recovery (R477): BOOT tries the slots again. -/
def execPldmFirmwareUpdate (cyc : Nat) (op : PldmFw) (s : State) : Host.Outcome State Fault Refusal :=
  if s.dev == .off then .next s else
  let s1 := s.tick cyc
  if !s1.powered then .next s1
  else match op with
    | .start =>
      let k := 1 - s1.get F.HUB_BOOT_CFG_ACTIVE
      let s2 := s1.setFlash k { s1.flashSlot k with valid := false }
      .next { s2 with sec := { s2.sec with fw := some ⟨k, [], false⟩ } }
    | .data b =>
      match s1.sec.fw with
      | some x => if x.done then .next s1
        else .next { s1 with sec := { s1.sec with fw := some { x with bytes := x.bytes ++ b } } }
      | none => .next s1
    | .done =>
      match s1.sec.fw with
      | some x =>
        if x.done then .next s1
        else
          let s2 := s1.setFlash x.slot ⟨x.bytes, true⟩
          let s3 : State := { s2 with sec := { s2.sec with fw := some { x with done := true } } }
          if s3.dev == .boot && s3.boot.recovery then
            .next { s3 with boot := { s3.boot with recovery := false } }.bootFlash
          else .next s3
      | none => .next s1
    | .activate =>
      match s1.sec.fw with
      | some x => if x.done then
          .next { s1.set F.HUB_BOOT_CFG_ACTIVE x.slot with sec := { s1.sec with fw := none } }
        else .next s1
      | none => .next s1

end Sys2Proof.Machine
end

