-- ==== Sys2Proof/Machine/HostRings.lean ====
section
/-! DEFINITION. Host lines, rings, GO and vectors (R417 to R425, R435), and the commands that complete from the state of
the hub alone (R426 to R429). -/
namespace Sys2Proof.Machine

/-! ## Lines -/

/-- Stop a ring (R422): it fetches nothing more until reset. -/
def State.stopRing (s : State) (n : Nat) : State :=
  let s1 := s.setRing n { s.ring n with stopped := true }
  (s1.count F.HUB_RING_FAULT_COUNT 1).emit Ev.ringFault 14 n

/-- The device has read a line (R419, R422): counts it acts on; a TAIL beyond the ring, or a CPL_HEAD ahead of COMPLETED,
stops the ring. -/
def State.takeLine (s : State) (l : HostLine) : State :=
  match l with
  | .doorbell n tail head =>
    let r := s.ring n
    if !decide (n < 64) || !s.ringOn n || r.stopped then s
    else if cntSub tail r.fetched > s.ringSize n ∨ cntSub r.completed head > s.ringSize n then s.stopRing n
    else s.setRing n { r with tail := tail % 2 ^ 32, cplHead := head % 2 ^ 32 }
  | .consumer e p => { s with host := { s.host with evHead := e % 2 ^ 32, phHead := p % 2 ^ 32 } }

/-- The host link carries ring traffic. -/
def State.hostUp (s : State) : Bool := s.ringsOn && s.host.link

/-- HOST_LINE_WRITE (R419): with CXL_CACHE accepted the snooped line is read and acted on. -/
def execHostLineWrite (cyc : Nat) (line : HostLine) (s : State) : Host.Outcome State Fault Refusal :=
  if s.dev == .off then .next s else
  let s1 := s.tick cyc
  if s1.hostUp && s1.feat 32 then .next (s1.takeLine line) else .next s1

/-- HOST_LINE_POLL (R420): without CXL_CACHE the lines are read at the poll. -/
def execHostLinePoll (cyc : Nat) (lines : List HostLine) (s : State) : Host.Outcome State Fault Refusal :=
  if s.dev == .off then .next s else
  let s1 := s.tick cyc
  if s1.hostUp && !s1.feat 32 then .next (lines.foldl State.takeLine s1) else .next s1

/-! ## Descriptors -/

/-- A ring has a descriptor to fetch and a completion entry waiting for it (R422, R423). -/
def State.mayFetch (s : State) (n : Nat) : Bool :=
  let r := s.ring n
  s.ringOn n && !r.stopped && cntSub r.tail r.fetched != 0 && decide (cntSub r.fetched r.cplHead < s.ringSize n)

/-- The ring served next: the first with a descriptor, from the round-robin pointer on (R423). -/
def State.nextRing (s : State) : Option Nat := ((upTo 64).map fun k => (s.host.rr + k) % 64).find? s.mayFetch

/-- DESCRIPTOR_FETCH (R423): the descriptor joins the ring's fetched commands, FETCHED advances and the status line shows
it; HALTED fetches nothing (Table 15.9). -/
def execDescriptorFetch (cyc : Nat) (ring : Nat) (desc : BitVec 512) (s : State) : Host.Outcome State Fault Refusal :=
  if s.dev == .off then .next s else
  let s1 := s.tick cyc
  if s1.hostUp && s1.nextRing == some ring then
    let r := s1.ring ring
    let n := cntAdd r.fetched 1
    let s2 := s1.setRing ring { r with fetched := n, queue := r.queue ++ [⟨desc⟩] }
    let s3 : State := { s2 with host := { s2.host with rr := (ring + 1) % 64 } }
    .next (s3.hostPut (s3.get (F.HUB_CRING_n_STAT_ADDR.at 64 ring)) 4 n)
  else .next s1

/-! ## GO and vectors -/

/-- Write the status line of a ring, or the hub status line (Table 15.2). -/
def State.writeStatus (s : State) (line : Nat) : State :=
  if line < 64 then
    let r := s.ring line
    s.hostPut (s.get (F.HUB_CRING_n_STAT_ADDR.at 64 line)) 8 (r.fetched + r.completed * 2 ^ 32)
  else
    s.hostPut (s.get F.HUB_HLINE_OUT_ADDR) 9
      (s.host.evTail + s.host.phTail * 2 ^ 32 + (s.dev.code + s.halt * 8) * 2 ^ 64)

/-- GO_RESPONSE (R435): GO on a line's records lets its status line be written; GO on the status line lets the vectors it
covers be signalled. -/
def execGoResponse (cyc : Nat) (line : Nat) (s : State) : Host.Outcome State Fault Refusal :=
  if s.dev == .off then .next s else
  let s1 := s.tick cyc
  let g := s1.goLine line
  if !s1.host.link then .next s1
  else if g.statWait then
    .next ((s1.setGo { g with statWait := false, covered := [] }).signalAll g.covered)
  else if g.recWait then
    .next ((s1.writeStatus line).setGo { g with recWait := false, statWait := true, vecs := [], covered := g.vecs })
  else .next s1

/-- MSIX_MODERATION_EXPIRY (R417): one message covers the causes of the interval, and opens the next. -/
def execMsixModerationExpiry (cyc : Nat) (vec : Nat) (s : State) : Host.Outcome State Fault Refusal :=
  if s.dev == .off then .next s else
  let s1 := s.tick cyc
  if s1.host.irqHot.contains vec then
    let s2 : State := { s1 with host := { s1.host with irqHot := s1.host.irqHot.filter (· != vec) } }
    if s1.host.irqCause.contains vec then
      .next (State.signal { s2 with host := { s2.host with irqCause := s2.host.irqCause.filter (· != vec) } } vec)
    else .next s2
  else .next s1

/-! ## Commands answered at once -/

/-- Opcodes of Table 15.4. -/
def knownOpcode (o : Nat) : Bool :=
  decide (o ≤ 6) || inRange 0x10 0x13 o || inRange 0x20 0x22 o || inRange 0x30 0x32 o || inRange 0x40 0x41 o

/-- BAD_OPCODE (R426): the command completes and the ring continues. -/
def execBadOpcode (cyc : Nat) (ring : Nat) (s : State) : Host.Outcome State Fault Refusal :=
  if s.dev == .off then .next s else
  let s1 := s.tick cyc
  match s1.startable ring (fun o => !knownOpcode o) with
  | some d => .next ((s1.popCmd ring).finish ring d St.badOpcode 0)
  | none => .next s1

/-- NOP (Table 15.4): completes at once. -/
def execNop (cyc : Nat) (ring : Nat) (s : State) : Host.Outcome State Fault Refusal :=
  if s.dev == .off then .next s else
  .next ((s.tick cyc).start ring 0x00 true false fun d t => t.finish ring d St.ok 0)

/-- Domain diameter in hops: half of each extent, summed (R56). -/
def State.diameter (s : State) : Nat := s.dims.foldl (fun a n => a + n / 2) 0

/-- The planned window of a beat holds a marker flood of so many hops: hops × 210 ns + 200 ns, at 1.9 cycles per ns (R56). -/
def floodFits (hops lenUs rind : Nat) : Bool := decide ((hops * 210 + 200) * 19 ≤ (lenUs * 1900 - rind) * 10)

/-- Cards are host-built: the expert card feature is accepted (R92, R426). -/
def State.hostCards (s : State) : Bool := s.feat 0

/-- Waiting for a build, and carried by one (R85): progress data of SET_BEAT, SET_CAP, SET_PHRASE, REPLAN. -/
def Prog.waiting : Nat := 0
def Prog.carried : Nat := 1

/-- Carried by a build that has ended: its card waits to swap. -/
def Prog.built : Nat := 2

/-- Commands that wait for a build are carried by this one. -/
def carryCmd (c : ActiveCmd) : ActiveCmd := if inRange 0x10 0x13 (dOpcode c.desc) && c.datum == Prog.waiting then { c with datum := Prog.carried } else c

/-- A planning command: refused in host-card mode with STATE; a failed check ends it at once; an accepted one waits for the
card that applies it (R85, R426, R427). A build that waits for the domain to form has not started (R362): it carries the command. -/
def State.planCommand (s : State) (ring : Nat) (op : Nat) (check : BitVec 512 → Nat) (put : BitVec 512 → PlanReq → PlanReq) : State :=
  s.start ring op false false fun d t =>
    if t.hostCards then t.finish ring d St.state 0
    else if check d ≠ St.ok then t.finish ring d (check d) 0
    else if t.plan.building && !t.fab.formed then
      State.activate { t with plan := { t.plan with carried := put d t.plan.carried } } ring d Prog.carried
    else State.activate { t with plan := { t.plan with req := put d t.plan.req } } ring d Prog.waiting

/-- SET_BEAT (R31, R427). -/
def execSetBeat (cyc : Nat) (ring : Nat) (s : State) : Host.Outcome State Fault Refusal :=
  if s.dev == .off then .next s else
  let s1 := s.tick cyc
  .next (s1.planCommand ring 0x10
    (fun d =>
      let len := bits (dW d 1) 0 15
      let rind := rindCycles len (bits (dW d 1) 16 15)
      if !inRange 20 20000 len || decide (len * 1900 < rind * 4) || !floodFits s1.diameter len rind then St.beatRange else St.ok)
    fun d q => { q with len := some (bits (dW d 1) 0 15, bits (dW d 1) 16 15) })

/-- SET_CAP (R25, R427). -/
def execSetCap (cyc : Nat) (ring : Nat) (s : State) : Host.Outcome State Fault Refusal :=
  if s.dev == .off then .next s else
  .next ((s.tick cyc).planCommand ring 0x11
    (fun d => if inRange 25 100 (bits (dW d 1) 0 7) then St.ok else St.planRange)
    fun d q => { q with cap := some (bits (dW d 1) 0 7) })

/-- Commands a build has carried wait for its card's swap. -/
def builtCmd (c : ActiveCmd) : ActiveCmd := if inRange 0x10 0x13 (dOpcode c.desc) && c.datum == Prog.carried then { c with datum := Prog.built } else c

/-- SET_PHRASE (R427). -/
def execSetPhrase (cyc : Nat) (ring : Nat) (s : State) : Host.Outcome State Fault Refusal :=
  if s.dev == .off then .next s else
  .next ((s.tick cyc).planCommand ring 0x12
    (fun d => if inRange 1 4096 (bits (dW d 1) 0 13) then St.ok else St.planRange)
    fun d q => { q with phrase := some (bits (dW d 1) 0 13) })

/-- REPLAN (R85): forces a build at the next build start. -/
def execReplan (cyc : Nat) (ring : Nat) (s : State) : Host.Outcome State Fault Refusal :=
  if s.dev == .off then .next s else
  .next ((s.tick cyc).planCommand ring 0x13 (fun _ => St.ok) fun _ q => { q with force := true })

/-- SYNC_SIGNAL (R229): adds n to a hub object and completes; an armed object that reaches its threshold writes its event
after the completion (R461). n of 0 is beyond its bound (R428). -/
def execSyncSignal (cyc : Nat) (ring : Nat) (s : State) : Host.Outcome State Fault Refusal :=
  if s.dev == .off then .next s else
  .next ((s.tick cyc).start ring 0x20 false false fun d t =>
    if bits (dW d 1) 16 16 = 0 then t.finish ring d St.badArg 0
    else (t.finish ring d St.ok 0).syncAdd (hubKey (bits (dW d 1) 0 9)) (bits (dW d 1) 16 16))

/-- SYNC_READ (R229): RESULT is the object's value. -/
def execSyncRead (cyc : Nat) (ring : Nat) (s : State) : Host.Outcome State Fault Refusal :=
  if s.dev == .off then .next s else
  .next ((s.tick cyc).start ring 0x21 true false fun d t => t.finish ring d St.ok (tGet t.t0.hub (bits (dW d 1) 0 9)))

/-- SYNC_ARM (R229): object and threshold; one already reached fires after the completion (R461). -/
def execSyncArm (cyc : Nat) (ring : Nat) (s : State) : Host.Outcome State Fault Refusal :=
  if s.dev == .off then .next s else
  .next ((s.tick cyc).start ring 0x22 false false fun d t =>
    let o := bits (dW d 1) 0 9
    let t1 : State := { t with t0 := { t.t0 with armed := (t.t0.armed.filter fun a => a.1 != o) ++ [(o, bits (dW d 1) 32 32)] } }
    (t1.finish ring d St.ok 0).armFire o)

/-! ## Commands a KILL, RESTORE or STOP ends -/

/-- Opcodes that depend on the resident graph: SHIP, the planning commands, ingest and parameter access (R429). -/
def graphBound (op : Nat) : Bool :=
  op == 5 || inRange 0x10 0x13 op || op == 0x30 || op == 0x31 || op == 0x40 || op == 0x41

/-- Every such uncompleted command completes with KILLED, armed objects are disarmed without an event (R429). -/
def State.killCommands (s : State) : State :=
  let s1 := s.finishWhere (fun c => graphBound (dOpcode c.desc)) St.killed (fun _ => 0)
  { s1 with
    t0 := { s1.t0 with armed := [] }
    t1 := { s1.t1 with staged := [], reading := [] }
    ing := { s1.ing with streams := [], hostMb := [] }
    plan := { s1.plan with req := ⟨none, none, none, false⟩, carried := ⟨none, none, none, false⟩ }
    cel := { s1.cel with ships := [], shipping := [] } }

/-- STOP (R429, R441): dependent commands end, the device enters DRAINING; STOP completes when HALTED is reached. -/
def execStop (cyc : Nat) (ring : Nat) (s : State) : Host.Outcome State Fault Refusal :=
  if s.dev == .off then .next s else
  .next ((s.tick cyc).start ring 0x06 false false fun d t => ((t.killCommands).activate ring d 0).enter .draining 0)

end Sys2Proof.Machine
end

