-- ==== Sys2Proof/Machine/Ingest.lean ====
section
/-! DEFINITION. Broadcast ingest (R312 to R351, R247 to R250): stream descriptors, transport-stream demultiplexing, clips,
decks and their order, the exchange, micro-batch packing, the data position. -/
namespace Sys2Proof.Machine

/-! ## Generator (R344): Philox-4×32-10 -/

/-- One round on the counter words with round keys. -/
def philoxRound (k0 k1 : Nat) (c : Nat × Nat × Nat × Nat) : Nat × Nat × Nat × Nat :=
  let p0 := 0xD2511F53 * c.1
  let p1 := 0xCD9E8D57 * c.2.2.1
  (Nat.xor (Nat.xor (p1 / 2 ^ 32) c.2.1) k0, p1 % 2 ^ 32, Nat.xor (Nat.xor (p0 / 2 ^ 32) c.2.2.2) k1, p0 % 2 ^ 32)

/-- `n` rounds; the key words grow by the Weyl constants before every round but the first. -/
def philox : Nat → Nat → Nat → Nat × Nat × Nat × Nat → Nat × Nat × Nat × Nat
  | 0, _, _, c => c
  | n + 1, k0, k1, c => philox n ((k0 + 0x9E3779B9) % 2 ^ 32) ((k1 + 0xBB67AE85) % 2 ^ 32) (philoxRound k0 k1 c)

/-- word(seed, measure, micro-batch, purpose, element). -/
def rngWord (seed meas mb purpose elem : Nat) : Nat :=
  let q := elem / 4
  let c := philox 10 (seed % 2 ^ 32) (seed / 2 ^ 32 % 2 ^ 32)
    (q % 2 ^ 32, purpose % 2 ^ 16 + (mb % 2 ^ 16) * 2 ^ 16, meas % 2 ^ 32, meas / 2 ^ 32 % 2 ^ 16 + (q / 2 ^ 32 % 2 ^ 16) * 2 ^ 16)
  match elem % 4 with
  | 0 => c.1 | 1 => c.2.1 | 2 => c.2.2.1 | _ => c.2.2.2

/-- Purposes (R345). -/
def Purpose.shuffle : Nat := 0
def Purpose.exchange : Nat := 1
def Purpose.crop : Nat := 2
def Purpose.flip : Nat := 3
def Purpose.patchMask : Nat := 4

/-! ## The ingest block (Table 12.9) and stream descriptors (Table 12.2) -/

/-- Bits of the INGEST operation's block. -/
def State.ib (s : State) (lo w : Nat) : Nat :=
  match s.plan.graph.bind Graph.ingest with
  | some o => oParam o lo w
  | none => 0

def State.hostPack (s : State) : Bool := s.ib 0 2 == 1
def State.tubeT (s : State) : Nat := 2 ^ s.ib 6 2
def State.patch (s : State) : Nat := [8, 14, 16, 32].getD (s.ib 8 2) 8
def State.clipTicks (s : State) : Nat := (if s.ib 96 16 = 0 then 8000 else s.ib 96 16) * 90
def State.minTicks (s : State) : Nat := (if s.ib 112 16 = 0 then 500 else s.ib 112 16) * 90
/-- Rows of a micro-batch (R247). -/
def State.budget (s : State) : Nat := match s.plan.graph with
  | some g => if g.budget = 0 then 65536 else g.budget
  | none => 0

def sdFld (d : BitVec 512) (lo w : Nat) : Nat := bits d.toNat lo w
def sdKind (d : BitVec 512) : Nat := sdFld d 32 4
def sdLen (d : BitVec 512) : Nat := sdFld d 128 64
def sdTag (d : BitVec 512) : Nat := sdFld d 320 64

/-- A reserved encoding (Table 12.2, R315): KIND above 3, CC_SERVICE outside its values, RATE_DEN 0 in a raw stream. Reserved bits are
ignored (R10). -/
def sdReserved (d : BitVec 512) : Bool :=
  let cc := sdFld d 216 8
  decide (3 < sdKind d) || !(decide (cc ≤ 4) || inRange 0x41 0x7F cc) || (sdKind d != 0 && sdFld d 288 32 == 0)

/-! ## The pool (R325) -/

/-- Bytes of the shuffle pool and of a deck's 7/16 share. -/
def State.poolBytes (s : State) : Nat := s.get F.ING_POOL_CFG_SIZE_MIB * 2 ^ 20
def State.deckShare (s : State) : Nat := s.poolBytes * 7 / 16

/-- The filling deck is at its byte share or its clip count; without a pool it holds one clip for the packer. -/
def State.fillFull (s : State) : Bool :=
  let d := s.ing.fill
  let m := s.get F.ING_SHUF_CFG_DECK_MAX
  if s.poolBytes = 0 then !d.clips.isEmpty
  else decide (s.deckShare ≤ d.bytes) || (m != 0 && decide (m ≤ d.clips.length))

/-- Replace positions `i` and `j`. -/
def swapAt (l : List Nat) (i j : Nat) : List Nat := (l.set i (l.getD j 0)).set j (l.getD i 0)

/-- The order of a closed deck (R326): `i` from n − 1 down to 1. -/
def deckOrder (seed deck : Nat) : Nat → List Nat → List Nat
  | 0, l => l
  | i + 1, l => deckOrder seed deck i (swapAt l (i + 1) (rngWord seed deck 0xFFFF Purpose.shuffle (i + 1) * (i + 2) / 2 ^ 32))

def orderOf (seed : Nat) (d : Deck) : List Nat := deckOrder seed d.num (d.clips.length - 1) (upTo d.clips.length)

/-- The filling deck closes and becomes the drawing deck; the next one fills (R327). -/
def State.switchDeck (s : State) (drawn : Nat) : State :=
  let d := s.ing.fill
  { s with ing := { s.ing with
    draw := { d with perm := if s.poolBytes = 0 then upTo d.clips.length else orderOf s.ing.seed d }
    drawn := drawn, skip := 0, refill := none
    fill := { Deck.reset with num := d.num + 1 } } }

/-! ## The data position (Table 12.8, R346) -/

def Deck.first (d : Deck) : Nat × Nat × Nat := match d.clips.head? with
  | some c => (c.stream, c.off, c.psi)
  | none => (0, 0, 0)

/-- The fill cursor: stream index and offset. -/
def State.cursor (s : State) : Nat × Nat := match s.ing.streams.head? with
  | some x => (x.index, x.off)
  | none => (s.ing.nStream, 0)

/-- The record as it stands, for the boundary of measure `m`. -/
def State.dataPos (s : State) (m : Nat) : BitVec 1024 :=
  let i := s.ing
  let d := i.draw.first
  let f := i.fill.first
  BitVec.ofNat 1024 (s.cursor.1 % 2 ^ 32 + (s.cursor.2 % 2 ^ 64) * 2 ^ 32 + (i.nClip % 2 ^ 48) * 2 ^ 96
    + ((if i.draw.clips.isEmpty then i.skip else i.drawn) % 2 ^ 32) * 2 ^ 144 + (i.seed % 2 ^ 64) * 2 ^ 192 + (i.draw.num % 2 ^ 32) * 2 ^ 256
    + (i.draw.clips.length % 2 ^ 32) * 2 ^ 288 + (d.1 % 2 ^ 32) * 2 ^ 320 + (d.2.1 % 2 ^ 64) * 2 ^ 352 + (d.2.2 % 2 ^ 64) * 2 ^ 416
    + (i.draw.exch % 2 ^ 32) * 2 ^ 480 + (i.draw.exchN % 2 ^ 32) * 2 ^ 512 + (f.1 % 2 ^ 32) * 2 ^ 544 + (f.2.1 % 2 ^ 64) * 2 ^ 576
    + (f.2.2 % 2 ^ 64) * 2 ^ 640 + (i.fill.exch % 2 ^ 32) * 2 ^ 704 + (i.fill.exchN % 2 ^ 32) * 2 ^ 736 + (m % 2 ^ 48) * 2 ^ 768)

/-- At the boundary of measure `m` the record counts only the draws of micro-batches of measures up to `m` (R347). -/
def State.boundaryPos (s : State) (m : Nat) : State :=
  let old := s.ing.ready.filter fun p => decide (p.meas ≤ m)
  let v := match old.getLast? with
    | some p => p.pos.toNat
    | none => s.ing.posMeas.toNat
  { s with ing := { s.ing with
    posMeas := BitVec.ofNat 1024 (setBits v 768 48 m)
    ready := s.ing.ready.filter fun p => decide (m < p.meas) } }

/-! ## Clips (R324) -/

/-- A clip of the partner: the manual gives the exchanged sizes and clips no encoding, so its fields are free values (log entry
5); its pictures are free too. -/
def State.foreignClip (s : State) (c : Clip) : Clip × State :=
  let (n, s1) := s.draw
  let (b, s2) := s1.draw
  ({ c with num := n, bytes := b }, s2)

/-- Position `j` of deck `num` is drawn for the exchange (R328). -/
def State.exchDrawn (s : State) (num j : Nat) : Bool :=
  decide (rngWord s.ing.seed num 0xFFFF Purpose.exchange (j + 1) * 100 < s.get F.ING_SHUF_CFG_EXCH_FRAC * 2 ^ 32)

/-- Repeat a recorded exchange of the filling deck: its first `n` drawn positions hold the partner's clips again (R348). -/
def repeatExchange : Nat → List Nat → State → State
  | 0, _, s => s
  | _, [], s => s
  | n + 1, j :: js, s =>
    match s.ing.fill.clips[j]? with
    | none => repeatExchange (n + 1) js s
    | some c =>
      let (k, s1) := s.foreignClip c
      let d := s1.ing.fill
      repeatExchange n js { s1 with ing := { s1.ing with fill := { d with clips := d.clips.set j k, bytes := d.bytes + k.bytes - c.bytes } } }

/-- A rebuilt filling deck has cut clip `j`: if the recorded exchange took it, the partner's stands in its place (R348). -/
def State.refillClip (s : State) (j : Nat) : State :=
  match s.ing.refill with
  | none => s
  | some (ex, n) =>
    let s0 : State := { s with ing := { s.ing with fill := { s.ing.fill with exch := ex } } }
    if n = 0 then { s0 with ing := { s0.ing with refill := none } }
    else if !s0.exchDrawn s0.ing.fill.num j then s0
    else
      let s1 := repeatExchange 1 [j] s0
      { s1 with ing := { s1.ing with refill := some (ex, n - 1), fill := { s1.ing.fill with exchN := s1.ing.fill.exchN + 1 } } }

/-- Store a clip that ends `dur` ticks after its start, or discard it: beyond Table 12.3 (R321), or too short. -/
def State.closeClip (s : State) (dur : Nat) : State :=
  match s.ing.clip with
  | none => s
  | some c =>
    let s1 : State := { s with ing := { s.ing with clip := none } }
    if c.unsup then
      let tag := match s.ing.streams.head? with | some x => sdTag x.desc | none => 0
      (s1.count F.ING_UNSUPPORTED_COUNT 1).detectAt Er.unsupported 14 7 0 tag
    else if dur < s.minTicks then s1.count F.ING_CLIP_SHORT_COUNT 1
    else
      let k : Clip := { c with num := s.ing.nClip, dur := dur }
      let d := s.ing.fill
      let s2 : State := { s1 with ing := { s1.ing with
        nClip := s.ing.nClip + 1
        fill := { d with clips := d.clips ++ [k], bytes := d.bytes + k.bytes } } }
      -- a recorded drawing deck is complete: ordered and its draws skipped (R348)
      match s2.ing.recut with
      | some (n, drawn, num, ex, exN) =>
        if s2.ing.fill.clips.length < n then s2
        else
          let s3 : State := { s2 with ing := { s2.ing with fill := { s2.ing.fill with num := num, exch := ex, exchN := exN } } }
          let s4 := State.switchDeck (if ex = 0xFFFFFFFF then s3 else repeatExchange exN ((upTo n).filter (s3.exchDrawn num)) s3) drawn
          { s4 with ing := { s4.ing with recut := none, refill := s2.ing.refill } }
      | none => s2.refillClip (s2.ing.fill.clips.length - 1)

/-- The end of an open clip that no later random-access point ends: one mean picture interval after its last picture. -/
def Clip.naturalEnd (c : Clip) : Nat :=
  let last := c.pics.foldl (fun m p => max m p.1) 0
  if c.pics.length ≤ 1 then last else last + last / (c.pics.length - 1)

def State.endClip (s : State) : State := match s.ing.clip with
  | some c => s.closeClip c.naturalEnd
  | none => s

/-- Ticks from `start` to `pts` on the 33-bit clock; a picture before the start counts at it (R319). -/
def relTicks (start pts : Nat) : Nat :=
  let d := (pts + 2 ^ 33 - start % 2 ^ 33) % 2 ^ 33
  if d < 2 ^ 32 then d else 0

/-- Decode factor in twelfths, by chroma and bit depth (Table 12.5, whose 1.333 and 1.667 are 4/3 and 5/3; log entry 74). -/
def decodeFactor (au : Bytes) : Nat := match Config.chroma422 au, Config.tenBit au with
  | false, false => 12
  | false, true => 15
  | true, false => 16
  | true, true => 20

/-- Core cycles that decoding a clip takes (R330; 529.7 Mpixel/s is 529,687,500 of the worked example: log entry 74). -/
def Clip.cost (c : Clip) : Nat :=
  38000 + max (ceilDiv (c.luma.foldl (· + ·) 0 * c.factor * (19 * 10 ^ 8)) (12 * 529687500)) (ceilDiv (8 * c.bytes * 1900) (max 1 c.entropy))

/-- A clip opens with the access unit of a random-access point. -/
def openClip (st : Stream) (psi off pts : Nat) (au : Bytes) (bad audio h262 : Bool) : Clip :=
  { num := 0, stream := st.index, off := off, psi := psi, bytes := au.length, startPts := pts, dur := 0
    luma := [Config.lumaSamples au], factor := decodeFactor au, entropy := if h262 then 480 else 320, fmt := Config.pictureFormat au, inter := Config.interlaced au
    pics := [(0, bad)], segs := [(0, 0, 0)], audio := audio, unsup := Config.unsupported au }

/-- The open clip goes beyond 256 MiB: its whole segments close, the last one goes on alone; a single segment is discarded. -/
def State.overflowClip (s : State) (c : Clip) : State :=
  if c.segs.length ≤ 1 then { s with ing := { s.ing with clip := none } }.count F.ING_CLIP_BIG_COUNT 1
  else
    let g := c.segs.getLastD (0, 0, 0)
    let head : Clip := { c with bytes := g.2.1, luma := c.luma.take g.2.2, pics := c.pics.take g.2.2, segs := c.segs.dropLast }
    let rest : Clip := { c with off := c.off + g.2.1, bytes := c.bytes - g.2.1, luma := c.luma.drop g.2.2, startPts := (c.startPts + g.1) % 2 ^ 33
                                pics := (c.pics.drop g.2.2).map fun p => (p.1 - g.1, p.2), segs := [(0, 0, 0)] }
    let s1 := State.closeClip { s with ing := { s.ing with clip := some head } } g.1
    if 2 ^ 28 < rest.bytes then s1.count F.ING_CLIP_BIG_COUNT 1 else { s1 with ing := { s1.ing with clip := some rest } }

/-- One access unit of the stream at the cursor, with its presentation time (R321, R324): before the place where cutting
resumes it is passed over (R348); outside a clip only a random-access point opens one; a random-access point ends a clip that
has reached CLIP_MS; a changed picture format ends it. Damage lasts to the next random-access point (R333). -/
def State.takeAu (s : State) (st : Stream) (off pts : Nat) (au : Bytes) (bad : Bool) : State :=
  let rap := Config.isRap au
  let audio := s.ing.demux.audioPid.isSome
  let fresh := fun (t : State) => { t with ing := { t.ing with clip := some (openClip st t.ing.demux.lastPat off pts au bad audio t.ing.demux.h262) } }
  if st.index < s.ing.from_.1 ∨ (st.index = s.ing.from_.1 ∧ off < s.ing.from_.2) then s
  else match s.ing.clip with
    | none => if rap then fresh s else s
    | some c =>
      let t := relTicks c.startPts pts
      let spread := !rap && s.ing.demux.spread
      let s0 : State := { s with ing := { s.ing with demux := { s.ing.demux with spread := (spread || bad) } } }
      if rap && (decide (s.clipTicks ≤ t) || Config.pictureFormat au != c.fmt) then
        -- a changed format or a full clip: this picture opens the next
        fresh (s0.closeClip t)
      else
        let c1 : Clip := { c with
          bytes := c.bytes + au.length
          luma := c.luma ++ [Config.lumaSamples au]
          pics := c.pics ++ [(t, bad || spread)]
          segs := if rap then c.segs ++ [(t, c.bytes, c.pics.length)] else c.segs
          unsup := c.unsup || Config.unsupported au }
        let s1 : State := { s0 with ing := { s0.ing with clip := some c1 } }
        if 2 ^ 28 < c1.bytes then s1.overflowClip c1 else s1

/-! ## Transport streams (R316 to R319; syntax of ISO/IEC 13818-1, log entry 9) -/

def byteAt (b : Bytes) (i : Nat) : Nat := (b.getD i 0#8).toNat
/-- Big-endian two bytes. -/
def be16 (b : Bytes) (i : Nat) : Nat := byteAt b i * 256 + byteAt b (i + 1)

def tsPid (p : Bytes) : Nat := be16 p 1 % 2 ^ 13
def tsError (p : Bytes) : Bool := bit (byteAt p 1) 7
def tsStart (p : Bytes) : Bool := bit (byteAt p 1) 6
def tsCc (p : Bytes) : Nat := byteAt p 3 % 16
def tsHasPayload (p : Bytes) : Bool := bit (byteAt p 3) 4
def tsHasAdapt (p : Bytes) : Bool := bit (byteAt p 3) 5
def tsDiscont (p : Bytes) : Bool := tsHasAdapt p && decide (0 < byteAt p 4) && bit (byteAt p 5) 7
def tsPcr (p : Bytes) : Bool := tsHasAdapt p && decide (0 < byteAt p 4) && bit (byteAt p 5) 4
def tsPayload (p : Bytes) : Bytes :=
  if !tsHasPayload p then [] else p.drop (if tsHasAdapt p then 5 + byteAt p 4 else 4)

/-- The whole sections at the front of `b`, each up to its CRC, and the bytes of one not yet whole; `n` bounds their number, 0xFF stuffs the rest. -/
def takeSections : Nat → Bytes → List Bytes × Bytes
  | 0, b => ([], b)
  | n + 1, b =>
    let k := 3 + be16 b 1 % 2 ^ 12
    if b.isEmpty || byteAt b 0 == 0xFF then ([], [])
    else if b.length < 3 || decide (b.length < k) then ([], b)
    else let r := takeSections n (b.drop k); (b.take (k - 4) :: r.1, r.2)

/-- A packet of PID `pid` with table sections (R317): the sections it completes, with the stream offset at which each began. A payload that
starts a section has a pointer to it behind the rest of the one before. -/
def Demux.psiPacket (d : Demux) (pid off : Nat) (p : Bytes) : List (Nat × Bytes) × Demux :=
  let pl := tsPayload p
  let old := (d.psi.find? fun x => x.1 == pid).map (·.2)
  let rest := d.psi.filter fun x => x.1 != pid
  let keep := fun (o : Nat) (b : Bytes) => if b.isEmpty then rest else (pid, o, b) :: rest
  let old1 := match old with
    | some x => let r := takeSections 64 (x.2 ++ if tsStart p then bytesAt pl 1 (byteAt pl 0) else pl); (r.1.map (x.1, ·), keep x.1 r.2)
    | none => ([], rest)
  if tsStart p then
    let r := takeSections 64 (pl.drop (1 + byteAt pl 0))
    (old1.1 ++ r.1.map (off, ·), { d with psi := keep off r.2 })
  else (old1.1, { d with psi := old1.2 })

/-- A section of the PAT: where the selected program is listed, its PMT's PID; 0 selects the first program of the table, which its first section
lists. -/

def patPmt (program : Nat) (b : Bytes) : Option Nat :=
  ((chunks 4 ((b.length - 8) / 4) (b.drop 8)).find? fun e => be16 e 0 != 0 && (program == 0 || be16 e 0 == program)).map fun e => be16 e 2 % 2 ^ 13

/-- Descriptors as (tag, body). -/
def descs : Nat → Bytes → List (Nat × Bytes)
  | 0, _ => []
  | n + 1, b => if b.length < 2 then [] else (byteAt b 0, bytesAt b 2 (byteAt b 1)) :: descs n (b.drop (2 + byteAt b 1))

/-- Elementary streams as (stream_type, PID, descriptors). -/
def esLoop : Nat → Bytes → List (Nat × Nat × List (Nat × Bytes))
  | 0, _ => []
  | n + 1, b =>
    if b.length < 5 then [] else
      let l := be16 b 3 % 2 ^ 12
      (byteAt b 0, be16 b 1 % 2 ^ 13, descs l (bytesAt b 5 l)) :: esLoop n (b.drop (5 + l))

def videoType (t : Nat) : Bool := t == 0x02 || t == 0x1B || t == 0x24

/-- A supported audio stream in the language asked for (R317). -/
def audioOk (lang : Nat) (e : Nat × Nat × List (Nat × Bytes)) : Bool :=
  let ac3 := e.2.2.any fun d => d.1 == 0x6A
  (e.1 == 0x03 || e.1 == 0x04 || e.1 == 0x0F || e.1 == 0x81 || (e.1 == 0x06 && ac3))
    && (lang == 0 || e.2.2.any fun d => d.1 == 0x0A && byteAt d.2 0 * 65536 + be16 d.2 1 == lang)

/-- A teletext stream that carries the page (R317). -/
def ttxOk (page : Nat) (e : Nat × Nat × List (Nat × Bytes)) : Bool :=
  page != 0 && e.2.2.any fun d => d.1 == 0x56 && (chunks 5 (d.2.length / 5) d.2).any fun x =>
    (if byteAt x 3 % 8 = 0 then 8 else byteAt x 3 % 8) * 256 + byteAt x 4 == page

/-- A PMT of the selected program: a changed version closes the open clip, and its PIDs apply from the next packet (R317). -/
def State.takePmt (s : State) (st : Stream) (b : Bytes) : State :=
  let ver := bits (byteAt b 5) 1 5
  if byteAt b 0 != 2 || s.ing.demux.pmtVer == some ver then s
  else
    let s1 := if s.ing.demux.pmtVer.isSome then s.endClip else s
    let n := be16 b 10 % 2 ^ 12
    let es := esLoop 64 (b.drop (12 + n))
    { s1 with ing := { s1.ing with demux := { s1.ing.demux with
      pmtVer := some ver
      pcrPid := some (be16 b 8 % 2 ^ 13)
      videoPid := (es.find? fun e => videoType e.1).map (·.2.1)
      h262 := (es.find? fun e => videoType e.1).any fun e => e.1 == 2
      audioPid := (es.find? (audioOk (sdFld st.desc 192 24))).map (·.2.1)
      ttxPid := (es.find? (ttxOk (sdFld st.desc 224 12))).map (·.2.1)
      cc := [], pes := [], pesBad := false } } }

/-- A section of the PAT that began at stream offset `off` (R317, R346). -/
def State.takePat (s : State) (st : Stream) (off : Nat) (b : Bytes) : State :=
  let d := s.ing.demux
  let n := sdFld st.desc 48 16
  if byteAt b 0 != 0 then s
  else { s with ing := { s.ing with demux := { d with lastPat := off
                                                      pmtPid := if n = 0 ∧ byteAt b 6 ≠ 0 then d.pmtPid else (patPmt n b).orElse fun _ => d.pmtPid } } }

/-- The PTS of a PES packet, if it carries one, and its payload. -/
def pesPts (b : Bytes) : Option Nat :=
  if bit (byteAt b 7) 7 then
    some (bits (byteAt b 9) 1 3 * 2 ^ 30 + byteAt b 10 * 2 ^ 22 + bits (byteAt b 11) 1 7 * 2 ^ 15 + byteAt b 12 * 2 ^ 7 + bits (byteAt b 13) 1 7)
  else none
def pesPayload (b : Bytes) : Bytes := b.drop (9 + byteAt b 8)

/-- The video PES under reassembly is complete: one access unit. -/
def State.endPes (s : State) (st : Stream) : State :=
  let d := s.ing.demux
  let s1 : State := { s with ing := { s.ing with demux := { d with pes := [], pesBad := false } } }
  if d.pes.length ≤ 9 then s1
  else match pesPts d.pes with
    | some t => s1.takeAu st d.pesOff t (pesPayload d.pes) d.pesBad
    | none => s1

/-- The last counter and duplicate mark of a PID. -/
def ccOf (d : Demux) (pid : Nat) : Option (Nat × Bool) := (d.cc.find? fun x => x.1 == pid).map (·.2)

/-- One packet in sync at stream offset `off` (R316 to R318). A packet with the error indicator is lost: it damages
its own PID's PES. -/
def State.takePacket (s : State) (st : Stream) (off : Nat) (p : Bytes) : State :=
  let d := s.ing.demux
  let pid := tsPid p
  let sel := some pid == d.videoPid || some pid == d.audioPid || some pid == d.ttxPid
  if tsError p then (if some pid = d.videoPid then { s with ing := { s.ing with demux := { d with pesBad := true } } } else s)
  else if pid = 0 ∨ some pid = d.pmtPid then
    let r := d.psiPacket pid off p
    r.1.foldl (fun t x => if pid = 0 then t.takePat st x.1 x.2 else t.takePmt st x.2) { s with ing := { s.ing with demux := r.2 } }
  else
    let s0 := if tsDiscont p && tsPcr p && some pid == d.pcrPid then s.endClip else s
    if !sel || !tsHasPayload p then s0
    else
      let last := if tsDiscont p then none else ccOf s0.ing.demux pid
      let dup := last.any fun x => x.1 == tsCc p && !x.2
      let gap := last.any fun x => !dup && tsCc p != (x.1 + 1) % 16
      let cc := (s0.ing.demux.cc.filter fun x => x.1 != pid) ++ [(pid, tsCc p, dup)]
      let s1 : State := { s0 with ing := { s0.ing with demux := { s0.ing.demux with cc := cc } } }
      if dup then s1
      else
        let s2 := if gap then s1.count F.ING_TS_CC_ERR_COUNT 1 else s1
        if some pid ≠ d.videoPid then s2
        else
          let s3 : State := if gap then { s2 with ing := { s2.ing with demux := { s2.ing.demux with pesBad := true } } } else s2
          if tsStart p then
            let s4 := s3.endPes st
            { s4 with ing := { s4.ing with demux := { s4.ing.demux with pes := tsPayload p, pesOff := off } } }
          else if s3.ing.demux.pes.isEmpty then s3
          else { s3 with ing := { s3.ing with demux := { s3.ing.demux with pes := s3.ing.demux.pes ++ tsPayload p } } }

/-- The first place where three sync bytes stand 188 bytes apart. -/
def syncAt (b : Bytes) : Option Nat :=
  (upTo (b.length - 376)).find? fun o => byteAt b o == 0x47 && byteAt b (o + 188) == 0x47 && byteAt b (o + 376) == 0x47

/-- The demultiplexer's bytes not yet consumed, and whether it is in sync. -/
def State.demuxTo (s : State) (rest : Bytes) (sync : Bool) : State :=
  { s with ing := { s.ing with demux := { s.ing.demux with buf := rest, sync := sync } } }

/-- Sync is lost: damage lasts up to the next random-access point, and the loss counts (R316). -/
def State.syncLost (s : State) : State :=
  State.count { s with ing := { s.ing with demux := { s.ing.demux with sync := false, pesBad := true } } } F.ING_TS_RESYNC_COUNT 1

/-- One move of the demultiplexer over its buffer, whose first byte has stream offset `off`: a whole packet is consumed; on a
byte other than 0x47 sync is lost; out of sync, bytes are discarded up to the next sync (R316). The next offset, and whether
to go on. -/
def State.demuxOnce (s : State) (st : Stream) (off : Nat) : Nat × State × Bool :=
  let b := s.ing.demux.buf
  if s.ing.demux.sync then
    if b.length < 188 then (off, s, false)
    else if byteAt b 0 = 0x47 then (off + 188, (s.demuxTo (b.drop 188) true).takePacket st off (b.take 188), true)
    else (off, s.syncLost, true)
  else match syncAt b with
    | some o => (off + o, s.demuxTo (b.drop o) true, true)
    | none => (off, s.demuxTo (b.drop (b.length - 376)) false, false)

/-- Consume what the buffer holds; `n` bounds the moves. -/
def State.demux (st : Stream) : Nat → Nat → State → State
  | 0, _, s => s
  | n + 1, off, s =>
    let r := s.demuxOnce st off
    if r.2.2 then State.demux st n r.1 r.2.1 else r.2.1

/-! ## Raw streams (R319) -/

/-- Whole access units of a raw stream, at k × RATE_DEN / RATE_NUM seconds, k counting in output order. -/
def State.rawUnits (st : Stream) : Nat → Nat → State → State
  | 0, _, s => s
  | n + 1, off, s =>
    let b := s.ing.demux.buf
    match Config.auLength b with
    | none => s
    | some k =>
      if k = 0 ∨ b.length < k then s
      else
        let t := ((s.ing.demux.raw : Int) + Config.reorder (b.take k)).toNat * sdFld st.desc 288 32 * 90000 / max 1 (sdFld st.desc 256 32)
        let s1 : State := { s with ing := { s.ing with demux := { s.ing.demux with buf := b.drop k, raw := s.ing.demux.raw + 1 } } }
        State.rawUnits st n (off + k) (s1.takeAu st off t (b.take k) false)

/-! ## Rows: streams -/

/-- The stream at the cursor has ended: its last picture and clip are closed, its command completes (R315, R324). -/
def State.endStream (s : State) (st : Stream) : State :=
  let s1 := (s.endPes st).endClip
  let s2 : State := { s1 with ing := { s1.ing with streams := s1.ing.streams.tail, demux := Demux.reset } }
  s2.finishWhere (fun c => dOpcode c.desc == 0x30 && c.datum == st.index) St.ok fun _ => 0

/-- The fill may run: RUNNING with device packing, a stream, and room in the filling deck (R325, R342). -/
def State.filling (s : State) : Bool := s.dev == .running && !s.run.stopped && !s.hostPack && !s.fillFull

/-- TS_PACKET (R316 to R324): the next 188 bytes of the stream at the cursor (of a raw stream, its next bytes). -/
def execTsPacket (cyc : Nat) (pkt : Bytes) (s : State) : Host.Outcome State Fault Refusal :=
  if s.dev == .off then .next s else
  let s1 := s.tick cyc
  match s1.ing.streams with
  | [] => .next s1
  | st :: rest =>
    if !s1.filling then .next s1
    else
      let p := pkt.take (sdLen st.desc - st.off)
      let base := st.off - s1.ing.demux.buf.length
      let st1 : Stream := { st with off := st.off + p.length }
      let s2 : State := { s1 with ing := { s1.ing with
        streams := st1 :: rest, demux := { s1.ing.demux with buf := s1.ing.demux.buf ++ p } } }
      let n := s2.ing.demux.buf.length
      let s3 := if sdKind st.desc = 0 then State.demux st1 (n + 1) base s2 else State.rawUnits st1 n base s2
      if sdLen st.desc ≤ st1.off then .next (s3.endStream st1) else .next s3

/-- INGEST_STREAM (R315, R348): refused out of sequence, then for a reserved encoding; up to 4,096 are outstanding. After a
restore the first stream is read from the recorded PAT. -/
def execIngestStream (cyc : Nat) (ring : Nat) (sd : BitVec 512) (s : State) : Host.Outcome State Fault Refusal :=
  if s.dev == .off then .next s else
  .next ((s.tick cyc).start ring 0x30 false true fun d t =>
    if sdFld sd 0 32 ≠ t.ing.nStream ∨ 4096 ≤ t.ing.streams.length then t.finish ring d St.ingSeq 0
    else if sdReserved sd then t.finish ring d St.ingFormat 0
    else
      let off := if t.ing.nStream = t.ing.from_.1 then t.ing.psiFrom else 0
      let st : Stream := ⟨t.ing.nStream, sd, ring, dTag d, off⟩
      State.activate { t with ing := { t.ing with nStream := t.ing.nStream + 1, streams := t.ing.streams ++ [st] } } ring d st.index)

/-- Complete the started command of ring `n` with opcode `op` and tag `tag`. -/
def State.finishTag (s : State) (n op tag status result : Nat) : State :=
  match (s.ring n).active.find? fun c => dOpcode c.desc == op && dTag c.desc == tag with
  | none => s
  | some c => (s.setRing n { s.ring n with active := (s.ring n).active.erase c }).finish n c.desc status result

/-- INGEST_MB (R6, R342, R426): a host-packed micro-batch in the host window; waits for the pack figure that copies it. -/
def execIngestMb (cyc : Nat) (ring : Nat) (s : State) : Host.Outcome State Fault Refusal :=
  if s.dev == .off then .next s else
  .next ((s.tick cyc).start ring 0x31 false true fun d t =>
    if !t.feat 7 then t.finish ring d St.expertDenied 0
    else if !t.hostPack then t.finish ring d St.state 0
    else if dW d 1 % 4096 ≠ 0 ∨ t.get F.HUB_WIN_CFG_SIZE_MIB * 2 ^ 20 ≤ dW d 1 then t.finish ring d St.badArg 0
    else State.activate { t with ing := { t.ing with hostMb := t.ing.hostMb ++ [(ring, dTag d, dW d 1, bits (dW d 2) 0 32)] } } ring d 0)

/-- ING_POS_READ (R346): the current record to host memory; RESULT is its MEASURE. -/
def execIngPosRead (cyc : Nat) (ring : Nat) (s : State) : Host.Outcome State Fault Refusal :=
  if s.dev == .off then .next s else
  .next ((s.tick cyc).start ring 0x32 true true fun d t =>
    let m := bits t.ing.posMeas.toNat 768 48
    (t.hostPut (dW d 1) 128 (t.dataPos m).toNat).finish ring d St.ok m)

/-! ## Rows of clips (R333, R336, R337) -/

/-- Output frames of a clip. -/
def State.clipFrames (s : State) (c : Clip) : Nat :=
  let r := s.ib 64 32
  if r = 0 then c.pics.length * (if s.ib 2 1 = 1 && c.inter then 2 else 1) else ceilDiv (c.dur * r) 90000000

/-- Rows of one tubelet time, and of a clip. -/
def State.rowsPerTube (s : State) : Nat := (s.ib 32 16 / s.patch) * (s.ib 48 16 / s.patch)
def State.clipRows (s : State) (c : Clip) : Nat := s.clipFrames c / s.tubeT * s.rowsPerTube

/-- Insert a picture (time, number) behind those shown no later. -/
def insertShown (p : Nat × Nat) : List (Nat × Nat) → List (Nat × Nat)
  | [] => [p]
  | q :: l => if q.1 ≤ p.1 then q :: insertShown p l else p :: q :: l

/-- The pictures of a clip, kept in decode order, in the order of their times (R319, R336): (time, number). -/
def Clip.shown (c : Clip) : List (Nat × Nat) := c.pics.zipIdx.foldl (fun l p => insertShown (p.1.1, p.2) l) []

/-- The source picture of output frame `k`: the last whose time is at or before it (R336); with OUT_RATE 0 the k-th shown. -/
def State.framePic (s : State) (c : Clip) (k : Nat) : Nat :=
  let r := s.ib 64 32
  if r = 0 then (c.shown.getD (if s.ib 2 1 = 1 && c.inter then k / 2 else k) (0, 0)).2
  else
    let t := k * 90000000 / r
    (c.pics.zipIdx.foldl (fun (b : Nat × Nat) p => if p.1.1 ≤ t ∧ b.1 ≤ p.1.1 then (p.1.1, p.2) else b) (0, 0)).2

/-- With separate fields, which field of its picture output frame `k` is: 0 the first in the stream's order, 1 the second, half a
frame later (R332); 0 otherwise. -/
def State.frameField (s : State) (c : Clip) (k : Nat) : Nat :=
  if s.ib 2 1 = 0 || !c.inter then 0
  else if s.ib 64 32 = 0 then k % 2
  else
    let t := k * 90000000 / s.ib 64 32
    let p := s.framePic c k
    let now := (c.pics.map (·.1)).getD p 0
    let next := ((c.shown.find? fun (q : Nat × Nat) => decide (now < q.1)).map (·.1)).getD c.dur
    if next - now ≤ 2 * (t - now) then 1 else 0

/-- Pictures of a clip that are damaged: as cut, or failed in decode, and then to the end of their segment (R333). -/
def damagedPics (c : Clip) : List Bool :=
  (c.pics.zipIdx.foldl (fun (a : List Bool × Bool) p =>
    let start := c.segs.any fun g => g.2.2 == p.2
    let bad := p.1.2 || Config.decodeFails c.num p.2 || (!start && a.2)
    (a.1 ++ [bad], bad)) ([], false)).1

/-- Row `r` of a clip contains no damaged picture. -/
def State.rowValid (s : State) (c : Clip) (r : Nat) : Bool :=
  let bad := damagedPics c
  (upTo s.tubeT).all fun j => !(bad.getD (s.framePic c (r / max 1 s.rowsPerTube * s.tubeT + j)) false)

/-- Segment of output frame `k`: the number of segments that start at or before its picture. -/
def State.frameSeg (s : State) (c : Clip) (k : Nat) : Nat := (c.segs.filter fun g => decide (g.2.2 ≤ s.framePic c k)).length

/-- Rows at which a clip may be cut: the first tubelet whose first frame belongs to a new segment (R249). -/
def State.cutRows (s : State) (c : Clip) : List Nat :=
  ((upTo (s.clipFrames c / s.tubeT)).filter fun t =>
    decide (0 < t) && s.frameSeg c (t * s.tubeT) != s.frameSeg c ((t - 1) * s.tubeT)).map (· * s.rowsPerTube)

/-! ## Packing (R248, R249, R341) -/

/-- Rows of the piece that starts at row `r`, and whether it cuts a single segment. -/
def State.piece (s : State) (c : Clip) (r : Nat) : Nat × Bool :=
  let left := s.clipRows c - r
  if left ≤ s.budget then (left, false)
  else match ((s.cutRows c).filter fun b => decide (r < b) && decide (b ≤ r + s.budget)).getLast? with
    | some b => (b - r, false)
    | none => (s.budget, true)

/-- Close the micro-batch under packing; its draws left the position `pos`. -/
def State.closePack (s : State) (pos : BitVec 1024) : State :=
  let m := match s.plan.card with
    | some c => max 1 c.mbs.length
    | none => 1
  let p : Pack := { s.ing.open_ with mb := s.ing.nextMb, meas := s.ing.nextMeas, pos := pos }
  let last := decide (m ≤ s.ing.nextMb + 1)
  { s with ing := { s.ing with
    ready := s.ing.ready ++ [p], open_ := Pack.reset
    nextMb := if last then 0 else s.ing.nextMb + 1
    nextMeas := if last then s.ing.nextMeas + 1 else s.ing.nextMeas } }

/-- Place the piece of clip `c` from row `r`: a piece that does not fit closes the micro-batch and opens the next (R248); what
is left of a cut clip waits for a later one (R249). -/
def State.placePiece (s : State) (pos : BitVec 1024) (c : Clip) (r : Nat) : State :=
  let (n, seg) := s.piece c r
  let cut := decide (r + n < s.clipRows c)
  let s1 := if cut && r == 0 then s.count F.ING_CLIP_CUT_COUNT 1 else s
  let s2 := if seg && (r == 0 || (s1.cutRows c).contains r) then s1.count F.ING_SEG_CUT_COUNT 1 else s1
  let s3 := if s2.budget < s2.ing.open_.rows + n then s2.closePack pos else s2
  let o := s3.ing.open_
  let s4 : State := { s3 with ing := { s3.ing with
    open_ := { o with parts := o.parts ++ [(c, r, n)], rows := o.rows + n }
    carry := if cut then some (c, r + n) else none } }
  if s4.ing.open_.rows = s4.budget then s4.closePack (s4.dataPos 0) else s4

/-- The next draw, switching decks when the drawing deck is empty (R327): none while it must wait. -/
def State.takeDraw (s : State) : Option Clip × State :=
  let s1 := if s.ing.drawn < s.ing.draw.clips.length then s
    else if s.ing.fill.clips.isEmpty || s.ing.exchPending || s.ing.recut.isSome then s
    else (if s.fillFull then s else s.count F.ING_DECK_EARLY_COUNT 1).switchDeck s.ing.skip
  if s1.ing.drawn < s1.ing.draw.clips.length then
    (s1.ing.draw.clips[s1.ing.draw.perm.getD s1.ing.drawn 0]?, { s1 with ing := { s1.ing with drawn := s1.ing.drawn + 1 } })
  else (none, s1)

/-- CLIP_DRAW (R327, R341): the packer takes the next draw into the micro-batch it composes. -/
def execClipDraw (cyc : Nat) (s : State) : Host.Outcome State Fault Refusal :=
  if s.dev == .off then .next s else
  let s1 := s.tick cyc
  if s1.dev != .running || s1.run.stopped || s1.hostPack || !(s1.plan.graph.any fun g => g.ingest.isSome) then .next s1
  else
    let pos := s1.dataPos 0
    match s1.ing.carry with
    | some (c, r) => .next (s1.placePiece pos c r)
    | none => match s1.takeDraw with
      | (none, s2) => .next s2
      | (some c, s2) => .next (s2.placePiece pos c 0)

/-! ## Ingest figures (Table 18.13, HD) -/

/-- The packed micro-batch of a figure: the first of its number that no pack figure has taken. -/
def State.packOf (s : State) (mb : Nat) : Option Pack := s.ing.ready.find? fun p => p.mb == mb && !p.taken

/-- Token index entry of row `r` of a clip, at row `e` of the micro-batch (Table 12.6). -/
def State.indexEntry (s : State) (p : Pack) (c : Clip) (r e : Nat) : Nat :=
  let t := s.rowsPerTube
  let w := max 1 (s.ib 32 16 / s.patch)
  let valid := s.rowValid c r
  let masked := valid && decide (rngWord s.ing.seed p.meas p.mb Purpose.patchMask e / 256 < s.ib 192 16 * 256)
  r / max 1 t % 2 ^ 16 + (r % max 1 t / w) * 2 ^ 16 + (r % w) * 2 ^ 28 + (if masked then 2 ^ 62 else 0) + if valid then 2 ^ 63 else 0

/-! ## Post-processing (R334 to R338) -/

/-- A value in [0, 1] rounded with RNE to a multiple of 1/255 (step 4 of R334). -/
def depth8 (v : FVal) : Word32 := match v with
  | .fin _ m e =>
    let k := if 0 ≤ e then (255 * m) <<< e.toNat else rneShift (255 * m) (-e).toNat
    rne32 (FVal.div (.fin false k 0) (.fin false 255 0))
  | _ => fZero

/-- Steps 3 to 5 of R334 on channel `ch`: clamped to [0, 1], DEPTH8, (v − mean) × inv_std; NORM holds the three means, then the three
inverse deviations. -/
def State.normPixel (s : State) (ch : Nat) (x : Word32) : Word32 :=
  let v := if (f32 x).lt .zero then fZero else if FVal.one.lt (f32 x) then fOne else x
  let w := if s.ib 3 1 = 1 then depth8 (f32 v) else v
  fMul (fSub w (BitVec.ofNat 32 (s.ib (256 + 32 * ch) 32))) (BitVec.ofNat 32 (s.ib (352 + 32 * ch) 32))

/-- Channel `ch` of pixel (x, y) of output frame `k` of clip `c`, the `ord`-th of micro-batch `p`: zero in a damaged picture (R333),
else the picture converted (R334), cropped and resized (R335); CROP and FLIP draw for the clip (R345). -/
def State.outPixel (s : State) (p : Pack) (c : Clip) (ord k x y ch : Nat) : Word32 :=
  let pic := s.framePic c k
  if (damagedPics c).getD pic false then fZero
  else
    let draw := fun purpose e => rngWord s.ing.seed p.meas p.mb purpose (4 * ord + e) / 256
    let rand := s.ib 15 1 = 1
    let x1 := if s.ib 16 1 = 1 ∧ draw Purpose.flip 0 < 2 ^ 23 then s.ib 32 16 - 1 - x else x
    Config.resample c.num (s.ib 14 1) (if rand then draw Purpose.crop 0 else 2 ^ 23) (if rand then draw Purpose.crop 1 else 2 ^ 23)
      (s.ib 32 16) (s.ib 48 16) x1 y fun a b => s.normPixel ch (Config.rgb c.num pic (s.ib 2 1 + 2 * s.frameField c k + 4 * s.ib 10 4) a b ch)

/-- The elements of row `r` of a clip: frame, pixel row, pixel column, channel (R337). -/
def State.rowElems (s : State) (p : Pack) (c : Clip) (ord r : Nat) : List Word32 :=
  let t := s.rowsPerTube
  let w := max 1 (s.ib 32 16 / s.patch)
  (upTo s.tubeT).flatMap fun f => (upTo s.patch).flatMap fun i => (upTo s.patch).flatMap fun j => (upTo 3).map fun ch =>
    s.outPixel p c ord (r / max 1 t * s.tubeT + f) (r % w * s.patch + j) (r % max 1 t / w * s.patch + i) ch

/-- Groups of 32 elements, `n` bounding their number. -/
def groups32 : Nat → List Word32 → List (List Word32)
  | 0, _ => []
  | n + 1, l => if l.isEmpty then [] else l.take 32 :: groups32 n (l.drop 32)

/-- A row in E4M3, BF16 or C8 (R338): codes, and for C8 the data scale of each 32 elements in the default codebook (R144). -/
def encodeRow (fmt : Nat) (l : List Word32) : List Nat × List Word32 :=
  if fmt = 2 then
    let gs := (groups32 l.length l).map fun g => (g, (groupScaleClamped defaultC8 (g.map f32)).1)
    (gs.flatMap fun g => g.1.map fun x => (encode1 x g.2 defaultC8 true).1, gs.map (·.2))
  else (l.map fun x => ((if fmt = 0 then Fmt.e4m3 else Fmt.bf16).narrow (f32 x)).1, [])

/-- A conversion of a row meets an infinity or a NaN, or overflows BF16 (R132, R142): its figure's non-finite flag. -/
def rowBad (fmt : Nat) (l : List Word32) : Bool :=
  l.any fun x => fNonfin x || (fmt == 1 && (Fmt.bf16.narrow (f32 x)).2.nonfin)

/-! ## Audio and captions (R338, R340) -/

/-- Audio rows by sequence: what fits in AUDIO_ROWS, and whether rows were lost. -/
def State.audioParts (s : State) (p : Pack) : List (List (List Word32) × Bool) :=
  if s.ib 17 1 = 0 then []
  else (p.parts.foldl (fun (a : List (List (List Word32) × Bool) × Nat) x =>
    let rows := Config.audioRows x.1.num x.2.1 x.2.2 (s.ib 18 3)
    let room := s.ib 128 32 - a.2
    (a.1 ++ [(rows.take room, decide (room < rows.length))], a.2 + min room rows.length)) ([], 0)).1

/-- A caption record: header, LEN bytes, padded to a multiple of 4 (R340). -/
def captionBytes (x : Nat × Nat × Bytes) : Bytes :=
  leBytes 8 (x.1 % 2 ^ 32 + x.2.1 % 2 ^ 8 * 2 ^ 32 + x.2.2.length % 2 ^ 8 * 2 ^ 40) ++ x.2.2
    ++ List.replicate ((4 - x.2.2.length % 4) % 4) 0#8

/-- The records of a list that fit in `room` bytes, in order up to the first that does not, and whether one did not. -/
def takeRecords : Nat → List (Nat × Nat × Bytes) → Bytes × Bool
  | _, [] => ([], false)
  | room, x :: l =>
    if (captionBytes x).length ≤ room then
      let r := takeRecords (room - (captionBytes x).length) l
      (captionBytes x ++ r.1, r.2)
    else ([], true)

/-- Caption records by sequence: what fits in CAPTION_BYTES, and whether records were lost. -/
def State.captionParts (s : State) (p : Pack) : List (Bytes × Bool) :=
  if s.ib 21 1 = 0 then []
  else (p.parts.foldl (fun (a : List (Bytes × Bool) × Nat) x =>
    let r := takeRecords (s.ib 160 32 - a.2) (Config.captions x.1.num x.2.1 x.2.2)
    (a.1 ++ [r], a.2 + r.1.length)) ([], 0)).1

/-- Running totals of a list of lengths, from 0. -/
def offsetsOf (l : List Nat) : List Nat := (l.foldl (fun (a : List Nat × Nat) n => (a.1 ++ [a.2 + n], a.2 + n)) ([0], 0)).1

/-- The tensors of a micro-batch: offsets of the sequences, and for exactly budget rows (R247) the index table with padding rows 0 and the rows,
of which a padding row has no stated content and stands empty; audio, captions (R339). -/
def State.tablesOf (s : State) (p : Pack) : Tables :=
  let rows := (p.parts.zipIdx.flatMap fun x => (upTo x.1.2.2).map fun i => (x.1.1, x.2, x.1.2.1 + i)).zipIdx
  let video := rows.map fun x => encodeRow (s.ib 4 2) (s.rowElems p x.1.1 x.1.2.1 x.1.2.2)
  let parts := s.audioParts p
  let audio := (parts.flatMap (·.1)).map (encodeRow (if s.ib 18 1 = 1 then s.ib 4 2 else 1))
  let caps := (s.captionParts p).flatMap (·.1)
  { mb := p.mb
    offsets := offsetsOf (p.parts.map fun x => x.2.2)
    index := (rows.map fun x => s.indexEntry p x.1.1 x.1.2.2 x.2) ++ List.replicate (s.budget - p.rows) 0
    video := video.map (·.1) ++ List.replicate (s.budget - p.rows) []
    scales := video.map (·.2) ++ List.replicate (s.budget - p.rows) []
    audioOffsets := offsetsOf (parts.map fun x => x.1.length)
    audio := audio.map (·.1)
    audioScales := audio.map (·.2)
    captions := caps
    capPad := if s.ib 21 1 = 1 then s.ib 160 32 - caps.length else 0
    host := none
    trunc := false }

/-- Codes of a video row. -/
def State.rowLen (s : State) : Nat := 3 * s.tubeT * s.patch * s.patch

/-- A host-packed micro-batch as its pack figure copies it: the declared rows up to the budget, TRUNC where that is less, and padding below the
length (R250). Rows follow one another from the window offset as OUT_FMT codes (DESIGN CHOICE, log entry 52: no rule places them). -/
def State.hostTables (s : State) (mb off len : Nat) : Tables :=
  let w := if s.ib 4 2 = 1 then 2 else 1
  let n := min len s.budget
  let row := fun (i : Nat) => (upTo s.rowLen).map fun j => leNat (s.winRead (off + (i * s.rowLen + j) * w) w)
  { mb := mb, offsets := [], index := [], video := (upTo n).map row ++ List.replicate (s.budget - n) [], scales := List.replicate s.budget [], audioOffsets := [], audio := [], audioScales := [], captions := [], capPad := 0
    host := some (off, min len s.budget), trunc := decide (s.budget < len) }

/-- Post-processing of clips `first` to `first + n` − 1 of a micro-batch: damaged pictures count, the first of a clip is a
class C error with the stream's TAG (R333). A clip counts with its first piece. -/
def State.postProcess (s : State) (p : Pack) (first n : Nat) : State :=
  (((p.parts.drop first).take n).filter fun x => x.2.1 == 0).foldl (fun t x =>
    let k := ((damagedPics x.1).filter id).length
    let tag := match t.ing.streams.find? fun y => y.index == x.1.stream with | some y => sdTag y.desc | none => 0
    if k = 0 then t else (t.count F.ING_PIC_DAMAGED_COUNT k).detectAt Er.damagedPic 14 7 0 tag) s

/-- Clips whose audio rows or caption records do not fit what earlier ones left (R340). -/
def State.auxTrunc (s : State) (p : Pack) : Nat :=
  let a := s.audioParts p
  let c := s.captionParts p
  ((upTo p.parts.length).filter fun i => (a.map (·.2)).getD i false || (c.map (·.2)).getD i false).length

/-- Rows that a post-processing figure (`audio` false) or an audio figure encodes for clips `first` to `first + n` − 1 set its flag. -/
def State.rowsBad (s : State) (mb first n : Nat) (audio : Bool) : Bool :=
  match s.packOf mb with
  | none => false
  | some p =>
    if audio then (((s.audioParts p).drop first).take n).any fun x => x.1.any (rowBad (if s.ib 18 1 = 1 then s.ib 4 2 else 1))
    else ((p.parts.zipIdx.drop first).take n).any fun x => (upTo x.1.2.2).any fun i => rowBad (s.ib 4 2) (s.rowElems p x.1.1 x.2 (x.1.2.1 + i))

/-- Core time that the clips `first` to `first + n` − 1 of a micro-batch need; a clip counts with its first piece (R331). -/
def State.decodeNeed (s : State) (mb first n : Nat) : Nat := match s.packOf mb with
  | none => 0
  | some p => (((p.parts.drop first).take n).filter fun x => x.2.1 == 0).foldl (fun a x => a + x.1.cost) 0

/-- The largest decode cost of a clip the fill holds (R331). -/
def State.maxCost (s : State) : Nat := (s.ing.draw.clips ++ s.ing.fill.clips).foldl (fun a c => max a c.cost) 0

/-- A pack figure may complete: its micro-batch is composed, or named by the host (R341, R342). -/
def State.packReady (s : State) (mb : Nat) : Bool := if s.hostPack then !s.ing.hostMb.isEmpty else (s.packOf mb).isSome

/-- A pack figure completes: the micro-batch's tensors stand; a host-packed one is copied, with its declared length bounded by
the budget (R250), and its command completes. -/
def State.packDone (s : State) (mb : Nat) : State :=
  if s.hostPack then
    match s.ing.hostMb with
    | [] => s
    | h :: rest =>
      let s1 : State := { s with ing := { s.ing with hostMb := rest, out := some (s.hostTables mb h.2.2.1 h.2.2.2) } }
      let s2 := if s1.budget < h.2.2.2 then (s1.count F.ING_MB_TRUNC_COUNT 1).detectAt Er.hostMbTrunc 14 7 0 0 else s1
      s2.finishTag h.1 0x31 h.2.1 St.ok 0
  else match s.packOf mb with
    | none => s
    | some p =>
      let s1 := s.count F.ING_AUX_TRUNC_COUNT (s.auxTrunc p)
      { s1 with ing := { s1.ing with
        out := some (s.tablesOf p)
        ready := s1.ing.ready.map fun q => if q = p then { q with taken := true } else q } }

/-- What the body of an ingest figure does when it completes: parts 0 and 1 nothing of their own beyond the packets taken,
post-processing, audio, captions, pack. -/
def State.ingestPart (s : State) (part mb first n : Nat) : State :=
  match part with
  | 2 => match s.packOf mb with
    | some p => s.postProcess p first n
    | none => s
  | 4 => match s.packOf mb with
    | some p => (((p.parts.drop first).take n).filter fun x => x.2.1 == 0).foldl (fun t x => t.count F.ING_TTX_PARITY_COUNT (Config.teletextParity x.1.num)) s
    | none => s
  | 5 => s.packDone mb
  | _ => s

/-! ## The exchange (R328, R329) and starvation (R343) -/

/-- Axis map entries: kind in bits [7:0] (0 data, 1 tensor, 2 pipeline, 3 expert, 4 temporal sequence), virtual stages in
[15:8], size in [63:32]. The manual gives the entry no layout (log entry 22). -/
def axKind (a : BitVec 128) : Nat := bits a.toNat 0 8
def axVirt (a : BitVec 128) : Nat := bits a.toNat 8 8
def axSize (a : BitVec 128) : Nat := bits a.toNat 32 32


/-- Swap position by position while neither seat's net growth passes the margin (R329). -/
def exchangeAt (margin : Nat) : List Nat → Int → State → State
  | [], _, s => s
  | j :: js, grow, s =>
    match s.ing.fill.clips[j]? with
    | none => exchangeAt margin js grow s
    | some c =>
      let (k, s1) := s.foreignClip c
      let g := grow + (k.bytes : Int) - (c.bytes : Int)
      if (margin : Int) < g ∨ (margin : Int) < -g then exchangeAt margin js grow s1
      else
        let d := s1.ing.fill
        exchangeAt margin js g { s1 with ing := { s1.ing with fill := { d with
          clips := d.clips.set j k, bytes := d.bytes + k.bytes - c.bytes, exchN := d.exchN + 1 } } }

/-- The exchange completes with the partner's last flit (R328). The partner's clip count is a free value. -/
def State.endExchange (s : State) : State :=
  let (n, s1) := s.draw
  let d := s1.ing.fill
  let js := (upTo (min n d.clips.length)).filter (s1.exchDrawn d.num)
  let s2 := exchangeAt (s1.poolBytes / 8) js 0 s1
  { s2 with ing := { s2.ing with exchPending := false } }

/-- The fill idles without a stream: one event per phrase (R343). -/
def State.starve (s : State) : State :=
  if s.ing.starved || !s.ing.streams.isEmpty || s.hostPack || !(s.plan.graph.any fun g => g.ingest.isSome) || s.dev != .running then s
  else State.emit { s with ing := { s.ing with starved := true } } Ev.ingStarve 14 (s.clk.phrase % 2 ^ 32)

end Sys2Proof.Machine
end

