-- ==== Sys2Proof/Machine/Patterns.lean ====
section
/-! DEFINITION. The 90 transposable 2:4 patterns (R188) and the choice of a pattern for a block (R191 to R193). -/
namespace Sys2Proof.Machine

/-- The six pairs of columns as 4-bit rows, rising. -/
def rowPairs : List Nat := [0x3, 0x5, 0x6, 0x9, 0xA, 0xC]

/-- Every column of the 16-bit block keeps exactly two positions. -/
def colsTwo (p : Nat) : Bool := (upTo 4).all fun c => ((upTo 4).filter fun r => p.testBit (4 * r + c)).length == 2

/-- The patterns in ascending order of their 16-bit value (R188). -/
def patterns : List Nat :=
  (rowPairs.flatMap fun r3 => rowPairs.flatMap fun r2 => rowPairs.flatMap fun r1 => rowPairs.map fun r0 =>
    r3 * 4096 + r2 * 256 + r1 * 16 + r0).filter colsTwo

/-- The pattern of a number; 90 to 127 are reserved. -/
def patternAt (n : Nat) : Option Nat := if n < 90 then patterns[n]? else none

/-- The lowest-numbered pattern that contains every kept position (R191, R192). -/
def fitPattern (kept : Nat) : Option Nat := patterns.findIdx? fun p => Nat.land p kept == kept

/-- Kept magnitude sum, in FP32, in ascending bit order (R193). -/
def keptSum (mags : List Word32) (p : Nat) : Word32 :=
  (upTo 16).foldl (fun a b => if p.testBit b then fAdd a (mags.getD b fZero) else a) fZero

/-- Prune-to-transposable: the largest kept sum, ties to the lower number (R193). -/
def prunePattern (mags : List Word32) : Nat :=
  ((patterns.zipIdx).foldl (fun (b : Nat × Word32) p =>
    let m := keptSum mags p.1
    if fLt b.2 m then (p.2, m) else b) (0, keptSum mags (patterns.headD 0))).1

end Sys2Proof.Machine
end

