-- ==== Sys2Proof/Machine/Arrays.lean ====
section
/-! DEFINITION. The dense arrays and the thin path (R94 to R128, R495 to R497): stored operands, scales, products, drains,
diagonal mode, block masks, transposable 2:4, accumulate outputs with the drain scale term (R149). -/
namespace Sys2Proof.Machine

/-! ## Descriptor (Tables 18.4, 18.5) -/

def mFld (d : BitVec 256) (lo w : Nat) : Nat := bits d.toNat lo w
def mOp (d : BitVec 256) : Nat := mFld d 0 2
def mStat (d : BitVec 256) : Nat := mFld d 3 2
def mTransA (d : BitVec 256) : Bool := bit d.toNat 5
def mTransB (d : BitVec 256) : Bool := bit d.toNat 6
def mPair (d : BitVec 256) : Nat := mFld d 7 2
def mFmtA (d : BitVec 256) : Nat := mFld d 9 3
def mFmtB (d : BitVec 256) : Nat := mFld d 12 3
def mFmtOut (d : BitVec 256) : Nat := mFld d 15 3
def mInit (d : BitVec 256) : Bool := bit d.toNat 18
def mAccw (d : BitVec 256) : Bool := bit d.toNat 19
def mSparse (d : BitVec 256) : Nat := mFld d 20 2
def mZmap (d : BitVec 256) : Bool := bit d.toNat 22
def mM (d : BitVec 256) : Nat := mFld d 40 24
def mN (d : BitVec 256) : Nat := mFld d 64 24
def mK (d : BitVec 256) : Nat := mFld d 88 24
def mBias16 (d : BitVec 256) : Bool := bit d.toNat 127

/-- Bits of an array operand format (R94, R97). -/
def aWidth (fmt : Nat) : Nat := match fmt with | 3 => 4 | 4 => 16 | _ => 8
/-- Side of a stored tile of an operand or output format: 16 for BF16, 32 otherwise (R96). -/
def aTile (fmt : Nat) : Nat := if fmt = 4 then 16 else 32
/-- Output formats of Table 18.4 as (bits, tile side, floating format). -/
def oWidth (fmt : Nat) : Nat := match fmt with | 0 => 32 | 1 => 16 | 5 => 4 | _ => 8
def oTile (fmt : Nat) : Nat := if fmt = 1 then 16 else 32
def oFmt (fmt : Nat) : Option Fmt :=
  match fmt with | 0 => some Fmt.fp32 | 1 => some Fmt.bf16 | 2 => some Fmt.e4m3 | 3 => some Fmt.e5m2 | _ => none

/-! ## Stored operands -/

/-- One operand of a figure as stored: rows × cols, format, line address, codebook, scale granularity and line address,
whether its K-blocks lie on its outer axis (R139), whether it is a T24 weight, and whether the feeder folds K-block scales. -/
structure Oper where
  rows : Nat
  cols : Nat
  fmt : Nat
  line : Nat
  cb : List Nat
  sg : Nat
  sline : Nat
  right : Bool
  t24 : Bool
  fold : Bool
deriving DecidableEq, Repr

/-- Element number of (i, j) in the stored order: whole tiles in row-major order of the grid (R97, R495). -/
def tileIndex (t cols i j : Nat) : Nat := (i / t * ceilDiv cols t + j / t) * (t * t) + i % t * t + j % t

/-- An exact operand value from its code; codes give their entry's E5M4 form (R95, R135). -/
def codeValue (fmt : Nat) (cb : List Nat) (code : Nat) : FVal :=
  match fmt with
  | 0 => Fmt.e4m3.value code
  | 1 => Fmt.e5m2.value code
  | 4 => bf16 code
  | _ => e5m4Form (cb.getD code 0)

/-- Stored code of element (i, j) of a dense operand; and for a T24 tile its kept code, whether the block keeps it and
whether its pattern number is reserved (R189, R195). -/
def State.operCode (s : State) (f : Fig) (o : Oper) (i j : Nat) : Option Nat × Bool :=
  let w := aWidth o.fmt
  let at_ := fun base idx => if w = 4 then bits (mGet s.t0.mem (t0Addr f.die f.group (base + idx / 2))).toNat (4 * (idx % 2)) 4
    else leNat (t0Get s.t0.mem f.die f.group (base + idx * (w / 8)) (w / 8))
  if o.t24 then
    let base := o.line * 64 + (i / 64 * ceilDiv o.cols 32 + j / 32) * (128 * w + 128)
    let p := i % 64 / 4
    let q := j % 32 / 4
    let m := bits (leNat (t0Get s.t0.mem f.die f.group (base + 128 * w) 128)) (7 * (8 * p + q)) 7
    match patternAt m with
    | none => (none, true)
    | some pat =>
      if pat.testBit (4 * (i % 4) + j % 4) then
        let k := ((upTo (i % 4)).filter fun r => pat.testBit (4 * r + j % 4)).length
        (some (at_ base (32 * (j % 32) + 2 * p + k)), false)
      else (none, false)
  else (some (at_ (o.line * 64) (tileIndex (aTile o.fmt) o.cols i j)), false)

/-- The scale of group `g`, clamped (R141), and whether it was replaced. -/
def State.groupScaleOf (s : State) (f : Fig) (o : Oper) (g : Nat) : Word32 × Bool := clampScale fOne (BitVec.ofNat 32 (s.t0Word f o.sline g))

/-- The scale of element (i, j); unscaled formats have none. -/
def State.operScale (s : State) (f : Fig) (o : Oper) (i j : Nat) : Word32 := (s.groupScaleOf f o (groupOf o.sg o.right o.cols i j)).1

def Oper.scaled (o : Oper) : Bool := o.fmt == 2 || o.fmt == 3

/-- Scales of an operand that a figure replaces, each value once (R141; DESIGN CHOICE, log entry 69). -/
def State.operClamps (s : State) (f : Fig) (o : Oper) : Nat :=
  if !o.scaled then 0 else ((upTo (groupCount o.sg o.right o.rows o.cols)).filter fun g => (s.groupScaleOf f o g).2).length

/-- Where the scale of an operand acts (R103): 0 none, 1 in the drain, constant along the reduction; 2 in the drain, per
K-block; 3 folded by the feeder. `redOuter`: the reduction runs along the stored outer axis. -/
def Oper.point (o : Oper) (redOuter : Bool) : Nat :=
  if !o.scaled then 0
  else match o.sg with
    | 0 => 1
    | 1 => if redOuter then 3 else 1
    | 2 => if redOuter then 1 else 3
    | _ => if redOuter = o.right && !o.fold then 2 else 3

/-- The operand's element as the cell sees it, none at a pruned position, and whether the feeder's fold saturated (R103, R195). -/
def State.operAt (s : State) (f : Fig) (o : Oper) (redOuter : Bool) (i j : Nat) : Option FVal × Bool :=
  match s.operCode f o i j with
  | (none, bad) => (if bad then some .zero else none, false)
  | (some c, _) =>
    let v := codeValue o.fmt o.cb c
    if o.point redOuter = 3 then let e := toE5M4 (v.mul (f32 (s.operScale f o i j))); (some e.1, e.2) else (some v, false)

/-! ## Block masks (R185, R187, R119) -/

/-- What the card in force carries beside its bytes. -/
def State.side (s : State) : CardSide := match s.plan.card with
  | some c => c.side
  | none => default

/-- Bit of tile (ti, tj) of a masked operand's 32 × 32 grid; of a mask taken from zero words, set where COUNT is below 1,024 (R187). Which
figures' masks are zero words the descriptor does not say: the card's side does (log entry 17). -/
def State.maskTile (s : State) (f : Fig) (line cols ti tj : Nat) : Bool :=
  let t := ti * ceilDiv cols 32 + tj
  if s.side.zwMask.contains f.fid then decide (bits (leNat (t0Get s.t0.mem f.die f.group (line * 64 + 8 * t) 8)) 32 11 < 1024)
  else bit (mGet s.t0.mem (t0Addr f.die f.group (line * 64 + t / 8))).toNat (t % 8)

/-! ## One product -/

/-- The figure's operands with the reduction axis of each. -/
structure Prod where
  a : Oper
  b : Oper
  ta : Bool
  tb : Bool
  k : Nat
  kt : Nat
  maskA : Bool
  maskB : Bool
  mline : Nat
deriving DecidableEq, Repr

/-- Stored coordinates of A's element (m, k) and B's element (k, n) (R102). -/
def Prod.ca (p : Prod) (m k : Nat) : Nat × Nat := if p.ta then (k, m) else (m, k)
def Prod.cb (p : Prod) (k n : Nat) : Nat × Nat := if p.tb then (n, k) else (k, n)

/-- A masked tile that holds reduction index `k` is empty: its products are skipped (R119). -/
def State.skipped (s : State) (f : Fig) (p : Prod) (m k n : Nat) : Bool :=
  (p.maskA && (let c := p.ca m k; !s.maskTile f p.mline p.a.cols (c.1 / 32) (c.2 / 32)))
    || (p.maskB && (let c := p.cb k n; !s.maskTile f p.mline p.b.cols (c.1 / 32) (c.2 / 32)))

/-- One reduction step: the exact product joins the FP32 partial sum with one rounding (R95). -/
def State.macStep (s : State) (f : Fig) (p : Prod) (m n : Nat) (acc : Word32) (k : Nat) : Word32 :=
  if s.skipped f p m k n then acc
  else
    let ca := p.ca m k
    let cb := p.cb k n
    match (s.operAt f p.a p.ta ca.1 ca.2).1, (s.operAt f p.b (!p.tb) cb.1 cb.2).1 with
    | some x, some y => rne32 ((x.mul y).add (f32 acc))
    | _, _ => acc

/-- Multiply by an operand's scale in the drain if its point is `pt` (R103). -/
def State.drainScale (s : State) (f : Fig) (o : Oper) (redOuter : Bool) (pt : Nat) (c : Nat × Nat) (x : Word32) : Word32 :=
  if o.point redOuter = pt then fMul x (s.operScale f o c.1 c.2) else x

/-- Element (m, n): tiles of the reduction in ascending order, each summed from +0, block scales, then the constant scales
(R95, R103). Where the drain multiplies by the scales of both operands, A's comes first (DESIGN CHOICE, log entry 70: R103 gives no order). -/
def State.dot (s : State) (f : Fig) (p : Prod) (init : Word32) (m n : Nat) : Word32 :=
  let r := (upTo (ceilDiv p.k p.kt)).foldl (fun (acc : Word32) t =>
    let ks := (upTo (min p.kt (p.k - t * p.kt))).map (t * p.kt + ·)
    if ks.all fun k => s.skipped f p m k n then acc
    else
      let k0 := t * p.kt
      fAdd acc (s.drainScale f p.b (!p.tb) 2 (p.cb k0 n) (s.drainScale f p.a p.ta 2 (p.ca m k0) (ks.foldl (s.macStep f p m n) fZero)))) init
  s.drainScale f p.b (!p.tb) 1 (p.cb 0 n) (s.drainScale f p.a p.ta 1 (p.ca m 0) r)

/-- How often the feeder loads A's element (m, k), or B's (k, n): once for each tile or block of the other operand that meets its tile and
that the mask does not skip (R98, R119); for an output tile that a DUAL_DW's mask leaves out it loads nothing (R121). -/
def State.outKept (s : State) (f : Fig) (d : BitVec 256) (m n : Nat) : Bool :=
  !(mFld d 20 2 == 1 && mFld d 7 2 == 2) || s.maskTile f (mFld d 208 15) (mFld d 64 24) (m / 32) (n / 32)
def State.loadsA (s : State) (f : Fig) (d : BitVec 256) (p : Prod) (t m k : Nat) : Nat :=
  if mFld d 3 2 = 2 then (if s.skipped f p m k 0 then 0 else ceilDiv (mFld d 64 24) 512)
  else ((upTo (ceilDiv (mFld d 64 24) t)).filter fun j => !s.skipped f p m k (j * t) && s.outKept f d m (j * t)).length
def State.loadsB (s : State) (f : Fig) (d : BitVec 256) (p : Prod) (t k n : Nat) : Nat :=
  if mFld d 3 2 = 0 then (if s.skipped f p 0 k n then 0 else ceilDiv (mFld d 40 24) 512)
  else ((upTo (ceilDiv (mFld d 40 24) t)).filter fun i => !s.skipped f p (i * t) k n && s.outKept f d (i * t) n).length

/-- What the feeders count: a fold that saturates, for each load of its element (R103, R154), and scales replaced. -/
def State.feedTally (s : State) (f : Fig) (d : BitVec 256) (p : Prod) : Tally :=
  let t := if p.kt = 16 then 16 else 32
  let grid := fun (x y : Nat) => (upTo x).flatMap fun i => (upTo y).map fun j => (i, j)
  let a := if p.a.point p.ta ≠ 3 then 0 else (grid (mFld d 40 24) p.k).foldl (fun n e =>
    let c := p.ca e.1 e.2
    if (s.operAt f p.a p.ta c.1 c.2).2 then n + s.loadsA f d p t e.1 e.2 else n) 0
  let b := if p.b.point (!p.tb) ≠ 3 then 0 else (grid p.k (mFld d 64 24)).foldl (fun n e =>
    let c := p.cb e.1 e.2
    if (s.operAt f p.b (!p.tb) c.1 c.2).2 then n + s.loadsB f d p t e.1 e.2 else n) 0
  if p.k = 0 then Tally.zero else (satTally (a + b)).add (clampTally (s.operClamps f p.a + s.operClamps f p.b))

/-! ## Drains -/

/-- A row of up to 32 results encoded to an output format: codes, the data scale of C8 and C4 outputs (R144), tally. Code
outputs use the format's default table: the descriptor names none (log entry 18). -/
def drainRow (fmt : Nat) (row : List Word32) : List Nat × Word32 × Tally :=
  match oFmt fmt with
  | some fm =>
    let r := row.map fun x => fm.narrow (f32 x)
    (r.map (·.1), fOne, sumTally (r.map fun x => x.2.tally))
  | none =>
    let cb := defaultCb (oWidth fmt)
    let sc := groupScaleClamped cb (row.map f32)
    let r := row.map fun x => encode1 x sc.1 cb true
    (r.map (·.1), sc.1, (sumTally (r.map fun x => x.2.tally)).add (clampTally (if sc.2 then 1 else 0)))

/-- An encoded output counts as zero (R186). -/
def zeroCode (fmt code : Nat) : Bool :=
  match oFmt fmt with
  | some fm => (fm.value code).isZero
  | none => code == zeroIndex (defaultCb (oWidth fmt))

/-- Store one encoded element; a 4-bit code shares its byte. -/
def State.putCode (s : State) (f : Fig) (base w idx code : Nat) : State :=
  if w = 4 then
    let o := base + idx / 2
    let old := (mGet s.t0.mem (t0Addr f.die f.group o)).toNat
    s.putT0 f o [BitVec.ofNat 8 (setBits old (4 * (idx % 2)) 4 code)]
  else s.putT0 f (base + idx * (w / 8)) (leBytes (w / 8) code)

/-- Write a row segment of an output matrix of `cols` columns at its valid positions (R116), with its data scale. -/
def State.drainOut (s : State) (f : Fig) (fmt line sline cols i j0 : Nat) (codes : List Nat) (sc : Word32) : State :=
  let s1 := (codes.zipIdx).foldl (fun t p =>
    t.putCode f (line * 64) (oWidth fmt) (tileIndex (oTile fmt) cols i (j0 + p.2)) p.1) s
  if (oFmt fmt).isNone then s1.putT0 f (sline * 64 + 4 * (i * ceilDiv cols 32 + j0 / 32)) (leBytes 4 sc.toNat) else s1

/-- The zero word of a region: all-zero rows and the count of zeros (Table 7.6). -/
def zeroWord (fmt : Nat) (rows : List (List Nat)) : Nat :=
  let z := rows.map fun r => r.map (zeroCode fmt)
  (z.zipIdx).foldl (fun a p => a + (if p.1.all id then 2 ^ p.2 else 0) + 2 ^ 32 * (p.1.filter id).length) 0

/-! ## Matrix products -/

/-- The operands of a descriptor (R98, R102, R103). K-blocks of A lie on its inner axis, those of B on its outer one, but for the dY operand
of DUAL_DW, which its partner reads as A (R104, R139). Which other operands have them on the other axis, and whether a block mask in
output-stationary mode covers A, no field of Table 18.4 says: the card's side does (R119; DESIGN CHOICE, log entry 17). -/
def State.prodOf (s : State) (f : Fig) (d : BitVec 256) : Prod :=
  let m := mM d
  let n := mN d
  let k := mK d
  let bf := mFmtA d = 4 ∨ mFmtB d = 4
  let inA := mStat d == 1 && mPair d != 2 && s.side.maskA.contains f.fid
  let (ar, ac) := if mTransA d then (k, m) else (m, k)
  let (br, bc) := if mTransB d then (n, k) else (k, n)
  let t24 := mSparse d == 2
  let block := mSparse d == 1
  { a := ⟨ar, ac, mFmtA d, mFld d 112 15, s.slotCb f (mFld d 24 6) (aWidth (mFmtA d)), mFld d 36 2, mFld d 160 15,
      s.side.kSwap.contains (2 * f.fid), false, t24⟩
    b := ⟨br, bc, mFmtB d, mFld d 128 15, s.slotCb f (mFld d 30 6) (aWidth (mFmtB d)), mFld d 38 2, mFld d 176 15,
      (mPair d == 2) == s.side.kSwap.contains (2 * f.fid + 1), t24, t24⟩
    ta := mTransA d, tb := mTransB d, k := k, kt := if mSparse d = 2 then 64 else if bf then 16 else 32
    maskA := block && (mStat d == 2 || inA), maskB := block && mStat d != 2 && mPair d != 2 && !inA, mline := mFld d 208 15 }

/-- The initial value of a column (R101, R114). -/
def State.bias (s : State) (f : Fig) (d : BitVec 256) (n : Nat) : Word32 :=
  if !mInit d then fZero
  else if mBias16 d then rne32 (bf16 (leNat (t0Get s.t0.mem f.die f.group (mFld d 192 15 * 64 + 2 * n) 2)))
  else BitVec.ofNat 32 (s.t0Word f (mFld d 192 15) n)

/-- Bytes of a stored operand, to find the poison it carries (R453). -/
def Oper.bytes (o : Oper) : Nat :=
  if o.t24 then ceilDiv o.rows 64 * ceilDiv o.cols 32 * (128 * aWidth o.fmt + 128)
  else ceilDiv o.rows (aTile o.fmt) * ceilDiv o.cols (aTile o.fmt) * (aTile o.fmt * aTile o.fmt) * aWidth o.fmt / 8

/-- The figure reads its operands: poison passes, and a reserved pattern number is a class S error (R195, R453). -/
def State.readOper (s : State) (f : Fig) (o : Oper) : State := (s.useT0 f (o.line * 64) o.bytes).2

/-- Reserved patterns among the blocks of a T24 operand. -/
def State.badPatterns (s : State) (f : Fig) (o : Oper) : Nat :=
  if !o.t24 then 0 else
    let tb := 128 * aWidth o.fmt + 128
    (upTo (ceilDiv o.rows 64 * ceilDiv o.cols 32)).foldl (fun a t =>
      let meta_ := leNat (t0Get s.t0.mem f.die f.group (o.line * 64 + t * tb + 128 * aWidth o.fmt) 128)
      a + ((upTo 128).filter fun b => decide (90 ≤ bits meta_ (7 * b) 7)).length) 0

/-- Count a GME or pattern case (Table 7.10). -/
def State.gmeLast (s : State) (f : Fig) (kind : Nat) : State :=
  (s.set (F.CD_GME_LAST_CLUSTER.cd f.die) f.group).set (F.CD_GME_LAST_KIND.cd f.die) kind

def State.chargeMeta (s : State) (f : Fig) (n : Nat) : State :=
  if n = 0 then s
  else ((s.count (F.CD_T24_META_COUNT.cd f.die) n).gmeLast f 6).detectFor Er.t24Meta f.die 0 f.group f.fid

/-- Regions of 32 (16 for BF16 outputs) columns of a row, with their results. -/
def State.prodRow (s : State) (f : Fig) (d : BitVec 256) (p : Prod) (i j0 w : Nat) : List Word32 :=
  (upTo w).map fun j => if mK d = 0 then s.bias f d (j0 + j) else s.dot f p (s.bias f d (j0 + j)) i (j0 + j)

/-- An array figure reports its non-empty tiles and its zero elements, in this order (R202). -/
def addZeros (n : Nat) : List Nat → List Nat
  | [] => [0, n]
  | [a] => [a, n]
  | a :: b :: l => a :: (b + n) :: l

/-- The zero word of region `reg`, if ZMAP, and its count for the figure's report (R186, R202). -/
def State.putZero (s : State) (f : Fig) (d : BitVec 256) (reg : Nat) (rows : List (List Nat)) : State :=
  if !mZmap d then s
  else
    let z := zeroWord (mFmtOut d) rows
    let u := s.putT0 f (mFld d 224 15 * 64 + 8 * reg) (leBytes 8 z)
    u.setStat { u.stat f.fid with quantity := addZeros (z / 2 ^ 32) (u.stat f.fid).quantity }

/-- A product with stored outputs: row segment by row segment, region by region; each region's zero word if ZMAP. -/
def State.matStore (s : State) (f : Fig) (d : BitVec 256) (unit : Nat) : State :=
  let p := s.prodOf f d
  let fmt := mFmtOut d
  let m := mM d
  let n := mN d
  let nr := ceilDiv n 32
  (upTo (ceilDiv m 32 * nr)).foldl (fun t reg =>
    let j0 := reg % nr * 32
    let w := min 32 (n - j0)
    let i0 := reg / nr * 32
    let rows := (upTo (min 32 (m - i0))).map fun r => s.prodRow f d p (i0 + r) j0 w
    let enc := rows.map (drainRow fmt)
    let t1 := (enc.zipIdx).foldl (fun u e => u.drainOut f fmt (mFld d 144 15) (mFld d 240 15) n (i0 + e.2) j0 e.1.1 e.1.2.1) t
    (t1.putZero f d reg (enc.map (·.1))).tally f unit (sumTally (enc.map fun e => e.2.2))) (s.tally f Unit.feeder (s.feedTally f d p))

/-! ## Accumulate outputs (R43, R48, R116, R121, R124, R149) -/

def xFld (x : BitVec 256) (lo w : Nat) : Nat := bits x.toNat lo w

/-- The parameter whose gradient granule is `g` of die `mu`, in the buffer of its first use or of a tied one (R244), with its tensor and
the granule's number in it. -/
def State.gradOwner (s : State) (mu g : Nat) : Option (Placement × BitVec 512 × Nat) :=
  match s.plan.graph with
  | none => none
  | some gr => gr.places.findSome? fun p =>
      let starts := if p.mu = mu then p.gran :: p.tied.map (·.1) else []
      match starts.find? fun g0 => decide (g0 ≤ g) && decide (g < g0 + p.count) with
      | some g0 => (gr.tensor p.handle).map fun t => (p, t, g - g0)
      | none => none

/-- Bits of a working-copy element. -/
def wcWidth (t : BitVec 512) : Nat := match tFormat t with | 5 => 4 | 1 => 16 | 2 => 16 | 0 => 32 | _ => 8

/-- Pattern of the 4 × 4 block of a T24 weight that holds element (i, j), from its working copy in T1 (R189). -/
def State.wcPattern (s : State) (p : Placement) (t : BitVec 512) (i j : Nat) : Option Nat :=
  let w := wcWidth t
  let base := p.wcAddr + (i / 64 * ceilDiv (tCols t) 32 + j / 32) * (128 * w + 128)
  patternAt (bits (leNat (s.t1Read p.mu (base + 128 * w) 128)) (7 * (8 * (i % 64 / 4) + j % 32 / 4)) 7)

/-- dW of a T24 weight is +0 outside the block's pattern (R124). -/
def State.keepT24 (s : State) (own : Option (Placement × BitVec 512 × Nat)) (r c : Nat) : Bool :=
  match own with
  | none => true
  | some (p, t, gi) =>
    if !tMask24 t then true
    else
      let i := gi / ceilDiv (tCols t) 32 * 32 + r
      let j := gi % ceilDiv (tCols t) 32 * 32 + c
      match s.wcPattern p t i j with
      | some pat => pat.testBit (4 * (i % 4) + j % 4)
      | none => false

/-- Queue an accumulate tile (R275). -/
def State.sendAcc (s : State) (f : Fig) (mu gran : Nat) (vals : List Word32) (tokens : Nat) (nonfin : Bool) : State :=
  { s with run := { s.run with acc := s.run.acc ++ [⟨f.die, mu, gran, vals, tokens, nonfin, (s.stat f.fid).poison, f.fid, s.clk.beat⟩] } }

/-- Scale group of element (i, j) of a gradient granule, by the parameter's granularity and extents (Table 5.4). -/
def State.sgGroup (s : State) (own : Option (Placement × BitVec 512 × Nat)) (i j : Nat) : Nat :=
  match own with
  | some (p, t, g) => groupOf (tGran t) (s.plan.graph.any fun x => x.kOuter p.handle) (tCols t)
      (g / ceilDiv (tCols t) 32 * 32 + i) (g % ceilDiv (tCols t) 32 * 32 + j)
  | none => 0

/-- The drain term A: ĝ × e[q], products and sums in FP32, in tile order and element order (R149); (group, sum) pairs, groups counted from
that of the figure's first element; `rows` × `cols` of the tile's positions are outputs, the others pad it (R116). DESIGN CHOICE (log entry 70): the code tiles are dense 32 × 32 tiles, also of a T24 weight, whose pruned
positions add +0. -/
def State.drainTerm (s : State) (f : Fig) (x : BitVec 256) (first : Nat) (own : Option (Placement × BitVec 512 × Nat))
    (acc : List (Nat × Word32)) (vals : List Word32) (tile rows cols : Nat) : List (Nat × Word32) :=
  let w := if bit x.toNat 95 then 4 else 8
  let cb := s.slotCb f (xFld x 96 6) w
  let b := t0Get s.t0.mem f.die f.group (xFld x 80 15 * 64 + tile * (128 * w)) (128 * w)
  ((vals.zipIdx).filter fun e => decide (e.2 / 32 < rows) && decide (e.2 % 32 < cols)).foldl (fun l e =>
    let g := s.sgGroup own (e.2 / 32) (e.2 % 32) - first
    let y := fMul e.1 (rne32 (bf16 (cb.getD (packedAt b w e.2) 0)))
    sPut g (fAdd (sGet fZero l g) y) l) acc

/-- The granules of scale-gradient buffer that the groups touch, each written once; positions not covered are +0 (R149). -/
def State.sendSg (s : State) (f : Fig) (x : BitVec 256) (tokens : Nat) (l : List (Nat × Word32)) : State :=
  let e0 := xFld x 133 27
  let gs := ((l.map fun e => (e0 + e.1) / 1024)).eraseDups
  gs.foldl (fun t g => t.sendAcc f (xFld x 104 3) (xFld x 107 26 + g)
    ((upTo 1024).map fun i => if g * 1024 + i < e0 then fZero else sGet fZero l (g * 1024 + i - e0)) tokens
    (l.any fun e => fNonfin e.2)) s

/-- A product whose outputs are accumulate tiles (R497): one per output tile that the mask does not leave out. -/
def State.matAcc (s : State) (f : Fig) (d x : BitVec 256) (unit : Nat) : State :=
  let p := s.prodOf f d
  let n := mN d
  let m := mM d
  let nt := ceilDiv n 32
  let tokens := if mK d = 0 then 0 else s.t0Word f (xFld x 64 15) 0
  let first := s.sgGroup (s.gradOwner (xFld x 0 3) (xFld x 3 26)) 0 0
  let (s1, terms) := (upTo (ceilDiv m 32 * nt)).foldl (fun (acc : State × List (Nat × Word32)) tile =>
    let ti := tile / nt
    let tj := tile % nt
    if mSparse d = 1 ∧ mPair d = 2 ∧ !s.maskTile f (mFld d 208 15) n ti tj then acc
    else
      let gran := xFld x 3 26 + ti * xFld x 32 24 + tj
      let own := s.gradOwner (xFld x 0 3) gran
      let vals := (upTo 1024).map fun e =>
        let i := ti * 32 + e / 32
        let j := tj * 32 + e % 32
        if m ≤ i ∨ n ≤ j ∨ mK d = 0 ∨ !s.keepT24 own (e / 32) (e % 32) then fZero else s.dot f p (s.bias f d j) i j
      let bad := (vals.filter fNonfin).length
      let rows := (upTo (min 32 (m - ti * 32))).map fun r => (upTo (min 32 (n - tj * 32))).map fun c => (vals.getD (32 * r + c) fZero).toNat
      let t1 := (acc.1.putZero f (BitVec.ofNat 256 (setBits d.toNat 15 3 0)) tile rows).tally f unit (nonfinTally bad)
      let t2 := t1.sendAcc f (xFld x 0 3) gran vals tokens (decide (0 < bad))
      (t2, if bit x.toNat 79 then s.drainTerm f x first own acc.2 vals tile (min 32 (m - ti * 32)) (min 32 (n - tj * 32)) else acc.2)) (s.tally f Unit.feeder (s.feedTally f d p), [])
  if bit x.toNat 79 then s1.sendSg f x tokens terms else s1

/-! ## Diagonal mode (R117) -/

/-- Linear element `i` of a diagonal operand, its clamped scale applied in the drain. -/
def State.diagAt (s : State) (f : Fig) (o : Oper) (i : Nat) : FVal :=
  let w := aWidth o.fmt
  let c := if w = 4 then bits (mGet s.t0.mem (t0Addr f.die f.group (o.line * 64 + i / 2))).toNat (4 * (i % 2)) 4
    else leNat (t0Get s.t0.mem f.die f.group (o.line * 64 + i * (w / 8)) (w / 8))
  codeValue o.fmt o.cb c

/-- The scale group of element `i`: the operand is a tensor of rank 1, one row (R139; which group an element takes, R117 does not say: DESIGN
CHOICE, log entry 70). -/
def diagGroup (sg i : Nat) : Nat := match sg with | 0 => 0 | 1 => 0 | 2 => i | _ => i / 32

def State.diagScale (s : State) (f : Fig) (o : Oper) (i : Nat) (x : Word32) : Word32 :=
  if o.scaled then fMul x (s.groupScaleOf f o (diagGroup o.sg i)).1 else x

/-- Scales of a diagonal operand of `e` elements that are replaced, each value once. -/
def State.diagClamps (s : State) (f : Fig) (o : Oper) (e : Nat) : Nat :=
  if !o.scaled then 0 else ((((upTo e).map (diagGroup o.sg)).eraseDups).filter fun g => (s.groupScaleOf f o g).2).length

/-- Result `i`. With a coded operand the drain multiplies the rounded product by the scales and then adds c, which streams through it (R103,
R117; DESIGN CHOICE, log entry 70: the order against c is not stated). -/
def State.diagOne (s : State) (f : Fig) (d : BitVec 256) (p : Prod) (i : Nat) : Word32 :=
  let x := s.diagAt f p.a i
  let y := s.diagAt f p.b i
  let c := if mOp d = 2 then f32 (BitVec.ofNat 32 (s.t0Word f (mFld d 192 15) i)) else .zero
  if !p.a.scaled && !p.b.scaled then rne32 (if mOp d = 2 then (x.mul y).add c else x.mul y)
  else
    let r := s.diagScale f p.b i (s.diagScale f p.a i (rne32 (x.mul y)))
    if mOp d = 2 then fAdd r (rne32 c) else r

/-- Rows of 32 results, 32 of them to an output region with its zero word (R186; log entry 70). ACCW of a diagonal descriptor means nothing:
the results go to C_ADDR (DESIGN CHOICE, log entry 70). -/
def State.diagRun (s : State) (f : Fig) (d : BitVec 256) (unit : Nat) : State :=
  let p := s.prodOf f d
  let e := mM d
  let fmt := mFmtOut d
  let rows := (upTo (ceilDiv e 32)).map fun g => drainRow fmt ((upTo (min 32 (e - g * 32))).map fun i => s.diagOne f d p (g * 32 + i))
  let s1 := rows.zipIdx.foldl (fun t x =>
    let enc := x.1
    let t1 := (enc.1.zipIdx).foldl (fun u c => u.putCode f (mFld d 144 15 * 64) (oWidth fmt) (x.2 * 32 + c.2) c.1) t
    let t2 := if (oFmt fmt).isNone then t1.putT0 f (mFld d 240 15 * 64 + 4 * x.2) (leBytes 4 enc.2.1.toNat) else t1
    t2.tally f unit enc.2.2) (s.tally f Unit.feeder (clampTally (s.diagClamps f p.a e + s.diagClamps f p.b e)))
  (chunks 32 (ceilDiv rows.length 32) rows).zipIdx.foldl (fun t x => t.putZero f d x.2 (x.1.map (·.1))) s1

/-! ## Thin path (R126 to R128) -/

/-- Element of the x vector: FP32 rounded to BF16, with what that notes, or BF16 unchanged. x is BF16 when FMT_A says BF16 (DESIGN CHOICE, log
entry 70: R127 and R496 name no field for its type). -/
def State.thinX (s : State) (f : Fig) (d : BitVec 256) (k : Nat) : FVal × Note :=
  let r := mFld d 112 4
  if mFmtA d = 4 then (bf16 (leNat (vrGet s.t0.vreg f.die f.group r (2 * k) 2)), ⟨false, false⟩)
  else
    let x := Fmt.bf16.narrow (f32 (BitVec.ofNat 32 (leNat (vrGet s.t0.vreg f.die f.group r (4 * k) 4))))
    (bf16 x.1, x.2)

/-- y[n]: products in ascending reduction order into FP32; per K-block where the block scale acts in the drain. -/
def State.thinOne (s : State) (f : Fig) (d : BitVec 256) (p : Prod) (n : Nat) : Word32 :=
  let step := fun (acc : Word32) k =>
    let c := p.cb k n
    match (s.operAt f p.b (!p.tb) c.1 c.2).1 with
    | some y => rne32 (((s.thinX f d k).1.mul y).add (f32 acc))
    | none => acc
  let r := if p.b.point (!p.tb) = 2 then
      (upTo (ceilDiv p.k 32)).foldl (fun (acc : Word32) b =>
        fAdd acc (s.drainScale f p.b (!p.tb) 2 (p.cb (b * 32) n) (((upTo (min 32 (p.k - b * 32))).map (b * 32 + ·)).foldl step fZero))) fZero
    else (upTo p.k).foldl step fZero
  s.drainScale f p.b (!p.tb) 1 (p.cb 0 n) r

/-- What a thin-path figure counts: conversions of x, folds of W that saturate, each element once, scales replaced, non-finite results. -/
def State.thinTally (s : State) (f : Fig) (d : BitVec 256) (p : Prod) (ys : List Word32) : Tally :=
  let folds := ((upTo p.k).flatMap fun k => (upTo (mFld d 64 24)).filter fun n => let c := p.cb k n; (s.operAt f p.b (!p.tb) c.1 c.2).2).length
  (((sumTally ((upTo p.k).map fun k => (s.thinX f d k).2.tally)).add (satTally folds)).add (clampTally (if p.k = 0 then 0 else s.operClamps f p.b))).add
    (nonfinTally (ys.filter fNonfin).length)

/-- A thin-path product. M is no extent of it, and of SPARSE only T24, which is how W's tiles are stored, has a meaning: a block mask covers an
array's operands (DESIGN CHOICE, log entry 70); a reserved pattern of W is an error as on the arrays (R195). -/
def State.thinRun (s : State) (f : Fig) (d : BitVec 256) : State :=
  let p := { s.prodOf f d with maskA := false, maskB := false }
  let yr := mFld d 144 4
  let old := fun n => BitVec.ofNat 32 (leNat (vrGet s.t0.vreg f.die f.group yr (4 * n) 4))
  let res := (upTo (mN d)).map fun n =>
    let r := s.thinOne f d p n
    if mInit d then (if mK d = 0 then old n else fAdd (old n) r) else r
  let s0 := s.readOper f p.b
  let s1 := s0.chargeMeta f (s.badPatterns f p.b)
  let rk := clKey f.die f.group * 32
  let s2 := if s1.t0.regPoison.contains (rk + mFld d 112 4) ∨ (mFmtA d ≠ 4 ∧ 4096 < mK d ∧ s1.t0.regPoison.contains (rk + (mFld d 112 4 + 1) % 16)) ∨ (mInit d ∧ s1.t0.regPoison.contains (rk + yr)) then s1.poisonFig f else s1
  let m := vrPut s2.t0.vreg f.die f.group yr 0 (word32Bytes res)
  let s3 := State.noteWrite { s2 with t0 := { s2.t0 with vreg := m
                                                         regPoison := (s2.t0.regPoison.filter (· != rk + yr)) ++ if (s2.stat f.fid).poison then [rk + yr] else [] } }
    f.fid 1 s2.t0.vreg m ((upTo (4 * mN d)).map fun i => vrAddr f.die f.group yr i)
  s3.tally f Unit.thin (s.thinTally f d p res)

/-! ## A matrix body -/

/-- Bubble and stall counts of a run (R107, R108, R110). -/
def State.arrayCounts (s : State) (f : Fig) (env : FigEnv) : State :=
  let s1 := ((s.count (F.CD_ARRAY_BUBBLE_COUNT.cd f.die) env.bubbles).count (F.CD_ARRAY_STALL_COUNT.cd f.die) env.stalls).count
    (F.CD_ARRAY_SKIDFULL_COUNT.cd f.die) env.skidFull
  if env.bubbles = 0 ∧ env.stalls = 0 then s1
  else ((s1.set (F.CD_ARRAY_LAST_CLUSTER.cd f.die) f.group).set (F.CD_ARRAY_LAST_ARRAY.cd f.die) (f.queue % 2)).set
    (F.CD_ARRAY_LAST_CAUSE.cd f.die) (env.lastCause % 4)

/-- Non-empty tiles of a block mask over an operand's grid (R202). -/
def State.fullTiles (s : State) (f : Fig) (line rows cols : Nat) : Nat :=
  ((upTo (ceilDiv rows 32 * ceilDiv cols 32)).filter fun t => s.maskTile f line cols (t / ceilDiv cols 32) (t % ceilDiv cols 32)).length

/-- What the drain and the thin path do: nothing for M = 0 or N = 0 (R115). -/
def State.matrixRun (s : State) (f : Fig) (d : BitVec 256) (ext : Option (BitVec 256)) (env : FigEnv) : State :=
  let unit := f.queue % 2
  let s1 := if mOp d = 3 then s else s.arrayCounts f env
  if mOp d = 3 then (if mN d = 0 then s1 else s1.thinRun f d)
  else if mOp d = 1 ∨ mOp d = 2 then (let p := s1.prodOf f d; ((s1.readOper f p.a).readOper f p.b).diagRun f d unit)
  else if mM d = 0 ∨ mN d = 0 then s1
  else
    let p := s1.prodOf f d
    let s2 := (s1.readOper f p.a).readOper f p.b
    let s3 := s2.chargeMeta f (s2.badPatterns f p.b)
    let s4 := if mSparse d = 1 then
        let o := if p.maskA then (p.a.rows, p.a.cols) else if mPair d = 2 then (mM d, mN d) else (p.b.rows, p.b.cols)
        s3.setStat { s3.stat f.fid with quantity := [s3.fullTiles f (mFld d 208 15) o.1 o.2] }
      else s3
    match mAccw d, ext with
    | true, some x => s4.matAcc f d x unit
    | _, _ => s4.matStore f d unit

end Sys2Proof.Machine
end

