-- ==== Sys2Proof/Machine/Pairs.lean ====
section
/-! DEFINITION. The slow tier's paired state: pair locations and tags (R295 to R297), touched and dirty bitmaps (R278 to
R280), open cuts with their ring (R388 to R398), poison of granules. Paired granules and scale-gradient buffers are held
apart from the flat bytes of T1 (log entry 6). -/
namespace Sys2Proof.Machine

/-- A granule of a memory-update die. -/
def granKey (mu g : Nat) : Nat := mu * 2 ^ 26 + g
/-- Byte 0 of a location of a pair. -/
def locBase (k loc : Nat) : Nat := (k * 2 + loc) * 4096

def State.step_ (s : State) : Nat := s.get F.PLC_STEP_T
def State.tag (s : State) (k loc : Nat) : Nat := tGet s.t1.tag (k * 2 + loc)
def State.setTag (s : State) (k loc v : Nat) : State := { s with t1 := { s.t1 with tag := tSet s.t1.tag (k * 2 + loc) v } }

/-- The current location of a pair: the largest tag below the step counter (R295); none is the fault of R298. -/
def State.current (s : State) (k : Nat) : Option Nat :=
  let t := s.step_
  let a := s.tag k 0
  let b := s.tag k 1
  if a < t ∧ (t ≤ b ∨ b ≤ a) then some 0 else if b < t then some 1 else none

/-- The spare location: the one that is not current (R295). -/
def State.spare (s : State) (k : Nat) : Nat := match s.current k with
  | some 0 => 1
  | some _ => 0
  | none => 1

def State.locRead (s : State) (k loc : Nat) : Bytes := mRead s.t1.pair (locBase k loc) 4096
/-- Line `l` of location `loc` of granule `k`, as a checked line of its die: from 2^32 on. -/
def pairLineOf (k loc l : Nat) : Nat := t1Line (k / 2 ^ 26) 0 + 2 ^ 32 + (k % 2 ^ 26 * 2 + loc) * 64 + l
/-- Channel of quarter `q` of a location: its 1 KiB blocks rotate like those of the space (R265; log entry 33). -/
def pairCh (k loc q : Nat) : Nat := ((k % 2 ^ 26 * 2 + loc) * 4 + q) % 24
def State.locWrite (s : State) (k loc off : Nat) (b : Bytes) : State :=
  { s with t1 := { s.t1 with
    pair := mWrite s.t1.pair (locBase k loc + off) b
    wb := s.t1.wb.filter fun l => !(decide (pairLineOf k loc (off / 64) ≤ l) && decide (l < pairLineOf k loc ((off + b.length + 63) / 64))) } }

/-- 32-bit word `i` of a location. -/
def State.locWord (s : State) (k loc i : Nat) : Nat := leNat (mRead s.t1.pair (locBase k loc + 4 * i) 4)
def State.setLocWord (s : State) (k loc i v : Nat) : State := s.locWrite k loc (4 * i) (leBytes 4 v)

/-! ## Which granules of the resident graph a key is (R69, R275, R295) -/

/-- A scale-gradient granule, or a gradient granule of a tied parameter's later use: its buffer has one location, held as
location 0. -/
def placeIsSg (p : Placement) (mu g : Nat) : Bool :=
  p.mu == mu && ((decide (p.sgGran ≤ g) && decide (g < p.sgGran + p.scaleCount)) || p.tied.any fun u =>
    (decide (u.1 ≤ g) && decide (g < u.1 + p.count)) || (decide (u.2 ≤ g) && decide (g < u.2 + p.scaleCount)))
def placeIsMaster (p : Placement) (mu g : Nat) : Bool := p.mu == mu && decide (p.gran ≤ g) && decide (g < p.gran + p.count)

def State.places (s : State) : List Placement := match s.plan.graph with
  | some g => g.places
  | none => []

def State.isSgKey (s : State) (k : Nat) : Bool := s.places.any fun p => placeIsSg p (k / 2 ^ 26) (k % 2 ^ 26)
def State.isGradKey (s : State) (k : Nat) : Bool :=
  s.places.any fun p => placeIsSg p (k / 2 ^ 26) (k % 2 ^ 26) || placeIsMaster p (k / 2 ^ 26) (k % 2 ^ 26)

/-- Where an accumulate write to a granule goes: the spare of a pair, or the scale-gradient buffer (R295). -/
def State.accLoc (s : State) (k : Nat) : Nat := if s.isSgKey k then 0 else s.spare k

/-! ## Bitmaps -/

def State.touched (s : State) (k : Nat) : Bool := tGet (if s.t1.bank then s.t1.touch1 else s.t1.touch0) k == 1
def State.touch (s : State) (k : Nat) : State :=
  if s.t1.bank then { s with t1 := { s.t1 with touch1 := tSet s.t1.touch1 k 1 } }
  else { s with t1 := { s.t1 with touch0 := tSet s.t1.touch0 k 1 } }
def State.touchedKeys (s : State) : List Nat := (if s.t1.bank then s.t1.touch1 else s.t1.touch0).map (·.1)
/-- The banks alternate at a boundary; the one just left is cleared (R47, R279), and no spare is begun in the new measure. -/
def State.flipTouched (s : State) : State :=
  { s with t1 := { s.t1 with bank := !s.t1.bank, started := [], touch0 := if s.t1.bank then s.t1.touch0 else [], touch1 := if s.t1.bank then [] else s.t1.touch1 } }
/-- A granule's new state is dirty (R280), newly so since the last cut (R393). -/
def State.setDirty (s : State) (k : Nat) : State :=
  { s with t1 := { s.t1 with dirty := tSet s.t1.dirty k 1, fresh := tSet s.t1.fresh k 1 } }

/-! ## Poison of T1 -/

/-- Line `l` of a paired location is poisoned; some of its lines `l` to `l + n` − 1 are; some line of it is. -/
def State.linePoisoned (s : State) (k loc l : Nat) : Bool := s.t1.poison.contains (pairLineOf k loc l)
def State.linesPoisoned (s : State) (k loc l n : Nat) : Bool := (upTo n).any fun i => s.linePoisoned k loc (l + i)
def State.locPoisoned (s : State) (k loc : Nat) : Bool := s.linesPoisoned k loc 0 64
def State.markT1 (s : State) (key : Nat) (p : Bool) : State :=
  let rest := s.t1.poison.filter (· != key)
  { s with t1 := { s.t1 with poison := if p then rest ++ [key] else rest } }

/-- Mark or clear the lines of a paired location, by line. -/
def State.markLoc (s : State) (k loc : Nat) (p : Nat → Bool) : State := (upTo 64).foldl (fun t l => t.markT1 (pairLineOf k loc l) (p l)) s

/-- A sum of gradients at memory-update die `mu` is an infinity or a NaN: the seat's flag in a measure with a verdict (R277), and NUMERIC for
that die once a beat, naming the figure (R153). -/
def State.sumNonfinite (s : State) (mu fid : Nat) : State :=
  let s1 := if s.run.numEvt.contains (4 + mu) then s
    else { s with run := { s.run with numEvt := s.run.numEvt ++ [4 + mu] } }.emit Ev.numeric (4 + mu) (fid + 2 ^ 35)
  if s1.measuring then s1.flag Flags.setNonfin else s1

/-! ## Cuts -/

/-- Granules of a parameter's state: masters, scales, statistics (Table 14.3). -/
def placeKeys (p : Placement) : List Nat :=
  ((upTo p.count).map fun i => granKey p.mu (p.gran + i)) ++ ((upTo p.scaleCount).map fun i => granKey p.mu (p.scaleGran + i))
    ++ (upTo p.statCount).map fun i => granKey p.mu (p.statGran + i)

def State.closeCut (s : State) : State :=
  let s1 := ((s.set F.CEL_STATUS_OPEN 0).set F.CEL_STATUS_MIRROR_UP 0).set F.CEL_OPEN_MEASURE 0
  { s1 with cel := { s1.cel with open_ := none } }

/-- Abandon the open cut with a cause of R400: event, count, its sealed map joins the dirty bits again (R394), and a
shipment of it waits for the next cut. -/
def State.abandonCut (s : State) (cause : Nat) : State :=
  match s.cel.open_ with
  | none => s
  | some c =>
    let s1 := (s.count F.CEL_ABANDON_COUNT 1).emit Ev.snapAbandon 14 (c.measure % 2 ^ 48 + cause * 2 ^ 48)
    let s2 : State := { s1 with t1 := { s1.t1 with dirty := s1.t1.sealedMap.foldl (fun d e => tSet d e.1 1) s1.t1.dirty } }
    let cel : Cellar := { s2.cel with
      ships := s2.cel.ships.map fun x => if x.2.2 = c.measure then (x.1, x.2.1, 2 ^ 48) else x
      shipping := s2.cel.shipping.filter (· != c.measure)
      mirrors := s2.cel.mirrors.filter (· != c.measure) }
    State.closeCut { s2 with t1 := { s2.t1 with sealedMap := [] }, cel := cel }

/-- Paired granules of trainable parameters on one die. -/
def pairedOn (ps : List Placement) (mu : Nat) : Nat :=
  (ps.filter fun p => p.mu == mu && p.count != 0).foldl (fun n p => n + p.count + p.scaleCount + p.statCount) 0

/-- Granules of a die's ring at its basic size, none on a die without paired state (R397, R531; log entry 16). -/
def basicRingOf (ps : List Placement) (mu : Nat) : Nat :=
  if pairedOn ps mu = 0 then 0 else Config.basicRing (pairedOn ps mu)

/-- Granules a die's ring holds: CEL_RING.MIB as of the build under expert control, else its basic size (R397, R409). -/
def State.ringCap (s : State) (mu : Nat) : Nat :=
  let m := s.cel.ringMib
  if m = 0 ∨ !s.feat 9 then basicRingOf s.places mu else m * 256

def Cut.ringUse (c : Cut) (mu : Nat) : Nat := (c.ring.filter fun e => e.1 / 2 ^ 26 == mu).length

/-- Drop ring entries that every attached reader has read (R397). -/
def Cut.trim (c : Cut) : Cut :=
  { c with ring := c.ring.filter fun e => c.readers.any fun r => r.attached && r.left.contains e.1 }

/-- An attached mirror or shipment reader holds space of die `mu`'s ring: a granule there that the drain has read and it has not (R398). -/
def Cut.holds (c : Cut) (mu : Nat) (r : Reader) : Bool :=
  r.kind != 0 && r.attached && c.ring.any fun e => e.1 / 2 ^ 26 == mu && r.left.contains e.1 && !(c.readers.any fun x => x.kind == 0 && x.left.contains e.1)

/-- Detach every reader that holds space of die `mu`'s ring (R398). -/
def Cut.detach (c : Cut) (mu : Nat) : Cut := { c with readers := c.readers.map fun r => if c.holds mu r then { r with attached := false } else r }

/-- The location that holds the cut's state of a pair: the one current at the cut, tagged with the cut tag or, if the granule was not updated
in the measure the cut closes, before it (R295, R390; log entry 16). -/
def State.cutLoc (s : State) (c : Cut) (k : Nat) : Nat :=
  let a := s.tag k 0
  let b := s.tag k 1
  if a ≤ c.tag ∧ (c.tag < b ∨ b ≤ a) then 0 else 1

/-- Copy a granule of the open cut into its die's ring before its location is written (R395, R398): nothing unless the
location is the cut's and some reader has not read it. -/
def State.copyBefore (s : State) (k loc : Nat) : State :=
  match s.cel.open_ with
  | none => s
  | some c =>
    if s.cutLoc c k != loc || !(c.readers.any fun r => r.attached && r.left.contains k) || c.ring.any (fun e => e.1 == k) then s
    else
      let mu := k / 2 ^ 26
      let full := decide (s.ringCap mu ≤ c.ringUse mu)
      let gone := if full then c.readers.filter (c.holds mu) else []
      let c1 := if full then (c.detach mu).trim else c
      let s1 := s.count F.CEL_DETACH_COUNT gone.length
      let s2 := if gone.any fun r => r.kind == 1 then s1.set F.CEL_STATUS_MIRROR_UP 0 else s1
      if c1.ringUse mu < s.ringCap mu then
        let c2 := { c1 with ring := c1.ring ++ [(k, s2.locRead k loc)] }
        let s3 := s2.count F.CEL_CBW_COUNT 1
        let s4 := s3.set F.CEL_RING_PEAK_MIB (max (s3.get F.CEL_RING_PEAK_MIB) (ceilDiv (c2.ringUse mu) 256))
        { s4 with cel := { s4.cel with open_ := some c2 } }
      else State.abandonCut { s2 with cel := { s2.cel with open_ := some c1 } } 2

/-- A granule of the cut as a reader takes it: from the ring if copied, else from the cut's location. -/
def State.cutGranule (s : State) (c : Cut) (k : Nat) : Bytes :=
  match c.ring.find? fun e => e.1 == k with
  | some e => e.2
  | none => s.locRead k (s.cutLoc c k)

/-- The SNAP field of a placement's tensor, if it has one. -/
def State.snapField (s : State) (p : Placement) : Option Nat := (s.plan.graph.bind fun g => g.tensor p.handle).map tSnap

/-- The build's choice for one shard (R393): fixed by an expert SNAP field; otherwise at least 1 GiB of state, of which at most a quarter
became newly dirty between the last two cuts. -/
def State.wantsJournal (s : State) (p : Placement) : Bool := match s.snapField p with
  | none => false
  | some f =>
    let n := (placeKeys p).length
    if f = 2 then true
    else if f = 0 then decide (2 ^ 18 ≤ n) && s.cel.newDirty.any fun x => x.1 == p.handle && decide (x.2 * 4 ≤ n)
    else false

/-- The shards among `ps` that a build journals: one that would take its die's journalled state beyond 48 GiB is wheeled (R279). -/
def State.journalSet (s : State) (ps : List Placement) : List Nat :=
  (ps.foldl (fun (a : List Nat × Tab) p =>
    let n := tGet a.2 p.mu + (placeKeys p).length
    if s.wantsJournal p && decide (n ≤ 3 * 2 ^ 22) then (a.1 ++ [p.handle], tSet a.2 p.mu n) else a) ([], [])).1

/-- A parameter is journalled at cut `cutNo` (R393): by the build in force, with a complete wheel held, and not at an eighth cut, which
an expert SNAP field overrules. -/
def State.journalled (s : State) (p : Placement) (cutNo : Nat) (wheeled : List Nat) : Bool :=
  s.cel.journal.contains p.handle && wheeled.contains p.handle && (s.snapField p == some 2 || cutNo % 8 != 0)

end Sys2Proof.Machine
end

