-- ==== Sys2Proof/Machine/Update.lean ====
section
/-! DEFINITION. The parameter update beside memory (R292 to R310): learning rate, gradient input, sign and factored rules,
learned scales, working-copy re-encodes, prune-to-transposable. Layouts of masters, scales and statistics in granules:
log entry 20. -/
namespace Sys2Proof.Machine

/-! ## Parameter block (Table 11.2) -/

def uRule (o : BitVec 1024) : Nat := oParam o 0 2
def uShape (o : BitVec 1024) : Nat := oParam o 2 2
def uLr (o : BitVec 1024) : Word32 := BitVec.ofNat 32 (oParam o 32 32)
def uWd (o : BitVec 1024) : Word32 := BitVec.ofNat 32 (oParam o 64 32)
def uClip (o : BitVec 1024) : Word32 := BitVec.ofNat 32 (if oParam o 96 32 = 0 then 0x3F800000 else oParam o 96 32)
def uEps (o : BitVec 1024) : Word32 := BitVec.ofNat 32 (if oParam o 128 32 = 0 then 0x0DA24260 else oParam o 128 32)
def uWarm (o : BitVec 1024) : Nat := oParam o 160 32
def uEnd (o : BitVec 1024) : Nat := oParam o 192 32
def uFinal (o : BitVec 1024) : Word32 := BitVec.ofNat 32 (oParam o 224 32)

/-- π and −0.8 in FP32. -/
def fPi : Word32 := 0x40490FDB#32
def fM08 : Word32 := 0xBF4CCCCD#32

/-- The factor f of R294. -/
def lrShape (o : BitVec 1024) (t : Nat) : Word32 :=
  if 0 < uWarm o ∧ t < uWarm o then fRatio t (uWarm o)
  else if uShape o = 0 then fOne
  else if uEnd o ≤ t then uFinal o
  else
    let p := fRatio (t - uWarm o) (uEnd o - uWarm o)
    if uShape o = 1 then fSub fOne (fMul (fSub fOne (uFinal o)) p)
    else fAdd (uFinal o) (fDiv (fMul (fSub fOne (uFinal o)) (fAdd fOne (fCos (fMul fPi p)))) (fOfNat 2))

/-- lr_at(t) with the latched multiplier (R294). -/
def State.lrAt (s : State) (o : BitVec 1024) : Word32 := fMul (fMul (uLr o) (lrShape o s.step_)) s.t1.lrMul

/-! ## Layout of a parameter -/

/-- A parameter at work: its operation and index, tensor, placement, codebook, and whether its block axis is the outer one. -/
structure Param where
  idx : Nat
  op : BitVec 1024
  t : BitVec 512
  p : Placement
  cb : List Nat
  outer : Bool
deriving DecidableEq, Repr

def State.param (s : State) (idx : Nat) : Option Param :=
  match s.plan.graph with
  | none => none
  | some g => match g.op idx with
    | none => none
    | some o => match g.tensor (oIn o 0), g.place (oIn o 0) with
      | some t, some p => if oKind o = K.update then some ⟨idx, o, t, p, g.tensorCb t, g.kOuter p.handle⟩ else none
      | _, _ => none

/-- The parameter whose master granule `k` is. -/
def State.paramAt (s : State) (k : Nat) : Option Param := match s.plan.graph with
  | none => none
  | some g => g.ops.zipIdx.findSome? fun o => (s.param o.2).bind fun q => if placeIsMaster q.p (k / 2 ^ 26) (k % 2 ^ 26) then some q else none

/-- Row and column of word `e` of granule `gi`, if it holds an element: 32 × 32 tiles of the matrix; rank 1 lies linear. -/
def elemAt (t : BitVec 512) (gi e : Nat) : Option (Nat × Nat) :=
  if tRank t ≤ 1 then (if gi * 1024 + e < tCols t then some (0, gi * 1024 + e) else none)
  else
    let nt := ceilDiv (tCols t) 32
    let i := gi / nt * 32 + e / 32
    let j := gi % nt * 32 + e % 32
    if i < tRows t ∧ j < tCols t then some (i, j) else none

/-- Granules of a parameter's master. -/
def granCount (t : BitVec 512) : Nat :=
  if tRank t ≤ 1 then ceilDiv (tCols t) 1024 else ceilDiv (tRows t) 32 * ceilDiv (tCols t) 32

def masterKey (q : Param) (gi : Nat) : Nat := granKey q.p.mu (q.p.gran + gi)
def scaleKey (q : Param) (g : Nat) : Nat := granKey q.p.mu (q.p.scaleGran + g / 1024)
def sgKey (q : Param) (g : Nat) : Nat := granKey q.p.mu (q.p.sgGran + g / 1024)
def statKey (q : Param) (w : Nat) : Nat := granKey q.p.mu (q.p.statGran + w / 1024)

def isCode (t : BitVec 512) : Bool := tFormat t == 5 || tFormat t == 6
def scaleGroup (q : Param) (c : Nat × Nat) : Nat := groupOf (tGran q.t) q.outer (tCols q.t) c.1 c.2
def scaleGroups (q : Param) : Nat := groupCount (tGran q.t) q.outer (tRows q.t) (tCols q.t)

/-- Word of paired state in its current location; an absent current location reads its spare's bits. -/
def State.curWord (s : State) (k i : Nat) : Word32 := BitVec.ofNat 32 (s.locWord k ((s.current k).getD 0) (i % 1024))
def State.spareWord (s : State) (k i : Nat) : Word32 := BitVec.ofNat 32 (s.locWord k (s.spare k) (i % 1024))

/-- Write a word of the spare, after copy-before-write (R395), and tag the spare t (R296). -/
def State.putSpare (s : State) (k i : Nat) (v : Word32) : State :=
  let l := s.spare k
  (s.copyBefore k l).setLocWord k l (i % 1024) v.toNat

def State.tagSpare (s : State) (k : Nat) : State := s.setTag k (s.spare k) s.step_

/-- Begin a spare: at its first write of the measure it becomes a copy of the current location, so that words the update does not reach keep their
value, whatever an attempt that was dropped left there (R296, R303), with its poison (R453); and it takes tag t. -/
def State.copySpare (s : State) (k : Nat) : State :=
  let l := s.spare k
  if s.t1.started.contains k then s
  else
    let c := (s.current k).getD 0
    let s1 := ((s.copyBefore k l).locWrite k l 0 (s.locRead k c)).setTag k l s.step_
    State.markLoc { s1 with t1 := { s1.t1 with started := s1.t1.started ++ [k] } } k l fun i => s.linePoisoned k c i

/-! ## Gradient input (R299, R150) -/

def State.granCnt (s : State) (k : Nat) : Nat := tGet s.t1.cnt k
/-- A granule the update takes: touched with a reduced count above 0. -/
def State.updates (s : State) (k : Nat) : Bool := s.touched k && decide (0 < s.granCnt k)

/-- rne32(reduced / n) of a word of a gradient location. -/
def State.gradNorm (s : State) (k i : Nat) : Word32 :=
  let red := BitVec.ofNat 32 (s.locWord k (s.accLoc k) (i % 1024))
  fOver red (s.granCnt k)

/-- 2^−EXP. -/
def State.expScale (s : State) : Word32 := rne32 (.fin false 1 (-(sext 8 (s.get F.PLC_LSCALE_EXP))))

/-- Scale of an element's group in force. -/
def State.scaleOf (s : State) (q : Param) (c : Nat × Nat) : Word32 :=
  let g := scaleGroup q c
  (clampScale fOne (s.curWord (scaleKey q g) g)).1

/-- y of the element's master, and whether it lies in range (R148). -/
def State.inRangeY (s : State) (q : Param) (gi e : Nat) (c : Nat × Nat) : FVal × Bool :=
  let y := encodeY (s.curWord (masterKey q gi) e) (s.scaleOf q c)
  (y, !(y.lt (bf16 (q.cb.headD 0))) && !((bf16 (q.cb.getLastD 0)).lt y) && !y.isNan)

/-- G of an element: +0 where a learned scale saturates it (R150). -/
def State.gradOf (s : State) (q : Param) (gi e : Nat) (c : Nat × Nat) : Word32 :=
  if isCode q.t && !(s.inRangeY q gi e c).2 then fZero else fMul (s.gradNorm (masterKey q gi) e) s.expScale

/-- The elements of granule `gi` with their coordinates, ascending. -/
def elems (q : Param) (gi : Nat) : List (Nat × (Nat × Nat)) :=
  (upTo 1024).filterMap fun e => (elemAt q.t gi e).map fun c => (e, c)

/-- The sign of R300: of G, or the vote bit (1 negative); 0 at a pruned position. -/
def State.sgnOf (s : State) (q : Param) (gi e : Nat) (c : Nat × Nat) : Word32 :=
  let pruned := tMask24 q.t && (match s.wcPattern q.p q.t c.1 c.2 with
    | some pat => !pat.testBit (4 * (c.1 % 4) + c.2 % 4)
    | none => true)
  if pruned then fZero
  else if uRule q.op = 1 then
    let k := masterKey q gi
    if bit (leNat (mRead s.t1.pair (locBase k (s.spare k) + e / 8) 1)) (e % 8) then fNeg fOne else fOne
  else
    let g := s.gradOf q gi e c
    if (f32 g).isZero then fZero else if (f32 g).lt .zero then fNeg fOne else if (f32 g).isNan then g else fOne

/-! ## Partial terms -/

def Factored.fresh (op : Nat) : Factored := ⟨op, [], [], [], [], false, fZero, fZero, 0, false, fOne, []⟩
def State.part (s : State) (op : Nat) : Factored := (s.t1.part.find? fun x => x.op == op).getD (Factored.fresh op)
def State.setPart (s : State) (x : Factored) : State :=
  { s with t1 := { s.t1 with part := (s.t1.part.filter fun y => y.op != x.op) ++ [x] } }

/-- Add a granule's share of the master term B (R150). -/
def State.addB (s : State) (q : Param) (gi : Nat) : State :=
  if !isCode q.t || !s.updates (masterKey q gi) then s
  else
    let x := s.part q.idx
    let b := (elems q gi).foldl (fun l e =>
      let y := s.inRangeY q gi e.1 e.2
      if y.2 then
        let g := scaleGroup q e.2
        sPut g (fAdd (sGet fZero l g) (fMul (s.gradNorm (masterKey q gi) e.1) (rne32 y.1))) l
      else l) x.bsum
    s.setPart { x with bsum := b }

/-! ## Element results -/

/-- w' of the sign rule (R300). -/
def signStep (lr wd sgn w : Word32) : Word32 := fSub w (fMul lr (fAdd sgn (fMul wd w)))

/-- Write a slice's results, numbered in the order in which they come, up to the first infinity or NaN, which stops the slice: `lane` of them come in
a cycle, so those of its cycle that are not finite count and none of them is written (R292, R306; log entry 73). -/
def State.results (s : State) (f : Fig) (mu lane : Nat) (put : State → Nat → Word32 → State) (l : List (Nat × Nat × Word32)) : State × Bool :=
  match l.find? fun x => fNonfin x.2.2 with
  | none => (l.foldl (fun t x => put t x.2.1 x.2.2) s, true)
  | some b =>
    let s1 := (l.filter fun x => decide (x.1 / lane < b.1 / lane)).foldl (fun t x => put t x.2.1 x.2.2) s
    let n := (l.filter fun x => x.1 / lane == b.1 / lane && fNonfin x.2.2).length
    ((s1.count (F.MU_NUM_NONFINITE_COUNT.mu mu) n).detectFor Er.nonfinUpdate (4 + mu) 9 0 f.fid, false)

/-- New masters of a granule, from a lane of four elements a cycle (R292); the spare takes tag t with the last. -/
def State.writeUpdate (s : State) (f : Fig) (mu k : Nat) (l : List (Nat × Word32)) : State × Bool :=
  let r := s.results f mu 4 (fun t e v => t.putSpare k e v) (l.map fun x => (x.1, x.1, x.2))
  if r.2 then (r.1.tagSpare k, true) else r

/-- Statistics words `w` with their new values, 96 a cycle (R292). -/
def State.writeStats (s : State) (f : Fig) (q : Param) (l : List (Nat × Word32)) : State × Bool :=
  s.results f q.p.mu 96 (fun t w v => (t.copySpare (statKey q w)).putSpare (statKey q w) w v) (l.zipIdx.map fun x => (x.2, x.1.1, x.1.2))

/-- Some of these pairs has no current location: class F (R298). -/
def State.lacks (s : State) (keys : List Nat) : Bool := keys.any fun k => (s.current k).isNone

/-- Pairs beside the master that work on granule `gi` reads: its scales, under FACTORED its statistics. -/
def Param.pairs (q : Param) (gi : Nat) : List Nat :=
  ((if isCode q.t then (elems q gi).map fun e => scaleKey q (scaleGroup q e.2) else [])
    ++ if uRule q.op ≠ 2 then [] else (elems q gi).flatMap fun e =>
      if tRank q.t ≤ 1 then [statKey q e.2.2] else [statKey q e.2.1, statKey q (tRows q.t + e.2.2)]).eraseDups

/-- What an update slice finds before it takes a granule: no current location is class F (R298); poison in G or in the
master is class S for the slice, and in a current location seat-fatal at the boundary (R307, R455). -/
def State.granFault (s : State) (f : Fig) (mu k : Nat) : Option State :=
  match s.current k with
  | none => some (s.pairLost mu (some f.fid))
  | some c =>
    if s.locPoisoned k c then
      some (State.detectFor { s with t1 := { s.t1 with persistBad := mu :: s.t1.persistBad } } Er.poisonUpdate (4 + mu) 9 0 f.fid)
    else if s.locPoisoned k (s.accLoc k) then some (s.detectFor Er.poisonUpdate (4 + mu) 9 0 f.fid)
    else none

/-- Fold a slice over its granules while it runs; untouched granules are neither read nor written (R49, R299). -/
def State.overGrans (s : State) (f : Fig) (q : Param) (step : State → Nat → State × Bool) : List Nat → State
  | [] => s
  | gi :: l =>
    let k := masterKey q gi
    if !s.updates k then State.overGrans s f q step l
    else if s.lacks (q.pairs gi) then s.pairLost q.p.mu (some f.fid)
    else match s.granFault f q.p.mu k with
      | some t => t
      | none =>
        let r := step s gi
        if r.2 then State.overGrans r.1 f q step l else r.1

def sliceRange (d : BitVec 128) : List Nat := (upTo (tplCount d)).map (tplFirst d + ·)

/-! ## Learned scales (R151, R304) -/

/-- The gradient of scale group `g`: (A − B) · 2^−EXP. -/
def State.scaleGrad (s : State) (q : Param) (g : Nat) : Word32 :=
  fMul (fSub (s.gradNorm (sgKey q g) g) (sGet fZero (s.part q.idx).bsum g)) s.expScale

/-- Words of statistics the parameter itself has; its scale tensor's moments follow. -/
def ownStats (q : Param) : Nat := if tRank q.t ≤ 1 then tCols q.t else tRows q.t + tCols q.t

def State.beta (s : State) : Word32 := fSub fOne (fExp2 1 (fMul fM08 (fLog2 1 (fOfNat s.step_))))

/-- The new second moment v of word `w` of the statistics (R303). -/
def State.moment (s : State) (q : Param) (w : Nat) (g : Word32) : Word32 :=
  let b := s.beta
  fAdd (fMul b (s.curWord (statKey q w) w)) (fMul (fSub fOne b) (fAdd (fMul g g) (uEps q.op)))

/-- k of R303 from Σu² over `n` touched elements. -/
def clipOf (op : BitVec 1024) (usq : Word32) (n : Nat) : Word32 :=
  if n = 0 then fOne else fDiv fOne (fMax fOne (fDiv (fSqrt (fOver usq n)) (uClip op)))

/-- A shard whose k is below 1 counts (R303). -/
def State.countClip (s : State) (q : Param) (k : Word32) : State :=
  if fLt k fOne then s.count (F.MU_UPD_CLIP_COUNT.mu q.p.mu) 1 else s

/-- Groups of a scale tensor that are updated, with their sign (R300). -/
def State.scaleSigns (s : State) (q : Param) : List (Nat × Word32) :=
  ((upTo (scaleGroups q)).filter fun g => s.updates (sgKey q g)).map fun g =>
    let grad := s.scaleGrad q g
    (g, if (f32 grad).isZero then fZero else if (f32 grad).lt .zero then fNeg fOne else if (f32 grad).isNan then grad else fOne)

/-- Updated groups of a scale tensor with gradient and second moment (R303). -/
def State.scaleMoments (s : State) (q : Param) : List (Nat × Word32 × Word32) :=
  ((upTo (scaleGroups q)).filter fun g => s.updates (sgKey q g)).map fun g =>
    let grad := s.scaleGrad q g
    (g, grad, s.moment q (ownStats q + g) grad)

/-- Move a scale against `dir` and clamp it (R304, R141; log entry 57). -/
def State.putScale (s : State) (q : Param) (g : Nat) (dir : Word32) : State :=
  let old := (clampScale fOne (s.curWord (scaleKey q g) g)).1
  let c := clampScale old (fSub old (fMul (s.lrAt q.op) dir))
  let t := if c.2 then s.count (F.MU_SCALE_CLAMP_COUNT.mu q.p.mu) 1 else s
  (t.copySpare (scaleKey q g)).putSpare (scaleKey q g) g c.1

/-- Pairs that the update of the learned scales reads. -/
def State.scalePairs (s : State) (q : Param) : List Nat :=
  ((upTo (scaleGroups q)).filter fun g => s.updates (sgKey q g)).flatMap fun g => scaleKey q g :: if uRule q.op = 2 then [statKey q (ownStats q + g)] else []

/-- Update the learned scales of a parameter, after its last granule (R304): by sign, or by their own second moments and clip. -/
def State.updateScales (s : State) (f : Fig) (q : Param) : State :=
  if !isCode q.t then s
  else if s.lacks (s.scalePairs q) then s.pairLost q.p.mu (some f.fid)
  else if uRule q.op = 2 then
    let m := s.scaleMoments q
    let r := s.writeStats f q (m.map fun x => (ownStats q + x.1, x.2.2))
    if !r.2 then r.1
    else
      let u := m.map fun x => (x.1, fMul x.2.1 (fRsqrt 1 x.2.2))
      let k := clipOf q.op (u.foldl (fun a x => fAdd a (fMul x.2 x.2)) fZero) u.length
      u.foldl (fun t x => t.putScale q x.1 (fMul x.2 k)) (r.1.countClip q k)
  else (s.scaleSigns q).foldl (fun t x => t.putScale q x.1 x.2) s

/-- Ends a pass over the shard: the slice that covers its last granule. -/
def lastSlice (q : Param) (d : BitVec 128) : Bool := decide (granCount q.t ≤ tplFirst d + tplCount d)

/-! ## Update slices -/

/-- Part 0: the sign rules (R300, R301). -/
def State.signSlice (s : State) (f : Fig) (q : Param) (d : BitVec 128) : State :=
  let lr := s.lrAt q.op
  let s1 := s.overGrans f q (fun t gi =>
    let t1 := t.addB q gi
    let k := masterKey q gi
    t1.writeUpdate f q.p.mu k ((elems q gi).map fun e =>
      (e.1, signStep lr (uWd q.op) (t1.sgnOf q gi e.1 e.2) (t1.curWord k e.1)))) (sliceRange d)
  if lastSlice q d && (s1.stat f.fid).phase == .running then s1.updateScales f q else s1

/-- Part 1: squared-gradient sums (R303); for rank 1 the second moments. -/
def State.factor1 (s : State) (f : Fig) (q : Param) (d : BitVec 128) : State :=
  s.overGrans f q (fun t gi =>
    if tRank q.t ≤ 1 then
      t.writeStats f q ((elems q gi).map fun e => (e.2.2, t.moment q e.2.2 (t.gradOf q gi e.1 e.2)))
    else
      let x := (elems q gi).foldl (fun (y : Factored) e =>
        let g := t.gradOf q gi e.1 e.2
        let v := fAdd (fMul g g) (uEps q.op)
        { y with
          rowSum := sPut e.2.1 (fAdd (sGet fZero y.rowSum e.2.1) v) y.rowSum
          rowCnt := tSet y.rowCnt e.2.1 (tGet y.rowCnt e.2.1 + 1)
          colSum := sPut e.2.2 (fAdd (sGet fZero y.colSum e.2.2) v) y.colSum
          colCnt := tSet y.colCnt e.2.2 (tGet y.colCnt e.2.2 + 1) }) (t.part q.idx)
      (t.setPart x, true)) (sliceRange d)

/-- β · acc + (1 − β) · sum · extent / count. -/
def accStep (b acc sum : Word32) (ext cnt : Nat) : Word32 :=
  fAdd (fMul b acc) (fOver (fMul (fMul (fSub fOne b) sum) (fOfNat ext)) cnt)

/-- Form the accumulators and their row sum before pass 2 (R303); whether the slice goes on (R298, R306). -/
def State.formAcc (s : State) (f : Fig) (q : Param) : State × Bool :=
  let x := s.part q.idx
  if x.formed then (s, true)
  else
    let b := s.beta
    let r := tRows q.t
    let c := tCols q.t
    let keys := ((upTo (ceilDiv (r + c) 1024)).map fun g => statKey q (g * 1024))
    if x.rowCnt.isEmpty then (s.setPart { x with formed := true }, true)
    else if s.lacks keys then (s.pairLost q.p.mu (some f.fid), false)
    else
      let rows := x.rowCnt.map fun e => (e.1, accStep b (s.curWord (statKey q e.1) e.1) (sGet fZero x.rowSum e.1) c e.2)
      let cols := x.colCnt.map fun e => (r + e.1, accStep b (s.curWord (statKey q (r + e.1)) (r + e.1)) (sGet fZero x.colSum e.1) r e.2)
      let y := (keys.foldl State.copySpare s).writeStats f q (rows ++ cols)
      if !y.2 then y
      else
        let sum := (upTo r).foldl (fun a i => fAdd a (y.1.spareWord (statKey q i) i)) fZero
        (y.1.setPart { x with formed := true, sum := sum }, true)

/-- u of an element (R303). -/
def State.uOf (s : State) (q : Param) (gi e : Nat) (c : Nat × Nat) : Word32 :=
  let g := s.gradOf q gi e c
  if tRank q.t ≤ 1 then fMul g (fRsqrt 1 (s.spareWord (statKey q c.2) c.2))
  else
    let row := s.spareWord (statKey q c.1) c.1
    let w := tRows q.t + c.2
    fMul g (fRsqrt 1 (fDiv (fMul row (s.spareWord (statKey q w) w)) (s.part q.idx).sum))

/-- Part 2: Σu² over the touched elements. -/
def State.factor2 (s : State) (f : Fig) (q : Param) (d : BitVec 128) : State :=
  let a := if tRank q.t ≤ 1 then (s, true) else s.formAcc f q
  if !a.2 then a.1
  else a.1.overGrans f q (fun t gi =>
    let x := t.part q.idx
    let r := (elems q gi).foldl (fun (a : Word32 × Nat) e =>
      let u := t.uOf q gi e.1 e.2
      (fAdd a.1 (fMul u u), a.2 + 1)) (x.usq, x.touched)
    (t.setPart { x with usq := r.1, touched := r.2 }, true)) (sliceRange d)

/-- Form rms and k before pass 3; k below 1 counts once for the shard. -/
def State.formClip (s : State) (q : Param) : State :=
  let x := s.part q.idx
  if x.clipped then s
  else
    let k := clipOf q.op x.usq x.touched
    (s.setPart { x with clipped := true, clip := k }).countClip q k

/-- Part 3: apply (R303). -/
def State.factor3 (s : State) (f : Fig) (q : Param) (d : BitVec 128) : State :=
  let s1 := s.formClip q
  let k := (s1.part q.idx).clip
  let lr := s1.lrAt q.op
  let s2 := s1.overGrans f q (fun t gi =>
    let t1 := t.addB q gi
    let key := masterKey q gi
    t1.writeUpdate f q.p.mu key ((elems q gi).map fun e =>
      let w := t1.curWord key e.1
      (e.1, fSub w (fMul lr (fAdd (fMul (t1.uOf q gi e.1 e.2) k) (fMul (uWd q.op) w)))))) (sliceRange d)
  if lastSlice q d && (s2.stat f.fid).phase == .running then s2.updateScales f q else s2

/-! ## Working copies (R143, R190 to R194, R309) -/

/-- Side of a working copy's tiles. -/
def wcTile (t : BitVec 512) : Nat := if tFormat t = 1 then 16 else 32

/-- The floating format of a working copy. -/
def wcFmt (t : BitVec 512) : Fmt := match tFormat t with | 1 => Fmt.bf16 | 2 => Fmt.fp16 | 3 => Fmt.e4m3 | _ => Fmt.e5m2

/-- R309's conversion: an overflow writes the largest finite value and counts SAT. -/
def wcConvert (fm : Fmt) (v : FVal) : Nat × Bool :=
  match v with
  | .fin n m e =>
    let c := fm.roundMag m e
    ((if n then fm.signBit else 0) + min c fm.top, decide (fm.top < c))
  | .inf n => ((if n then fm.signBit else 0) + fm.top, true)
  | w => ((fm.narrow w).1, false)

/-- Write one code of a working copy in T1. -/
def State.wcPut (s : State) (mu base w idx code : Nat) : State :=
  if w = 4 then
    let o := base + idx / 2
    s.t1Write mu o [BitVec.ofNat 8 (setBits (leNat (s.t1Read mu o 1)) (4 * (idx % 2)) 4 code)]
  else s.t1Write mu (base + idx * (w / 8)) (leBytes (w / 8) code)

/-- The group's master values, for an initial scale (R143). -/
def State.groupMasters (s : State) (q : Param) (g : Nat) : List FVal :=
  (upTo (granCount q.t)).flatMap fun gi => (elems q gi).filterMap fun e =>
    if scaleGroup q e.2 = g then some (f32 (s.curWord (masterKey q gi) e.1)) else none

/-- The host supplied the scale of group `g` (R143; log entry 61). -/
def State.isSupplied (s : State) (h g : Nat) : Bool :=
  s.t1.supplied.any fun x => x.1 == h && decide (x.2.1 ≤ g) && decide (g < x.2.1 + x.2.2)

/-- Initial scales at the parameter's first encode, where none was supplied (R143, R141). -/
def State.firstScales (s : State) (q : Param) : State :=
  if s.t1.scaled.contains q.p.handle then s
  else if isCode q.t && s.lacks (((upTo (scaleGroups q)).map (scaleKey q)) ++ (upTo (granCount q.t)).map (masterKey q)) then s.pairLost q.p.mu none
  else
    let s1 := if !isCode q.t then s else ((upTo (scaleGroups q)).filter fun g => !s.isSupplied q.p.handle g).foldl (fun t g =>
      let k := scaleKey q g
      let l := (t.current k).getD 0
      let c := groupScaleClamped q.cb (t.groupMasters q g)
      let t1 := (t.copyBefore k l).setLocWord k l (g % 1024) c.1.toNat
      if c.2 then t1.count (F.MU_SCALE_CLAMP_COUNT.mu q.p.mu) 1 else t1) s
    { s1 with t1 := { s1.t1 with scaled := s1.t1.scaled ++ [q.p.handle] } }


/-- Master of element (i, j). -/
def State.masterAt (s : State) (q : Param) (i j : Nat) : Word32 :=
  let nt := ceilDiv (tCols q.t) 32
  s.curWord (masterKey q (i / 32 * nt + j / 32)) (i % 32 * 32 + j % 32)

/-- Kept positions of a block under FROM_VALUES: at most two largest of each row, lower position on ties; rows over two
are counted (R192). -/
def keptOf (mags : List Word32) : Nat × Nat :=
  (upTo 4).foldl (fun (acc : Nat × Nat) r =>
    let nz := (upTo 4).filter fun c => !(f32 (mags.getD (4 * r + c) fZero)).isZero
    let two := if nz.length ≤ 2 then nz else nz.filter fun c =>
      decide ((nz.filter fun c' => fLt (mags.getD (4 * r + c) fZero) (mags.getD (4 * r + c') fZero)
        || (mags.getD (4 * r + c) fZero == mags.getD (4 * r + c') fZero && decide (c' < c))).length < 2)
    (acc.1 + two.foldl (fun a c => a + 2 ^ (4 * r + c)) 0, acc.2 + if 2 < nz.length then 1 else 0)) (0, 0)

/-- Address of the metadata of the T24 tile with element (i, j), and the block's bit offset. -/
def metaAt (q : Param) (i j : Nat) : Nat × Nat :=
  let w := wcWidth q.t
  (q.p.wcAddr + (i / 64 * ceilDiv (tCols q.t) 32 + j / 32) * (128 * w + 128) + 128 * w, 7 * (8 * (i % 64 / 4) + j % 32 / 4))

def State.blockNum (s : State) (q : Param) (i j : Nat) : Nat :=
  bits (leNat (s.t1Read q.p.mu (metaAt q i j).1 128)) (metaAt q i j).2 7

def State.setBlock (s : State) (q : Param) (i j n : Nat) : State :=
  let a := metaAt q i j
  s.t1Write q.p.mu a.1 (leBytes 128 (setBits (leNat (s.t1Read q.p.mu a.1 128)) a.2 7 n))

/-- Choose the pattern of one block: from values at the first encode, by magnitude at a prune or re-prune (R190 to R194). -/
def State.choose (s : State) (q : Param) (src : Nat) (first : Bool) (i j : Nat) : State :=
  let mags := (upTo 16).map fun b => fAbs (s.masterAt q (i + b / 4) (j + b % 4))
  let mu := q.p.mu
  if first && src == 1 then
    let k := keptOf mags
    let s1 := s.count (F.MU_PRUNE_OVF_COUNT.mu mu) k.2
    match fitPattern k.1 with
    | some n => s1.setBlock q i j n
    | none => (s1.count (F.MU_PRUNE_REFIT_COUNT.mu mu) 1).setBlock q i j (prunePattern mags)
  else if src == 2 then
    let n := prunePattern mags
    let s1 := if first || s.blockNum q i j == n then s else s.count (F.MU_REPRUNE_COUNT.mu mu) 1
    s1.setBlock q i j n
  else s

/-- The mask source and re-prune interval a MASK_24 tensor's MATMUL declares (R190, R530). -/
def Graph.maskDecl (g : Graph) (h : Nat) : Nat × Nat :=
  match g.ops.find? fun o => oKind o == K.matmul && (oIns o).contains h with
  | some o => (oParam o 0 2, oParam o 16 16)
  | none => (0, 0)

/-- Encode one element of the working copy: code and saturation. -/
def State.wcCode (s : State) (q : Param) (w : Word32) (c : Nat × Nat) : Nat × Bool :=
  if isCode q.t then
    let r := encode1 w (s.scaleOf q c) q.cb false
    (r.1, r.2.sat)
  else wcConvert (wcFmt q.t) (f32 w)

/-- Kept positions a mask byte names, as four bits, and whether it is a META_DUP. -/
def maskByte (b : Nat) : Nat × Bool :=
  let x := bits b 0 2
  let y := bits b 2 2
  if bit b 4 then (2 ^ x, false) else if x = y then (2 ^ x, true) else (2 ^ x + 2 ^ y, false)

/-- The kept set of block (p, q) of a tensor with `cols` columns, from its mask bytes, with its META_DUPs. -/
def blockKept (m : Bytes) (cols p q : Nat) : Nat × Nat :=
  (upTo 4).foldl (fun a i =>
    let k := maskByte ((m.getD ((4 * p + i) * (cols / 4) + q) 0).toNat)
    (a.1 + k.1 * 2 ^ (4 * i), a.2 + if k.2 then 1 else 0)) (0, 0)

/-- A MASK_24 tensor declared EXPLICIT. -/
def Graph.explicit (g : Graph) (h : Nat) (t : BitVec 512) : Bool :=
  tMask24 t && (g.ops.any fun o => oKind o == K.matmul && (oIns o).contains h) && (g.maskDecl h).1 == 0

/-- EXPLICIT tensors in tensor-table order with their part of the mask image. -/
def Graph.wholeMasks (g : Graph) : List (Nat × BitVec 512 × Bytes) :=
  (g.tensors.zipIdx.foldl (fun (a : List (Nat × BitVec 512 × Bytes) × Bytes) t =>
    if g.explicit t.2 t.1 then
      let n := tRows t.1 * tCols t.1 / 4
      (a.1 ++ [(t.2, t.1, a.2.take n)], a.2.drop n)
    else a) ([], g.maskImg)).1

/-- Mask bytes of a shard: one a row group of four columns. -/
def cutMask (cols : Nat) (x : Nat × Nat × Nat × Nat) (b : Bytes) : Bytes :=
  (upTo x.2.1).flatMap fun i => bytesAt b ((x.1 + i) * (cols / 4) + x.2.2.1 / 4) (x.2.2.2 / 4)

/-- EXPLICIT tensors with their masks, as this seat holds them. -/
def Graph.explicitMasks (g : Graph) : List (Nat × BitVec 512 × Bytes) :=
  g.wholeMasks.map fun x => match (g.place x.1).bind (·.shard) with
    | some c => (x.1, shardOf x.2.1 c.2.1 c.2.2.2, cutMask (tCols x.2.1) c x.2.2)
    | none => x

/-- Blocks of a masked tensor, by block row and column. -/
def maskBlocks (t : BitVec 512) : List (Nat × Nat) := (upTo (tRows t / 4)).flatMap fun p => (upTo (tCols t / 4)).map fun q => (p, q)

/-- A kept position of a MASK_24 copy whose value is zero stores +0 (R189), as does one the mask empties: code 0, or the zero entry. -/
def plusZero (q : Param) (c : Nat × Bool) (kept : Bool) : Nat × Bool :=
  if isCode q.t then (if kept then c else (zeroIndex q.cb, false))
  else if !kept || c.1 % (wcFmt q.t).signBit == 0 then (0, c.2 && kept) else c

/-- The pattern position of element (i, j) is one its EXPLICIT mask keeps: a group that keeps only its first position has a zero at the
second (R191). -/
def keptByMask (m : Option Bytes) (cols i j : Nat) : Bool :=
  match m with
  | none => true
  | some b => bit (blockKept b cols (i / 4) (j / 4)).1 (4 * (i % 4) + j % 4)

/-- Re-encode granule `gi` of a working copy from the current master (R309). -/
def State.reencode (s : State) (q : Param) (gi : Nat) (reprune first : Bool) : State :=
  if tFormat q.t = 0 then s
  else
    let w := wcWidth q.t
    let mu := q.p.mu
    let src := match s.plan.graph with
      | some g => (g.maskDecl q.p.handle).1
      | none => 0
    let s1 := if tMask24 q.t && (reprune || first) then
        ((elems q gi).filter fun e => e.2.1 % 4 == 0 && e.2.2 % 4 == 0).foldl (fun t e => t.choose q src first e.2.1 e.2.2) s
      else s
    let mask := (s.plan.graph.bind fun g => g.explicitMasks.find? fun x => x.1 == q.p.handle).map fun x => x.2.2
    let r := (elems q gi).foldl (fun (acc : State × Nat) e =>
      let c0 := acc.1.wcCode q (acc.1.curWord (masterKey q gi) e.1) e.2
      let i := e.2.1
      let j := e.2.2
      let c := if tMask24 q.t then plusZero q c0 (keptByMask mask (tCols q.t) i j) else c0
      if tMask24 q.t then
        match acc.1.wcPattern q.p q.t i j with
        | some pat =>
          if pat.testBit (4 * (i % 4) + j % 4) then
            let base := q.p.wcAddr + (i / 64 * ceilDiv (tCols q.t) 32 + j / 32) * (128 * w + 128)
            let k := ((upTo (i % 4)).filter fun r => pat.testBit (4 * r + j % 4)).length
            (acc.1.wcPut mu base w (32 * (j % 32) + 2 * (i % 64 / 4) + k) c.1, acc.2 + if c.2 then 1 else 0)
          else acc
        | none => acc
      else
        let idx := if tRank q.t ≤ 1 then j else tileIndex (wcTile q.t) (tCols q.t) i j
        (acc.1.wcPut mu q.p.wcAddr w idx c.1, acc.2 + if c.2 then 1 else 0)) (s1, 0)
    r.1.count (F.MU_NUM_SAT_COUNT.mu mu) r.2

/-- Re-encode granule `gi`; its first encode chooses the mask anew (R192). -/
def State.encodeGran (s : State) (q : Param) (gi : Nat) (reprune : Bool) : State :=
  let k := masterKey q gi
  if s.t1.encoded.contains k then s.reencode q gi reprune false
  else State.reencode { s with t1 := { s.t1 with encoded := s.t1.encoded ++ [k] } } q gi reprune true

/-- A granule a prologue re-encodes: its master, or a scale of its groups, became current at the seal (R309). -/
def State.wcDue (s : State) (q : Param) (gi : Nat) : Bool :=
  let fresh := fun k => match s.current k with
    | some l => s.tag k l + 1 == s.step_
    | none => false
  fresh (masterKey q gi) || (isCode q.t && (elems q gi).any fun e => fresh (scaleKey q (scaleGroup q e.2)))

/-- A prologue takes a granule: neither its pair nor one of its scales' may be without a current location (R298); it is re-encoded at
its first encode, at a re-prune, and where the seal made it or a scale of it current (R309). -/
def State.prologueGran (s : State) (q : Param) (rp : Bool) (gi : Nat) : State :=
  if (masterKey q gi :: if isCode q.t then (elems q gi).map fun e => scaleKey q (scaleGroup q e.2) else []).any fun x => (s.current x).isNone then
    s.pairLost q.p.mu none
  else if !s.t1.encoded.contains (masterKey q gi) || rp || s.wcDue q gi then s.encodeGran q gi rp else s

/-- Part 4: the prologue re-encode. -/
def State.prologue (s : State) (q : Param) (d : BitVec 128) : State :=
  let rp := s.t1.pruneDue.contains q.p.handle
  (sliceRange d).foldl (fun t gi => t.prologueGran q rp gi) (s.firstScales q)

/-! ## Tied weights (R244) -/

/-- The values of a gradient granule; an untouched one supplies +0 (R244, R299). -/
def State.bufVals (s : State) (k : Nat) : List Word32 :=
  if s.touched k then word32s (s.locRead k (s.accLoc k)) 1024 else List.replicate 1024 fZero

/-- Add the buffers of later uses into the first use's granule `k`: values with RNE in operation order, the largest count,
touched if any was; a non-finite sum sets the seat's flag (R244, R277); poison in a buffer reaches figure and sum (R453). -/
def State.tieGran (s : State) (f : Fig) (mu k : Nat) (others : List Nat) : State :=
  if !(k :: others).any s.touched then s
  else
    let vals := others.foldl (fun a o => (a.zip (s.bufVals o)).map fun p => fAdd p.1 p.2) (s.bufVals k)
    let n := others.foldl (fun a o => max a (if s.touched o then s.granCnt o else 0)) (if s.touched k then s.granCnt k else 0)
    let l := s.accLoc k
    let s1 := (s.copyBefore k l).locWrite k l 0 (word32Bytes vals)
    let bad := fun (i : Nat) => (k :: others).any fun o => s.touched o && s.linePoisoned o (s.accLoc o) i
    let bp := (upTo 64).any bad
    let s2 := (State.touch { s1 with t1 := { s1.t1 with cnt := tSet s1.t1.cnt k n } } k).markLoc k l fun i => bad i || (s.stat f.fid).poison
    let s2 := if bp then s2.poisonFig f else s2
    let inf := (vals.filter fNonfin).length
    if inf = 0 then s2 else ((s2.count (F.MU_NUM_NONFINITE_COUNT.mu mu) inf).setNonfinite f 0).sumNonfinite mu f.fid

/-- Part 5: the gather-add of a tied parameter's buffers over the slice's granules, its scale-gradient granules with them. -/
def State.gatherAdd (s : State) (f : Fig) (q : Param) (d : BitVec 128) : State :=
  let s1 := (sliceRange d).foldl (fun t gi =>
    t.tieGran f q.p.mu (masterKey q gi) (q.p.tied.map fun u => granKey q.p.mu (u.1 + gi))) s
  if lastSlice q d then (upTo q.p.scaleCount).foldl (fun t g =>
    t.tieGran f q.p.mu (granKey q.p.mu (q.p.sgGran + g)) (q.p.tied.map fun u => granKey q.p.mu (u.2 + g))) s1
  else s1

/-- An update-family TPL body on a memory-update die (Table 18.13); a frozen parameter is skipped and counted (R308). -/
def State.updateRun (s : State) (f : Fig) (d : BitVec 128) : State :=
  match s.param (tplOp d) with
  | none => s
  | some q =>
    if tFrozen q.t then (if tplPart d ≤ 3 then s.count F.PLC_FROZEN_SKIP_COUNT 1 else s)
    else match tplPart d with
      | 0 => s.signSlice f q d
      | 1 => s.factor1 f q d
      | 2 => s.factor2 f q d
      | 3 => s.factor3 f q d
      | 4 => s.prologue q d
      | 5 => s.gatherAdd f q d
      | _ => s

end Sys2Proof.Machine
end

