-- ==== Sys2Proof/Machine/Dma.lean ====
section
/-! DEFINITION. DMA bodies (R500, R501) and the vats they push and pop (R217 to R220). -/
namespace Sys2Proof.Machine

/-! ## Descriptor (Table 18.9) -/

def dmFld (d : BitVec 256) (lo w : Nat) : Nat := bits d.toNat lo w
def dmSrc (d : BitVec 256) : Nat := dmFld d 0 4
def dmDst (d : BitVec 256) : Nat := dmFld d 4 4
def dmBytes (d : BitVec 256) : Nat := dmFld d 8 24 * 64
def dmSa (d : BitVec 256) : Nat := dmFld d 64 64
def dmDa (d : BitVec 256) : Nat := dmFld d 128 64

/-- The vat a side names: own (kind 1) or remote (kind 7). -/
def dmVat (f : Fig) (kind a : Nat) : Option Nat :=
  if kind = 1 then some (vatKey f.die f.group (bits a 0 6))
  else if kind = 7 then some (vatKey (bits a 0 2) (bits a 2 10) (bits a 12 6))
  else none

/-- Vats the body of a figure pops and pushes. -/
def Fig.pops (f : Fig) : Option Nat := match f.body with | .dma d => dmVat f (dmSrc d) (dmSa d) | _ => none
def Fig.pushes (f : Fig) : Option Nat := match f.body with | .dma d => dmVat f (dmDst d) (dmDa d) | _ => none
def Fig.dmaBytes (f : Fig) : Nat := match f.body with | .dma d => dmBytes d | _ => 0

/-! ## Full and empty (R218, R220) -/

/-- Figures that run and do not wait on a vat. -/
def State.moving (s : State) (self : Nat) : List Fig :=
  (s.running.filterMap fun x => s.figure x.fid).filter fun g => g.fid != self && !(s.t0.vatWait.any fun w => w.fid == g.fid)

/-- Bytes that pushes or pops in flight claim of a vat. -/
def State.claim (s : State) (self key : Nat) (push : Bool) : Nat :=
  ((s.moving self).filter fun g => (if push then g.pushes else g.pops) == some key).foldl (fun a g => a + g.dmaBytes) 0

/-- Bytes of the pops that complete in this very cycle: a push that starts in it does not yet see HEAD advance (R218). -/
def State.justPopped (s : State) (key : Nat) : Nat :=
  (((s.run.figs.filter fun x => x.phase == .complete && x.done == s.clk.cyc && s.clk.pos == some x.pos).filterMap fun x => s.figure x.fid).filter
    fun g => g.pops == some key).foldl (fun a g => a + g.dmaBytes) 0

/-- A push of `b` bytes is full, or a pop is empty, on pointers as they stand. -/
def State.vatRefuses (s : State) (self key b : Nat) (push : Bool) : Bool :=
  let e := tGet s.t0.vat key
  if push then decide (vatSize e < b + vatOcc e + s.justPopped key + s.claim self key true)
  else decide (vatOcc e < b + s.claim self key false)

/-! ## Sources and destinations -/

/-- A slice named by a CLUSTER address. -/
def dmCluster (a : Nat) : Nat × Nat × Nat := (bits a 0 2, bits a 2 10, bits a 12 15)

/-- Bytes of a slice, with the poison of their lines. -/
def State.sliceRead (s : State) (die cl line n : Nat) : Bytes × Bool :=
  (s.t0Read die cl line n, s.t0Poisoned die cl line (n / 64))

/-- Some line lies in a bank that is off (R222). -/
def State.offLines (s : State) (die cl line n : Nat) : Bool :=
  (upTo n).any fun i => s.t0.bankOff.contains (bankKey die cl (bankOf (s.get (F.CD_SP_CFG_MODE.cd die) == 1) ((line + i) * 64)))

/-- The slice lines a side touches. -/
def dmLines (f : Fig) (kind a : Nat) : Option (Nat × Nat × Nat) :=
  if kind = 0 then some (f.die, f.group, bits a 0 15) else if kind = 2 then some (dmCluster a) else none

/-- Byte offsets of figure `f`'s record in a vat: from TAIL or HEAD, beyond what pushes or pops in flight claim (R218). -/
def State.vatPlace (s : State) (f : Fig) (key n : Nat) (push : Bool) : List Nat :=
  let e := tGet s.t0.vat key
  vatOffsets e ((if push then vatTail e else vatHead e) + s.claim f.fid key push) n

def State.vatLines (s : State) (f : Fig) (key : Nat) (push : Bool) : List Nat := ((s.vatPlace f key f.dmaBytes push).map (· / 64)).eraseDups

def State.dmOff (s : State) (f : Fig) (d : BitVec 256) : Bool :=
  (([dmLines f (dmSrc d) (dmSa d), dmLines f (dmDst d) (dmDa d)]).any fun o => match o with
    | some (die, cl, l) => s.offLines die cl l (dmFld d 8 24)
    | none => false)
    || ([(f.pops, false), (f.pushes, true)]).any fun v => match v.1 with
    | some k => (s.vatLines f k v.2).any fun l => s.offLines (k / 65536) (k / 64 % 1024) l 1
    | none => false

/-- Poison among flat T1 lines. -/
def State.t1Poisoned (s : State) (mu line n : Nat) : Bool :=
  s.t1.poison.any fun k => decide (t1Line mu line ≤ k) && decide (k < t1Line mu line + n)

/-- Source bytes, whether poisoned, and what reading them does to the state. -/
def State.dmRead (s : State) (f : Fig) (d : BitVec 256) : Bytes × Bool × State :=
  let n := dmBytes d
  let a := dmSa d
  match dmSrc d with
  | 1 =>
    let k := vatKey f.die f.group (bits a 0 6)
    let offs := s.vatPlace f k n false
    (offs.map fun o => mGet s.t0.mem (t0Addr f.die f.group o), offs.any (fun o => s.t0Poisoned f.die f.group (o / 64) 1), s)
  | 2 => let c := dmCluster a; let r := s.sliceRead c.1 c.2.1 c.2.2 n; (r.1, r.2, s)
  | 3 => (s.t1Read (bits a 0 3) (bits a 3 32 * 64) n, s.t1Poisoned (bits a 0 3) (bits a 3 32) (n / 64), s)
  | 4 =>
    let mu := bits a 0 3
    let k := granKey mu (bits a 3 26)
    match s.current k with
    | none => (List.replicate n 0#8, false, s.pairLost mu (some f.fid))
    | some c =>
      let bad := s.linesPoisoned k c (bits a 29 6) (n / 64)
      (mRead s.t1.pair (locBase k c + bits a 29 6 * 64) n, bad,
        if bad then { s with t1 := { s.t1 with persistBad := mu :: s.t1.persistBad } } else s)
  | _ => let r := s.sliceRead f.die f.group (bits a 0 15) n; (r.1, r.2, s)

/-- Write lines of a slice whole: poison as the data (R454). -/
def State.sliceWrite (s : State) (die cl line : Nat) (b : Bytes) (p : Bool) : State :=
  (s.t0Write die cl line b).t0Mark die cl line (b.length / 64) p

/-- Figure `f` writes lines of a slice by DMA: what they held stays known while it runs. -/
def State.dmSlice (s : State) (f : Fig) (die cl line : Nat) (b : Bytes) (p : Bool) : State :=
  let s1 := s.sliceWrite die cl line b p
  s1.noteWrite f.fid 0 s.t0.mem s1.t0.mem ((upTo b.length).map fun i => t0Addr die cl (line * 64 + i))

/-- Figure `f` writes T1 lines by DMA. -/
def State.dmT1 (s : State) (f : Fig) (mu line : Nat) (b : Bytes) (p : Bool) : State :=
  let s1 := (upTo (b.length / 64)).foldl (fun t l => t.markT1 (t1Line mu (line + l)) p) (s.t1Write mu (line * 64) b)
  s1.noteWrite f.fid 3 s.t1.mem s1.t1.mem ((upTo b.length).map fun i => t1Addr mu (line * 64 + i))

/-- Push figure `f`'s record behind a vat's TAIL; the pointer moves when the push is acknowledged. -/
def State.vatPush (s : State) (f : Fig) (key : Nat) (b : Bytes) (p : Bool) : State :=
  let die := key / 64 / 1024
  let cl := key / 64 % 1024
  let offs := s.vatPlace f key b.length true
  let mem := (offs.zip b).foldl (fun m x => mSet m (t0Addr die cl x.1) x.2) s.t0.mem
  let s1 := State.noteWrite { s with t0 := { s.t0 with mem := mem } } f.fid 0 s.t0.mem mem (offs.map fun o => t0Addr die cl o)
  ((offs.map (· / 64)).eraseDups).foldl (fun t l => t.t0Mark die cl l 1 p) s1

/-- The link die of a compute die's cluster (Table 1.3). -/
def State.linkDie (s : State) (cd : Nat) : Nat := if s.vg4 then 12 + cd / 2 else 12

/-- Write the destination. -/
def State.dmWrite (s : State) (f : Fig) (d : BitVec 256) (b : Bytes) (p : Bool) : State :=
  let a := dmDa d
  match dmDst d with
  | 1 => s.vatPush f (vatKey f.die f.group (bits a 0 6)) b p
  | 2 => let c := dmCluster a; s.dmSlice f c.1 c.2.1 c.2.2 b p
  | 3 => s.dmT1 f (bits a 0 3) (bits a 3 32) b p
  | 5 =>
    let tok := s.t0Word f (dmFld d 192 15) 0
    (chunks 4096 (b.length / 4096) b).zipIdx.foldl (fun t c =>
      let vals := word32s c.1 1024
      t.sendAcc f (bits a 0 3) (bits a 3 26 + c.2) vals tok (vals.any fNonfin)) s
  | 6 => { s with fab := { s.fab with txData := s.fab.txData ++ [(s.linkDie f.die * 65536 + dmFld d 208 16, b)] } }
  | 7 => s.vatPush f (vatKey (bits a 0 2) (bits a 2 10) (bits a 12 6)) b p
  | _ => s.dmSlice f f.die f.group (bits a 0 15) b p

/-- Move the data. -/
def State.dmMove (s : State) (f : Fig) (d : BitVec 256) : State :=
  if s.dmOff f d then s.detectFor Er.offBank f.die 1 f.group f.fid
  else
    let (b, bad, s1) := s.dmRead f d
    let s2 := if bad then s1.poisonFig f else s1
    s2.dmWrite f d b (s2.stat f.fid).poison

/-- The first vat access of a body that its vat refuses: key and side. -/
def State.refusedVat (s : State) (f : Fig) : Option (Nat × Bool) :=
  match f.pops with
  | some k => if s.vatRefuses f.fid k f.dmaBytes false then some (k, false) else
    (match f.pushes with
    | some k' => if s.vatRefuses f.fid k' f.dmaBytes true then some (k', true) else none
    | none => none)
  | none => match f.pushes with
    | some k' => if s.vatRefuses f.fid k' f.dmaBytes true then some (k', true) else none
    | none => none

/-- A DMA body: a full or empty planned vat drops the figure with cause PLAN, an unplanned one makes it wait (R220). -/
def State.dmaRun (s : State) (f : Fig) (d : BitVec 256) : State :=
  match s.refusedVat f with
  | none => s.dmMove f d
  | some (k, push) =>
    if vatPlanned (tGet s.t0.vat k) then (s.count (F.CD_VAT_FAULT_COUNT.cd (k / 65536)) 1).drop f (.direct Cause.plan)
    else { s with t0 := { s.t0 with vatWait := s.t0.vatWait ++ [⟨k, f.fid, push, f.dmaBytes, s.clk.cyc⟩] } }

/-- A completed body moves its vats' pointers (R218). -/
def State.vatDone (s : State) (f : Fig) : State :=
  let s1 := match f.pops with
    | some k => { s with t0 := { s.t0 with vat := tSet s.t0.vat k (vatAdvance (tGet s.t0.vat k) 32 f.dmaBytes) } }
    | none => s
  match f.pushes with
  | some k => { s1 with t0 := { s1.t0 with vat := tSet s1.t0.vat k (vatAdvance (tGet s1.t0.vat k) 64 f.dmaBytes) } }
  | none => s1

/-- A waiting access that its vat serves now (R220). -/
def State.vatServes (s : State) (w : VatWait) : Bool :=
  (s.figure w.fid).any fun f => !s.vatRefuses f.fid w.key w.bytes w.push

/-- VAT_WAIT_RESUME (R220): of the requesters that wait on the vat, the first for which there is space or data goes on; its waiting
cycles count. -/
def execVatWaitResume (cyc : Nat) (die cluster vat : Nat) (s : State) : Host.Outcome State Fault Refusal :=
  if s.dev == .off then .next s else
  let s1 := s.tick cyc
  let k := vatKey die cluster vat
  match s1.t0.vatWait.find? fun w => w.key == k && s1.vatServes w with
  | none => .next s1
  | some w =>
    match s1.figure w.fid with
    | none => .next s1
    | some f =>
      if s1.dev == .halted || s1.run.stopped then .next s1
      else
        let s2 := s1.count (F.CD_VAT_STALL_COUNT.cd die) (s1.clk.cyc - w.since)
        let s3 : State := { s2 with t0 := { s2.t0 with vatWait := s2.t0.vatWait.erase w } }
        match f.body with
        | .dma d => .next (s3.dmaRun f d)
        | _ => .next s3

end Sys2Proof.Machine
end

