-- ==== Sys2Proof/Machine/Cellar.lean ====
section
/-! DEFINITION. Snapshots (R383 to R401, R406 to R409): the effective interval, opening a cut, its readers, completion,
mirrors, shipments, block retirement. -/
namespace Sys2Proof.Machine

/-! ## Sizes and rates (Table 14.1) -/

/-- Bytes of the cellar, its write rate in bytes per second, its rated endurance in bytes. -/
def State.celBytes (s : State) : Nat := if s.vg4 then 16 * 10 ^ 12 else 8 * 10 ^ 12
def State.celRate (s : State) : Nat := if s.vg4 then 48 * 10 ^ 9 else 24 * 10 ^ 9
def State.celWear (s : State) : Nat := if s.vg4 then 80 * 10 ^ 15 else 40 * 10 ^ 15
/-- The own area (R384). -/
def State.ownArea (s : State) : Nat := s.celBytes * (100 - s.get F.CEL_CFG_TWIN_SHARE) / 100

/-! ## What a cut covers (R392, R393, R401) -/

/-- Tensor of a placement. -/
def State.tensorOf (s : State) (h : Nat) : Option (BitVec 512) := s.plan.graph.bind fun g => g.tensor h

/-- Parameters whose paired state is snapshotted: trainable, not excluded by SNAP = 3. -/
def State.snapPlaces (s : State) : List Placement :=
  s.places.filter fun p => (s.tensorOf p.handle).any fun t => tTrainable t && tSnap t != 3

/-- Granules a cut numbered `no` takes of one parameter: all of a wheel, the dirty ones of a journal. -/
def State.cutKeys (s : State) (no : Nat) (p : Placement) : List Nat :=
  if s.journalled p no s.cel.wheeled then (placeKeys p).filter fun k => tGet s.t1.dirty k == 1 else placeKeys p

/-- Masters and scales only: what a shipment reads (R408). -/
def shipKeys (p : Placement) : List Nat :=
  ((upTo p.count).map fun i => granKey p.mu (p.gran + i)) ++ (upTo p.scaleCount).map fun i => granKey p.mu (p.scaleGran + i)

/-- Bytes of the working copy of a tensor (R97, R189). -/
def wcBytes (t : BitVec 512) : Nat :=
  let w := wcWidth t
  if tMask24 t then ceilDiv (tRows t) 64 * ceilDiv (tCols t) 32 * (128 * w + 128)
  else if tRank t ≤ 1 then ceilDiv (tCols t * w) 8
  else ceilDiv (tRows t) (wcTile t) * ceilDiv (tCols t) (wcTile t) * (wcTile t * wcTile t * w / 8)

/-- Frozen parameters whose one wheel this graph does not have yet (R393), with the bytes of their working copies. -/
def State.frozenDue (s : State) : List (Placement × Nat) :=
  s.places.filterMap fun p => match s.tensorOf p.handle with
    | some t => if tParam t && tFrozen t && tSnap t != 3 && !s.cel.wheeled.contains p.handle then some (p, wcBytes t) else none
    | none => none

def State.frozenBytes (s : State) : Nat := s.frozenDue.foldl (fun n x => n + x.2) 0

/-- Working copies of frozen parameters, by T1 address: the wheels that stand, and those of this cut. -/
def State.frozenCopies (s : State) : Mem :=
  s.frozenDue.foldl (fun m x => mWrite m (t1Addr x.1.mu x.1.wcAddr) (s.t1Read x.1.mu x.1.wcAddr x.2)) (match s.cel.base with
    | some x => x.frozen
    | none => [])

/-- Planned bytes of a cut that wheels everything. -/
def State.planBytes (s : State) : Nat := s.snapPlaces.foldl (fun n p => n + 4096 * (placeKeys p).length) s.frozenBytes

/-- The bytes one cut writes to its own area: those of the newest that completed, else the planned ones (R389). -/
def State.cutBytes (s : State) : Nat := match s.cel.base with
  | some x => x.bytes
  | none => s.planBytes

/-! ## The effective interval (R389, R409) -/

/-- ⌈1.25 × drain ÷ measure⌉; before any drain, from the planned bytes and the write rate. -/
def State.drainMin (s : State) (measCycles : Nat) : Nat :=
  let d := if s.cel.drainCyc ≠ 0 then s.cel.drainCyc else if s.cel.drainOld ≠ 0 then s.cel.drainOld
    else ceilDiv (s.planBytes * 19 * 10 ^ 8) s.celRate
  ceilDiv (d * 5) (measCycles * 4)

/-- ⌈bytes ÷ (wear budget × measure)⌉ (R386). -/
def State.wearMin (s : State) (measCycles : Nat) : Nat :=
  ceilDiv (s.cutBytes * (s.get F.CEL_CFG_YEARS * 31557600) * (19 * 10 ^ 8)) (s.celWear * measCycles)

/-- I for a card of `measCycles` cycles a measure. -/
def State.effInterval (s : State) (measCycles : Nat) : Nat :=
  match s.plan.graph with
  | none => 0
  | some g =>
    if g.snapInterval = 0 then 0
    else max (max g.snapInterval (s.drainMin measCycles)) (if s.feat 9 then 0 else s.wearMin measCycles)

/-! ## Space (R387) -/

def State.ownSnaps (s : State) : List Snap := s.cel.snaps.filter fun x => x.role == 0 && x.complete

/-- The newest `keep` of a list of snapshots, oldest first, and those with a wheel that a journal of theirs depends on (R387, R392). -/
def keptSnaps (keep : Nat) (own : List Snap) : List Snap :=
  let new := own.drop (own.length - keep)
  own.filter fun x => new.contains x || new.any fun y => y.dir.any fun e => e.2.2 == x.measure

/-- Own snapshots after the oldest not kept, one at a time, made room for `need` bytes; none if it cannot be. -/
def reclaim (keep area need : Nat) : Nat → List Snap → Option (List Snap)
  | 0, own => if (own.foldl (fun n x => n + x.bytes) 0) + need ≤ area then some own else none
  | n + 1, own =>
    if (own.foldl (fun n x => n + x.bytes) 0) + need ≤ area then some own
    else match own.find? fun x => !(keptSnaps keep own).contains x with
      | none => none
      | some x => reclaim keep area need n (own.erase x)

/-! ## The order of a cut (R397) -/

/-- A body writes gradient granules of placement `p` in a measure: accumulate writes, DMA accumulation, the gather-add and the sink of a
reduction whose operation `own` accepts. -/
def Body.overwrites (die : Nat) (b : Body) (p : Placement) (own : Nat → Bool) : Bool :=
  let meets := fun a n => decide (a < p.gran + p.count) && decide (p.gran < a + n)
  match b with
  | .matrix d (some x) => bit d.toNat 19 && xFld x 0 3 == p.mu
      && (upTo (ceilDiv (mFld d 40 24) 32)).any fun ti => meets (xFld x 3 26 + ti * xFld x 32 24) (ceilDiv (mFld d 64 24) 32)
  | .dma d => dmDst d == 5 && bits (dmDa d) 0 3 == p.mu && meets (bits (dmDa d) 3 26) (dmFld d 8 24 / 64)
  | .tpl d => inRange 4 11 die && tplOp d != tplNoOp && own (tplOp d) && (tplPart d == 5 || tplPart d == 7)
  | _ => false

/-- Beat and START of the first figure of the card that overwrites granules of a parameter. -/
def State.overwriteAt (s : State) (p : Placement) : Nat :=
  let own := fun i => (s.plan.graph.bind fun g => g.op i).any fun o => oIn o 0 == p.handle
  match s.plan.card with
  | none => 2 ^ 64
  | some c => c.slices.foldl (fun a sl => sl.queues.foldl (fun a q => q.secs.foldl (fun a x => x.figs.foldl (fun a f =>
      if f.body.overwrites sl.die p own then min a (x.pos * 2 ^ 32 + ent f.fig 64 32) else a) a) a) a) (2 ^ 64)

/-- Parameters in the order in which readers visit their granules. -/
def State.readOrder (s : State) (ps : List Placement) : List Placement :=
  ((ps.map fun p => (s.overwriteAt p, p)).mergeSort fun a b => decide (a.1 ≤ b.1)).map (·.2)

/-! ## Opening a cut -/

/-- The twin link is up (R406): a twin port is. -/
def State.twinUp (s : State) : Bool := ((s.fab.ports.getD 16 Port.reset).up && !(s.fab.ports.getD 16 Port.reset).hello)
  || ((s.fab.ports.getD 17 Port.reset).up && !(s.fab.ports.getD 17 Port.reset).hello)

/-- An abandoned cut that never got its state: event, count (R400). -/
def State.refuseCut (s : State) (measure cause : Nat) : State :=
  (s.count F.CEL_ABANDON_COUNT 1).emit Ev.snapAbandon 14 (measure % 2 ^ 48 + cause * 2 ^ 48)

/-- Open the cut of measure `m` (R388, R390): dirty map sealed, wheeled granules' bits cleared, readers attached; an open
cut is abandoned with OVERRUN (R391), a read-only cellar abandons with NAND (R385), a full one with SPACE (R387). -/
def State.openCut (s : State) (m : Nat) : State :=
  let s0 := s.abandonCut 1
  let s1 := s0.count F.CEL_CUT_COUNT 1
  let no := s1.cel.cutNo + 1
  let s2 : State := { s1 with cel := { s1.cel with cutNo := no, lastCut := some m, dueDeferred := false } }
  let ps := s2.readOrder s2.snapPlaces
  let keys := ps.flatMap (s2.cutKeys no)
  let need := keys.length * 4096 + s2.frozenBytes
  if s2.cel.readOnly then s2.refuseCut m 4
  else match reclaim (s2.get F.CEL_CFG_KEEP) s2.ownArea need s2.ownSnaps.length s2.ownSnaps with
    | none => s2.refuseCut m 3
    | some own =>
      let whole := ps.filter fun p => !s2.journalled p no s2.cel.wheeled
      let wheels := whole.map (·.handle) ++ s2.frozenDue.map (·.1.handle)
      let wheelKeys := whole.flatMap placeKeys
      let count := fun (p : Placement) => (p.handle, ((placeKeys p).filter fun k => tGet s2.t1.fresh k == 1).length)
      let mirror := s2.twinUp && s2.plan.graph.any Graph.snapMirror
      let ship := s2.cel.ships.any fun x => x.2.2 == 2 ^ 48
      let rs : List Reader := [⟨0, keys, true⟩] ++ (if mirror then [⟨1, keys, true⟩] else [])
        ++ (if ship then [⟨2, ps.flatMap shipKeys, true⟩] else [])
      let cut : Cut := { measure := m, tag := s2.step_ - 1, no := no, exp := s2.get F.PLC_LSCALE_EXP, clean := s2.get F.PLC_LSCALE_CLEAN
                         dataPos := s2.ing.posMeas, cardGen := s2.plan.gen, wheels := wheels, readers := rs, ring := [], got := []
                         blocks := keys.length, opened := s2.clk.base + s2.clk.cyc }
      let s3 : State := { s2 with
        cel := { s2.cel with
          snaps := own ++ s2.cel.snaps.filter fun x => !(x.role == 0 && x.complete)
          open_ := some cut
          newDirty := if 2 ≤ no then ps.map count else []
          ships := s2.cel.ships.map fun x => if x.2.2 = 2 ^ 48 then (x.1, x.2.1, m) else x
          shipping := if ship then s2.cel.shipping ++ [m] else s2.cel.shipping
          mirrors := if mirror then s2.cel.mirrors ++ [m] else s2.cel.mirrors }
        t1 := { s2.t1 with
          fresh := []
          sealedMap := s2.t1.dirty
          dirty := s2.t1.dirty.filter fun e => !wheelKeys.contains e.1 } }
      (((s3.set F.CEL_STATUS_OPEN 1).set F.CEL_STATUS_MIRROR_UP (if mirror then 1 else 0)).set F.CEL_OPEN_MEASURE m).set F.CEL_RING_PEAK_MIB 0

/-! ## Reading a cut -/

/-- The granule a reader of kind `kind` takes next on die `mu` (R397). -/
def Cut.next (c : Cut) (mu kind : Nat) : Option Nat :=
  (c.readers.find? fun r => r.kind == kind && r.attached).bind fun r => r.left.find? fun k => k / 2 ^ 26 == mu

/-- A reader of kind `kind` takes granule `k` (R395 to R398). -/
def State.readCutAt (s : State) (kind k : Nat) : State :=
  match s.cel.open_ with
  | none => s
  | some c =>
    let c1 : Cut := { c with
      got := if kind = 0 then mWrite c.got (k * 4096) (s.cutGranule c k) else c.got
      readers := c.readers.map fun r => if r.kind = kind then { r with left := r.left.filter (· != k) } else r }
    { s with cel := { s.cel with open_ := some c1.trim } }

/-- A reader takes its next granule on die `mu` (R397). -/
def State.readCut (s : State) (mu kind : Nat) : State := match s.cel.open_.bind fun c => c.next mu kind with
  | some k => s.readCutAt kind k
  | none => s

/-- The paired state of the local snapshot: the cut's own granules, and for a journal's clean ones those of the snapshot it builds on
(R392). -/
def State.snapState (s : State) (c : Cut) : Mem :=
  let old := match s.cel.base with
    | some x => x.state
    | none => []
  s.snapPlaces.foldl (fun m p =>
    (placeKeys p).foldl (fun m k => mWrite m (k * 4096)
      (if c.wheels.contains p.handle || tGet s.t1.sealedMap k == 1 then mRead c.got (k * 4096) 4096 else mRead old (k * 4096) 4096)) m) []

/-- The tensor directory (Table 14.2): each shard's handle, whether it is journalled, and the measure of its base wheel. -/
def State.snapDir (s : State) (c : Cut) : List (Nat × Bool × Nat) :=
  let base := fun (h : Nat) => ((s.cel.base.bind fun x => x.dir.find? fun e => e.1 == h).map (·.2.2)).getD c.measure
  (s.snapPlaces.map fun p => if c.wheels.contains p.handle then (p.handle, false, c.measure) else (p.handle, true, base p.handle))
    ++ (s.places.filter fun p => (s.tensorOf p.handle).any fun t => tParam t && tFrozen t && tSnap t != 3).map fun p =>
        (p.handle, false, if c.wheels.contains p.handle then c.measure else base p.handle)

/-- The four n_d − 1 fields of the domain's extents (Table 14.2). -/
def State.dimsField (s : State) : Nat := rdWords s.regs F.LD_TOPO_CFG_DIM0.off 1 % 2 ^ 16

/-- The index record and state of a completed cut (Tables 14.2, 14.3). -/
def State.snapOf (s : State) (c : Cut) : Snap :=
  { role := 0, seat := s.seat, measure := c.measure, sku := s.fuses.sku, serial := s.fuses.serial, step := c.tag + 1
    exp := c.exp, clean := c.clean, cutNo := c.no, cardGen := c.cardGen
    seats := (s.fab.members.filter fun m => m.occupied).length, dims := s.dimsField, feat := s.acceptWord
    bytes := c.blocks * 4096 + s.frozenBytes, dataPos := c.dataPos
    graph := match s.plan.graph with | some g => g.image | none => []
    maskImg := match s.plan.graph with | some g => g.maskImg | none => []
    places := s.places, dir := s.snapDir c, state := s.snapState c, frozen := s.frozenCopies, sets := s.fab.sets
    routes := s.fab.route.map fun t => (upTo 4096).map fun d => tGet t d
    links := s.fab.ports.map fun p => p.up, crcOk := true, complete := true }

/-- Bytes written to the cellar count toward its wear (R386). -/
def State.wearBytes (s : State) (n : Nat) : State :=
  let s1 : State := { s with cel := { s.cel with wear := s.cel.wear + n } }
  s1.set F.CEL_WEAR_WRITTEN_TB (s1.cel.wear / 10 ^ 12)

/-- SNAP_DONE (R399): every block of the open cut and then its index record are programmed and verified: the snapshot
stands, CEL_LAST takes the measure, the seat reports it. Readers that have not finished go on from the cellar (R398,
R405). -/
def execSnapDone (cyc : Nat) (s : State) : Host.Outcome State Fault Refusal :=
  if s.dev == .off then .next s else
  let s1 := s.tick cyc
  match s1.cel.open_ with
  | none => .next s1
  | some c =>
    if c.readers.any fun r => r.kind == 0 && !r.left.isEmpty then .next s1
    else
      let x := s1.snapOf c
      let s2 := (s1.wearBytes x.bytes).count F.CEL_COMPLETE_COUNT 1
      let s3 : State := { s2 with cel := { s2.cel with
        snaps := s2.cel.snaps ++ [x]
        wheeled := (s2.cel.wheeled ++ c.wheels).eraseDups
        base := some x
        drainCyc := max s2.cel.drainCyc (s2.clk.base + s2.clk.cyc - c.opened)
        reports := s2.cel.reports ++ [(s2.seat, c.measure)] } }
      let s4 := (s3.set F.CEL_LAST_MEASURE c.measure).emit Ev.snapDone 14 (c.measure % 2 ^ 48)
      .next (State.closeCut { s4 with t1 := { s4.t1 with sealedMap := [] } })

/-- SNAP_DOMAIN (R399): every seat has reported the measure this leader last completed. -/
def execSnapDomain (cyc : Nat) (s : State) : Host.Outcome State Fault Refusal :=
  if s.dev == .off then .next s else
  let s1 := s.tick cyc
  match s1.cel.reports.getLast? with
  | none => .next s1
  | some r =>
    if s1.fab.leader then
      let s2 : State := { s1 with cel := { s1.cel with reports := [] } }
      .next ((s2.set F.CEL_DOMAIN_LAST_MEASURE r.2).emit Ev.snapDomain 14 (r.2 % 2 ^ 48))
    else .next s1

/-- NAND_PROGRAM_FAIL (R385): the block is retired and its data written elsewhere; with the last spare gone the cellar is
read-only. -/
def execNandProgramFail (cyc : Nat) (s : State) : Host.Outcome State Fault Refusal :=
  if s.dev == .off then .next s else
  let s1 := s.tick cyc
  if !s1.powered || s1.dev == .boot || s1.cel.readOnly then .next s1
  else
    let s2 := (s1.count F.CEL_NAND_RETIRE_COUNT 1).detectAt Er.cellarBlock 14 8 0 0
    let s3 : State := { s2 with cel := { s2.cel with spare := s2.cel.spare - 1 } }
    if s3.cel.spare = 0 then .next (State.set { s3 with cel := { s3.cel with readOnly := true } } F.CEL_STATUS_RO 1) else .next s3

/-- A mirror or shipment reader of the open cut ends. -/
def State.endReader (s : State) (kind : Nat) : State :=
  match s.cel.open_ with
  | none => s
  | some c =>
    let c1 : Cut := { c with readers := c.readers.filter fun r => r.kind != kind }
    { s with cel := { s.cel with open_ := some c1.trim } }

/-- MIRROR_DONE (R406): the counterpart has written the oldest mirror's index record with ROLE 1. -/
def execMirrorDone (cyc : Nat) (s : State) : Host.Outcome State Fault Refusal :=
  if s.dev == .off then .next s else
  let s1 := s.tick cyc
  match s1.cel.mirrors with
  | [] => .next s1
  | m :: rest =>
    let s2 : State := { s1 with cel := { s1.cel with mirrors := rest } }
    if s2.cel.open_.any fun c => c.measure == m then .next ((s2.endReader 1).set F.CEL_STATUS_MIRROR_UP 0) else .next s2

/-- SHIP (R408): ships a complete own snapshot from the cellar, or the next cut as a reader of it; a measure with no
complete snapshot here is beyond its bound. -/
def execShip (cyc : Nat) (ring : Nat) (s : State) : Host.Outcome State Fault Refusal :=
  if s.dev == .off then .next s else
  .next ((s.tick cyc).start ring 0x05 false true fun d t =>
    let m := bits (dW d 1) 0 48
    if dFlag d then
      State.activate { t with cel := { t.cel with ships := t.cel.ships ++ [(ring, dTag d, 2 ^ 48)] } } ring d (2 ^ 48)
    else if t.ownSnaps.any fun x => x.measure == m then
      State.activate { t with cel := { t.cel with ships := t.cel.ships ++ [(ring, dTag d, m)], shipping := t.cel.shipping ++ [m] } } ring d m
    else t.finish ring d St.badArg 0)

/-- SHIP_DONE (R408): the counterpart has written the index record of measure `m` with ROLE 2; its SHIP commands complete. -/
def execShipDone (cyc : Nat) (measure : Nat) (s : State) : Host.Outcome State Fault Refusal :=
  if s.dev == .off then .next s else
  let s1 := s.tick cyc
  if s1.ringsOn && s1.cel.shipping.contains measure then
    let done := s1.cel.ships.filter fun x => x.2.2 == measure
    let s2 : State := { s1 with cel := { s1.cel with shipping := s1.cel.shipping.filter (· != measure), ships := s1.cel.ships.filter fun x => x.2.2 != measure } }
    let s3 := if s2.cel.open_.any fun c => c.measure == measure then s2.endReader 2 else s2
    .next (s3.finishWhere (fun c => dOpcode c.desc == 5 && done.any fun x => x.2.1 == dTag c.desc) St.ok fun _ => measure)
  else .next s1

end Sys2Proof.Machine
end

