-- ==== Sys2Proof/Machine/Links.lean ====
section
/-! DEFINITION. Fabric and twin links (R352 to R361, R367, R376): ports, credits, replay, retrain, loss. -/
namespace Sys2Proof.Machine

/-! ## Flit headers (Table 13.2) -/

def Op.data : Nat := 0
def Op.verdict : Nat := 7
def Op.vote : Nat := 8
def Op.marker : Nat := 9
def Op.hello : Nat := 10
def Op.member : Nat := 11
def Op.route : Nat := 12
def Op.delay : Nat := 13

def flFld (f : Flit) (lo w : Nat) : Nat := bits f.hdr.toNat lo w
def flBit (f : Flit) (i : Nat) : Bool := bit f.hdr.toNat i
def flDest (f : Flit) : Nat := flFld f 0 12
def flClass (f : Flit) : Nat := flFld f 13 2
def flSet (f : Flit) : Nat := flFld f 16 12
def flOp (f : Flit) : Nat := flFld f 28 4
def flRed (f : Flit) : Nat := flFld f 32 3
def flBeat (f : Flit) : Nat := flFld f 36 4
def flSeq (f : Flit) : Nat := flFld f 48 16
def flCount (f : Flit) : Nat := flFld f 64 32
def flStep (f : Flit) : Nat := flFld f 96 32
def flSrc (f : Flit) : Nat := flFld f 64 12
/-- Layout A: OP 1, 2 and 7 (R356). -/
def flLayoutA (f : Flit) : Bool := flOp f == 1 || flOp f == 2 || flOp f == 7

/-! ## Ports -/

def State.port (s : State) (n : Nat) : Port := s.fab.ports.getD n Port.reset
def State.setPort (s : State) (n : Nat) (p : Port) : State :=
  { s with fab := { s.fab with ports := s.fab.ports.set n p } }

/-- Register `f` of port `n` on its link die. -/
def State.portField (s : State) (f : Field) (n : Nat) : Field := (f.at 4 n).ld (s.portLd n)

/-- Dimension of a fabric port, and whether it is a + port (R355). -/
def State.portDim (s : State) (n : Nat) : Nat := if s.vg4 then n / 4 else n / 2
def State.portPlus (s : State) (n : Nat) : Bool := if s.vg4 then decide (n % 4 < 2) else n % 2 == 0
def isTwin (n : Nat) : Bool := n == 16 || n == 17

/-- The port may come up: it exists, a domain identifier is set, and its dimension has more than one seat, or it is a twin
port of a module with a role (R355, R361, R380). -/
def State.portUsable (s : State) (n : Nat) : Bool :=
  s.hasPort n && s.get F.LD_DOMAIN_CFG_ID != 0 &&
    (if isTwin n then s.get F.LD_TWIN_CFG_ROLE != 0 else decide (1 < s.dims.getD (s.portDim n) 1))

/-- The payload of LINK_WIDTH to JOIN_REFUSED events (Table 16.6). -/
def State.linkPayload (s : State) (n cause : Nat) : Nat :=
  n + (s.port n).width * 2 ^ 5 + s.get (s.portField F.LD_PORT_n_PEER_SEAT n) * 2 ^ 7 + cause * 2 ^ 20

def State.linkEvent (s : State) (kind n cause : Nat) : State := s.emit kind (12 + s.portLd n) (s.linkPayload n cause)

/-- The link is up and carries more than HELLO flits (R363). -/
def Port.open_ (p : Port) : Bool := p.up && !p.hello

/-! ## Sending (R353, R359) -/

/-- Full credit pools by class code (Table 13.3). -/
def fullCredits : List Nat := [1024, 1024, 512, 64]

/-- Put a flit on the link: a credit of its class, the next link sequence, a place in the replay buffer of 1,024. -/
def Port.transmit (p : Port) (f : Flit) : Port :=
  let c := flClass f
  let r := p.replay ++ [(p.txSeq, f)]
  { p with
    credits := p.credits.set c (p.credits.getD c 0 - 1)
    replay := r.drop (r.length - 1024)
    txSeq := (p.txSeq + 1) % 1024
    since := p.since + 1 }

/-- A flit may be sent on the port at all. -/
def Port.carries (p : Port) (f : Flit) : Bool := p.up && (!p.hello || flOp f == Op.hello)

/-- The time-base reading. -/
def State.now (s : State) : Nat := s.clk.base + s.clk.cyc

/-- Send a flit on port `n`, or let it wait behind the flits of its class that have no credit. -/
def State.sendFlit (s : State) (n : Nat) (f : Flit) : State :=
  let p := s.port n
  if !p.carries f then s
  else if p.credits.getD (flClass f) 0 = 0 || p.out.any (fun x => flClass x.2 == flClass f) then
    s.setPort n { p with out := p.out ++ [(s.now, f)] }
  else s.setPort n (p.transmit f)

/-- Send waiting flits of one class while it has credit; the cycles planned flits waited. -/
def drainOne (now c : Nat) : Nat → Port × Nat → Port × Nat
  | 0, r => r
  | k + 1, (p, w) =>
    if p.credits.getD c 0 = 0 then (p, w)
    else match p.out.find? fun x => flClass x.2 == c with
      | none => (p, w)
      | some x => drainOne now c k (Port.transmit { p with out := p.out.erase x } x.2, w + (if c < 2 then now - x.1 else 0))

/-- Send what credits allow, in the order of Table 13.3; waits of planned flits count in LD_CREDIT_WAIT (R360). -/
def State.drainPort (s : State) (n : Nat) : State :=
  let r := [3, 0, 1, 2].foldl (fun a c => drainOne s.now c (s.port n).out.length a) (s.port n, 0)
  (s.setPort n r.1).count (F.LD_CREDIT_WAIT_COUNT.ld (s.portLd n)) r.2

/-- A header: class, operation, destination, beat, source, sequence (layout B). -/
def State.header (s : State) (cls op dest seq : Nat) : Nat :=
  dest + cls * 2 ^ 13 + op * 2 ^ 28 + (s.clk.beat % 16) * 2 ^ 36 + (seq % 2 ^ 16) * 2 ^ 48 + s.seat * 2 ^ 64 + (seq / 2 ^ 16 % 2 ^ 16) * 2 ^ 80

def State.flit (s : State) (cls op dest seq payload : Nat) : Flit :=
  ⟨BitVec.ofNat 128 (s.header cls op dest seq), BitVec.ofNat 896 payload⟩

/-! ## HELLO (Table 13.4) -/

def State.helloPayload (s : State) (n : Nat) : Nat :=
  s.fuses.serial % 2 ^ 64 + s.get F.LD_DOMAIN_CFG_ID * 2 ^ 64 + s.seat * 2 ^ 96 + s.get F.LD_TWIN_CFG_ROLE * 2 ^ 108 + n * 2 ^ 110
    + s.fuses.sku * 2 ^ 115 + s.get (F.CALLER_BEAT_CFG_STRICT.caller 14) * 2 ^ 119 + s.get F.PLC_LSCALE_CFG_FIXED * 2 ^ 120
    + s.get F.PLC_LSCALE_CFG_INIT_EXP * 2 ^ 121 + s.dimsField * 2 ^ 144 + (s.fab.lowSerial % 2 ^ 64) * 2 ^ 192 + s.acceptWord * 2 ^ 256

def State.sendHello (s : State) (n : Nat) : State :=
  s.sendFlit n (s.flit 3 Op.hello (s.get (s.portField F.LD_PORT_n_PEER_SEAT n)) 0 (s.helloPayload n))

def State.sendHellos (s : State) : State := (upTo 18).foldl State.sendHello s

/-! ## Rows: links up, retrained, down -/

/-- LINK_UP (R354, R361): a trained link is up with its width and full credits, no longer noted as lost, and each end sends a HELLO. -/
def execLinkUp (cyc : Nat) (port width : Nat) (s : State) : Host.Outcome State Fault Refusal :=
  if s.dev == .off then .next s else
  let s1 := s.tick cyc
  if s1.ringsOn && !s1.run.stopped && s1.portUsable port && !(s1.port port).up then
    let s0 : State := { s1 with fab := { s1.fab with lost := s1.fab.lost.filter fun x => !(x.1 == s1.seat && x.2.1 == port) } }
    let s2 := s0.setPort port { Port.reset with up := true, width := width, credits := fullCredits, owed := [0, 0, 0, 0] }
    let s3 := ((s2.set (s2.portField F.LD_PORT_n_UP port) 1).set (s2.portField F.LD_PORT_n_WIDTH port) width)
    .next (s3.sendHello port)
  else .next s1

/-- MEMBER reports go to the leader over any open port; a leader's own need no flit. The manual gives MEMBER flits no payload
layout: the report is the (seat, port, peer) word. -/
def State.reportLoss (s : State) (n peer : Nat) : State :=
  if s.fab.leader then s
  else match (upTo 16).find? fun k => (s.port k).open_ with
    | some k => s.sendFlit k (s.flit 3 Op.member 0 0 (s.seat + n * 2 ^ 12 + peer * 2 ^ 17))
    | none => s

/-- Links of one seat in the domain (R355). -/
def State.linksPerSeat (s : State) : Nat := (s.dims.filter fun n => decide (1 < n)).length * (if s.vg4 then 4 else 2)

/-- A member has departed (R368): the measure in progress, or the next once the seal marker is sent, ends with DEPART, and
the domain runs tail figures only until a card swaps (R86). -/
def State.depart (s : State) (seat : Nat) : State :=
  if s.fab.members.any fun m => m.seat == seat && m.occupied then
    let s1 : State := { s with fab := { s.fab with members := s.fab.members.map fun m => if m.seat = seat then { m with occupied := false } else m } }
    s1.flag Flags.setDepart
  else s

/-- The leader notes a lost link to `peer`; when every link to that seat is down it has departed, and the notice is
flooded (R368). -/
def State.noteLoss (s : State) (seat n peer : Nat) : State :=
  let l := if s.fab.lost.contains (seat, n, peer) then s.fab.lost else s.fab.lost ++ [(seat, n, peer)]
  let s1 : State := { s with fab := { s.fab with lost := l } }
  if s1.fab.leader && decide (s1.linksPerSeat ≤ (l.filter fun x => x.2.2 == peer).length) then
    let s2 := s1.depart peer
    (upTo 16).foldl (fun t k => t.sendFlit k (t.flit 3 Op.member 0xFFF 0 peer)) s2
  else s1

/-- Hops of the marker flood: ⌊n/2⌋ in each dimension, and up to n − 1 where a ring has lost every link of one seat in one direction
(R56, R378). -/
def State.floodHops (s : State) : Nat :=
  (upTo 4).foldl (fun a k =>
    let n := s.dims.getD k 1
    let cut := s.fab.lost.any fun x => !isTwin x.2.1 && s.portDim x.2.1 == k && (upTo 16).all fun q =>
      !(s.hasPort q && s.portDim q == k && s.portPlus q == s.portPlus x.2.1) || s.fab.lost.any fun y => y.1 == x.1 && y.2.1 == q
    a + if cut then n - 1 else n / 2) 0

/-- Take a link down (R367): counted, LINK_DOWN, replay and waiting flits lost, reported; a twin link affects no membership
and ends the mirror reader (R380, R406). -/
def State.linkDown (s : State) (n : Nat) : State :=
  let peer := s.get (s.portField F.LD_PORT_n_PEER_SEAT n)
  let s1 := (s.count (F.LD_LINK_DOWN_COUNT.ld (s.portLd n)) 1).linkEvent Ev.linkDown n 0
  let s2 := s1.setPort n Port.reset
  let s3 := (s2.set (s2.portField F.LD_PORT_n_UP n) 0).set (s2.portField F.LD_PORT_n_WIDTH n) 0
  if isTwin n then (if s3.twinUp then s3 else (s3.endReader 1).set F.CEL_STATUS_MIRROR_UP 0)
  else
    let s4 := s3.reportLoss n peer
    if peer = 0xFFF then s4 else s4.noteLoss s4.seat n peer

/-- LINK_DOWN (R367). -/
def execLinkDown (cyc : Nat) (port : Nat) (s : State) : Host.Outcome State Fault Refusal :=
  if s.dev == .off then .next s else
  let s1 := s.tick cyc
  if (s1.port port).up then .next (s1.linkDown port) else .next s1

/-- LINK_RETRAIN (R354): at a narrower width, or at the same after more than 1,024 replays in a beat; a changed width
writes LINK_WIDTH; a link that would widen keeps its width. The next HELLO must carry the same serial. A width of 3 or more stands for a
retrain that fails; two in a row take the link down (R367; log entry 12). -/
def execLinkRetrain (cyc : Nat) (port width : Nat) (s : State) : Host.Outcome State Fault Refusal :=
  if s.dev == .off then .next s else
  let s1 := s.tick cyc
  let p := s1.port port
  if p.up && decide (3 ≤ width) then
    let s2 := (s1.setPort port { p with fails := p.fails + 1, replays := 0 }).count (F.LD_RETRAIN_COUNT.ld (s1.portLd port)) 1
    .next (if 2 ≤ p.fails + 1 then s2.linkDown port else s2)
  else if p.up then
    let w := max p.width width
    let s2 := (s1.setPort port { p with width := w, retrained := true, replays := 0, fails := 0 }).count (F.LD_RETRAIN_COUNT.ld (s1.portLd port)) 1
    let s3 := if w = p.width then s2
      else ((if p.hello then s2 else s2.set (s2.portField F.LD_PORT_n_WIDTH port) w)).linkEvent Ev.linkWidth port 0
    .next (s3.sendHello port)
  else .next s1

/-! ## Rows: link-level errors and control flits -/

/-- FLIT_CRC_FAIL (R353): the flit and every later one is discarded until the replay; a link control flit with NAK goes out
at once. -/
def execFlitCrcFail (cyc : Nat) (port : Nat) (s : State) : Host.Outcome State Fault Refusal :=
  if s.dev == .off then .next s else
  let s1 := s.tick cyc
  let p := s1.port port
  if p.up then .next (s1.setPort port { p with discard := true, nakDue := true }) else .next s1

/-- Entries of the replay buffer after the last good sequence. -/
def Port.after (p : Port) (lastGood : Nat) : List (Nat × Flit) :=
  match p.replay.findIdx? fun x => x.1 == lastGood with
  | some i => p.replay.drop (i + 1)
  | none => p.replay

/-- LINK_CONTROL_FLIT (R353, R359): credits come back, confirmed flits leave the replay buffer, a NAK replays the rest. -/
def execLinkControlFlit (cyc : Nat) (port lastGood : Nat) (nak : Bool) (credits : List Nat) (s : State) : Host.Outcome State Fault Refusal :=
  if s.dev == .off then .next s else
  let s1 := s.tick cyc
  let p := s1.port port
  if !p.up then .next s1
  else
    let rest := p.after lastGood
    let n := if nak then rest.length else 0
    let p1 : Port := { p with
      credits := (p.credits.zipIdx).map fun c => min (fullCredits.getD c.2 0) (c.1 + credits.getD c.2 0)
      replay := rest
      replays := p.replays + n
      since := p.since + n }
    .next (((s1.setPort port p1).count (F.LD_REPLAY_COUNT.ld (s1.portLd port)) n).drainPort port)

/-- LINK_CONTROL_SEND (R353): after 128 flits, or at once after a CRC failure, the sender inserts a link control flit with
the last good sequence, the NAK and the credits it owes. -/
def execLinkControlSend (cyc : Nat) (port : Nat) (s : State) : Host.Outcome State Fault Refusal :=
  if s.dev == .off then .next s else
  let s1 := s.tick cyc
  let p := s1.port port
  if p.up && (p.nakDue || decide (128 ≤ p.since)) then
    .next (s1.setPort port { p with nakDue := false, since := 0, owed := [0, 0, 0, 0] })
  else .next s1

/-- DELAY_MEASURE (R376): half the round trip is the one-way delay, in ns. -/
def execDelayMeasure (cyc : Nat) (port roundTripQns : Nat) (s : State) : Host.Outcome State Fault Refusal :=
  if s.dev == .off then .next s else
  let s1 := s.tick cyc
  if (s1.port port).up then .next (s1.set (s1.portField F.LD_PORT_n_DELAY_NS port) (min 4095 (roundTripQns / 8))) else .next s1

end Sys2Proof.Machine
end

