-- ==== Sys2Proof/Machine/Fabric.lean ====
section
/-! DEFINITION. Domains, routes, collectives and beat markers (R361 to R381): forming and joining, departures and
partition, what a received flit does, the combine of reductions, votes and verdicts, the markers and the time base. -/
namespace Sys2Proof.Machine

/-! ## Seats and positions (R364) -/

/-- Coordinates of a seat, dimension 0 first. -/
def coordsOf : List Nat → Nat → List Nat
  | [], _ => []
  | n :: ns, seat => seat % n :: coordsOf ns (seat / n)

/-- The seat at coordinates. -/
def seatOf : List Nat → List Nat → Nat
  | n :: ns, c :: cs => c + n * seatOf ns cs
  | _, _ => 0

def coordField (cs : List Nat) : Nat := cs.zipIdx.foldl (fun a c => a + c.1 * 16 ^ c.2) 0

/-- The seat one link of a dimension away. -/
def State.neighbour (s : State) (seat dim : Nat) (plus : Bool) : Nat :=
  let cs := coordsOf s.dims seat
  let n := s.dims.getD dim 1
  let c := cs.getD dim 0
  seatOf s.dims (cs.set dim (if plus then (c + 1) % n else (c + n - 1) % n))

/-- This device's seat while it maps or forms a domain: the leader of an unformed one takes position 0. -/
def State.ownSeat (s : State) : Nat := if s.seat = 0xFFF then 0 else s.seat

def State.setSeat (s : State) (seat : Nat) : State :=
  ((s.set F.LD_SEAT_SEAT seat).set F.LD_SEAT_COORD (coordField (coordsOf s.dims seat))).set F.LD_SEAT_FORMED 1

/-! ## Routes (R365) -/

/-- Distance and direction of the shorter way round a ring, ties to +. -/
def ringWay (n a b : Nat) : Nat × Bool := let f := (b + n - a) % n; if f * 2 ≤ n then (f, true) else (n - f, false)

/-- Ports of a dimension and direction on this SKU. -/
def State.dirPorts (s : State) (dim : Nat) (plus : Bool) : List Nat :=
  (upTo (if s.vg4 then 16 else 8)).filter fun p => s.portDim p == dim && s.portPlus p == plus

/-- The port by which `seat` crosses one link of a direction towards `dest`: of two parallel links the lower-numbered for an even
destination, the other when that one is lost; a seat's own links must be open as well. -/
def State.hopPort (s : State) (seat dest dim : Nat) (plus : Bool) : Option Nat :=
  let ps := s.dirPorts dim plus
  (if dest % 2 = 0 then ps else ps.reverse).find? fun p =>
    !(s.fab.lost.any fun x => x.1 == seat && x.2.1 == p) && (seat != s.ownSeat || (s.port p).open_)

/-- The first port of a way round one ring, and the seat it ends at; none where a link of it is down. -/
def State.ringPath (s : State) (dest dim : Nat) (plus : Bool) : Nat → Nat → Option (Nat × Nat)
  | _, 0 => none
  | seat, n + 1 =>
    match s.hopPort seat dest dim plus with
    | none => none
    | some p =>
      let x := s.neighbour seat dim plus
      if (coordsOf s.dims x).getD dim 0 = (coordsOf s.dims dest).getD dim 0 then some (p, x)
      else (s.ringPath dest dim plus x n).map fun r => (p, r.2)

/-- The first port of a path that takes the dimensions in an order, each the shorter way round, else the other. -/
def State.orderPath (s : State) (dest : Nat) : List Nat → Nat → Option Nat
  | [], _ => none
  | d :: ds, seat =>
    let n := s.dims.getD d 1
    let a := (coordsOf s.dims seat).getD d 0
    let b := (coordsOf s.dims dest).getD d 0
    if a = b then s.orderPath dest ds seat
    else
      let way := (ringWay n a b).2
      match (s.ringPath dest d way seat n).orElse fun _ => s.ringPath dest d (!way) seat n with
      | none => none
      | some r => if r.2 = dest then some r.1 else (s.orderPath dest ds r.2).map fun _ => r.1

/-- Dimension orders, ascending lexicographically. -/
def dimOrders : List (List Nat) :=
  (upTo 4).flatMap fun a => (upTo 4).flatMap fun b => (upTo 4).flatMap fun c => (upTo 4).filterMap fun d =>
    if a ≠ b ∧ a ≠ c ∧ a ≠ d ∧ b ≠ c ∧ b ≠ d ∧ c ≠ d then some [a, b, c, d] else none

/-- The port a path to `dest` leaves by (R365): that of the first dimension order whose path is wholly up, with the links known lost;
where none is, the shorter way in the first dimension that differs. 31 at the destination. -/
def State.routePort (s : State) (seat dest : Nat) : Nat :=
  if seat = dest then 31
  else match dimOrders.findSome? fun o => s.orderPath dest o seat with
    | some p => p
    | none =>
      let a := coordsOf s.dims seat
      let b := coordsOf s.dims dest
      match (upTo 4).find? fun d => a.getD d 0 != b.getD d 0 with
      | none => 31
      | some d => (s.dirPorts d (ringWay (s.dims.getD d 1) (a.getD d 0) (b.getD d 0)).2).headD 31

/-- A message of the leader to every other member on its way there; the manual gives MEMBER and ROUTE flits no payload layout, so what
they spell is a free value (log entry 41). -/
def State.tellMembers (s : State) (op : Nat) : State :=
  (s.fab.members.filter fun m => m.occupied && m.seat != s.ownSeat).foldl (fun t m =>
    let v := t.draw
    let p := s.routePort s.ownSeat m.seat
    if p = 31 then v.2 else v.2.sendFlit p (v.2.flit 3 op m.seat 0 v.1)) s

/-- Routing table of this seat's link dies. -/
def State.routeTable (s : State) : Tab := (upTo s.positions).foldl (fun t d => tSet t d (s.routePort s.ownSeat d)) []

/-- The leader computes the routing tables and sends every member its own (R365). -/
def State.ownRoutes (s : State) : State :=
  State.tellMembers { s with fab := { s.fab with routeNext := [s.routeTable, s.routeTable] } } Op.route

/-- At an edge the leader sends new tables where links lost or returned change its own. -/
def State.reroute (s : State) : State :=
  if s.fab.leader && s.fab.formed && s.fab.routeNext != [s.routeTable, s.routeTable] then s.ownRoutes else s

/-! ## Forming (R362) -/

def State.hasMember (s : State) (seat : Nat) : Bool := s.fab.members.any fun m => m.seat == seat && m.occupied

/-- Every position holds a device: the leader forms the domain, sends every member its seat, and computes the routes. -/
def State.tryForm (s : State) : State :=
  if s.fab.leader && !s.fab.formed && (upTo s.positions).all s.hasMember then
    let s1 := (s.setSeat s.ownSeat).set F.LD_SEAT_LEADER 1
    (State.tellMembers { s1 with fab := { s1.fab with formed := true } } Op.member).ownRoutes
  else s

/-- A device is present at a position: a new member, or after formation a join the next build places (R362, R366). -/
def State.addMember (s : State) (seat serial : Nat) : State :=
  if s.hasMember seat then s
  else
    let s1 : State := { s with fab := { s.fab with
      lost := s.fab.lost.filter fun x => x.1 != seat && x.2.2 != seat
      members := (s.fab.members.filter fun m => m.seat != seat) ++ [⟨seat, serial, true⟩]
      joins := if s.fab.formed then s.fab.joins ++ [seat] else s.fab.joins
      pendingJoin := s.fab.pendingJoin || s.fab.formed } }
    s1.tryForm

/-- A position is occupied, as the leader tells a member. -/
def State.occupy (s : State) (seat serial : Nat) : State :=
  { s with fab := { s.fab with members := (s.fab.members.filter fun m => m.seat != seat) ++ [⟨seat, serial, true⟩] } }

/-- LEADER_ELECTED (R362): its own serial has been LOW_SERIAL for SETTLE beats. A new leader does not renumber seats. -/
def execLeaderElected (cyc : Nat) (s : State) : Host.Outcome State Fault Refusal :=
  if s.dev == .off then .next s else
  let s1 := s.tick cyc
  if s1.ringsOn && !s1.fab.leader && s1.get F.LD_DOMAIN_CFG_ID != 0 && s1.fab.lowSerial == s1.fuses.serial
      && decide (s1.get F.LD_FORM_CFG_SETTLE ≤ s1.fab.held) then
    let s2 : State := { s1 with fab := { s1.fab with leader := true } }
    .next (((s2.set F.LD_SEAT_LEADER 1).addMember s2.ownSeat s2.fuses.serial).tryForm)
  else .next s1

/-- LEADER_LOST (R369): three edges without LDR; the connected seats elect again under R362, and the old leader, the seat
with the lowest serial heard, is declared departed. -/
def execLeaderLost (cyc : Nat) (s : State) : Host.Outcome State Fault Refusal :=
  if s.dev == .off then .next s else
  let s1 := s.tick cyc
  if s1.ringsOn && s1.fab.formed && !s1.fab.leader && decide (3 ≤ s1.fab.noLdr) then
    let old := s1.fab.members.find? fun m => m.serial == s1.fab.lowSerial && m.occupied
    let s2 := match old with
      | some m => s1.depart m.seat
      | none => s1.flag Flags.setDepart
    .next { s2 with fab := { s2.fab with lowSerial := s2.fuses.serial, held := 0, noLdr := 0 } }
  else .next s1

/-! ## HELLO_RECEIVED (R361 to R366, R380) -/

/-- Hold a link in the hello-only state (R363, R380). -/
def State.helloOnly (s : State) (n : Nat) : State :=
  (s.setPort n { s.port n with hello := true, held := true }).set (s.portField F.LD_PORT_n_WIDTH n) 3

/-- Refuse the device at the other end: hello-only, counted, one JOIN_REFUSED event (R363). -/
def State.refuseJoin (s : State) (n cause : Nat) : State :=
  if (s.port n).held then s
  else (((s.count (F.LD_JOIN_REFUSED_COUNT.ld (s.portLd n)) 1).linkEvent Ev.joinRefused n cause)).helloOnly n

/-- A cabling fault: the link is held, one MISCABLE event (R364, R380). -/
def State.miscable (s : State) (n : Nat) : State :=
  if (s.port n).held then s
  else
    let s1 := s.linkEvent Ev.miscable n 0
    if isTwin n then s1.helloOnly n
    else (s1.setPort n { s1.port n with up := false, held := true }).set (s1.portField F.LD_PORT_n_UP n) 0

/-- The first field in which the partner differs, in the order of Table 13.4; 0 none. -/
def State.incompatible (s : State) (h : Nat) : Nat :=
  if bits h 115 4 ≠ s.fuses.sku then 1
  else if bits h 119 1 ≠ s.get (F.CALLER_BEAT_CFG_STRICT.caller 14) then 2
  else if bits h 120 1 ≠ s.get F.PLC_LSCALE_CFG_FIXED then 3
  else if bits h 121 8 ≠ s.get F.PLC_LSCALE_CFG_INIT_EXP then 4
  else if bits h 144 16 ≠ s.dimsField then 5
  else if bits h 256 256 ≠ s.acceptWord then 6
  else 0

/-- A device without a seat takes the vacant position a formed member's link leads to, adopts the domain and its epoch, which no flit of
the manual spells (a free value), and calibrates; the beat number comes with the next marker (R34, R362, R366). The domain it enters has
every position occupied until the leader tells it otherwise, the leader at seat 0 (log entry 41). -/
def State.adopt (s : State) (peerSeat peerPort peerSerial : Nat) : State :=
  let seat := s.neighbour peerSeat (s.portDim peerPort) (s.portPlus peerPort)
  let e := (s.setSeat seat).draw
  let serialOf := fun (x : Nat) => if x = seat then s.fuses.serial else if x = peerSeat then peerSerial else if x = 0 then s.fab.lowSerial else 2 ^ 64
  { e.2 with
    clk := { e.2.clk with epoch := e.1 }
    fab := { e.2.fab with formed := true, calibrating := 64, pendingJoin := true, members := (upTo s.positions).map fun x => ⟨x, serialOf x, true⟩ } }

/-- A member's serial as its HELLO gives it. -/
def State.knowSerial (s : State) (seat serial : Nat) : State :=
  { s with fab := { s.fab with members := s.fab.members.map fun m => if m.seat = seat ∧ m.serial = 2 ^ 64 then { m with serial := serial } else m } }

/-- A compatible HELLO on a fabric port: LOW_SERIAL, mapping, joining. -/
def State.takeHello (s : State) (n h : Nat) : State :=
  let low := bits h 192 64
  let s1 : State := if low < s.fab.lowSerial then { s with fab := { s.fab with lowSerial := low, held := 0, leader := s.fab.leader && s.fab.formed } } else s
  let s2 := s1.setPort n { s1.port n with hello := false, held := false }
  let s3 := (s2.set (s2.portField F.LD_PORT_n_WIDTH n) (s2.port n).width).knowSerial (bits h 96 12) (bits h 0 64)
  let peer := s3.neighbour s3.ownSeat (s3.portDim n) (s3.portPlus n)
  let serial := bits h 0 64
  if s3.fab.leader then
    match s3.fab.members.find? fun m => m.occupied && m.seat == peer with
    | some m => if m.serial = serial then s3 else if s3.fab.formed then s3.refuseJoin n 0 else s3.miscable n
    | none =>
      if s3.fab.members.any fun m => m.occupied && m.serial == serial then s3.miscable n
      else s3.addMember peer serial
  else if s3.seat = 0xFFF ∧ bits h 96 12 ≠ 0xFFF then s3.adopt (bits h 96 12) (bits h 110 5) serial
  else s3

/-- HELLO_RECEIVED: a HELLO on port `port`. -/
def execHelloReceived (cyc : Nat) (port : Nat) (payload : BitVec 896) (s : State) : Host.Outcome State Fault Refusal :=
  if s.dev == .off then .next s else
  let s1 := s.tick cyc
  let h := payload.toNat
  let p := s1.port port
  if !p.up then .next s1
  else if p.retrained && p.peerSerial != bits h 0 64 then .next (s1.linkDown port)
  else
    let s2 := s1.setPort port { p with heard := true, miss := 0, retrained := false, peerSerial := bits h 0 64 }
    let s3 := (s2.set (s2.portField F.LD_PORT_n_PEER_SEAT port) (bits h 96 12)).set (s2.portField F.LD_PORT_n_PEER_PORT port) (bits h 110 5)
    if isTwin port then
      let role := s3.get F.LD_TWIN_CFG_ROLE
      if (role == 1 && bits h 108 2 == 2 || role == 2 && bits h 108 2 == 1) && bits h 96 12 == s3.seat && bits h 115 4 == s3.fuses.sku
          && bits h 110 5 == port then
        let s4 := s3.setPort port { s3.port port with hello := false, held := false }
        .next (s4.set (s4.portField F.LD_PORT_n_WIDTH port) (s4.port port).width)
      else .next (s3.miscable port)
    else if bits h 64 32 ≠ s3.get F.LD_DOMAIN_CFG_ID then .next (s3.helloOnly port)
    else if s3.portDim (bits h 110 5) ≠ s3.portDim port ∨ s3.portPlus (bits h 110 5) = s3.portPlus port then .next (s3.miscable port)
    else
      let c := s3.incompatible h
      if c ≠ 0 then .next (s3.refuseJoin port c) else .next (s3.takeHello port h)

/-! ## Membership and routes -/

/-- MEMBER_RECEIVED (R362, R367, R368). -/
def execMemberReceived (cyc : Nat) (msg : MemberMsg) (s : State) : Host.Outcome State Fault Refusal :=
  if s.dev == .off then .next s else
  let s1 := s.tick cyc
  if !s1.ringsOn then .next s1
  else match msg with
  | .present seat serial => if s1.fab.leader then .next (s1.addMember seat serial) else if s1.fab.formed then .next (s1.occupy seat serial) else .next s1
  | .linkLoss seat port peer => if s1.fab.leader then .next (s1.noteLoss seat port peer) else .next s1
  | .departed seat => .next (s1.depart seat)

/-- ROUTE_RECEIVED (R365): entries of a link die's next table. -/
def execRouteReceived (cyc : Nat) (ld first : Nat) (entries : List Nat) (s : State) : Host.Outcome State Fault Refusal :=
  if s.dev == .off then .next s else
  let s1 := s.tick cyc
  let old := s1.fab.routeNext.getD ld []
  let t := entries.zipIdx.foldl (fun t e => tSet t (first + e.2) (e.1 % 32)) old
  if s1.ringsOn then .next { s1 with fab := { s1.fab with routeNext := s1.fab.routeNext.set ld t } } else .next s1

/-! ## The collective engine (R371 to R375) -/

/-- The domain, or any set, has one member: a collective returns its own input (R370). -/
def State.alone (s : State) : Bool := decide ((s.fab.members.filter fun m => m.occupied).length ≤ 1)

def VHeader.zero : VHeader := ⟨false, false, false, false, false, 0, 0xFFFFFFFF⟩
def Coll.fresh (op : Nat) : Coll := ⟨op, VHeader.zero, [], [], [], [], []⟩
def State.coll (s : State) (op : Nat) : Coll := (s.fab.coll.find? fun c => c.op == op).getD (Coll.fresh op)
def State.setColl (s : State) (c : Coll) : State :=
  { s with fab := { s.fab with coll := (s.fab.coll.filter fun x => x.op != c.op) ++ [c] } }

/-- Combine headers (R373): flags ORed, COUNT summed or its maximum, STEP from the input with LDR. -/
def VHeader.combine (cmax : Bool) (a b : VHeader) : VHeader :=
  { nonfin := a.nonfin || b.nonfin, mandLate := a.mandLate || b.mandLate, errS := a.errS || b.errS, skew := a.skew || b.skew
    ldr := a.ldr || b.ldr
    count := if cmax then max a.count b.count else satAdd 32 a.count b.count
    step := if a.ldr then a.step else if b.ldr then b.step else 0xFFFFFFFF }

/-- The header of a flit. -/
def flHdr (f : Flit) : VHeader := ⟨flBit f 40, flBit f 43, flBit f 44, flBit f 46, flBit f 47, flCount f, flStep f⟩

/-- One value of a reduction (Table 13.5, R372). -/
def reduceOp (red : Nat) (a b : Word32) : Word32 :=
  match red with
  | 1 => fAdd a b
  | 2 => fMax a b
  | 3 => fMin a b
  | 4 => a ||| b
  | _ => b

/-- The values of a reduction flit: FP32, or BF16 widened (R357). -/
def flVals (f : Flit) : List Word32 :=
  if flBit f 35 then (upTo 56).map fun i => BitVec.ofNat 32 (bits f.payload.toNat (16 * i) 16 * 65536)
  else (upTo 28).map fun i => BitVec.ofNat 32 (bits f.payload.toNat (32 * i) 32)

/-- Combine values into part of a granule from value `off`: a value nothing stood at yet is taken as it is; values beyond 1,024 are
padding. -/
def mergeVals (red off : Nat) (vals old : List Word32) : List Word32 :=
  (upTo (max old.length (min 1024 (off + vals.length)))).map fun i =>
    if off ≤ i ∧ i < off + vals.length then (if i < old.length then reduceOp red (old.getD i fZero) (vals.getD (i - off) fZero) else vals.getD (i - off) fZero)
    else old.getD i fZero

/-- Combine (count, values) into granule `gi` of a collective. -/
def Coll.merge (c : Coll) (cmax : Bool) (red gi off cnt : Nat) (vals : List Word32) : Coll :=
  match c.data.find? fun d => d.1 == gi with
  | some d =>
    let n := if off ≠ 0 then d.2.1 else if red = 0 then cnt else if cmax then max d.2.1 cnt else satAdd 32 d.2.1 cnt
    { c with data := c.data.map fun x => if x.1 = gi then (gi, n, mergeVals red off vals x.2.2) else x }
  | none => { c with data := c.data ++ [(gi, cnt, mergeVals red off vals [])] }

/-- Add votes: a bit of 0 adds 1, a bit of 1 subtracts 1 (R374). -/
def Coll.vote (c : Coll) (gi off : Nat) (bs : List Bool) : Coll :=
  let old := match c.votes.find? fun v => v.1 == gi with
    | some v => v.2
    | none => List.replicate 1024 0
  let new := (upTo 1024).map fun i => if off ≤ i ∧ i < off + bs.length then old.getD i 0 + (if bs.getD (i - off) false then -1 else 1) else old.getD i 0
  { c with votes := (c.votes.filter fun v => v.1 != gi) ++ [(gi, new)] }

/-- One vote flit (R357, R374): a contribution, RED 5, counts once for each source and with its other half, which carries the token count: 0
abstains for the granule (R301); the owner's result replaces what stood (log entry 42). -/
def Coll.takeVote (c : Coll) (contrib : Bool) (src i : Nat) (pl : Nat) : Coll :=
  let gi := i / 2
  let off := if i % 2 = 0 then 0 else 896
  let bs := (upTo (if i % 2 = 0 then 896 else 128)).map fun k => bit pl k
  if contrib then
    if c.seen.contains (src, i) then c
    else
      let c0 : Coll := { c with seen := c.seen ++ [(src, i)] }
      let mate := i / 2 * 2 + (1 - i % 2)
      match c0.half.find? fun h => h.1 == src && h.2.1 == mate with
      | none => { c0 with half := c0.half ++ [(src, i, pl)] }
      | some h =>
        let lo := if i % 2 = 0 then pl else h.2.2
        let hi := if i % 2 = 0 then h.2.2 else pl
        let c1 : Coll := { c0 with half := c0.half.filter fun x => !(x.1 == src && x.2.1 == mate) }
        let n := bits hi 128 32
        let c2 := if n = 0 then c1 else (c1.vote gi 0 ((upTo 896).map fun k => bit lo k)).vote gi 896 ((upTo 128).map fun k => bit hi k)
        c2.merge false 1 gi 0 n []
  else
    let clear := fun (v : List Int) => v.zipIdx.map fun (x : Int × Nat) => if off ≤ x.2 ∧ x.2 < off + bs.length then 0 else x.1
    let c0 : Coll := { c with votes := c.votes.map fun v => if v.1 = gi then (gi, clear v.2) else v }
    let c1 := c0.vote gi off bs
    if i % 2 = 0 then c1 else c1.merge false 0 gi 0 (bits pl 128 32) []

/-- A step counter seen in a reduction flit differs from this seat's: SKEW, and once a measure an event and a count
(R305, R373). -/
def State.stepSeen (s : State) (op seen : Nat) : State :=
  if seen = s.step_ then s
  else
    let c := s.coll op
    let s1 := s.setColl { c with hdr := { c.hdr with skew := true } }
    if s1.run.skewEvt then s1
    else State.emit ({ s1 with run := { s1.run with skewEvt := true } }.count F.PLC_STEP_SKEW_COUNT 1) Ev.stepSkew 12 (s1.step_ + seen * 2 ^ 32)

/-- This seat's contribution to the verdict figure (R53, R373): its flags, completed micro-batches, and the leader's
counter. -/
def State.ownVerdict (s : State) : VHeader :=
  let lead := s.fab.leader
  ⟨s.run.flags.nonfin, s.run.flags.mandLate, s.run.flags.errS, s.run.flags.skew || (s.coll tplNoOp).hdr.skew, lead, s.run.mbDone.length,
    if lead then s.step_ else 0xFFFFFFFF⟩

/-- The verdict figure contributes when it starts; its result stands when it completes. -/
def State.contribute (s : State) : State :=
  let c := s.coll tplNoOp
  s.setColl { c with hdr := c.hdr.combine false s.ownVerdict }

/-! ## Reduction source and sink (Table 18.13 parts 6 and 7) -/

/-- Granule index under which a parameter's scale-gradient granules travel. -/
def sgIndex : Nat := 2 ^ 26

/-- (index, key) of the granules a slice covers: masters, and after the last of them the scale gradients. -/
def redGrans (q : Param) (d : BitVec 128) : List (Nat × Nat) :=
  (sliceRange d).map (fun gi => (gi, masterKey q gi))
    ++ (if lastSlice q d then (upTo q.p.scaleCount).map fun g => (sgIndex + g, granKey q.p.mu (q.p.sgGran + g)) else [])

/-- Part 6: gradient buffers into the reduction: vote bits under SIGN_VOTE, a granule not touched abstaining (R301), values
otherwise (R299). -/
def State.redSource (s : State) (q : Param) (d : BitVec 128) : State :=
  (redGrans q d).foldl (fun t g =>
    let n := if t.touched g.2 then t.granCnt g.2 else 0
    let c0 := t.coll q.idx
    let c := if t.touched g.2 && t.locPoisoned g.2 (t.accLoc g.2) then { c0 with poison := c0.poison ++ [g.1] } else c0
    if uRule q.op = 1 then
      let c1 := c.merge false 1 g.1 0 n []
      if n = 0 then t.setColl c1 else t.setColl (c1.vote g.1 0 ((t.bufVals g.2).map fun v => bit v.toNat 31))
    else t.setColl (c.merge false 1 g.1 0 n (t.bufVals g.2))) s

/-- Part 7: reduced results into the spare, with their counts; a reduced count above 0 marks the granule touched (R48, R49,
R301). -/
def State.redSink (s : State) (f : Fig) (q : Param) (d : BitVec 128) : State :=
  (redGrans q d).foldl (fun t g =>
    let c := t.coll q.idx
    match c.data.find? fun x => x.1 == g.1 with
    | none => t
    | some x =>
      let l := t.accLoc g.2
      let t1 := t.copyBefore g.2 l
      let b := if uRule q.op = 1 then
          let v := match c.votes.find? fun v => v.1 == g.1 with
            | some v => v.2
            | none => []
          leBytes 128 ((v.zipIdx).foldl (fun a e => if e.1 < 0 then a + 2 ^ e.2 else a) 0)
        else word32Bytes x.2.2
      let t2 := (t1.locWrite g.2 l 0 b).markLoc g.2 l fun i => if i < b.length / 64 then c.poison.contains g.1 || (t1.stat f.fid).poison else t1.linePoisoned g.2 l i
      let t3 : State := { t2 with t1 := { t2.t1 with cnt := tSet t2.t1.cnt g.2 x.2.1 } }
      if x.2.1 = 0 then t3 else t3.touch g.2) s

/-! ## Received flits (R358) -/

/-- Figures of the open beat on link die `ld` that can receive a flit: the verdict figure for OP 7, others otherwise. -/
def State.receivers (s : State) (ld : Nat) (verdict : Bool) : List Fig :=
  match s.plan.card, s.clk.pos with
  | some c, some p => (c.figsAt p).filter fun f => f.die == 12 + ld && f.isVerdict == verdict
  | _, _ => []

/-- A planned flit that is not taken (R358). -/
def State.stale (s : State) (port : Nat) : State :=
  let s1 := s.count (F.LD_FLIT_STALE_COUNT.ld (s.portLd port)) 1
  if s1.run.staleEvt then s1
  else { s1 with run := { s1.run with staleEvt := true } }.detectAt Er.staleFlit (12 + s.portLd port) 5 port 0

/-- The stream's flit index: SEQ extended by its wraps (layout A), or SEQ_HI and SEQ (R358). -/
def State.flitIndex (s : State) (port : Nat) (f : Flit) : Nat × State :=
  if flLayoutA f then
    let k := port * 4096 + flSet f
    let last := sGet 0 s.fab.rx k
    let w := last / 65536 * 65536 + flSeq f
    let i := if w < last then w + 65536 else w
    (i, { s with fab := { s.fab with rx := sPut k i s.fab.rx } })
  else (flSeq f + 65536 * flFld f 80 16, s)

def tplOf (f : Fig) : Nat × Nat := match f.body with
  | .tpl d => (tplOp d, tplFirst d)
  | _ => (tplNoOp, 0)

/-- A cross-seat transfer or stage on a link die, or the verdict figure. -/
def Fig.isTransfer (f : Fig) : Bool := match f.body with
  | .tpl _ => f.die == 12 || f.die == 13
  | _ => false

/-- Where the flits of a transfer leave: the links of the dimension its stage number names (R372), on its link die (log
entry 42). -/
def State.stagePorts (s : State) (f : Fig) : List Nat :=
  match f.body with
  | .tpl d =>
    let ds := (upTo 4).filter fun k => decide (1 < s.dims.getD k 1)
    let dim := ds.getD (tplPart d % 16 % max 1 ds.length) 0
    (s.dirPorts dim true ++ s.dirPorts dim false).filter fun n => s.portLd n == f.die - 12 && (s.port n).open_
  | _ => []

/-- The open fabric ports of a link die. -/
def State.diePorts (s : State) (die : Nat) : List Nat :=
  (upTo 16).filter fun n => s.hasPort n && s.portLd n == die - 12 && (s.port n).open_

/-- Dimensions of more than one seat. -/
def State.openDims (s : State) : Nat := (s.dims.filter fun n => decide (1 < n)).length

/-- Header flags of what a collective has combined so far, POISON of granule `gi` (R373, R375). -/
def Coll.flags (c : Coll) (gi h : Nat) : Nat :=
  let f := fun (x : Bool) (i : Nat) (w : Nat) => setBits w i 1 (if x then 1 else 0)
  f c.hdr.nonfin 40 (f (c.poison.contains gi) 42 (f c.hdr.mandLate 43 (f c.hdr.errS 44 (f c.hdr.skew 46 (f c.hdr.ldr 47 h)))))

/-- The `j`-th flit of a granule stream (R357): FP32 values in 37 flits with the granule's count, or votes in two; a granule that nothing
was combined for has count 0 and zeros. -/
def Coll.payload (c : Coll) (vote : Bool) (j : Nat) : Nat × Nat :=
  let per := if vote then 2 else 37
  let (n, vs) := match c.data.find? fun d => d.1 == j / per with
    | some d => d.2
    | none => (0, [])
  if vote then
    let v := match c.votes.find? fun v => v.1 == j / 2 with
      | some v => v.2
      | none => []
    let w := v.zipIdx.foldl (fun a e => if e.1 < 0 then a + 2 ^ e.2 else a) 0
    (n, if j % 2 = 0 then w % 2 ^ 896 else w / 2 ^ 896 % 2 ^ 128 + n * 2 ^ 128)
  else (n, ((vs.drop (j % 37 * 28)).take 28).zipIdx.foldl (fun a e => a + e.1.toNat * 2 ^ (32 * e.2)) 0)

/-- A planned flit of a stage on port `n` (Table 13.2): VERDICT with what has been combined, ALLREDUCE or VOTE of a gradient reduction with
values and count of a granule of its range, some operation of another transfer with the lines that a DMA gave its stream, else a free payload; in the open beat, with this seat's
counter in layout A and for votes, its seat number in layout B (R48, R53, R357, R373). Which flits of the range go, set number, owner and the
other header fields follow slices and ring directions that no entry of the card spells: free values (log entry 42). -/
def State.stageFlit (s : State) (d : BitVec 128) (n : Nat) : Flit × State :=
  let h := s.draw
  let p := h.2.draw
  let verdict := tplOp d == tplNoOp
  let q := s.param (tplOp d)
  let vote := (q.any fun x => uRule x.op == 1) && decide (tplPart d < 32)
  let op := if verdict then Op.verdict else if vote then Op.vote else if q.isSome then 1 else h.1 % 8
  let layA := op == 1 || op == 2 || op == Op.verdict
  let c := s.coll (tplOp d)
  let j := tplFirst d + p.1 % max 1 (tplCount d)
  let x := c.payload vote j
  let first := tplPart d % 16 < (if vote then 1 else max 1 s.openDims)
  let red := if vote then (if first then 5 else 0) else if q.isSome then (if first then 1 else 0) else h.1 / 2 ^ 128 % 6
  let base := setBits (setBits (setBits (setBits (h.1 / 16 % 2 ^ 64) 12 1 0) 13 2 (if layA || op == Op.vote then 0 else h.1 / 8 % 2)) 28 4 op) 36 4 (s.clk.beat % 16)
  let flags := setBits (c.flags (j / (if vote then 2 else 37)) base) 41 1 0
  let mid := if verdict then setBits flags 16 12 0
    else if q.isSome then setBits (setBits (setBits (setBits flags 32 3 red) 35 1 0) 15 1 (if 32 ≤ tplPart d then 1 else 0)) 48 16 ((j - tplFirst d) % 2 ^ 16)
    else setBits flags 32 3 red
  let top := if layA then (if verdict then c.hdr.count else if q.isSome then x.1 else 0) + 2 ^ 32 * (if verdict then c.hdr.step else s.step_)
    else s.seat + (if vote then (j - tplFirst d) / 2 ^ 16 % 2 ^ 16 * 2 ^ 16 + 2 ^ 32 * s.step_ else 2 ^ 16 * (p.1 / 2 ^ 896 % 2 ^ 16))
  let y := if layA then setBits mid 0 12 (s.get (s.portField F.LD_PORT_n_PEER_SEAT n)) else mid
  let own := ((s.fab.txData.filter fun e => e.1 == (12 + s.portLd n) * 65536 + tplPart d).flatMap (·.2)).drop ((j - tplFirst d) * 112)
  (⟨BitVec.ofNat 128 (y % 2 ^ 64 + 2 ^ 64 * (top % 2 ^ 64)),
    if verdict then 0 else BitVec.ofNat 896 (if q.isSome then x.2 else if own.isEmpty then p.1 else leNat (own.take 112))⟩, p.2)

/-- Ports a stage may send on: the verdict and votes on any open one of its link die, others on those of its dimension. -/
def State.sendPorts (s : State) (f : Fig) (d : BitVec 128) : List Nat :=
  if tplOp d != tplNoOp && (s.param (tplOp d)).any (fun q => uRule q.op != 1 || decide (32 ≤ tplPart d)) then s.stagePorts f
  else s.diePorts f.die

/-- What a stage sends: none where its set has one member (R370; a set other than the domain's is not spelled, so whether it has is
free), else the flits its range counts (Table 18.13), of the verdict some number, on ports of its link die. -/
def State.sendStage (s : State) (f : Fig) (d : BitVec 128) : State :=
  let ports := s.sendPorts f d
  if s.alone || ports.isEmpty then s
  else
    let k := s.draw
    let n := if tplOp d = tplNoOp then k.1 % (ports.length + 1) else if k.1 % 2 = 0 then 0 else tplCount d
    (upTo n).foldl (fun t _ =>
      let x := t.draw
      let port := ports.getD (x.1 % ports.length) 0
      let q := x.2.stageFlit d port
      q.2.sendFlit port q.1) k.2

/-- In place of a transfer, stage or verdict with an invalid source, a single flit with VOID set and no payload, on the link its data
would have taken (R46, R375). -/
def State.sendVoid (s : State) (f : Fig) : State :=
  match f.body with
  | .tpl d =>
    let ports := s.sendPorts f d
    if !f.isTransfer || s.alone || ports.isEmpty then s
    else
      let k := s.draw
      let port := ports.getD (k.1 % ports.length) 0
      let q := k.2.stageFlit d port
      q.2.sendFlit port ⟨BitVec.ofNat 128 (setBits q.1.hdr.toNat 41 1 1), 0⟩
  | _ => s

/-- Take a planned flit for its receiving figure; one with VOID set drops it, and its own outputs go out VOID (R46, R375). -/
def State.takePlanned (s : State) (port : Nat) (f : Flit) (g : Fig) : State :=
  let (op, first) := tplOf g
  if flBit f 41 then
    if (s.stat g.fid).phase == .dropped || (s.stat g.fid).phase == .complete then s else (s.drop g .void).sendVoid g
  else
    let s0 := if flBit f 42 then s.detectFor Er.poisonFlit g.die 5 port g.fid else s
    let (i0, s1) := s0.flitIndex port f
    let i := first + i0
    let c0 := s1.coll op
    let gi := if flOp f = Op.vote then i / 2 else i / (if flBit f 35 then 19 else 37)
    let c : Coll := if flBit f 42 then { c0 with poison := c0.poison ++ [gi] } else c0
    if flOp f = Op.verdict then s1.setColl { c with hdr := c.hdr.combine (flBit f 15) (flHdr f) }
    else if flOp f = 1 ∨ flOp f = 2 then
      let per := if flBit f 35 then 19 else 37
      let off := i % per * (if flBit f 35 then 56 else 28)
      let h : VHeader := { flHdr f with count := 0, ldr := false }
      let c1 := { c with hdr := c.hdr.combine (flBit f 15) h }.merge (flBit f 15) (flRed f) (i / per) off (flCount f) (flVals f)
      let bad := flRed f == 1 && (c1.data.any fun d => d.1 == i / per && d.2.2.any fNonfin)
      let s2 := (s1.setColl { c1 with hdr := { c1.hdr with nonfin := c1.hdr.nonfin || bad } }).stepSeen op (flStep f)
      if bad then s2.flag Flags.setNonfin else s2
    else if flOp f = Op.vote then
      (s1.setColl (c.takeVote (flRed f == 5) (flSrc f) i f.payload.toNat)).stepSeen op (flStep f)
    else State.setColl { s1 with fab := { s1.fab with rxData := s1.fab.rxData ++ [(op, i, f)] } } c

/-- A flit accepted on a port (R358): planned flits of another beat or of no named stream are stale; flits for other seats
go on by the routing table; unplanned data for this seat is kept, and the last of it ends a pending exchange of clips (R328); what a twin
sends to be stored is written to the cellar (R386; log entry 47). -/
def State.deliver (s : State) (port : Nat) (f : Flit) : State :=
  let ld := s.portLd port
  if flClass f = 3 then s
  else if !flBit f 12 && !flLayoutA f && flDest f != s.seat then
    let e := tGet (s.fab.route.getD ld []) (flDest f)
    if (s.fab.route.getD ld []).isEmpty || e = 31 then s else s.sendFlit e f
  else if flClass f = 2 ∨ isTwin port then
    let s1 : State := { s with fab := { s.fab with rxData := s.fab.rxData ++ [(2 ^ 32 + flSrc f, (s.flitIndex port f).1, f)] } }
    let reads := s.host.rings.any fun r => r.active.any fun c => dOpcode c.desc == 4 && dFlag c.desc
    if s1.ing.exchPending && flBit f 45 && !isTwin port then s1.endExchange
    else if isTwin port && flOp f == 0 && !reads then s1.wearBytes 112 else s1
  else if flBeat f ≠ s.clk.beat % 16 then s.stale port
  else
    let gs := s.receivers ld (flOp f == Op.verdict)
    match (gs.find? fun g => (s.stat g.fid).phase == .running || (s.stat g.fid).phase == .waiting).orElse fun _ => gs.head? with
    | none => s.stale port
    | some g => s.takePlanned port f g

/-- FLIT_RECEIVED (R353, R358): a flit out of link sequence is discarded; one in sequence is accepted and delivered. On a
hello-only link nothing but HELLO is carried. -/
def execFlitReceived (cyc : Nat) (port : Nat) (flit : Flit) (trailer : Word32) (s : State) : Host.Outcome State Fault Refusal :=
  if s.dev == .off then .next s else
  let s1 := s.tick cyc
  let p := s1.port port
  if !p.carries flit then .next s1
  else if bits trailer.toNat 16 10 ≠ p.rxSeq then .next s1
  else
    let c := flClass flit
    let s2 := s1.setPort port { p with rxSeq := (p.rxSeq + 1) % 1024, discard := false, owed := p.owed.set c (p.owed.getD c 0 + 1) }
    .next (s2.deliver port flit)

/-- Unplanned data for another seat, of no stated encoding or length: a free number of DATA flits of free payload along the path of either
link die's table, the last with LAST set (R328, R356; log entry 47). -/
def State.sendData (s : State) (dest : Nat) : State :=
  let k := s.draw
  let e := tGet (k.2.fab.route.getD (k.1 % 2) []) dest
  if (k.2.fab.route.getD (k.1 % 2) []).isEmpty ∨ e = 31 then k.2
  else
    let n := k.1 / 2 % 2 ^ 32
    (upTo (n + 1)).foldl (fun t i =>
      let p := t.draw
      let f := p.2.flit 2 0 dest i p.1
      p.2.sendFlit e (if i = n then ⟨BitVec.ofNat 128 (setBits f.hdr.toNat 45 1 1), f.payload⟩ else f)) k.2

/-! ## Beat markers (R376 to R378) -/

/-- Combine two contributions: seats counted, flags ORed, the leader's values from the one that has them. -/
def combineMarks (a b : Marker) : Marker :=
  let l := if a.ldr then a else b
  { beat := l.beat, seen := a.seen + b.seen, ldr := a.ldr || b.ldr, sealed := a.sealed || b.sealed, drop := a.drop || b.drop
    cause := Nat.lor a.cause b.cause, swap := (a.ldr && a.swap) || (b.ldr && b.swap), applied := l.applied, swapped := l.swapped
    step := l.step, exp := l.exp, clean := l.clean }

/-- Marker payload bits (Table 13.6). -/
def markerPayload (m : Marker) : Nat :=
  let b := fun (x : Bool) (i : Nat) => if x then 2 ^ i else 0
  m.beat % 2 ^ 48 + m.seen * 2 ^ 48 + b m.ldr 64 + b m.sealed 65 + b m.drop 66 + (m.cause % 256) * 2 ^ 67 + b m.swap 75 + b m.applied 76
    + b m.swapped 77 + m.step * 2 ^ 80 + m.exp * 2 ^ 112 + m.clean * 2 ^ 120

/-- A steered time base: offset from the parent's marker, its largest absolute value, one BEAT_SKEW event per phrase beyond
±100 ns; edges in a row beyond ±1 µs (R377). -/
def State.steer (s : State) (port : Nat) (off : Int) : State :=
  let ld := s.portLd port
  let a := off.natAbs
  let s1 := (s.set (F.LD_BEAT_OFFSET_OFFSET.ld ld) (unsext 16 off)).set (F.LD_BEAT_OFFSET_MAXABS.ld ld)
    (max (s.get (F.LD_BEAT_OFFSET_MAXABS.ld ld)) (min a 0xFFFF))
  let s2 := if 400 < a ∧ !s1.fab.skewEvt ∧ s1.fab.calibrating = 0 then
      State.emit { s1 with fab := { s1.fab with skewEvt := true } } Ev.beatSkew (12 + ld) (unsext 16 off)
    else s1
  { s2 with fab := { s2.fab with far := if 4000 < a then s2.fab.far + 1 else 0 } }

/-- BEAT_OFFSET_LIMIT (R377): three edges in a row beyond ±1 µs. -/
def execBeatOffsetLimit (cyc : Nat) (s : State) : Host.Outcome State Fault Refusal :=
  if s.dev == .off then .next s else
  let s1 := s.tick cyc
  if 3 ≤ s1.fab.far then .next (s1.detectAt Er.beatOffset 12 5 0 0) else .next s1

/-! ## Domain resets -/

/-- The leader floods a domain reset in the control class; the manual gives the flit no opcode, so header opcode and payload are free
values (R381; log entry 75). -/
def State.floodReset (s : State) : State :=
  if s.fab.leader && !s.alone then
    let (v, t) := s.draw
    t.tellMembers (v % 16)
  else s

/-- DOMAIN_RESET (R381, R468): the leader's flooded reset; the link dies keep their state. -/
def execDomainReset (cyc : Nat) (test : BootTest) (s : State) : Host.Outcome State Fault Refusal :=
  if s.powered then .next ((s.tick cyc).floodReset.resetKept .fabric test) else .next s

/-! ## Edges -/

/-- After departures: a group of more than half of the membership before, or of half with its lowest serial, goes on;
any other runs no figures and writes PARTITION once (R369). -/
def State.partition (s : State) : State :=
  let before := s.fab.members
  let now := before.filter fun m => m.occupied
  if now.length = before.length then s
  else
    let low := before.foldl (fun a m => if m.serial < a.2 then (m.occupied, m.serial) else a) (false, 2 ^ 64)
    let s1 : State := { s with fab := { s.fab with members := now } }
    if before.length < 2 * now.length ∨ (before.length = 2 * now.length ∧ low.1) then s1
    else if s1.fab.part then s1
    else State.emit { s1 with fab := { s1.fab with part := true } } Ev.partition 12 now.length

/-- Ports at an edge: a partner's marker missing counts, and the third in a row takes the link down; replays count anew
(R354, R367). -/
def State.portEdges (s : State) : State :=
  (upTo 18).foldl (fun t n =>
    let p := t.port n
    if !p.up then t
    else if p.heard || !t.fab.formed || isTwin n then t.setPort n { p with heard := false, replays := 0 }
    else
      let t1 := (t.setPort n { p with miss := p.miss + 1, replays := 0 }).count (F.LD_MARKER_MISS_COUNT.ld (t.portLd n)) 1
      if 3 ≤ p.miss + 1 then t1.linkDown n else t1) s

/-- This seat's contribution at the edge that opens the beat. -/
def State.ownMarker (s : State) (sealing : Bool) : Marker :=
  { beat := s.clk.beat, seen := 1, ldr := s.fab.leader, sealed := sealing
    drop := sealing && (s.run.local_ != some true || s.run.flags.causes != 0)
    cause := if sealing then s.run.flags.causes else 0
    swap := s.fab.leader && s.plan.swapBit, applied := s.run.applied, swapped := s.run.swapped
    step := s.step_, exp := s.get F.PLC_LSCALE_EXP, clean := s.get F.PLC_LSCALE_CLEAN }

/-- The edge on the link dies: new routes, members, markers of the closed beat judged, HELLO until formed, this seat's
marker sent on every open port new tables of the leader sent (R361, R365, R369, R378). -/
def State.fabricEdge (s : State) (sealing : Bool) : State :=
  let alone := s.alone
  let ldr := s.fab.leader || alone || s.fab.comb.any fun m => m.ldr
  let s1 := s.portEdges
  let s2 : State := { s1 with fab := { s1.fab with
    route := s1.fab.routeNext
    noLdr := if !s1.fab.formed || ldr then 0 else s1.fab.noLdr + 1
    held := if s1.fab.lowSerial = s1.fuses.serial then s1.fab.held + 1 else 0
    calibrating := s1.fab.calibrating - 1
    rx := [], coll := if s1.clk.pos == some 0 then [] else s1.fab.coll
    rxData := s1.fab.rxData.filter fun x => decide (2 ^ 32 ≤ x.1), txData := [], marks := [] } }
  let own := s2.ownMarker sealing
  let s3 : State := { s2 with fab := { s2.fab with comb := some own } }
  let s4 := s3.partition.reroute
  let s5 := if s4.fab.formed then s4 else s4.sendHellos
  (upTo 16).foldl (fun t n => if (t.port n).open_ && t.fab.formed then t.sendFlit n (t.flit 3 Op.marker 0xFFF 0 (markerPayload own)) else t) s5

end Sys2Proof.Machine
end

