-- ==== Sys2Proof/Machine/Gme.lean ====
section
/-! DEFINITION. The gather-and-merge engine (R174 to R207, R499): curd products and expansion, sparse × sparse, routing,
ragged packing, attention masks. -/
namespace Sys2Proof.Machine

/-! ## Descriptor (Table 18.8) -/

def gFld (d : BitVec 256) (lo w : Nat) : Nat := bits d.toNat lo w
def gOp (d : BitVec 256) : Nat := gFld d 0 3
def gFmtOut (d : BitVec 256) : Nat := gFld d 6 3
def gM (d : BitVec 256) : Nat := gFld d 32 24
def gN (d : BitVec 256) : Nat := gFld d 56 24
def gK (d : BitVec 256) : Nat := gFld d 80 24
/-- Byte offsets of the descriptor's line addresses. -/
def gSrc (d : BitVec 256) : Nat := gFld d 104 15 * 64
def gSrc2 (d : BitVec 256) : Nat := gFld d 120 15 * 64
def gDense (d : BitVec 256) : Nat := gFld d 136 15 * 64
def gDst (d : BitVec 256) : Nat := gFld d 152 15 * 64
def gAux (d : BitVec 256) : Nat := gFld d 184 15 * 64

/-- `n`-byte number at a byte offset of the figure's slice. -/
def State.num (s : State) (f : Fig) (off n : Nat) : Nat := leNat (t0Get s.t0.mem f.die f.group off n)

/-- One counted case of a kind of Table 7.10, the latest kept: 0 to 3 an index, pointer, expert or offset with its class C report, 4 a
capacity drop, 5 a CAM spill (R206, R207). -/
def State.gmeCase (s : State) (f : Fig) (kind : Nat) : State :=
  if kind = 4 then
    let s1 := (s.count (F.CD_GME_EXPERT_DROP_COUNT.cd f.die) 1).gmeLast f 4
    { s1 with run := { s1.run with expertDrop := s1.run.expertDrop + 1 } }
  else if kind = 5 then (s.count (F.CD_GME_CAM_SPILL_COUNT.cd f.die) 1).gmeLast f 5
  else ((s.count (F.CD_GME_INDEX_RANGE_COUNT.cd f.die) 1).gmeLast f kind).detectFor Er.indexRange f.die 0 f.group f.fid

/-- Cases in the order in which the figure meets them. -/
def State.gmeCases (s : State) (f : Fig) (kinds : List Nat) : State := kinds.foldl (fun t k => t.gmeCase f k) s

/-- The quantities a figure reports with its completion (R202). -/
def State.setQuantity (s : State) (f : Fig) (n : List Nat) : State := s.setStat { s.stat f.fid with quantity := n }

/-! ## Curd operands (R179, R182) -/

structure Curd where
  rows : Nat
  vfmt : Nat
  idx32 : Bool
  cols : Nat
  nnz : Nat
  ptr : Nat
  idx : Nat
  val : Nat
  cb : Nat
  srow : Bool
  scale : Nat
deriving DecidableEq, Repr

def State.curd (s : State) (f : Fig) (off : Nat) : Curd :=
  let h := s.num f off 32
  ⟨bits h 0 24, bits h 24 4, bit h 28, bits h 32 32, bits h 64 32, bits h 96 21, bits h 128 21, bits h 160 21, bits h 181 6,
   bit h 187, bits h 192 21⟩

/-- Bytes of a curd value by tensor FORMAT. -/
def curdBytes (vfmt : Nat) : Nat := if vfmt = 0 then 4 else if vfmt = 1 then 2 else 1

/-- Row pointer `i` taken as NNZ when above it, with whether it was. -/
def State.rowPtr (s : State) (f : Fig) (c : Curd) (i : Nat) : Nat × Bool :=
  let p := s.num f (c.ptr + 4 * i) 4
  (min p c.nnz, decide (c.nnz < p))

/-- Positions of the stored values of row `i`; a pointer below its predecessor makes the row empty. -/
def State.rowSpan (s : State) (f : Fig) (c : Curd) (i : Nat) : List Nat :=
  let a := (s.rowPtr f c i).1
  let b := (s.rowPtr f c (i + 1)).1
  (upTo (b - a)).map (a + ·)

/-- Pointer cases met at row `i`: its end above NNZ, and its end below its start; the first row's start with it. -/
def State.ptrCases (s : State) (f : Fig) (c : Curd) (i : Nat) : List Nat :=
  (if i = 0 ∧ (s.rowPtr f c 0).2 then [1] else []) ++ (if (s.rowPtr f c (i + 1)).2 then [1] else [])
    ++ (if s.num f (c.ptr + 4 * (i + 1)) 4 < s.num f (c.ptr + 4 * i) 4 then [1] else [])

def State.curdIdx (s : State) (f : Fig) (c : Curd) (p : Nat) : Nat :=
  if c.idx32 then s.num f (c.idx + 4 * p) 4 else s.num f (c.idx + 2 * p) 2

/-- A stored value as a lane sees it, unscaled (R146). -/
def State.curdVal (s : State) (f : Fig) (c : Curd) (p : Nat) : FVal :=
  let code := s.num f (c.val + curdBytes c.vfmt * p) (curdBytes c.vfmt)
  match c.vfmt with
  | 0 => Fmt.fp32.value code
  | 1 => bf16 code
  | 3 => Fmt.e4m3.value code
  | 4 => Fmt.e5m2.value code
  | _ => e5m4Form ((s.slotCb f c.cb 8).getD code 0)

/-- The scale of row `i` of a C8 curd, clamped. -/
def State.curdScale (s : State) (f : Fig) (c : Curd) (i : Nat) : Word32 × Bool :=
  if c.vfmt = 6 then clampScale fOne (BitVec.ofNat 32 (s.num f (c.scale + if c.srow then 4 * i else 0) 4)) else (fOne, false)

/-- Scales of a C8 curd that are replaced, each value once (R141; DESIGN CHOICE, log entry 69). -/
def State.curdClamps (s : State) (f : Fig) (c : Curd) : Tally :=
  if c.vfmt = 6 then clampTally ((upTo (if c.srow then c.rows else 1)).filter fun i => (s.curdScale f c i).2).length else Tally.zero

/-- Cases of row `i`: its pointers, then column indices at or beyond COLS (R182). -/
def State.rowCases (s : State) (f : Fig) (c : Curd) (i : Nat) : List Nat :=
  s.ptrCases f c i ++ (((s.rowSpan f c i).filter fun p => decide (c.cols ≤ s.curdIdx f c p)).map fun _ => 0)

/-- All cases of a curd that is read row by row. -/
def State.curdChecks (s : State) (f : Fig) (c : Curd) : State := s.gmeCases f ((upTo c.rows).flatMap (s.rowCases f c))

/-- The figure reads a curd: header, pointers, indices and values. -/
def State.useCurd (s : State) (f : Fig) (off : Nat) : State :=
  let c := s.curd f off
  ((((s.useT0 f off 32).2.useT0 f c.ptr (4 * (c.rows + 1))).2.useT0 f c.idx (c.nnz * if c.idx32 then 4 else 2)).2.useT0 f c.val (c.nnz * curdBytes c.vfmt)).2

/-- Stored values of the rows before row `i`: where it begins in the stream of all rows (R176). -/
def State.rowBase (s : State) (f : Fig) (c : Curd) (i : Nat) : Nat := (upTo i).foldl (fun n r => n + (s.rowSpan f c r).length) 0

/-- Row `i`, its values by chunk of 256 of the stream (R176). -/
def State.rowChunks (s : State) (f : Fig) (c : Curd) (i : Nat) : List (Nat × Nat) :=
  (s.rowSpan f c i).zipIdx.map fun p => ((s.rowBase f c i + p.2) / 256, p.1)

/-! ## CURD_MM, CURD_EXPAND (R180) -/

/-- The dense operand of a descriptor: K × N, stored in tiles. A lane has no tile sums, so K-block scales along the reduction fold into the
entry as scales that vary along it do (R103, R146; DESIGN CHOICE, log entry 70). -/
def State.gDenseOper (s : State) (f : Fig) (d : BitVec 256) : Oper :=
  ⟨gK d, gN d, gFld d 3 3, gFld d 136 15, s.slotCb f (gFld d 11 6) (aWidth (gFld d 3 3)), gFld d 17 2, gFld d 168 15,
    !s.side.kSwap.contains (2 * f.fid + 1), false, true⟩

/-- Dense element (k, n) as a lane sees it, and whether its fold saturated. -/
def State.gDenseAt (s : State) (f : Fig) (o : Oper) (k n : Nat) : FVal × Bool :=
  let r := s.operAt f o true k n
  (r.1.getD .zero, r.2)

/-- Output element (i, n): products in stored order within a chunk, partials in ascending chunk order (R175, R177); a row without a product
gives the initial value as it is (R180). With it, how often a fold of the dense operand saturated: each product that uses a folded element
counts it (DESIGN CHOICE, log entry 70: R154 gives no count for an element used more than once). -/
def State.curdDot (s : State) (f : Fig) (c : Curd) (o : Oper) (init : Word32) (i n : Nat) : Word32 × Nat :=
  let ps := (s.rowChunks f c i).filter fun p => decide (s.curdIdx f c p.2 < c.cols)
  let r := ps.foldl (fun (acc : List (Nat × Word32) × Nat) p =>
    let b := s.gDenseAt f o (s.curdIdx f c p.2) n
    let old := sGet (if acc.1.isEmpty then init else fZero) acc.1 p.1
    (sPut p.1 (rne32 (((s.curdVal f c p.2).mul b.1).add (f32 old))) acc.1, if b.2 then acc.2 + 1 else acc.2)) ([], 0)
  match r.1 with
  | [] => (init, 0)
  | q :: qs =>
    let sum := qs.foldl (fun a e => fAdd a e.2) q.2
    (s.drainScale f o true 1 (0, n) (if c.vfmt = 6 then fMul sum (s.curdScale f c i).1 else sum), r.2)

/-- First line after an output of `n` bytes at line `line`: where the data scales of a coded output stand, next to its codes (R139, R144; the
descriptor has no address for them: DESIGN CHOICE, log entry 70). -/
def scalesAfter (line n : Nat) : Nat := line + ceilDiv n 64

/-- Write a dense result matrix through the lane drains (R144). -/
def State.gStore (s : State) (f : Fig) (d : BitVec 256) (m n : Nat) (val : Nat → Nat → Word32 × Nat) : State :=
  let fmt := gFmtOut d
  let sline := scalesAfter (gFld d 152 15) (ceilDiv m (oTile fmt) * ceilDiv n (oTile fmt) * (oTile fmt * oTile fmt) * oWidth fmt / 8)
  (upTo (m * ceilDiv n 32)).foldl (fun t e =>
    let i := e / ceilDiv n 32
    let j0 := e % ceilDiv n 32 * 32
    let row := (upTo (min 32 (n - j0))).map fun j => val i (j0 + j)
    let enc := drainRow fmt (row.map (·.1))
    (t.drainOut f fmt (gFld d 152 15) sline n i j0 enc.1 enc.2.1).tally f Unit.gme
      ((satTally ((row.map (·.2)).foldl (· + ·) 0)).add enc.2.2)) s

def State.curdMm (s : State) (f : Fig) (d : BitVec 256) : State :=
  let c := s.curd f (gSrc d)
  let o := s.gDenseOper f d
  let init := fun n => if bit d.toNat 10 then BitVec.ofNat 32 (s.num f (gAux d + 4 * n) 4) else fZero
  let s1 := ((s.readOper f o).useCurd f (gSrc d)).tally f Unit.gme ((s.curdClamps f c).add (clampTally (s.operClamps f o)))
  ((s1.gStore f d (gM d) (gN d) fun i n => s.curdDot f c o (init n) i n).curdChecks f c).setQuantity f [c.nnz]

/-- The dense M × K form; a repeated index adds its values, and the drain multiplies by the scale (R103, R180). -/
def State.curdExpand (s : State) (f : Fig) (d : BitVec 256) : State :=
  let c := s.curd f (gSrc d)
  let val := fun i k =>
    match ((s.rowSpan f c i).filter fun p => s.curdIdx f c p == k && decide (k < c.cols)).map (s.curdVal f c) with
    | [] => (fZero, 0)
    | v :: vs =>
      let sum := vs.foldl (fun (a : Word32) x => rne32 (x.add (f32 a))) (rne32 v)
      (if c.vfmt = 6 then fMul sum (s.curdScale f c i).1 else sum, 0)
  let s1 := (s.useCurd f (gSrc d)).tally f Unit.gme (s.curdClamps f c)
  State.setQuantity ((s1.gStore f d (gM d) (gK d) val).curdChecks f c) f [c.nnz]

/-! ## SPSP_MM (R183, R184) -/

/-- One lane's CAM: sum of a column, in order of arrival. -/
structure Cam where
  ent : List (Nat × Word32)
  segs : List (List (Nat × Word32))
  spills : Nat
deriving DecidableEq, Repr

/-- Emit the entries as a segment sorted by column. -/
def Cam.flush (c : Cam) : Cam := if c.ent.isEmpty then c else ⟨[], c.segs ++ [c.ent], c.spills⟩

/-- A product for column `j` meets the CAM of 256 entries. -/
def Cam.put (c : Cam) (j : Nat) (x : FVal) : Cam :=
  match c.ent.find? fun e => e.1 == j with
  | some e => { c with ent := sPut j (rne32 (x.add (f32 e.2))) c.ent }
  | none =>
    let c1 := if c.ent.length < 256 then c else { c.flush with spills := c.spills + 1 }
    { c1 with ent := sPut j (rne32 (x.add .zero)) c1.ent }

/-- Positions of row `k` of B that take part in products. -/
def State.spspCols (s : State) (f : Fig) (a b : Curd) (p : Nat) : List Nat :=
  let k := s.curdIdx f a p
  if k < a.cols ∧ k < b.rows then (s.rowSpan f b k).filter fun q => decide (s.curdIdx f b q < b.cols) else []

/-- A value of row `k` of B: its per-row scale varies along the reduction and folds into the entry (R103, R146), with whether that
saturated. -/
def State.spspB (s : State) (f : Fig) (b : Curd) (k q : Nat) : FVal × Bool :=
  if b.vfmt = 6 ∧ b.srow then toE5M4 ((s.curdVal f b q).mul (f32 (s.curdScale f b k).1)) else (s.curdVal f b q, false)

/-- The stored values at `ps`, of one row and one chunk of A, through a lane's CAM; the end of the row or chunk ends the segment
(R183). -/
def State.spspChunk (s : State) (f : Fig) (a b : Curd) (ps : List Nat) : Cam :=
  (ps.foldl (fun (c : Cam) p =>
    (s.spspCols f a b p).foldl (fun c q => c.put (s.curdIdx f b q) ((s.curdVal f a p).mul (s.spspB f b (s.curdIdx f a p) q).1)) c) ⟨[], [], 0⟩).flush

/-- Row `i` of the product, chunk by chunk of A's values. -/
def State.spspRow (s : State) (f : Fig) (a b : Curd) (i : Nat) : List (Nat × Cam) :=
  let ps := s.rowChunks f a i
  ((ps.map (·.1)).eraseDups).map fun k => (k, s.spspChunk f a b ((ps.filter fun p => p.1 == k).map (·.2)))

/-- The cases met so far on the way through A's stored values: the chunk and its CAM, the rows of B met, the kinds in order. -/
structure Walk where
  chunk : Nat
  cam : Cam
  seen : List Nat
  out : List Nat
deriving DecidableEq, Repr

/-- Value `q` of the row of B that `x`, a value of A, names: an index case, once, when the row is first met, or a product and the spill it
forces. -/
def State.walkB (s : State) (f : Fig) (b : Curd) (x : FVal) (k : Nat) (first : Bool) (w : Walk) (q : Nat) : Walk :=
  if b.cols ≤ s.curdIdx f b q then { w with out := w.out ++ if first then [0] else [] }
  else
    let c := w.cam.put (s.curdIdx f b q) (x.mul (s.spspB f b k q).1)
    { w with cam := c, out := w.out ++ List.replicate (c.spills - w.cam.spills) 5 }

/-- A stored value of A, in chunk `x.1` at position `x.2`. -/
def State.walkA (s : State) (f : Fig) (a b : Curd) (w : Walk) (x : Nat × Nat) : Walk :=
  let k := s.curdIdx f a x.2
  let w1 := if x.1 = w.chunk then w else { w with chunk := x.1, cam := ⟨[], [], 0⟩ }
  if a.cols ≤ k then { w1 with out := w1.out ++ [0] }
  else if b.rows ≤ k then w1
  else
    let first := !w1.seen.contains k
    let w2 := if first then { w1 with seen := k :: w1.seen, out := w1.out ++ s.ptrCases f b k } else w1
    (s.rowSpan f b k).foldl (s.walkB f b (s.curdVal f a x.2) k first) w2

/-- Cases of the product as they are met, row by row of A and value by value (R182, R206). The cases of a row of B count once, when the first
value of A that names it is met (DESIGN CHOICE, log entry 70: R182 does not say whether a row streamed again counts again). -/
def State.spspCases (s : State) (f : Fig) (a b : Curd) (m : Nat) : List Nat :=
  ((upTo m).foldl (fun w i => (s.rowChunks f a i).foldl (s.walkA f a b) { w with cam := ⟨[], [], 0⟩, out := w.out ++ s.ptrCases f a i })
    ⟨0, ⟨[], [], 0⟩, [], []⟩).out

/-- Merge segments by ascending column, equal columns added in order of emission. -/
def mergeSegs (l : List (List (Nat × Word32))) : List (Nat × Word32) :=
  l.foldl (fun acc seg => seg.foldl (fun m e =>
    match m.find? fun x => x.1 == e.1 with
    | some x => sPut e.1 (fAdd x.2 e.2) m
    | none => sPut e.1 e.2 m) acc) []

/-- Products by lane: chunk c runs on lane c mod 16 (R176, R184). -/
def State.spspLanes (s : State) (f : Fig) (a b : Curd) : List Nat :=
  let prods := (upTo a.rows).flatMap fun i => (s.rowChunks f a i).map fun p => (p.1 % 16, (s.spspCols f a b p.2).length)
  (upTo 16).map fun l => (prods.filter fun e => e.1 == l).foldl (fun x e => x + e.2) 0

/-- The output curd: its header at DST names the arrays and is written in no field (R179); its pointers, indices and values are (R183; log
entry 19). -/
def State.spsp (s : State) (f : Fig) (d : BitVec 256) : State :=
  let a := s.curd f (gSrc d)
  let b := s.curd f (gSrc2 d)
  let o := s.curd f (gDst d)
  let cams := (upTo (gM d)).map fun i => s.spspRow f a b i
  let rows := cams.map fun l => mergeSegs (l.flatMap fun c => c.2.segs)
  let scaled := (rows.zipIdx).map fun r => r.1.map fun e =>
    let x := if a.vfmt = 6 then fMul e.2 (s.curdScale f a r.2).1 else e.2
    (e.1, if b.vfmt = 6 ∧ !b.srow then fMul x (s.curdScale f b 0).1 else x)
  let all := scaled.flatMap id
  let fm := (oFmt (gFmtOut d)).getD Fmt.fp32
  let w := oWidth (gFmtOut d) / 8
  let enc := all.map fun e => fm.narrow (f32 e.2)
  let ptrs := (upTo (rows.length + 1)).map fun i => ((scaled.take i).map List.length).foldl (· + ·) 0
  let folds := ((upTo (gM d)).flatMap fun i => (s.rowSpan f a i).flatMap fun p => (s.spspCols f a b p).filter fun q => (s.spspB f b (s.curdIdx f a p) q).2).length
  let s0 := ((s.useCurd f (gSrc d)).useCurd f (gSrc2 d)).tally f Unit.gme ((satTally folds).add ((s.curdClamps f a).add (s.curdClamps f b)))
  let s1 := s0.putT0 f o.ptr (ptrs.flatMap (leBytes 4))
  let s2 := s1.putT0 f o.idx (all.flatMap fun e => leBytes (if o.idx32 then 4 else 2) e.1)
  let s3 := s2.putT0 f o.val (enc.flatMap fun e => leBytes w e.1)
  let emitted := (upTo 16).map fun l => ((cams.flatMap id).filter fun c => c.1 % 16 == l).foldl (fun n c => n + c.2.segs.length) 0
  let entries := (cams.flatMap id).foldl (fun n c => n + (c.2.segs.flatMap id).length) 0
  let s4 := s3.tally f Unit.gme (sumTally (enc.map fun e => e.2.tally))
  State.setQuantity (s4.gmeCases f (s.spspCases f a b (gM d))) f [(s.spspLanes f a b).foldl max 0, emitted.foldl max 0, entries]

/-! ## Routing (R196 to R198) -/

/-- Assignment of rank `r` of token `t` in a table of `k` per token. -/
def State.assign (s : State) (f : Fig) (d : BitVec 256) (k t r : Nat) : Nat := s.num f (gSrc d + 4 * (t * k + r)) 4

/-- Assignments in the fixed order: rank by rank, tokens ascending. -/
def rankOrder (t k : Nat) : List (Nat × Nat) := (upTo k).flatMap fun r => (upTo t).map fun i => (i, r)

/-- Slots by assignment, in the order of R197: (token, rank, slot); `none` when skipped or over capacity. The first slot of
an expert follows the capacities of those before it. -/
def fillSlots (cap : Nat → Nat) (expert : Nat → Nat → Option Nat) :
    List (Nat × Nat) → List (Nat × Nat) → List (Nat × Nat × Option Nat)
  | [], _ => []
  | (t, r) :: l, used =>
    match expert t r with
    | none => (t, r, none) :: fillSlots cap expert l used
    | some e =>
      let n := sGet 0 used e
      if n < cap e then
        (t, r, some (((upTo e).map cap).foldl (· + ·) 0 + n)) :: fillSlots cap expert l (sPut e (n + 1) used)
      else (t, r, none) :: fillSlots cap expert l used

/-- A byte of a +0 row in DFMT: +0 of the floating formats is all zero bits, of C8 and C4 the codebook's +0 entry (R137, R197). -/
def State.zeroByte (s : State) (f : Fig) (d : BitVec 256) : Byte :=
  match gFld d 3 3 with
  | 2 => BitVec.ofNat 8 (zeroIndex (s.slotCb f (gFld d 11 6) 8))
  | 3 => BitVec.ofNat 8 (17 * zeroIndex (s.slotCb f (gFld d 11 6) 4))
  | _ => 0#8

def State.routeGather (s : State) (f : Fig) (d : BitVec 256) : State :=
  let t := gM d
  let k := gFld d 232 4
  let ne := gFld d 236 16
  let bRow := gK d
  let cap := fun e => s.num f (gAux d + 4 * e) 4
  let expert := fun i r =>
    let e := bits (s.assign f d k i r) 0 16
    if e < ne then some e else none
  let slots := fillSlots cap expert (rankOrder t k) []
  let kinds := slots.filterMap fun a =>
    if (expert a.1 a.2.1).isNone then (if bits (s.assign f d k a.1 a.2.1) 0 16 = 0xFFFF then none else some 2)
    else if a.2.2.isNone then some 4 else none
  let nf := ((rankOrder t k).filter fun a => bits (s.assign f d k a.1 a.2) 0 16 != 0xFFFF && !(bf16 (bits (s.assign f d k a.1 a.2) 16 16)).isFin).length
  let asked := (upTo ne).map fun e => (slots.filter fun a => expert a.1 a.2.1 == some e).length
  let total := ((upTo ne).map cap).foldl (· + ·) 0
  let s1 := (((s.useT0 f (gDense d) (t * bRow)).2.useT0 f (gSrc d) (4 * t * k)).2.useT0 f (gAux d) (4 * ne)).2
  let s2 := (upTo total).foldl (fun u q =>
    match slots.find? fun a => a.2.2 == some q with
    | some a => u.putT0 f (gDst d + q * bRow) (t0Get s.t0.mem f.die f.group (gDense d + a.1 * bRow) bRow)
    | none => u.putT0 f (gDst d + q * bRow) (List.replicate bRow (s.zeroByte f d))) s1
  let s3 := slots.foldl (fun u a => u.putT0 f (gSrc2 d + 4 * (a.1 * k + a.2.1)) (leBytes 4 (a.2.2.getD 0xFFFFFFFF))) s2
  State.setQuantity ((s3.gmeCases f kinds).tally f Unit.gme (nonfinTally nf)) f asked

/-- Scale `g` of the rows of a ROUTE_MERGE, clamped. -/
def State.rowScale (s : State) (f : Fig) (d : BitVec 256) (g : Nat) : Word32 × Bool := clampScale fOne (BitVec.ofNat 32 (s.t0Word f (gFld d 168 15) g))

/-- Scale group of element `j` of row `row` of the expert outputs: their rows are the slots. -/
def State.rowGroup (s : State) (f : Fig) (d : BitVec 256) (n row j : Nat) : Nat :=
  groupOf (gFld d 17 2) (s.side.kSwap.contains (2 * f.fid + 1)) n row j

/-- Element `j` of a row of a GME operand stored in DFMT, rows of `n` elements one after the other. Scales per row and per K-block vary along
the sum over assignments and fold into the entry (R103, R146); with whether that saturated. -/
def State.rowElem (s : State) (f : Fig) (d : BitVec 256) (base row n j : Nat) : FVal × Bool :=
  let fmt := gFld d 3 3
  let w := aWidth fmt
  let idx := row * n + j
  let code := if w = 4 then bits (s.num f (base + idx / 2) 1) (4 * (idx % 2)) 4 else s.num f (base + idx * (w / 8)) (w / 8)
  let v := codeValue fmt (s.slotCb f (gFld d 11 6) w) code
  if (fmt = 2 ∨ fmt = 3) ∧ (gFld d 17 2 = 1 ∨ gFld d 17 2 = 3) then toE5M4 (v.mul (f32 (s.rowScale f d (s.rowGroup f d n row j)).1)) else (v, false)

/-- The slot of assignment `r` of token `i`, if it was kept: neither 0xFFFF nor an expert at or above the count, and with a slot (R196, R198). -/
def State.keptSlot (s : State) (f : Fig) (d : BitVec 256) (k i r : Nat) : Option Nat :=
  let slot := s.num f (gSrc2 d + 4 * (i * k + r)) 4
  if slot = 0xFFFFFFFF ∨ gFld d 236 16 ≤ bits (s.assign f d k i r) 0 16 ∨ bits (s.assign f d k i r) 0 16 = 0xFFFF then none else some slot

/-- Assignments whose expert is at or above the count, but for 0xFFFF: an expert case each (R196). -/
def State.badExperts (s : State) (f : Fig) (d : BitVec 256) (t k : Nat) : List Nat :=
  ((rankOrder t k).filter fun a => let e := bits (s.assign f d k a.1 a.2) 0 16; decide (gFld d 236 16 ≤ e) && e != 0xFFFF).map fun _ => 2

/-- A stored code of an output row; a coded output has a data scale for each 32 elements of a row, after its codes (log entry 70). -/
def State.outElem (s : State) (f : Fig) (d : BitVec 256) (n sline i j : Nat) : Word32 :=
  let w := oWidth (gFmtOut d)
  let idx := i * n + j
  let code := if w = 4 then bits (s.num f (gDst d + idx / 2) 1) (4 * (idx % 2)) 4 else s.num f (gDst d + idx * (w / 8)) (w / 8)
  match oFmt (gFmtOut d) with
  | some fm => rne32 (fm.value code)
  | none => rne32 ((e5m4Form ((defaultCb w).getD code 0)).mul (f32 (clampScale fOne (BitVec.ofNat 32 (s.t0Word f sline (i * ceilDiv n 32 + j / 32)))).1))

/-- Result (i, j) of a ROUTE_MERGE from its kept terms (gate, expert output) in rank order: accumulated from +0, or from DST under ADD (R198).
A scale `sc` constant along the sum acts in the drain (R103); under ADD it multiplies each product before that joins the accumulator, since DST
is not the experts' (DESIGN CHOICE, log entry 70). -/
def mergeOne (terms : List (Nat × FVal)) (sc : Option Word32) (dst : Option Word32) : Word32 :=
  let sum := fun init => terms.foldl (fun (acc : Word32) x => rne32 (((bf16 x.1).mul x.2).add (f32 acc))) init
  match sc, dst with
  | none, d => sum (d.getD fZero)
  | some c, none => fMul (sum fZero) c
  | some c, some d => terms.foldl (fun acc x => fAdd acc (fMul (rne32 ((bf16 x.1).mul x.2)) c)) d

/-- ROUTE_MERGE (R198). A token without a kept assignment keeps its row of DST under ADD. An expert output whose fold saturates counts for each
element of each assignment that uses it (DESIGN CHOICE, log entry 70). -/
def State.routeMerge (s : State) (f : Fig) (d : BitVec 256) : State :=
  let t := gM d
  let n := gN d
  let k := gFld d 232 4
  let add := bit d.toNat 9
  let fmt := gFmtOut d
  let w := oWidth fmt
  let sline := scalesAfter (gFld d 152 15) (ceilDiv (t * n * w) 8)
  let coded := gFld d 3 3 == 2 || gFld d 3 3 == 3
  let flat := coded && (gFld d 17 2 == 0 || gFld d 17 2 == 2)
  let term := fun i j r => (s.keptSlot f d k i r).map fun slot => (bits (s.assign f d k i r) 16 16, s.rowElem f d (gDense d) slot n j)
  let val := fun i j => mergeOne (((upTo k).filterMap (term i j)).map fun x => (x.1, x.2.1))
    (if flat then some (s.rowScale f d (s.rowGroup f d n 0 j)).1 else none) (if add then some (s.outElem f d n sline i j) else none)
  let slots := (upTo t).flatMap fun i => (upTo k).filterMap (s.keptSlot f d k i)
  let rowB := ceilDiv (n * aWidth (gFld d 3 3)) 8
  let s1 := slots.foldl (fun u x => (u.useT0 f (gDense d + x * rowB) rowB).2) ((s.useT0 f (gSrc d) (4 * t * k)).2.useT0 f (gSrc2 d) (4 * t * k)).2
  let folds := ((upTo t).flatMap fun i => (upTo n).flatMap fun j => (upTo k).filter fun r => (term i j r).any fun x => x.2.2).length
  let groups := if !coded then [] else (slots.flatMap fun x => (upTo n).map fun j => s.rowGroup f d n x j).eraseDups
  let s2 := (s1.gmeCases f (s.badExperts f d t k)).tally f Unit.gme ((satTally folds).add (clampTally (groups.filter fun g => (s.rowScale f d g).2).length))
  (upTo (t * ceilDiv n 32)).foldl (fun u e =>
    let i := e / ceilDiv n 32
    let j0 := e % ceilDiv n 32 * 32
    if add ∧ ((upTo k).filterMap (s.keptSlot f d k i)).isEmpty then u else
    let enc := drainRow fmt ((upTo (min 32 (n - j0))).map fun j => val i (j0 + j))
    let u1 := (enc.1.zipIdx).foldl (fun v c => v.putCode f (gDst d) w (i * n + j0 + c.2) c.1) u
    let u2 := if (oFmt fmt).isNone then u1.putT0 f (sline * 64 + 4 * (i * ceilDiv n 32 + j0 / 32)) (leBytes 4 enc.2.1.toNat) else u1
    u2.tally f Unit.gme enc.2.2) s2

/-! ## Ragged (R200, R201) -/

/-- The entries of an offset table as used: bounded, with the cases counted: (first row, last row) per sequence. -/
def State.offsets (s : State) (f : Fig) (off n bound : Nat) : List (Nat × Nat) × Nat :=
  let e := fun i => s.num f (off + 4 * i) 4
  let spans := (upTo n).map fun i => (min (e i) bound, if e (i + 1) < e i then min (e i) bound else min (e (i + 1)) bound)
  (spans, ((upTo (n + 1)).filter fun i => decide (bound < e i)).length + ((upTo n).filter fun i => decide (e (i + 1) < e i)).length)

/-- RAGGED_PACK: (offset, length) pairs at SRC, packed at DST with its offset table at AUX; row bytes in K, M the row
bound. -/
def State.raggedPack (s : State) (f : Fig) (d : BitVec 256) : State :=
  let n := gFld d 232 24
  let bRow := gK d
  let seqs := (upTo n).map fun i => (s.num f (gSrc d + 8 * i) 4, s.num f (gSrc d + 8 * i + 4) 4)
  let raw := (upTo (n + 1)).map fun i => ((seqs.take i).map (·.2)).foldl (· + ·) 0
  let starts := raw.map fun x => min x (gM d)
  let cases_ := (raw.filter fun x => decide (gM d < x)).length
  let (s1, bytes) := (seqs.zipIdx).foldl (fun (acc : State × Nat) q =>
    let a := starts.getD q.2 0
    let k := starts.getD (q.2 + 1) 0 - a
    let (b, u) := acc.1.useT0 f q.1.1 (k * bRow)
    (u.putT0 f (gDst d + a * bRow) b, acc.2 + k * bRow)) (s, 0)
  let s2 := s1.putT0 f (gAux d) (starts.flatMap (leBytes 4))
  State.setQuantity (s2.gmeCases f (List.replicate cases_ 3)) f [bytes]

/-- RAGGED_UNPACK: rows of the packed buffer at DENSE by the offset table at SRC, to the offsets listed at SRC2. -/
def State.raggedUnpack (s : State) (f : Fig) (d : BitVec 256) : State :=
  let n := gFld d 232 24
  let bRow := gK d
  let (spans, cases_) := s.offsets f (gSrc d) n (gM d)
  let (s1, bytes) := (spans.zipIdx).foldl (fun (acc : State × Nat) q =>
    let k := q.1.2 - q.1.1
    let (b, u) := acc.1.useT0 f (gDense d + q.1.1 * bRow) (k * bRow)
    (u.putT0 f (s.num f (gSrc2 d + 8 * q.2) 4) b, acc.2 + k * bRow)) (s, 0)
  State.setQuantity (s1.gmeCases f (List.replicate cases_ 3)) f [bytes]

/-- Sequence number and position of a packed row. -/
def seqOf (spans : List (Nat × Nat)) (row : Nat) : Option (Nat × Nat) :=
  (spans.zipIdx).findSome? fun q => if q.1.1 ≤ row ∧ row < q.1.2 then some (q.2, row - q.1.1) else none

/-- Query row `a` may attend to key row `b` (R201). -/
def mayAttend (spans : List (Nat × Nat)) (lb a b : Nat) : Bool :=
  match seqOf spans a, seqOf spans b with
  | some x, some y => x.1 == y.1 && (lb == 0 || decide (y.2 / lb ≤ x.2 / lb))
  | _, _ => false

/-- MASK_BUILD: the block mask at DST, row masks of the partial tiles at AUX in tile order. -/
def State.maskBuild (s : State) (f : Fig) (d : BitVec 256) : State :=
  let m := gM d
  let lb := gFld d 232 24
  let n := gN d
  let (spans, cases_) := s.offsets f (gSrc d) n m
  let nt := ceilDiv m 32
  let tile := fun t => (upTo 32).map fun r => (upTo 32).map fun c =>
    let a := t / nt * 32 + r
    let b := t % nt * 32 + c
    decide (a < m) && decide (b < m) && mayAttend spans lb a b
  let tiles := (upTo (nt * nt)).map tile
  let any_ := tiles.map fun t => t.any fun r => r.any id
  let partial_ := tiles.filter fun t => (t.any fun r => r.any id) && !(t.all fun r => r.all id)
  let word := fun (r : List Bool) => (r.zipIdx).foldl (fun a p => a + (if p.1 then 2 ^ p.2 else 0)) 0
  let blk := (chunks 64 (ceilDiv any_.length 64) any_).flatMap fun w => leBytes 8 (word w)
  let s1 := (s.putT0 f (gDst d) blk).putT0 f (gAux d) (partial_.flatMap fun t => t.flatMap fun r => leBytes 4 (word r))
  State.setQuantity (s1.gmeCases f (List.replicate cases_ 3)) f [partial_.length]

/-- A GME body. -/
def State.gmeRun (s : State) (f : Fig) (d : BitVec 256) : State :=
  match gOp d with
  | 0 => s.curdMm f d
  | 1 => s.spsp f d
  | 2 => s.curdExpand f d
  | 3 => s.routeGather f d
  | 4 => s.routeMerge f d
  | 5 => s.raggedPack f d
  | 6 => s.raggedUnpack f d
  | _ => s.maskBuild f d

end Sys2Proof.Machine
end

