-- ==== Sys2Proof/Machine/SyncRows.lean ====
section
/-! DEFINITION. What cluster sequencers and Callers do at their cycles of a beat: vat entries and expectations (R217, R221,
R494), slot tables (R213), sync sets (R227, R494), bank power (R222 to R224) and the rate switch (R264). -/
namespace Sys2Proof.Machine

/-- The sequencer entries of the open beat. -/
def State.seqNow (s : State) : List (Nat × Nat × BitVec 128) :=
  match s.plan.card, s.clk.pos with
  | some c, some p => c.seqAt p
  | _, _ => []

/-- Callers and sequencers run. -/
def State.seqOn (s : State) : Bool := s.ringsOn && !s.run.stopped

/-! ## Vats -/

/-- VAT_SET: the entry as the card gives it, pointers and wrap bits clear (R217). -/
def State.vatSet (s : State) (key entry : Nat) : State :=
  { s with t0 := { s.t0 with vat := tSet s.t0.vat key (bits entry 0 21) } }

/-- VAT_EXPECT: the expected pointers are loaded; a vat whose pointers differed counts (R221). -/
def State.vatExpect (s : State) (key head tail : Nat) : State :=
  let e := tGet s.t0.vat key
  let v := setBits (setBits e 32 22 head) 64 22 tail
  let s1 : State := { s with t0 := { s.t0 with vat := tSet s.t0.vat key v } }
  if v = e then s1 else s1.count (F.CD_VAT_REALIGN_COUNT.cd (key / 65536)) 1

/-- One VAT_SET or VAT_EXPECT entry of cluster (die, cl). -/
def State.vatEntry (s : State) (x : Nat × Nat × BitVec 128) : State :=
  let key := vatKey x.1 x.2.1 (ent x.2.2 8 6)
  if entType x.2.2 = 0x85 then s.vatSet key (ent x.2.2 32 21)
  else if entType x.2.2 = 0x86 then
    if vatPlanned (tGet s.t0.vat key) then s.vatExpect key (ent x.2.2 32 22) (ent x.2.2 64 22) else s
  else s

/-- VAT_EXPECT_LOAD (R221, R494): at cycle 64 the entries of the beat apply, each cluster's in their order. -/
def execVatExpectLoad (cyc : Nat) (s : State) : Host.Outcome State Fault Refusal :=
  if s.dev == .off then .next s else
  let s1 := s.tick cyc
  if s1.seqOn && s1.clk.cyc == 64 then .next (s1.seqNow.foldl State.vatEntry s1) else .next s1

/-! ## Slot tables -/

/-- SLOT_SEL (R213, R494): the entry of the cluster whose AT is this cycle makes its table active. -/
def execSlotSel (cyc : Nat) (die cluster : Nat) (s : State) : Host.Outcome State Fault Refusal :=
  if s.dev == .off then .next s else
  let s1 := s.tick cyc
  let e := s1.seqNow.find? fun x => x.1 == die && x.2.1 == cluster && entType x.2.2 == 0x87 && ent x.2.2 32 32 == s1.clk.cyc
  match e with
  | some x => if s1.seqOn then .next { s1 with t0 := { s1.t0 with slotSel := tSet s1.t0.slotSel (clKey die cluster) (ent x.2.2 8 3) } }
    else .next s1
  | none => .next s1

/-- The owner code of a bank-cycle: in slot mode, row `cyc` mod 16 of the cluster's active table, its four bits for the bank; a table nobody
wrote is FREE (R213, Table 8.2). Hash mode has no owners (R215). -/
def State.slotOwner (s : State) (die cl cyc bank : Nat) : Option Nat :=
  if s.get (F.CD_SP_CFG_MODE.cd die) = 1 then none
  else
    let table := tGet s.t0.slotSel (clKey die cl)
    some (bits (tGet s.t0.slot ((clKey die cl * 8 + table) * 16 + cyc % 16)) (4 * bank) 4)

/-- A request to one bank in one cycle: owner code of its requester (15: unplanned DMA), whether it is behind its owned schedule, and the
cycles it has waited. -/
structure BankReq where
  code : Nat
  behind : Bool
  waited : Nat
deriving DecidableEq, Repr

/-- Class of a requester in a gap: wide and narrow ones behind their schedule, then unplanned DMA; others take none (R214). -/
def BankReq.gapClass (r : BankReq) : Nat := if r.code = 15 then 2 else if !r.behind then 3 else if r.code = 9 ∨ r.code = 10 then 1 else 0

/-- Class in hash mode: wide before narrow (R215). -/
def BankReq.hashClass (r : BankReq) : Nat := if r.code = 9 ∨ r.code = 10 then 1 else 0

/-- The request served before others of a list: lower class, then the longest wait, then the lower owner code (R214, R215). -/
def firstServed (cls : BankReq → Nat) : List BankReq → Option BankReq
  | [] => none
  | r :: l => match firstServed cls l with
    | none => some r
    | some b => some (if cls b < cls r ∨ (cls b = cls r ∧ (r.waited < b.waited ∨ (r.waited = b.waited ∧ b.code < r.code))) then b else r)

/-- The request a bank serves in a cycle (R214, R215): in slot mode its owner's, else in the gap the first of those that may take one; in
hash mode the first of all. -/
def State.bankServes (s : State) (die cl cyc bank : Nat) (rs : List BankReq) : Option BankReq :=
  match s.slotOwner die cl cyc bank with
  | none => firstServed BankReq.hashClass rs
  | some o => (rs.find? fun r => r.code == o && o != 0).orElse fun _ => firstServed BankReq.gapClass (rs.filter fun r => decide (r.gapClass < 3))

/-! ## Sync sets -/

/-- SYNC_SET_AT (R227, R494): a SYNC_SET entry with SCOPE 2 writes its value at AT, before the signals of that cycle. -/
def execSyncSetAt (cyc : Nat) (die obj : Nat) (s : State) : Host.Outcome State Fault Refusal :=
  if s.dev == .off then .next s else
  let s0 := if cyc = 0 then s else s.tick (cyc - 1)
  let e := s0.seqNow.find? fun x => x.1 == die && entType x.2.2 == 0x88 && ent x.2.2 21 2 == 2 && ent x.2.2 8 13 == obj
    && ent x.2.2 32 32 == cyc
  match e with
  | some x =>
    if s0.seqOn && s0.clk.cyc == cyc then .next (s0.syncSetNow (syncKey die obj) (ent x.2.2 64 32))
    else if s0.seqOn && decide (s0.clk.cyc < cyc) then
      .next (State.tick { s0 with run := { s0.run with sig := s0.run.sig ++ [⟨syncKey die obj, ent x.2.2 64 32, cyc, true, none, none, cyc⟩] } } cyc)
    else .next (s0.tick cyc)
  | none => .next (s0.tick cyc)

/-! ## Bank power -/

/-- The open beat is a phrase's last, with a swap at its edge (R83). -/
def State.swapDue (s : State) : Bool :=
  s.plan.swapBit && (s.clk.pos.any fun p => decide (p + 1 = s.clk.measBeats)) && decide (s.clk.phrPos + 1 = s.clk.phraseLen)

/-- RATE_SWITCH (R264): in the rind of a phrase's last beat with a swap to come, the memory-update dies take the next
card's rate. -/
def State.rateSwitch (s : State) : State :=
  match s.plan.next with
  | some c => if s.swapDue then { s with plan := { s.plan with rate := c.rate } } else s
  | none => s

/-- The banks the card of the next beat has off (R222); a beat of no measure keeps them as they are. -/
def State.offNext (s : State) : List Nat :=
  match s.plan.card, s.clk.pos with
  | some c, some p =>
    (if p + 1 < s.clk.measBeats then c.offAt (p + 1)
     else match s.plan.next with
      | some n => if s.swapDue then n.offAt 0 else c.offAt 0
      | none => c.offAt 0).eraseDups
  | _, _ => s.t0.bankNext

/-- RIND_START (R223): banks that will be off begin power-down now, or at the rind's last cycle if a write of theirs is in
flight. -/
def execRindStart (cyc : Nat) (inFlight : List Nat) (s : State) : Host.Outcome State Fault Refusal :=
  if s.dev == .off then .next s else
  let s1 := s.tick cyc
  if s1.seqOn && decide (s1.clk.rindStart ≤ s1.clk.cyc) then
    let off := s1.offNext
    let going := off.filter fun b => !s1.t0.bankOff.contains b
    let s2 : State := { s1 with t0 := { s1.t0 with
      bankNext := off
      bankDefer := going.filter inFlight.contains
      bankOff := s1.t0.bankOff ++ going.filter fun b => !inFlight.contains b } }
    .next s2.rateSwitch
  else .next s1

/-- BANK_POWER_DOWN (R223): at the rind's last cycle a deferred bank powers down; a pending write is discarded and its
figure dropped with BANK_LATE; a pending read returns no data, so its figure stays incomplete up to its edge. -/
def execBankPowerDown (cyc : Nat) (bank : Nat) (writeFid readFid : Option Nat) (s : State) : Host.Outcome State Fault Refusal :=
  if s.dev == .off then .next s else
  let s1 := s.tick cyc
  if s1.seqOn && s1.t0.bankDefer.contains bank && decide (s1.clk.beatCycles ≤ s1.clk.cyc + 1) then
    let s2 : State := { s1 with
      t0 := { s1.t0 with bankDefer := s1.t0.bankDefer.filter (· != bank), bankOff := s1.t0.bankOff ++ [bank] }
      run := { s1.run with noData := s1.run.noData ++ readFid.toList } }
    match writeFid with
    | none => .next s2
    | some f =>
      let s3 := s2.count (F.CD_SP_BANK_LATE_DROP_COUNT.cd (bank / 16384)) 1
      match s3.figure f with
      | some g => .next (s3.drop g (.direct Cause.bankLate))
      | none => .next s3
  else .next s1

end Sys2Proof.Machine
end

