-- ==== Sys2Proof/Machine/SlowTier.lean ====
section
/-! DEFINITION. The slow tier (R263 to R291): accumulate writes, host-window accesses, inline ECC and patrol scrub, extra
refresh, the allocator, migrations, and the free-slot arbiter with what its grants serve. -/
namespace Sys2Proof.Machine

/-- The rind of a phrase's last beat, with a change of rate to come: no slot is offered, no access served (R264, R283). -/
def State.switching (s : State) : Bool :=
  decide (s.clk.rindStart ≤ s.clk.cyc) && s.swapDue && match s.plan.card, s.plan.next with
    | some c, some n => c.rate != n.rate
    | _, _ => false

/-! ## Accumulate-on-write (R275 to R277) -/

/-- PARAM_READs that had not yet read a location about to be overwritten complete with READ_STALE (R432). -/
def State.staleReads (s : State) (k loc : Nat) : State :=
  let hit := s.t1.reading.filter fun r => r.left.any fun x => x.1 == k && x.2 / 4 == loc
  hit.foldl (fun t r => t.finishTag r.ring 0x41 r.tag St.readStale 0)
    { s with t1 := { s.t1 with reading := s.t1.reading.filter fun r => !r.left.any fun x => x.1 == k && x.2 / 4 == loc } }

/-- Apply one arrived tile to its granule (R275, R277): a sum counts if it is not finite, a value just written does not; a sum into a poisoned
line, and what a poisoned figure sends, is poison (R268, R453). -/
def State.applyAcc (s : State) (a : AccWrite) : State :=
  let k := granKey a.mu a.gran
  let l := s.accLoc k
  let was := s.touched k
  let s0 := if was then s else s.staleReads k l
  let old := if was then word32s (s0.locRead k l) 1024 else []
  let vals := if was then (upTo 1024).map fun i => fAdd (old.getD i fZero) (a.vals.getD i fZero) else a.vals
  let cnt := if was then satAdd 32 (tGet s0.t1.cnt k) a.tokens else a.tokens
  let bad := if was then (vals.filter fNonfin).length else 0
  let s1 := (s0.copyBefore k l).locWrite k l 0 (word32Bytes vals)
  let s2 := (State.touch { s1 with t1 := { s1.t1 with cnt := tSet s1.t1.cnt k cnt } } k).markLoc k l
    fun i => a.poison || (was && s.linePoisoned k l i)
  if bad = 0 then s2 else (s2.count (F.MU_NUM_NONFINITE_COUNT.mu a.mu) bad).sumNonfinite a.mu a.fid

/-- ACCUMULATE_WRITE (R275): the next tile from die `src` to memory-update die `mu` has arrived; one that missed the edge of
its figure's beat is discarded. None is applied while the rate changes (R264). -/
def execAccumulateWrite (cyc : Nat) (src mu : Nat) (s : State) : Host.Outcome State Fault Refusal :=
  if s.dev == .off then .next s else
  let s1 := s.tick cyc
  if s1.switching then .next s1
  else match s1.run.acc.find? fun a => a.src == src && a.mu == mu with
  | none => .next s1
  | some a =>
    let s2 : State := { s1 with run := { s1.run with acc := s1.run.acc.erase a } }
    if a.beat = s2.clk.beat then .next (s2.applyAcc a) else .next (s2.count (F.MU_ACC_LATE_COUNT.mu mu) 1)

/-! ## The host window (R266, R413) -/

/-- An access of the window is served: a read answers with the line, poison set if it is poisoned; a write replaces the line and ends its
poison (R413, R454). -/
def State.serveWin (s : State) (x : CxlReq) : State :=
  let a := s.winAddr x.line
  let k := t1Line a.1 (a.2 / 64)
  if x.write then (s.t1Write a.1 a.2 (leBytes 64 x.data.toNat)).markT1 k false
  else { s with host := { s.host with
    memRsp := s.host.memRsp ++ [(x.line, BitVec.ofNat 512 (leNat (s.t1Read a.1 a.2 64)), s.t1.poison.contains k)] } }

/-- CXL_MEM_ACCESS (R413): an access of a line of the window waits for a grant of HOST (R281, Table 10.4). Outside RUNNING and DRAINING a read
answers poison, a write is discarded, and each counts. -/
def execCxlMemAccess (cyc : Nat) (write : Bool) (line : Nat) (data : BitVec 512) (s : State) : Host.Outcome State Fault Refusal :=
  if s.dev == .off then .next s else
  let s1 := s.tick cyc
  if !s1.host.link then .next s1
  else if !s1.ringsOn then .next (s1.winEarly ⟨write, line, data⟩)
  else if s1.get F.HUB_WIN_CFG_SIZE_MIB * 2 ^ 14 ≤ line then .next s1
  else .next { s1 with t1 := { s1.t1 with cxl := s1.t1.cxl ++ [⟨write, line, data⟩] } }

/-! ## Inline ECC (R267, R268, R455) -/

/-- A checked line: of the flat space, or, from 2^32 on, line l of location loc of granule g at 2^32 + (2 g + loc) × 64 + l. -/
def pairLine (mu line : Nat) : Option (Nat × Nat) :=
  if line < 2 ^ 32 then none else some (granKey mu ((line - 2 ^ 32) / 64 / 2), (line - 2 ^ 32) / 64 % 2)

/-- The granules of a working copy whose codes lie in a flat line. -/
def wcGrans (p : Placement) (t : BitVec 512) (line : Nat) : List Nat :=
  let w := wcWidth t
  (upTo (granCount t)).filter fun gi => (upTo 1024).any fun e => match elemAt t gi e with
    | none => false
    | some (i, j) =>
      if tMask24 t then (p.wcAddr + (i / 64 * ceilDiv (tCols t) 32 + j / 32) * (128 * w + 128)) / 64 ≤ line
        && line < (p.wcAddr + (i / 64 * ceilDiv (tCols t) 32 + j / 32 + 1) * (128 * w + 128)) / 64
      else (p.wcAddr + (if tRank t ≤ 1 then j else tileIndex (wcTile t) (tCols t) i j) * w / 8) / 64 == line

/-- The working copy that holds flat byte `off` of die `mu`. -/
def State.wcOwner (s : State) (mu off : Nat) : Option (Placement × BitVec 512) :=
  s.places.findSome? fun p => match s.tensorOf p.handle with
    | some t => if p.mu == mu && decide (p.wcAddr ≤ off) && decide (off < p.wcAddr + wcBytes t) then some (p, t) else none
    | none => none

/-- A line is poison after the re-read: in persistent state it is class F at the boundary; in a trainable working copy its
granules wait for REPAIR (R455). -/
def State.poisonLine (s : State) (mu line : Nat) : State :=
  match pairLine mu line with
  | some (k, loc) =>
    let s1 := s.markT1 (t1Line mu line) true
    if s1.current k = some loc then { s1 with t1 := { s1.t1 with persistBad := mu :: s1.t1.persistBad } } else s1
  | none =>
    let s1 := s.markT1 (t1Line mu line) true
    match s1.wcOwner mu (line * 64) with
    | none => s1
    | some (p, t) =>
      if tFrozen t then { s1 with t1 := { s1.t1 with persistBad := mu :: s1.t1.persistBad } }
      else { s1 with t1 := { s1.t1 with repair := s1.t1.repair ++ (wcGrans p t line).map fun g => granKey mu (p.gran + g) } }

/-- T1_INLINE_ECC (R268): what a read's check found on channel `ch`, the line's (R265); a line is read again once, after its check failed. -/
def execT1InlineEcc (cyc : Nat) (mu ch line : Nat) (check : T1Check) (fid : Option Nat) (s : State) : Host.Outcome State Fault Refusal :=
  if s.dev == .off then .next s else
  let s1 := s.tick cyc
  if s1.nMu ≤ mu || lineCh line != ch then .next s1
  else
    let src : Source := ⟨4 + mu, 4, ch⟩
    match check with
    | .corrected =>
      let s2 := (s1.count (F.MU_ECC_CORR_COUNT.mu mu) 1).detect ⟨Er.t1Corr, src, fid, line⟩
      .next { s2 with t1 := { s2.t1 with wb := s2.t1.wb ++ [t1Line mu line] } }
    | .uncorrectable => .next { s1 with t1 := { s1.t1 with reread := s1.t1.reread ++ [t1Line mu line] } }
    | .afterReread =>
      if !s1.t1.reread.contains (t1Line mu line) then .next s1 else
      let s2 : State := { s1 with t1 := { s1.t1 with reread := s1.t1.reread.filter (· != t1Line mu line) } }
      .next (((s2.count (F.MU_ECC_UNCORR_COUNT.mu mu) 1).poisonLine mu line).detect ⟨Er.t1Fatal, src, fid, line⟩)
    | .linkCorrected => .next (s1.count (F.MU_LINK_CORR_COUNT.mu mu) 1)

/-- PATROL_SCRUB (R282): the patrol has read a line; a corrected one is counted, logged and queued for a writeback. -/
def execPatrolScrub (cyc : Nat) (mu line : Nat) (corrected : Bool) (s : State) : Host.Outcome State Fault Refusal :=
  if s.dev == .off then .next s else
  let s1 := s.tick cyc
  if s1.nMu ≤ mu || !s1.ringsOn || s1.switching then .next s1
  else
    let s2 : State := { s1 with t1 := { s1.t1 with patrol := tSet s1.t1.patrol mu line } }
    if corrected then
      let s3 := (s2.count (F.MU_ECC_CORR_COUNT.mu mu) 1).detect ⟨Er.t1Corr, ⟨4 + mu, 4, lineCh line⟩, none, line⟩
      .next { s3 with t1 := { s3.t1 with wb := s3.t1.wb ++ [t1Line mu line] } }
    else .next s2

/-! ## Refresh (R271, R272) -/

/-- MR4_REPORT (R272): a package reports the refresh rate it needs, in hundredths of 1×; the highest of the phrase counts, and the high temperature
limit is class F. -/
def execMr4Report (cyc : Nat) (mu rate : Nat) (hot : Bool) (s : State) : Host.Outcome State Fault Refusal :=
  if s.dev == .off then .next s else
  let s1 := s.tick cyc
  if s1.nMu ≤ mu then .next s1
  else
    let s2 : State := { s1 with t1 := { s1.t1 with mr4 := s1.t1.mr4.set mu (max (s1.t1.mr4.getD mu 0) rate) } }
    if hot then .next (s2.detectAt Er.dramTemp (4 + mu) 4 0 0) else .next s2

/-- The planned step of a report in hundredths of 1×: codes 0, 1, 2 for 1×, 2×, 4×; the lowest at or above it (R272). -/
def mr4Step (r : Nat) : Nat := if r ≤ 100 then 0 else if r ≤ 200 then 1 else 2

/-- EXTRA_REFRESH (R272): a window beyond the planned rate takes an offered slot, or at its deadline a planned one; each counts, the
first of a phrase on a die is class C; none while the rate changes (R264). The displaced access is late; lateness shows at its figure's edge. -/
def execExtraRefresh (cyc : Nat) (mu ch : Nat) (_offered : Bool) (_displaced : Option Nat) (s : State) : Host.Outcome State Fault Refusal :=
  if s.dev == .off then .next s else
  let s1 := s.tick cyc
  if s1.nMu ≤ mu || s1.switching || decide (s1.t1.mr4.getD mu 0 ≤ 100 * 2 ^ s1.get (F.MU_REF_CFG_RATE.mu mu)) then .next s1
  else
    let s2 := s1.count (F.MU_REF_EXTRA_COUNT.mu mu) 1
    if s2.t1.extraLog.contains mu then .next s2
    else .next (State.detectAt { s2 with t1 := { s2.t1 with extraLog := s2.t1.extraLog ++ [mu] } } Er.extraRefresh (4 + mu) 4 ch 0)

/-- The rate a build plans from the phrase's highest report (R272). -/
def planRate (guard : Bool) (mr4 : Nat) : Nat :=
  if mr4 ≤ 100 then 0 else min 2 (if guard then mr4Step mr4 + 1 else mr4Step mr4)

/-- The rate each die's next card plans. -/
def State.planRates (s : State) : List Nat :=
  (upTo 8).map fun mu => planRate (s.get (F.MU_REF_CFG_GUARD.mu mu) == 1) (s.t1.mr4.getD mu 0)

/-! ## The allocator (R273) -/

/-- The block ALLOC takes: the smallest order that fits, then the lowest address. -/
def pickBlock (mu k : Nat) (l : List (Nat × Nat × Nat)) : Option (Nat × Nat × Nat) :=
  l.foldl (fun b x =>
    if x.1 ≠ mu ∨ x.2.2 < k then b
    else match b with
      | none => some x
      | some y => if x.2.2 < y.2.2 ∨ (x.2.2 = y.2.2 ∧ x.2.1 < y.2.1) then some x else some y) none

/-- Upper halves of a block of order `n` split down to order `k`. -/
def upperHalves (mu a k : Nat) : Nat → List (Nat × Nat × Nat)
  | 0 => []
  | n + 1 => if n + 1 ≤ k then [] else (mu, a + 2 ^ n, n) :: upperHalves mu a k n

def allocBlock (mu k : Nat) (l : List (Nat × Nat × Nat)) : Option (Nat × List (Nat × Nat × Nat)) :=
  (pickBlock mu k l).map fun b => (b.2.1, (l.filter (· != b)) ++ upperHalves mu b.2.1 k b.2.2)

/-- FREE merges with the buddy while it is free; orders go to 16. -/
def freeBlock (mu : Nat) : Nat → Nat → Nat → List (Nat × Nat × Nat) → List (Nat × Nat × Nat)
  | 0, a, k, l => l ++ [(mu, a, k)]
  | n + 1, a, k, l =>
    let buddy := if a / 2 ^ k % 2 = 0 then a + 2 ^ k else a - 2 ^ k
    if k < 16 ∧ l.contains (mu, buddy, k) then freeBlock mu n (min a buddy) (k + 1) (l.filter (· != (mu, buddy, k)))
    else l ++ [(mu, a, k)]

/-- The allocations of a build, in order; none if one fails (R274). -/
def allocAll : List (Nat × Nat) → List (Nat × Nat × Nat) → Option (List (Nat × Nat × Nat))
  | [], l => some l
  | x :: xs, l => match allocBlock x.1 x.2 l with
    | some r => allocAll xs r.2
    | none => none

/-- The blocks that a build's allocations get, as (die, unit, order) (R273). -/
def allocTaken : List (Nat × Nat) → List (Nat × Nat × Nat) → List (Nat × Nat × Nat)
  | [], _ => []
  | x :: xs, l => match allocBlock x.1 x.2 l with
    | some r => (x.1, r.1, x.2) :: allocTaken xs r.2
    | none => []

/-- A unit of a die lies in one of some blocks. -/
def inBlocks (l : List (Nat × Nat × Nat)) (mu u : Nat) : Bool := l.any fun b => b.1 == mu && decide (b.2.1 ≤ u) && decide (u < b.2.1 + 2 ^ b.2.2)

/-! ## Migrations (R71 to R73) -/

/-- Page-table entry fields (Table 3.4). -/
def pageShadow (e next : Nat) : Nat := setBits (setBits e 1 1 1) 40 24 next
def pageSwap (e mu : Nat) : Nat := setBits (setBits (setBits (setBits e 8 32 (bits e 40 24)) 4 3 mu) 1 1 0) 40 24 0

/-- A page of the next card waits to be copied. -/
def State.startMove (s : State) (m : Nat × Nat × Nat × Nat × Nat) : State :=
  { s with plan := { s.plan with
    migr := s.plan.migr ++ [⟨m.1, m.2.1, m.2.2.1, m.2.2.2.1, m.2.2.2.2, 0, false⟩] } }

/-- Where a page-table entry resolves to (R71, R72): T1 as (die, byte offset), T2 as (2^8, host address); SHADOW and NEXT_FRAME take no
part. -/
def pageResolve (e : Nat) : Option (Nat × Nat) :=
  if !bit e 0 then none
  else match bits e 2 2 with
    | 0 => some (bits e 4 3, bits e 8 32 * 2 ^ 21)
    | 1 => some (2 ^ 8, bits e 8 32 * 2 ^ 21)
    | _ => none

/-- Copy the granule at the cursor of a migration, its poison with it, a writeback that waits for a line it writes cancelled (R282); the first sets
SHADOW and names the next frame (R73). -/
def State.migrateAt (s : State) (m : Migr) : State :=
  let o := m.cursor * 4096
  let b := s.t1Read m.mu (m.fromOff + o) 4096
  let s1 := State.unqueue { s with t1 := { s.t1 with mem := mWrite s.t1.mem (t1Addr m.toMu (m.toOff + o)) b } } m.toMu (m.toOff + o) 4096
  let s2 := (upTo 64).foldl (fun t l => t.markT1 (t1Line m.toMu ((m.toOff + o) / 64 + l)) (t.t1.poison.contains (t1Line m.mu ((m.fromOff + o) / 64 + l)))) s1
  let m1 : Migr := { m with cursor := m.cursor + 1, done := decide (512 ≤ m.cursor + 1) }
  { s2 with plan := { s2.plan with
    pages := if m.cursor = 0 then tSet s2.plan.pages m.page (pageShadow (tGet s2.plan.pages m.page) (m.toOff / 2 ^ 21)) else s2.plan.pages
    migr := s2.plan.migr.map fun x => if x = m then m1 else x } }

/-- Copy the next granule of the oldest unfinished migration from die `mu`, in ascending granule order (R73). -/
def State.migrateOne (s : State) (mu : Nat) : State :=
  match s.plan.migr.find? fun m => m.mu == mu && !m.done with
  | none => s
  | some m => s.migrateAt m

def State.migrate (s : State) (mu : Nat) : Nat → State
  | 0 => s
  | n + 1 => (s.migrateOne mu).migrate mu n

/-- A seat is READY when its next card is loaded and its migrations are complete (R83). -/
def State.noteReady (s : State) : State :=
  if s.plan.next.isSome && s.plan.migr.all (·.done) then { s with plan := { s.plan with ready := true } } else s

/-! ## Host reads of parameters under HOST (R432) -/

/-- Address and index of the code of element (i, j) of a working copy; none for a pruned position. -/
def State.wcSlot (s : State) (p : Placement) (t : BitVec 512) (i j : Nat) : Option (Nat × Nat) :=
  let w := wcWidth t
  if tMask24 t then
    match s.wcPattern p t i j with
    | some pat =>
      if pat.testBit (4 * (i % 4) + j % 4) then
        some (p.wcAddr + (i / 64 * ceilDiv (tCols t) 32 + j / 32) * (128 * w + 128),
          32 * (j % 32) + 2 * (i % 64 / 4) + ((upTo (i % 4)).filter fun r => pat.testBit (4 * r + j % 4)).length)
      else none
    | none => none
  else some (p.wcAddr, if tRank t ≤ 1 then j else tileIndex (wcTile t) (tCols t) i j)

/-- One code of a working copy. -/
def State.wcGet (s : State) (mu w : Nat) (x : Nat × Nat) : Nat :=
  if w = 4 then bits (leNat (s.t1Read mu (x.1 + x.2 / 2) 1)) (4 * (x.2 % 2)) 4 else leNat (s.t1Read mu (x.1 + x.2 * (w / 8)) (w / 8))

/-- Elements `off` to `off + n` − 1 of a frozen working copy, packed as stored. -/
def State.frozenRead (s : State) (p : Placement) (t : BitVec 512) (off n : Nat) : Bytes :=
  packCodes (wcWidth t) ((upTo n).map fun i =>
    let e := off + i
    match s.wcSlot p t (e / max 1 (tCols t)) (e % max 1 (tCols t)) with
    | some x => s.wcGet p.mu (wcWidth t) x
    | none => 0)

/-- The 1 KiB blocks of a frozen working copy that elements `off` to `off + n` − 1 lie in, as pieces of a PARAM_READ. -/
def State.frozenPieces (s : State) (p : Placement) (t : BitVec 512) (off n : Nat) : List (Nat × Nat) :=
  let w := wcWidth t
  ((upTo n).map fun i => match s.wcSlot p t ((off + i) / max 1 (tCols t)) ((off + i) % max 1 (tCols t)) with
    | some x => (granKey p.mu 0, 8 + (x.1 + x.2 * w / 8) / 1024)
    | none => (granKey p.mu 0, 8 + p.wcAddr / 1024)).eraseDups

/-- Channel of a piece of a PARAM_READ. -/
def pieceCh (x : Nat × Nat) : Nat := if 8 ≤ x.2 then (x.2 - 8) % 24 else pairCh x.1 (x.2 / 4) (x.2 % 4)

/-- Read one piece of a PARAM_READ to host memory: a quarter of a granule; of a frozen copy, whose elements lie in several blocks, all with the
last. -/
def State.readGran (s : State) (r : Reading) (p : Placement) (t : BitVec 512) (kl : Nat × Nat) : State :=
  if 8 ≤ kl.2 then
    if r.left.length ≤ 1 then
      let b := s.frozenRead p t r.off r.count
      s.hostPut r.dst b.length (leNat b)
    else s
  else
    let gi := kl.1 % 2 ^ 26 - (if r.scale then p.scaleGran else p.gran)
    (upTo 256).foldl (fun u i =>
      let e := kl.2 % 4 * 256 + i
      let lin := if r.scale then some (gi * 1024 + e) else (elemAt t gi e).map fun x => x.1 * tCols t + x.2
      match lin with
      | some l => if r.off ≤ l ∧ l < r.off + r.count then u.hostPut (r.dst + 4 * (l - r.off)) 4 (u.locWord kl.1 (kl.2 / 4) e) else u
      | none => u) s

/-- A window access lies on a channel. -/
def State.winOn (s : State) (mu ch : Nat) (x : CxlReq) : Bool := (s.winAddr x.line).1 == mu && flatCh (s.winAddr x.line).2 == ch

/-- HOST is granted a slot of a channel: up to 16 window accesses to it, oldest first; with none, the oldest PARAM_READ with a piece there reads
it, and the last one completes the command (R285, R413, R432; log entry 33). -/
def State.serveHost (s : State) (mu ch : Nat) : State :=
  let mine := (s.t1.cxl.filter (s.winOn mu ch)).take 16
  if !mine.isEmpty then
    mine.foldl State.serveWin { s with t1 := { s.t1 with cxl := mine.foldl List.erase s.t1.cxl } }
  else match s.t1.reading.find? fun r => r.left.any fun x => x.1 / 2 ^ 26 == mu && pieceCh x == ch with
  | none => s
  | some r =>
    match r.left.find? fun x => x.1 / 2 ^ 26 == mu && pieceCh x == ch, s.plan.graph.bind fun g => g.place r.handle, s.tensorOf r.handle with
    | some kl, some p, some t =>
      let s1 := s.readGran r p t kl
      let left := r.left.erase kl
      if left.isEmpty then
        State.finishTag { s1 with t1 := { s1.t1 with reading := s1.t1.reading.erase r } } r.ring 0x41 r.tag St.ok 0
      else { s1 with t1 := { s1.t1 with reading := s1.t1.reading.map fun x => if x = r then { r with left := left } else x } }
    | _, _, _ => s

/-! ## The free-slot arbiter (R281 to R288) -/

/-- Data for the counterpart, of no stated encoding or length: a free number of unplanned DATA flits of free payload on an open twin port
(R406, R408, R380; log entry 47). -/
def State.sendTwin (s : State) : State :=
  let ports := [16, 17].filter fun n => s.hasPort n && (s.port n).open_
  if ports.isEmpty then s
  else
    let k := s.draw
    let port := ports.getD (k.1 % ports.length) 16
    let n := k.1 / 2 % 2 ^ 32
    (upTo (n + 1)).foldl (fun t i =>
      let p := t.draw
      let f := p.2.flit 2 0 s.seat i p.1
      p.2.sendFlit port ⟨BitVec.ofNat 128 (setBits (setBits f.hdr.toNat 12 1 1) 45 1 (if i = n then 1 else 0)), f.payload⟩) k.2

/-! ### Pieces (R285): a slot moves up to 1 KiB of one channel, so a granule takes several; log entry 33 says which. -/

/-- The first piece of item `k` of requester `req` on a channel of a die that no grant has moved. -/
def State.pieceOn (s : State) (req k : Nat) (places : List (Nat × Nat)) (mu ch : Nat) : Option Nat :=
  (places.zipIdx.find? fun x => x.1 == (mu, ch) && !s.t1.served.contains (req, k, x.2)).map (·.2)

/-- A piece is moved; with the last, the item is whole and its pieces are forgotten. -/
def State.movePiece (s : State) (req k : Nat) (places : List (Nat × Nat)) (i : Nat) : State × Bool :=
  let l := s.t1.served ++ [(req, k, i)]
  let whole := (upTo places.length).all fun j => l.contains (req, k, j)
  ({ s with t1 := { s.t1 with served := if whole then l.filter fun x => !(x.1 == req && x.2.1 == k) else l } }, whole)

/-- The first item among `items` with a piece on the channel, and that piece. -/
def State.nextPiece (s : State) (req mu ch : Nat) (places : Nat → List (Nat × Nat)) : List Nat → Option (Nat × Nat)
  | [] => none
  | k :: l => match s.pieceOn req k (places k) mu ch with
    | some i => some (k, i)
    | none => s.nextPiece req mu ch places l

/-- A location's four quarters. -/
def locPlaces (k loc : Nat) : List (Nat × Nat) := (upTo 4).map fun q => (k / 2 ^ 26, pairCh k loc q)

/-- REPAIR has moved a granule: it is re-encoded from its current master, scales and mask formed if it is the first
encode (R143, R192), pruned again where the dropped re-encode was (R194), and its line's poison ends. -/
def State.repairGran (s : State) (mu k : Nat) : State :=
  let again := s.t1.pruneRedo.contains k
  let s1 : State := { s with t1 := { s.t1 with repair := s.t1.repair.erase k, pruneRedo := s.t1.pruneRedo.erase k } }
  match s1.paramAt k with
  | none => s1
  | some q =>
    let gi := k % 2 ^ 26 - q.p.gran
    if (s1.current k).isNone then s1.pairLost mu none
    else
      let s2 := (s1.firstScales q).encodeGran q gi again
      { s2 with t1 := { s2.t1 with poison := s2.t1.poison.filter fun l =>
        !(decide (t1Line mu 0 ≤ l) && decide (l < t1Line mu (2 ^ 32)) && (wcGrans q.p q.t (l % 2 ^ 40)).contains gi) } }

/-- What a repair moves: the granule's current master, then the 1 KiB blocks of the working copy that its codes lie in. -/
def State.repairPlaces (s : State) (mu k : Nat) : List (Nat × Nat) :=
  locPlaces k ((s.current k).getD 0) ++ match s.paramAt k with
    | none => []
    | some q => (((elems q (k % 2 ^ 26 - q.p.gran)).filterMap fun e => s.wcSlot q.p q.t e.2.1 e.2.2).map fun x =>
        (mu, flatCh (x.1 + x.2 * wcWidth q.t / 8))).eraseDups

/-- REPAIR is granted a slot of a channel. -/
def State.serveRepair (s : State) (mu ch : Nat) : State :=
  match s.nextPiece 6 mu ch (s.repairPlaces mu) (s.t1.repair.filter fun k => k / 2 ^ 26 == mu) with
  | none => s
  | some x =>
    let r := s.movePiece 6 x.1 (s.repairPlaces mu x.1) x.2
    if r.2 then r.1.repairGran mu x.1 else r.1

/-- What the copy of a granule moves (R73): four blocks read, and the four written. -/
def Migr.places (m : Migr) (g : Nat) : List (Nat × Nat) :=
  ((upTo 4).map fun q => (m.mu, flatCh (m.fromOff + g * 4096 + q * 1024))) ++ (upTo 4).map fun q => (m.toMu, flatCh (m.toOff + g * 4096 + q * 1024))

/-- Whether piece `i` may be moved: a write after its read. -/
def State.migrReady (s : State) (k i : Nat) : Bool := decide (i < 4) || s.t1.served.contains (5, k, i - 4)

/-- A piece of a migration on a channel: its granule, counted over pages, and the piece. -/
def State.nextMigr (s : State) (mu ch : Nat) : Option (Migr × Nat × Nat) :=
  (s.plan.migr.filter fun m => !m.done).findSome? fun m => ((upTo (512 - m.cursor)).map (m.cursor + ·)).findSome? fun g =>
    ((m.places g).zipIdx.find? fun x => x.1 == (mu, ch) && !s.t1.served.contains (5, m.page * 512 + g, x.2) && s.migrReady (m.page * 512 + g) x.2).map
      fun x => (m, g, x.2)

/-- The copy takes the granules at its cursor whose pieces are all moved. -/
def State.copyOn : Nat → State → Nat → State
  | 0, s, _ => s
  | n + 1, s, page =>
    match s.plan.migr.find? fun m => m.page == page && !m.done with
    | none => s
    | some m =>
      let k := page * 512 + m.cursor
      if (upTo 8).all fun i => s.t1.served.contains (5, k, i) then
        State.copyOn n (State.migrateAt { s with t1 := { s.t1 with served := s.t1.served.filter fun x => !(x.1 == 5 && x.2.1 == k) } } m) page
      else s

/-- MIGRATE is granted a slot of a channel: a piece of the first unfinished migration with one there, its granules in ascending order. -/
def State.serveMigr (s : State) (mu ch : Nat) : State :=
  match s.nextMigr mu ch with
  | none => s
  | some x =>
    (State.copyOn 512 { s with t1 := { s.t1 with served := s.t1.served ++ [(5, x.1.page * 512 + x.2.1, x.2.2)] } } x.1.page).noteReady

/-- The granules of the open cut that a reader still has on a die. -/
def State.cutLeft (s : State) (mu kind : Nat) : List Nat := match s.cel.open_ with
  | none => []
  | some c => ((c.readers.find? fun r => r.kind == kind && r.attached).map fun r => r.left.filter fun k => k / 2 ^ 26 == mu).getD []

/-- A reader of the open cut is granted a slot of a channel: a quarter of its first granule there; with its last quarter it has the granule. -/
def State.serveCut (s : State) (mu ch kind : Nat) : State :=
  match s.cel.open_ with
  | none => s
  | some c =>
    let places := fun (k : Nat) => locPlaces k (s.cutLoc c k)
    match s.nextPiece (8 + kind) mu ch places (s.cutLeft mu kind) with
    | none => s
    | some x =>
      let r := s.movePiece (8 + kind) x.1 (places x.1) x.2
      if !r.2 then r.1 else if kind = 0 then r.1.readCutAt kind x.1 else (r.1.readCutAt kind x.1).sendTwin

/-- SCRUB is granted a slot of a channel: up to 16 of its writebacks there. -/
def State.serveScrub (s : State) (mu ch : Nat) : State :=
  let mine := (s.t1.wb.filter fun l => l / 2 ^ 40 == mu && lineCh (l % 2 ^ 40) == ch).take 16
  { s with t1 := { s.t1 with wb := s.t1.wb.filter fun l => !mine.contains l } }


/-- The mirror and the shipment each take their next granule of the open cut on die `mu` and send it. -/
def State.shipCut (s : State) (mu : Nat) : State :=
  [1, 2].foldl (fun t k => if t.cel.open_.any fun c => (c.next mu k).isSome then (t.readCut mu k).sendTwin else t) s

/-- What a granted slot of a channel does for its requester (Table 10.4, R285): SHIP's goes to the mirror, with nothing of it there to the
shipment. INGEST's traffic acts where its figures complete (log entry 33). -/
def State.serve (s : State) (mu ch req : Nat) : State :=
  match req with
  | 0 => s.serveHost mu ch
  | 1 => s.serveCut mu ch 0
  | 3 => if s.cutLeft mu 1 = [] then s.serveCut mu ch 2 else s.serveCut mu ch 1
  | 4 => s.serveScrub mu ch
  | 5 => s.serveMigr mu ch
  | 6 => s.serveRepair mu ch
  | _ => s

/-- Rank in force of a requester. -/
def State.rankOf (s : State) (mu req : Nat) : Nat := bits (tGet s.t1.rank mu) (3 * req) 3

/-- `x` wins over `y`: lower rank, longer wait, lower number; for the reserved grant, longer wait, lower rank, lower number. -/
def State.beats (s : State) (mu : Nat) (reserved : Bool) (x y : ArbReq) : Bool :=
  let rx := s.rankOf mu x.req
  let ry := s.rankOf mu y.req
  let num := decide (x.req < y.req)
  if reserved then
    decide (x.since < y.since) || (x.since == y.since && (decide (rx < ry) || (rx == ry && num)))
  else decide (rx < ry) || (rx == ry && (decide (x.since < y.since) || (x.since == y.since && num)))

def State.winner (s : State) (mu : Nat) (reserved : Bool) (l : List ArbReq) : Option ArbReq :=
  l.foldl (fun b x => match b with
    | none => some x
    | some y => some (if s.beats mu reserved x y then x else y)) none

/-- Bytes that requester `req` still has to move on a die: of HOST its window accesses and PARAM_READs. -/
def State.waitingData (s : State) (mu req : Nat) : Nat :=
  let left := fun (k : Nat) => match s.cel.open_ with
    | some c => (c.readers.filter fun r => r.kind == k).foldl (fun n r => n + (r.left.filter fun g => g / 2 ^ 26 == mu).length * 4096) 0
    | none => 0
  match req with
  | 0 => s.t1.reading.foldl (fun n r => n + (r.left.filter fun x => x.1 / 2 ^ 26 == mu).length * 1024) 0
    + (s.t1.cxl.filter fun x => (s.winAddr x.line).1 == mu).length * 64
  | 1 => left 0
  | 3 => left 1 + left 2
  | 4 => (s.t1.wb.filter fun l => l / 2 ^ 40 == mu).length * 64
  | 5 => s.plan.migr.foldl (fun n m => n + if m.mu = mu ∧ !m.done then (512 - m.cursor) * 8192 else 0) 0
  | 6 => (s.t1.repair.filter fun k => k / 2 ^ 26 == mu).length * 4096
  | _ => 0

/-- Slots of 992 bytes that the flagged requesters need: what they moved in the phrase and what still waits (R289). -/
def State.slotNeeds (s : State) : List (Nat × Nat × Nat) :=
  s.t1.flagged.eraseDups.map fun x => (x.1, x.2, tGet s.t1.moved (x.1 * 8 + x.2) + ceilDiv (s.waitingData x.1 x.2) 992)

/-- The winner takes the slot: its wait ends and is compared with the longest; `counted` unless the card earmarked it. -/
def State.grant (s : State) (mu : Nat) (r : ArbReq) (counted : Bool) : State :=
  let w := s.clock - r.since
  let s1 : State := { s with t1 := { s.t1 with req := s.t1.req.erase r, moved := tSet s.t1.moved (mu * 8 + r.req) (tGet s.t1.moved (mu * 8 + r.req) + 1) } }
  let f := (F.MU_ARB_MAXWAIT_n_CYCLES.at 4 r.req).mu mu
  let s2 := s1.set f (max (s1.get f) (min w (2 ^ 32 - 1)))
  let s3 := if counted then
      State.count { s2 with t1 := { s2.t1 with grants := tSet s2.t1.grants r.key (tGet s2.t1.grants r.key + 1) } } ((F.MU_ARB_GRANT_n_COUNT.at 4 r.req).mu mu) 1
    else s2
  s3.serve mu (r.key % 24) r.req

/-- The card in force earmarks a slot of the channel for a requester in the open beat (R284, R289). -/
def State.earmarked (s : State) (key req : Nat) : Bool := match s.plan.card, s.clk.pos with
  | some c, some p => c.side.earmarks.any fun e => e.1 == key && e.2.1 == p && e.2.2.2 == req
  | _, _ => false

/-- SLOT_ARBITRATION (R284 to R287): the requests sampled for an offered slot of one channel; a running figure behind its schedule, or the
requester the card earmarks it for, comes before the arbiter's winner. -/
def execSlotArbitration (cyc : Nat) (mu ch : Nat) (requests : List Nat) (slot : SlotUse) (s : State) : Host.Outcome State Fault Refusal :=
  if s.dev == .off then .next s else
  let s0 := s.tick cyc
  if s0.nMu ≤ mu || !s0.ringsOn || s0.switching then .next s0
  else
    let s1 := s0.settleWaits mu
    let key := chKey mu ch
    let held := s1.t1.req.filter fun r => r.key == key
    let add := (requests.eraseDups.filter fun n => decide (n < 7) && !(held.any fun r => r.req == n)).map fun n => (⟨key, n, s1.clock⟩ : ArbReq)
    let s2 : State := { s1 with t1 := { s1.t1 with req := s1.t1.req ++ add } }
    let all := held ++ add
    let open_ :=
      let n := tGet s2.t1.grants key + 1
      let nth := s2.get (F.MU_ARB_CFG_NTH.mu mu)
      match s2.winner mu (!s2.vg4 && n % max 1 nth == 0) all with
      | some r => s2.grant mu r true
      | none => s2
    match slot with
    | .catchUp f => .next (if (s2.stat f).phase == .running then s2 else open_)
    | .earmark q => match all.find? fun r => r.req == q && s2.earmarked key q with
      | some r => .next (s2.grant mu r false)
      | none => .next open_
    | .open_ => .next open_

/-- ARB_STARVE (R288): on VG4 a wait beyond STARVE_US sets the flag; a flag that rises writes the event and tells the
placement controller. -/
def execArbStarve (cyc : Nat) (mu ch req : Nat) (s : State) : Host.Outcome State Fault Refusal :=
  if s.dev == .off then .next s else
  let s1 := s.tick cyc
  match s1.t1.req.find? fun r => r.key == chKey mu ch && r.req == req with
  | none => .next s1
  | some r =>
    let w := s1.clock - r.since
    if !s1.vg4 || decide (w ≤ s1.get (F.MU_ARB_CFG_STARVE_US.mu mu) * 1900) then .next s1
    else
      let f := F.MU_ARB_STARVE_FLAG.mu mu
      let old := s1.get f
      if bit old req then .next s1
      else
        .next ((s1.set f (old + 2 ^ req)).starveEvent mu req ch w)

end Sys2Proof.Machine
end

