-- ==== Sys2Proof/Machine/CardCheck.lean ====
section
/-! DEFINITION. Reading a LOAD_CARD image (R487 to R492) and checking it at load (R63, R79, R92, R275, R487 to R502). -/
namespace Sys2Proof.Machine

/-! ## Reading -/

/-- Two 16-byte units as one descriptor. -/
def pair256 (a b : BitVec 128) : BitVec 256 := BitVec.ofNat 256 (a.toNat + 2 ^ 128 * b.toNat)

/-- The entries at the front of a list that have type `t`, and the rest. -/
def spanType (t : Nat) : List (BitVec 128) → List (BitVec 128) × List (BitVec 128)
  | [] => ([], [])
  | e :: l => if entType e = t then let r := spanType t l; (e :: r.1, r.2) else ([], e :: l)

/-- The units up to the next FIG or BEAT entry. -/
def spanBody : List (BitVec 128) → List (BitVec 128) × List (BitVec 128)
  | [] => ([], [])
  | e :: l => if entType e = 0x80 ∨ entType e = 0x81 then ([], e :: l) else let r := spanBody l; (e :: r.1, r.2)

/-- A figure's body and what follows it, by die and queue (R489, R490, R502): a vector body runs to the figure's closing SIGNAL
entries. -/
def takeBody (die q : Nat) (l : List (BitVec 128)) : Option (Body × List (BitVec 128)) :=
  if 4 ≤ die then
    match l with
    | e :: r => if entType e = 0x8C then some (.tpl e, r) else none
    | [] => none
  else if q = 3 then
    let b := spanBody l
    let tail := (b.1.reverse.takeWhile fun e => entType e == 0x83).length
    some (.vec (b.1.take (b.1.length - tail)), b.1.drop (b.1.length - tail) ++ b.2)
  else match l with
    | a :: b :: r =>
      let d := pair256 a b
      if q = 4 then some (.gme d, r)
      else if q = 5 ∨ q = 6 then some (.dma d, r)
      else if bit d.toNat 23 then
        match r with
        | c :: e :: r' => some (.matrix d (some (pair256 c e)), r')
        | _ => none
      else some (.matrix d none, r)
    | _ => none

/-- The figures of a section, up to the next BEAT entry. -/
def readFigs (die q : Nat) : Nat → List (BitVec 128) → Option (List FigProg × List (BitVec 128))
  | 0, l => if l.isEmpty then some ([], []) else none
  | n + 1, l =>
    match l with
    | [] => some ([], [])
    | e :: r =>
      if entType e = 0x81 then some ([], e :: r)
      else if entType e ≠ 0x80 then none
      else
        let deps := spanType 0x8B r
        let waits := spanType 0x84 deps.2
        match takeBody die q waits.2 with
        | none => none
        | some (body, rest) =>
          let sig := spanType 0x83 rest
          match readFigs die q n sig.2 with
          | none => none
          | some (fs, out) => some (⟨e, deps.1, waits.1, body, sig.1⟩ :: fs, out)

def seqEntry (t : Nat) : Bool := inRange 0x85 0x88 t

/-- Sections of a queue: each opens with a BEAT entry; the SEQ queue of a cluster holds its own entries and no figures. -/
def readSecs (die q : Nat) : Nat → List (BitVec 128) → Option (List Section)
  | 0, l => if l.isEmpty then some [] else none
  | n + 1, l =>
    match l with
    | [] => some []
    | e :: r =>
      if entType e ≠ 0x81 then none
      else if die < 4 ∧ q = 7 then
        let own := r.takeWhile fun x => seqEntry (entType x)
        (readSecs die q n (r.drop own.length)).map fun xs => ⟨e, [], own⟩ :: xs
      else match readFigs die q r.length r with
        | none => none
        | some (fs, out) => (readSecs die q n out).map fun xs => ⟨e, fs, []⟩ :: xs

/-- Queues of a slice: a QUEUE entry each with its bytes. -/
def readQueues (die : Nat) : Nat → List (BitVec 128) → Option (List Queue)
  | 0, l => if l.isEmpty then some [] else none
  | n + 1, l =>
    match l with
    | [] => some []
    | e :: r =>
      let k := ent e 32 32 / 16
      if entType e ≠ 0x8E ∨ ent e 32 32 % 16 ≠ 0 ∨ r.length < k then none
      else match readSecs die (ent e 8 3) k (r.take k) with
        | none => none
        | some xs => (readQueues die n (r.drop k)).map fun qs => ⟨ent e 8 3, xs⟩ :: qs

/-- Slices: a SLICE entry each with its bytes; a cluster slice is at most 256 KiB (R487). -/
def readSlices : Nat → List (BitVec 128) → Option (List Slice)
  | 0, l => if l.isEmpty then some [] else none
  | n + 1, l =>
    match l with
    | [] => some []
    | e :: r =>
      let k := ent e 32 32 / 16
      if entType e ≠ 0x8F ∨ ent e 32 32 % 16 ≠ 0 ∨ k = 0 ∨ r.length + 1 < k ∨ (ent e 8 4 < 4 ∧ 2 ^ 18 < ent e 32 32) then none
      else match readQueues (ent e 8 4) k (r.take (k - 1)) with
        | none => none
        | some qs => (readSlices n (r.drop (k - 1))).map fun xs => ⟨ent e 8 4, ent e 12 10, qs⟩ :: xs

/-- A card image as a card of generation `gen`; none if an entry stands where it may not. -/
def readCard (gen : Nat) (side : CardSide) (im : CardImage) : Option Card :=
  match im with
  | a :: b :: c :: d :: r =>
    let hdr := BitVec.ofNat 512 (a.toNat + 2 ^ 128 * b.toNat + 2 ^ 256 * c.toNat + 2 ^ 384 * d.toNat)
    (readSlices r.length r).map fun xs => ⟨hdr, xs, gen, side⟩
  | _ => none

/-! ## Header and slices (R487) -/

def Card.headerOk (c : Card) (s : State) : Bool :=
  c.h 0 32 == 0x44524143 && inRange 3 65535 c.measBeats && inRange 20 20000 c.lenUs && decide (rindCycles c.lenUs c.rindUs * 4 ≤ c.lenUs * 1900)
    && inRange 1 4096 c.phrase && c.sliceCount == c.slices.length && inRange 25 100 c.cap && c.rate != 3
    && floodFits s.floodHops c.lenUs (rindCycles c.lenUs c.rindUs)

/-- Resource groups given, as one bit each; none if one is given twice. -/
def sliceMask : List Slice → Nat → Option Nat
  | [], m => some m
  | x :: l, m => if m.testBit (x.die * 1024 + x.group) then none else sliceMask l (m + 2 ^ (x.die * 1024 + x.group))

/-- Every populated cluster has a slice, none twice, and no die is absent; other dies have resource group 0; a slice holds one QUEUE entry
per queue it uses. -/
def Card.slicesOk (c : Card) (s : State) : Bool :=
  c.slices.all (fun x => s.hasDie x.die && (decide (x.die < 4) || x.group == 0) && ((x.queues.map (·.num)).eraseDups.length == x.queues.length)) &&
    match sliceMask c.slices 0 with
    | some m => m % 2 ^ (s.nCd * 1024) == 2 ^ (s.nCd * 1024) - 1
    | none => false

/-! ## Static times (R493) -/

/-- Lengths of the blocks of an extent (R98). -/
def blockLens (n : Nat) : List Nat := List.replicate (n / 512) 512 ++ (if n % 512 = 0 then [] else [n % 512])

def roundUp (n k : Nat) : Nat := ceilDiv n k * k

/-- A matrix body (R98, R99, R114, R115, R118, R120, R123, R128); a block mask is not known at load, so its tiles count as skipped. -/
def matTime (d : BitVec 256) : Nat :=
  let op := mFld d 0 2
  let bf := mFld d 9 3 == 4 || mFld d 12 3 == 4
  let m := mFld d 40 24
  let n := mFld d 64 24
  let k := mFld d 88 24
  let t := if bf then 16 else 32
  let cost := fun l => let x := max (roundUp l t) t; if mFld d 20 2 = 1 then ceilDiv (max x 32) 64 else x
  if op = 3 then
    if n = 0 then 0 else if k = 0 then 24 + ceilDiv n 64 else 24 + ceilDiv (k * n) (if mFld d 12 3 = 3 then 1024 else if mFld d 12 3 = 4 then 256 else 512)
  else if op = 1 ∨ op = 2 then if m = 0 then 0 else 70 + ceilDiv m t
  else if m = 0 ∨ n = 0 then 0
  else if k = 0 then 70 + ceilDiv (m * n) 32
  else if mFld d 20 2 = 2 then
    102 + ((blockLens m).map fun l => ceilDiv k 64 * ceilDiv n 32 * max (ceilDiv (20 * roundUp l 32) 19) 32).foldl (· + ·) 0
  else
    let base := if bf then 86 else 102
    match mFld d 3 2 with
    | 0 => base + ((blockLens m).map fun l => ceilDiv k t * ceilDiv n t * cost l).foldl (· + ·) 0
    | 1 => base + ceilDiv m t * ceilDiv n t * cost k
    | _ => base + ((blockLens n).map fun l => ceilDiv m t * ceilDiv k t * cost l).foldl (· + ·) 0

def vecTime (p : List (BitVec 128)) : Nat :=
  (vSteps p.length p).foldl (fun a x => match x with | .inst v => a + instTime v | _ => a) 0

/-- Bits of an output element (Table 18.4). -/
def outBits (f : Nat) : Nat := match f with | 0 => 32 | 1 => 16 | 5 => 4 | _ => 8

/-- A GME body (R180, R181, R184, R199 to R201), PLAN_NNZ as the data quantity; `bf`: its curd's values are BF16, which the curd's header
says and the descriptor does not (log entry 17). -/
def gmeTime (bf : Bool) (d : BitVec 256) : Nat :=
  let m := gM d
  let n := gN d
  let k := gK d
  let z := gFld d 200 32
  let floor_ := ceilDiv (m * k * n) 61440
  match gOp d with
  | 0 =>
    let w := ceilDiv n 8 * (if gFld d 3 3 = 4 || bf then 6 else 1)
    max (max (64 + 256 * w * ceilDiv z 4096 + 2 * ceilDiv n 8) (64 + ceilDiv (m * n * outBits (gFmtOut d)) 1024)) floor_
  | 1 => max (64 + ceilDiv (8 * z) 5 + 32 * gFld d 232 12 + gFld d 244 12 * 512) floor_
  | 2 => 64 + ceilDiv (m * k * outBits (gFmtOut d)) 1024 + ceilDiv z 16
  | 3 => 32 + ceilDiv (m * gFld d 232 4) 16 + ceilDiv (z * k) 128
  | 4 => 32 + ceilDiv (m * gFld d 232 4 * n) 128
  | 5 => 32 + ceilDiv z 128
  | 6 => 32 + ceilDiv z 128
  | _ => let t := ceilDiv m 32 * ceilDiv m 32; 32 + ceilDiv t 16 + 2 * min z t

def Body.time (bf : Bool) (b : Body) : Nat := match b with
  | .matrix d _ => matTime d
  | .vec p => vecTime p
  | .gme d => gmeTime bf d
  | .dma d => 24 + ceilDiv (dmFld d 8 24) 2
  | .tpl _ => 0

/-! ## Bodies -/

/-- The accumulate granules of a matrix body are gradient granules, and its scale-gradient granule is one (R275, R497). -/
def State.accOk (s : State) (d x : BitVec 256) : Bool :=
  (upTo (ceilDiv (mFld d 40 24) 32)).all (fun ti => (upTo (ceilDiv (mFld d 64 24) 32)).all fun tj =>
    s.isGradKey (granKey (xFld x 0 3) (xFld x 3 26 + ti * xFld x 32 24 + tj)))
    && (!bit x.toNat 79 || (xFld x 104 3 == xFld x 0 3 && s.isSgKey (granKey (xFld x 104 3) (xFld x 107 26 + xFld x 133 27 / 1024))))

/-- Shapes that run on the thin path only, and the limits of T24, which is no DUAL figure, and of the thin path (R113, R122, R125, R127). -/
def matShapeOk (d : BitVec 256) : Bool :=
  match mFld d 0 2 with
  | 0 => mFld d 40 24 != 1 && mFld d 64 24 != 1 && (mFld d 20 2 != 2 || (mFld d 3 2 == 0 && mFld d 7 2 == 0 && mFld d 9 3 != 4 && mFld d 12 3 != 4))
  | 3 => decide (mFld d 88 24 ≤ 8192) && decide (mFld d 64 24 ≤ 4096) && (mFld d 20 2 != 2 || mFld d 12 3 != 4)
  | _ => mFld d 20 2 != 2 || (mFld d 9 3 != 4 && mFld d 12 3 != 4)

def State.matOk (s : State) (q : Nat) (d : BitVec 256) (x : Option (BitVec 256)) : Bool :=
  let op := mFld d 0 2
  (if q = 2 then op == 3 else op != 3 && mFld d 2 1 == q) && mFld d 3 2 != 3 && mFld d 7 2 != 3 && decide (mFld d 9 3 ≤ 4) && decide (mFld d 12 3 ≤ 4)
    && decide (mFld d 15 3 ≤ 5) && mFld d 20 2 != 3 && (!bit d.toNat 19 || x.isSome) && matShapeOk d
    && (match x with | some e => !bit d.toNat 19 || s.accOk d e | none => true)

/-- Opcodes of Table 18.7. -/
def vecOpcode (o : Nat) : Bool :=
  inRange 0x01 0x10 o || inRange 0x20 0x24 o || inRange 0x30 0x35 o || o == 0x38 || inRange 0x40 0x42 o || inRange 0x50 0x53 o

def instOk (v : VInst) : Bool :=
  vecOpcode v.opc && decide (v.n ≤ (if vWidth v.ts ≤ 16 ∧ vWidth v.td ≤ 16 then 8192 else 4096)) && decide (v.seg ≤ 13) && v.scl != 3
    && !((v.opc == 0x34 || v.opc == 0x35) && v.td == 3) && (!(v.opc == 0x50 || v.opc == 0x51) || inRange 1 256 v.lines)

/-- VREP entries repeat 1 to 15 instructions that lie in the body, 1 to 4,095 times, and hold no VREP, WAIT or SIGNAL. -/
def vrepOk : Nat → List (BitVec 128) → Bool
  | 0, _ => true
  | _, [] => true
  | n + 1, e :: l =>
    if entType e = 0x82 then
      decide (1 ≤ ent e 8 4) && decide (1 ≤ ent e 12 12) && decide (ent e 8 4 ≤ l.length) && (l.take (ent e 8 4)).all (fun b => decide (entType b < 0x80))
        && vrepOk n (l.drop (ent e 8 4))
    else (decide (entType e < 0x80) || entType e == 0x84 || entType e == 0x83) && vrepOk n l

def vecOk (p : List (BitVec 128)) : Bool :=
  vrepOk p.length p && (vSteps p.length p).all fun x => match x with | .inst v => instOk v | _ => true

/-- Formats, the extent of CURD_MM, the formats of SPSP_MM, assignments per token (R178, R183, R196). -/
def gmeOk (d : BitVec 256) : Bool :=
  decide (gFld d 3 3 ≤ 4) && decide (gFmtOut d ≤ 5) && (gOp d != 0 || decide (gN d ≤ 256)) && (gOp d != 1 || decide (gFmtOut d ≤ 3))
    && ((gOp d != 3 && gOp d != 4) || inRange 1 8 (gFld d 232 4))

/-- The die an endpoint names is populated (R14, R487). -/
def State.endOk (s : State) (kind a : Nat) : Bool :=
  if kind = 2 ∨ kind = 7 then decide (bits a 0 2 < s.nCd) else if 3 ≤ kind ∧ kind ≤ 5 then decide (bits a 0 3 < s.nMu) else true

/-- Bytes of a memory-update die's placement pool (R21). -/
def State.inPool (s : State) (off n : Nat) : Bool := decide (off + n ≤ s.poolUnits * 2 ^ 21)

def State.dmaOk (s : State) (d : BitVec 256) : Bool :=
  decide (dmSrc d ≤ 4) && (decide (dmDst d ≤ 3) || inRange 5 7 (dmDst d)) && decide (1 ≤ dmFld d 8 24) && (!bit d.toNat 45 || decide (1 ≤ dmFld d 46 16))
    && s.endOk (dmSrc d) (dmSa d) && s.endOk (dmDst d) (dmDa d) && (dmSrc d != 3 || s.inPool (bits (dmSa d) 3 32 * 64) (dmBytes d))
    && (dmDst d != 3 || s.inPool (bits (dmDa d) 3 32 * 64) (dmBytes d)) && (dmDst d != 5 || (dmFld d 8 24 % 64 == 0 && (upTo (dmFld d 8 24 / 64)).all fun i => s.isGradKey (granKey (bits (dmDa d) 0 3) (bits (dmDa d) 3 26 + i))))

/-- A combination of Table 18.13, its range within the operation's units where they are granules; an operation has at most a stage a
dimension and its reverse (R372), and no tensor crosses seats in a domain of one (log entry 42). -/
def State.tplOk (s : State) (die : Nat) (d : BitVec 128) : Bool :=
  let part := tplPart d
  if tplOp d = tplNoOp then
    if die < 12 then decide (part ≤ 3) else if die < 14 then part == 8 else part == 0 || part == 3
  else match s.plan.graph.bind fun g => g.op (tplOp d) with
    | none => false
    | some o =>
      if die < 12 then
        match s.param (tplOp d) with
        | none => false
        | some q =>
          (!tFrozen q.t || decide (part ≤ 3)) && q.p.mu + 4 == die && decide (tplFirst d + tplCount d ≤ granCount q.t) && decide (part ≤ 7)
            && (part != 0 || decide (uRule o ≤ 1)) && (!inRange 1 3 part || uRule o == 2) && (part != 5 || !q.p.tied.isEmpty)
      else if die < 14 then
        let most := 2 * max 1 s.openDims
        if oKind o = K.update then
          (inRange 16 31 part || (inRange 32 47 part && (s.param (tplOp d)).any fun q => !q.p.tied.isEmpty)) && decide (part % 16 < most)
        else if oKind o = K.collective then decide (part ≤ 15) && decide (part < most)
        else decide (part ≤ 15) && decide (0 < s.openDims)
      else oKind o == K.ingest && decide (part ≤ 5)

/-- The accumulate check of a body belongs to the resident graph. -/
def State.bodyOk (s : State) (die q : Nat) (b : Body) : Bool :=
  match b with
  | .matrix d x => s.matOk q d x
  | .vec p => vecOk p
  | .gme d => gmeOk d
  | .dma d => s.dmaOk d
  | .tpl d => s.tplOk die d

/-! ## Figures -/

/-- A figure program with where it stands. -/
structure Placed where
  die : Nat
  group : Nat
  queue : Nat
  pos : Nat
  rpt : Nat
  f : FigProg
deriving DecidableEq, Repr

def Card.placed (c : Card) : List Placed :=
  c.slices.flatMap fun sl => sl.queues.flatMap fun q => q.secs.flatMap fun x => x.figs.map fun f => ⟨sl.die, sl.group, q.num, x.pos, x.rpt, f⟩

def Placed.start (p : Placed) : Nat := ent p.f.fig 64 32
def Placed.dur (p : Placed) : Nat := ent p.f.fig 96 32
def Placed.cls (p : Placed) : Nat := ent p.f.fig 8 3

/-- Object bounds of WAIT and SIGNAL entries; a WAIT on a hub object only in a tail figure (Table 18.3, R229). -/
def syncEntOk (tail : Bool) (e : BitVec 128) : Bool :=
  let hub := bit e.toNat 21
  (!hub || decide (ent e 8 13 < 512)) && (if entType e = 0x84 then !hub || tail else inRange 1 65535 (ent e 32 32))

/-- A figure of its own: class, condition, identifier, times, entries, body (R35, R63, R488 to R493). -/
def State.figOk (s : State) (side : CardSide) (window : Nat) (p : Placed) : Bool :=
  let tail := p.cls == Cls.tail
  decide (p.cls ≤ 3) && ent p.f.fig 11 2 != 3 && p.f.fid % 16 == p.die && decide (p.start + p.dur ≤ window) && decide (p.f.body.time (side.curdBf.contains p.f.fid) ≤ p.dur)
    && p.f.deps.all (fun e => inRange 1 3 (ent e 8 2)) && p.f.waits.all (syncEntOk tail) && p.f.signals.all (syncEntOk tail)
    && (match p.f.body with | .vec l => (l.filter fun e => entType e == 0x84 || entType e == 0x83).all (syncEntOk tail) | _ => true)
    && (p.cls != Cls.prologue || ent p.f.fig 11 2 == 1)
    && s.bodyOk p.die p.queue p.f.body

/-- Figures of one queue follow one another: sections in ascending beats without overlap and within the measure, STARTs
ascending without overlap (R490, R492, R493). -/
def figsFollow : List FigProg → Bool
  | a :: b :: l => decide (ent a.fig 64 32 + ent a.fig 96 32 ≤ ent b.fig 64 32) && figsFollow (b :: l)
  | _ => true

def secsFollow (measBeats : Nat) : List Section → Bool
  | [] => true
  | [x] => decide (x.pos + x.rpt ≤ measBeats) && figsFollow x.figs
  | x :: y :: l => decide (x.pos + x.rpt ≤ y.pos) && figsFollow x.figs && secsFollow measBeats (y :: l)

/-- Identifiers of one die differ after repetition (R488). -/
def fidsDiffer : List Placed → Bool
  | [] => true
  | p :: l => l.all (fun q => p.die != q.die || decide (p.f.fid / 16 + p.rpt ≤ q.f.fid / 16) || decide (q.f.fid / 16 + q.rpt ≤ p.f.fid / 16)) && fidsDiffer l

/-- The producers of a figure stand in the card, not later than it, and on another die in an earlier beat, a figure in the beat
after its producer's starting at cycle 128 or later (R40, R63, R491). -/
def Card.depsOk (c : Card) (p : Placed) : Bool :=
  p.f.deps.all fun e => (upTo p.rpt).all fun r => (depFids e r).all fun fid =>
    match c.fig fid with
    | none => false
    | some g =>
      if g.die = p.die then decide (g.pos ≤ p.pos + r)
      else decide (g.pos < p.pos + r) && (decide (g.pos + 1 < p.pos + r) || decide (128 ≤ p.start))

/-- An update slice: TPL parts 0 to 3 of a memory-update die. -/
def Body.isUpdate (die : Nat) (b : Body) : Bool := match b with
  | .tpl d => inRange 4 11 die && tplOp d != tplNoOp && decide (tplPart d ≤ 3)
  | _ => false

def Body.isVerdict (die : Nat) (b : Body) : Bool := match b with
  | .tpl d => inRange 12 13 die && tplOp d == tplNoOp && tplPart d == 8
  | _ => false

/-- The order of R36 in a card for a graph with an update step: chain figures not after the verdict figure's beat (the ingest of
the next measure apart), only update slices mandatory after it, update slices only after it, nothing mandatory in the seal beat
(R63). A measure of such a graph contains its one verdict figure and update slices. -/
def Card.orderOk (c : Card) (update : Bool) : Bool :=
  let ps := c.placed
  let last := fun (p : Placed) => p.pos + p.rpt - 1
  match c.verdictPos with
  | none => !update
  | some v =>
    decide (v + 3 ≤ c.measBeats) && (ps.all fun p => !(p.f.body.isVerdict p.die) || (p.pos == v && p.rpt == 1)) && (!update || ps.any fun p => p.f.body.isUpdate p.die) && ps.all fun p =>
      (p.cls != Cls.chain || p.die == 14 || decide (last p ≤ v))
        && (p.cls != Cls.mandatory || decide (last p + 1 < c.measBeats))
        && (p.cls != Cls.mandatory || decide (last p ≤ v) || (decide (v < p.pos) && p.f.body.isUpdate p.die))
        && (!p.f.body.isUpdate p.die || decide (v < p.pos))

/-- Ranges in order that follow one another from unit `n` on; where they end. -/
def follow : Nat → List (Nat × Nat) → Option Nat
  | n, [] => some n
  | n, x :: l => if x.1 = n then follow (n + x.2) l else none

/-- A figure that carries part of an operation: where it runs, and its range. -/
structure TplUse where
  die : Nat
  mb : Nat
  pos : Nat
  start : Nat
  d : BitVec 128
deriving DecidableEq, Repr

/-- The figures of the card on the dies from `lo` to `hi` that belong to an operation, each repetition by itself, in order of beat and START. -/
def Card.tplUses (c : Card) (lo hi : Nat) : List TplUse :=
  (c.slices.flatMap fun sl => if !inRange lo hi sl.die then [] else sl.queues.flatMap fun q => q.secs.flatMap fun x => x.figs.flatMap fun f =>
    match f.body with
    | .tpl d => if tplOp d = tplNoOp then [] else (upTo x.rpt).map fun r => let g := f.inst sl q x r; ⟨g.die, g.mb, g.pos, g.start, d⟩
    | _ => []).mergeSort fun a b => decide (a.pos < b.pos) || (a.pos == b.pos && decide (a.start ≤ b.start))

def TplUse.range (u : TplUse) : Nat × Nat := (tplFirst u.d, tplCount u.d)
def TplUse.same (u v : TplUse) : Bool := tplOp u.d == tplOp v.d && tplPart u.d == tplPart v.d && u.mb == v.mb

/-- Flits of the largest tensor an operation names (R357). -/
def Graph.opFlits (g : Graph) (o : BitVec 1024) : Nat :=
  (oIns o ++ oOuts o).foldl (fun n h => max n (37 * ((g.tensor h).elim 0 fun t => ceilDiv (tElems t) 1024))) 0

/-- On the memory-update dies the ranges of one part of one operation cover its granules without gap or overlap; on the link dies those of one
stage follow one another within the flits of the operation, those of scale gradients from their own first flit (R502; log entry 42). -/
def Card.rangesOk (c : Card) (s : State) : Bool :=
  let ms := c.tplUses 4 11
  let ls := c.tplUses 12 13
  (ms.all fun u => match s.param (tplOp u.d) with
    | none => false
    | some q => follow 0 ((ms.filter u.same).map TplUse.range) == some (granCount q.t))
  && ls.all fun u =>
    let mine := (ls.filter u.same).map TplUse.range
    match s.param (tplOp u.d), s.plan.graph.bind fun g => (g.op (tplOp u.d)).map g.opFlits with
    | some q, _ =>
      let per := if uRule q.op = 1 ∧ tplPart u.d < 32 then 2 else 37
      let base := sgIndex * per
      (follow 0 (mine.filter fun x => decide (x.1 < base))).any (fun e => decide (e ≤ granCount q.t * per))
        && (follow base (mine.filter fun x => decide (base ≤ x.1))).any fun e => decide (e ≤ base + q.p.scaleCount * per)
    | none, some n => (follow 0 mine).any fun e => decide (e ≤ n)
    | none, none => false

/-- The passes of a FACTORED shard are all planned or none, no later pass in an earlier beat than an earlier one (R303, R310). -/
def Card.passesOk (c : Card) : Bool :=
  let us := (c.tplUses 4 11).filter fun u => inRange 1 3 (tplPart u.d)
  us.all fun u => [1, 2, 3].all fun k =>
    let vs := us.filter fun v => tplOp v.d == tplOp u.d && tplPart v.d == k
    !vs.isEmpty && vs.all fun v => if k < tplPart u.d then decide (v.pos ≤ u.pos) else if tplPart u.d < k then decide (u.pos ≤ v.pos) else true

/-- DUAL figures stand in pairs (R104, R496). DESIGN CHOICE (log entry 70): a DUAL descriptor with another STAT, ORIENT or ACCW than R104's is neither
refused nor given another meaning by a rule, so it is accepted and runs as its fields say. -/
def Card.dualOk (c : Card) : Bool :=
  let ms := c.placed.filterMap fun p => match p.f.body with | .matrix d _ => some (p, d) | _ => none
  let at_ := fun (p : Placed) (q : Placed) => p.die == q.die && p.group == q.group && p.start == q.start
    && (upTo p.rpt).all fun r => decide (q.pos ≤ p.pos + r) && decide (p.pos + r < q.pos + q.rpt)
  ms.all fun x =>
    match mFld x.2 7 2 with
    | 1 => x.1.queue == 0 && ms.any fun y => y.1.queue == 1 && mFld y.2 7 2 == 2 && at_ x.1 y.1 && mFld x.2 112 15 == mFld y.2 128 15
        && mFld x.2 9 3 == mFld y.2 12 3
    | 2 => x.1.queue == 1 && ms.any fun y => y.1.queue == 0 && mFld y.2 7 2 == 1 && at_ x.1 y.1
    | _ => true

/-- Two figures overlap in some beat and in time. -/
def Placed.overlap (p q : Placed) : Bool :=
  decide (p.pos < q.pos + q.rpt) && decide (q.pos < p.pos + p.rpt) && decide (p.start < q.start + q.dur) && decide (q.start < p.start + p.dur)

/-- Objects that entries of a type name. -/
def objsOf (type : Nat) (l : List (BitVec 128)) : List Nat := (l.filter fun e => entType e == type).map fun e => ent e 8 14

/-- Instructions of a vector body that no sync object orders against a figure with these waits and signals: before them no WAIT of the body
is on a signalled object, after them no SIGNAL of it on an awaited one (R129). -/
def unordered (waits signals : List Nat) : Bool → List VStep → List VInst
  | _, [] => []
  | done, .inst v :: l => (if done || l.any (fun y => match y with | .signal e => waits.contains (ent e 8 14) | _ => false) then [] else [v]) ++ unordered waits signals done l
  | done, .wait e :: l => unordered waits signals (done || signals.contains (ent e 8 14)) l
  | done, .signal _ :: l => unordered waits signals done l

/-- Those of figure `q` against figure `p`. -/
def FigProg.loose (p q : FigProg) : List VInst := match q.body with
  | .vec l =>
    let w := objsOf 0x84 p.waits
    let g := objsOf 0x83 p.signals
    if (objsOf 0x84 q.waits).any g.contains || (objsOf 0x83 q.signals).any w.contains then [] else unordered w g false (vSteps l.length l)
  | _ => []

/-- Vector registers an instruction writes: DST, the next with a result past 16 KiB, and the scale register of an ENCODE with SCL 2. -/
def VInst.writes (v : VInst) : List Nat :=
  if inRange 0x0A 0x0D v.opc || inRange 0x51 0x53 v.opc then []
  else
    let n := if v.opc = 0x50 then v.lines * 64
      else if inRange 0x30 0x33 v.opc then ceilDiv (vSegs v * vWidth v.td) 8
      else if v.opc = 0x34 ∨ v.opc = 0x35 then 4 * vSegs v
      else if v.opc = 0x40 ∨ v.opc = 0x41 then ceilDiv (2 * vSegs v * vWidth v.td) 8
      else ceilDiv (v.n * vWidth v.td) 8
    v.dst :: ((if 16384 < n then [(v.dst + 1) % 16] else []) ++ if v.opc = 0x0F ∧ v.scl = 2 then [v.src2] else [])

/-- Registers a thin-path figure reads or writes: an FP32 x of more than 4,096 elements lies in two. -/
def thinRegs (d : BitVec 256) : List Nat :=
  [mFld d 112 4, mFld d 144 4] ++ if mFld d 9 3 ≠ 4 ∧ 4096 < mFld d 88 24 then [(mFld d 112 4 + 1) % 16] else []

/-- The registers of a thin-path figure are written by no overlapping vector body at an instruction that no sync object orders (R129). -/
def Card.thinOk (c : Card) : Bool :=
  let ps := c.placed
  ps.all fun p => match p.f.body with
    | .matrix d _ => mFld d 0 2 != 3 || ps.all fun q => p.die != q.die || p.group != q.group || !p.overlap q
        || (p.f.loose q.f).all fun v => v.writes.all fun r => !(thinRegs d).contains r
    | _ => true

/-- Sequencer entries (R494, Table 18.3), and no vat accessed below cycle 64 of a beat that sets it. -/
def Card.seqOk (c : Card) : Bool :=
  c.slices.all fun sl => sl.queues.all fun q => q.num != 7 || decide (4 ≤ sl.die) || q.secs.all fun x =>
    x.seq.all (fun e => (entType e != 0x87 || ent e 32 32 % 16 == 0) && (entType e != 0x88 || ent e 21 2 != 3))
      && (let ats := (x.seq.filter fun e => entType e == 0x87).map fun e => ent e 32 32; ats.eraseDups.length == ats.length)
      && (x.seq.filter fun e => entType e == 0x85 || entType e == 0x86).all fun e =>
        (upTo x.rpt).all fun r => (c.figsAt (x.pos + r)).all fun f =>
          decide (64 ≤ f.start) || (f.pops != some (vatKey sl.die sl.group (ent e 8 6)) && f.pushes != some (vatKey sl.die sl.group (ent e 8 6)))

/-! ## Vats (R217, R219, R501) -/

/-- VAT_SET entries of a card: vat and entry. -/
def Card.vatSets (c : Card) : List (Nat × Nat) :=
  (c.seqAll.filter fun x => entType x.2.2 == 0x85).map fun x => (vatKey x.1 x.2.1 (ent x.2.2 8 6), ent x.2.2 32 21)

/-- Vat accesses of a card: push or pop, vat, and the resource that makes them. -/
def Card.vatUses (c : Card) : List (Bool × Nat × Nat × Nat × Nat) :=
  c.slices.flatMap fun sl => sl.queues.flatMap fun q => q.secs.flatMap fun x => x.figs.flatMap fun f =>
    let g := f.inst sl q x 0
    g.pops.toList.map (fun k => (false, k, sl.die, sl.group, q.num)) ++ g.pushes.toList.map fun k => (true, k, sl.die, sl.group, q.num)

/-- Vats lie in their slice; every vat a figure accesses is set as a planned vat, with one producer resource and one consumer
resource; expected pointers are multiples of 64. -/
def Card.vatsOk (c : Card) : Bool :=
  let sets := c.vatSets
  let uses := c.vatUses
  sets.all (fun v => inRange 1 512 (vatUnits v.2) && decide (vatBase v.2 + vatUnits v.2 ≤ 512))
    && (c.seqAll.filter fun x => entType x.2.2 == 0x86).all (fun x => ent x.2.2 32 21 % 64 == 0 && ent x.2.2 64 21 % 64 == 0)
    && uses.all (fun u => let mine := sets.filter fun v => v.1 == u.2.1 && bit v.2 20; !mine.isEmpty && mine.all fun v => vatPlanned v.2)
    && uses.all fun u => uses.all fun v => u.1 != v.1 || u.2.1 != v.2.1 || u.2.2 == v.2.2

/-! ## Bank power (R222, R224) -/

/-- Lines of a stored matrix of whole tiles (R97). -/
def tileLines (rows cols side bitsEach : Nat) : Nat := ceilDiv rows side * ceilDiv cols side * (side * side * bitsEach / 512)

/-- Lines that hold `n` bytes. -/
def lineCount (n : Nat) : Nat := ceilDiv n 64

/-- Lines of the scales of a coded operand; of K-blocks at least, whichever axis they lie on (R139). -/
def scaleLines (fmt gran rows cols : Nat) : Nat :=
  if fmt = 2 ∨ fmt = 3 then lineCount (4 * min (groupCount gran true rows cols) (groupCount gran false rows cols)) else 0

/-- Lines of a stored weight: whole tiles, or those of T24 (R189). -/
def weightLines (d : BitVec 256) : Nat :=
  if mSparse d = 2 then ceilDiv (mK d) 64 * ceilDiv (mN d) 32 * (2 * aWidth (mFmtB d) + 2) else tileLines (mK d) (mN d) (aTile (mFmtB d)) (aWidth (mFmtB d))

/-- Least lines of the block mask of a product: one bit a tile of the grid it covers (R119, R185). -/
def maskLinesOf (d : BitVec 256) : Nat :=
  let grid := fun (x y : Nat) => lineCount (ceilDiv (ceilDiv x 32 * ceilDiv y 32) 8)
  if mPair d = 2 then grid (mM d) (mN d)
  else match mStat d with
    | 0 => grid (mK d) (mN d)
    | 1 => min (grid (mM d) (mK d)) (grid (mK d) (mN d))
    | _ => grid (mM d) (mK d)

/-- Lines a matrix body reads at addresses and extents its descriptor fixes, as (first line, lines): operands, scales, bias, block mask, token
count, code tiles (Tables 18.4, 18.5). -/
def matReads (d : BitVec 256) (x : Option (BitVec 256)) : List (Nat × Nat) :=
  let op := mOp d
  let scales := fun (gm gn gk : Nat) => [(mFld d 160 15, scaleLines (mFmtA d) (mFld d 36 2) gm gk), (mFld d 176 15, scaleLines (mFmtB d) (mFld d 38 2) gk gn)]
  if op = 3 then [(mFld d 128 15, weightLines d), (mFld d 176 15, if mK d = 0 ∨ mN d = 0 then 0 else scaleLines (mFmtB d) (mFld d 38 2) (mK d) (mN d))]
  else if op = 1 ∨ op = 2 then
    [(mFld d 112 15, ceilDiv (mM d * aWidth (mFmtA d)) 512), (mFld d 128 15, ceilDiv (mM d * aWidth (mFmtB d)) 512),
     (mFld d 192 15, if op = 2 then lineCount (4 * mM d) else 0)] ++ if mM d = 0 then [] else scales 1 (mM d) 1
  else if mM d = 0 ∨ mN d = 0 then []
  else (mFld d 192 15, if mInit d then lineCount ((if mBias16 d then 2 else 4) * mN d) else 0) ::
    if mK d = 0 then []
    else [(mFld d 112 15, tileLines (mM d) (mK d) (aTile (mFmtA d)) (aWidth (mFmtA d))), (mFld d 128 15, weightLines d)] ++ scales (mM d) (mN d) (mK d)
      ++ [(mFld d 208 15, if mSparse d = 1 then maskLinesOf d else 0)]
      ++ match x with
        | some e => if mAccw d then [(xFld e 64 15, 1),
            (xFld e 80 15, if bit e.toNat 79 then ceilDiv (mM d) 32 * ceilDiv (mN d) 32 * (if bit e.toNat 95 then 8 else 16) else 0)] else []
        | none => []

/-- Lines a matrix body writes: results, their data scales, zero words. -/
def matWrites (d : BitVec 256) : List (Nat × Nat) :=
  let coded := decide (4 ≤ mFmtOut d)
  if mOp d = 3 then []
  else if mOp d = 1 ∨ mOp d = 2 then
    [(mFld d 144 15, ceilDiv (mM d * oWidth (mFmtOut d)) 512), (mFld d 240 15, if coded then lineCount (4 * ceilDiv (mM d) 32) else 0),
     (mFld d 224 15, if mZmap d then lineCount (8 * ceilDiv (mM d) 1024) else 0)]
  else if mM d = 0 ∨ mN d = 0 then []
  else [(mFld d 224 15, if mZmap d then lineCount (8 * ceilDiv (mM d) 32 * ceilDiv (mN d) 32) else 0)]
    ++ if mAccw d then [] else [(mFld d 144 15, tileLines (mM d) (mN d) (oTile (mFmtOut d)) (oWidth (mFmtOut d))),
      (mFld d 240 15, if coded then lineCount (4 * mM d * ceilDiv (mN d) 32) else 0)]

/-- Lines of dense results and the data scales behind them (R144; log entry 70). -/
def denseOut (d : BitVec 256) (n : Nat) : List (Nat × Nat) :=
  let m := gM d
  let main := tileLines m n (oTile (gFmtOut d)) (oWidth (gFmtOut d))
  [(gFld d 152 15, main), (gFld d 152 15 + main, if 4 ≤ gFmtOut d then lineCount (4 * m * ceilDiv n 32) else 0)]

/-- Lines a GME body reads: headers, tables, dense rows and bias at extents the descriptor fixes; what a header, a table or an offset points to
only the run tells. -/
def gmeReads (d : BitVec 256) : List (Nat × Nat) :=
  let src := gFld d 104 15
  let src2 := gFld d 120 15
  let dense := gFld d 136 15
  let aux := gFld d 184 15
  let table := lineCount (4 * gM d * gFld d 232 4)
  match gOp d with
  | 0 => [(src, 1), (dense, tileLines (gK d) (gN d) (aTile (gFld d 3 3)) (aWidth (gFld d 3 3))),
      (gFld d 168 15, if gK d = 0 ∨ gN d = 0 then 0 else scaleLines (gFld d 3 3) (gFld d 17 2) (gK d) (gN d)), (aux, if bit d.toNat 10 then lineCount (4 * gN d) else 0)]
  | 1 => [(src, 1), (src2, 1), (gFld d 152 15, 1)]
  | 2 => [(src, 1)]
  | 3 => [(src, table), (dense, lineCount (gM d * gK d)), (aux, lineCount (4 * gFld d 236 16))]
  | 4 => [(src, table), (src2, table)]
  | 5 => [(src, lineCount (8 * gFld d 232 24))]
  | 6 => [(src, lineCount (4 * (gFld d 232 24 + 1))), (src2, lineCount (8 * gFld d 232 24))]
  | _ => [(src, lineCount (4 * (gN d + 1)))]

/-- Lines a GME body writes. -/
def gmeWrites (d : BitVec 256) : List (Nat × Nat) :=
  let dst := gFld d 152 15
  match gOp d with
  | 0 => denseOut d (gN d)
  | 2 => denseOut d (gK d)
  | 3 => [(gFld d 120 15, lineCount (4 * gM d * gFld d 232 4))]
  | 4 => let main := lineCount (ceilDiv (gM d * gN d * oWidth (gFmtOut d)) 8)
    [(dst, main), (dst + main, if 4 ≤ gFmtOut d then lineCount (4 * gM d * ceilDiv (gN d) 32) else 0)]
  | 5 => [(gFld d 184 15, lineCount (4 * (gFld d 232 24 + 1)))]
  | 7 => [(dst, lineCount (8 * ceilDiv (ceilDiv (gM d) 32 * ceilDiv (gM d) 32) 64))]
  | _ => []

/-- Loads or stores of a vector body. -/
def vecLines (store : Bool) (p : List (BitVec 128)) : List (Nat × Nat) :=
  (vSteps p.length p).filterMap fun y => match y with
    | .inst v => if v.opc = 0x50 + store.toNat then some (v.addr, v.lines) else if v.opc = 0x52 + store.toNat then some (v.addr, v.maskLines) else none
    | _ => none

/-- Lines of a DMA endpoint in scratchpads: its own slice (die, cluster) or another cluster's. -/
def dmaLines (die group kind addr n : Nat) : List (Nat × Nat × Nat × Nat) :=
  if kind = 0 then [(die, group, bits addr 0 15, n)]
  else if kind = 2 then let c := dmCluster addr; [(c.1, c.2.1, c.2.2, n)] else []

/-- Lines of any slice that a figure reads, as (die, cluster, first line, lines). -/
def Placed.reads (p : Placed) : List (Nat × Nat × Nat × Nat) :=
  let own := fun (l : List (Nat × Nat)) => (l.filter fun x => x.2 != 0).map fun x => (p.die, p.group, x.1, x.2)
  match p.f.body with
  | .matrix d x => own (matReads d x)
  | .vec l => own (vecLines false l)
  | .gme d => own (gmeReads d)
  | .dma d => dmaLines p.die p.group (dmSrc d) (dmSa d) (dmFld d 8 24) ++ own [(dmFld d 192 15, if dmDst d = 5 then 1 else 0)]
  | .tpl _ => []

/-- Lines of any slice that a figure writes. -/
def Placed.stores (p : Placed) : List (Nat × Nat × Nat × Nat) :=
  let own := fun (l : List (Nat × Nat)) => (l.filter fun x => x.2 != 0).map fun x => (p.die, p.group, x.1, x.2)
  match p.f.body with
  | .matrix d _ => own (matWrites d)
  | .vec l => own (vecLines true l)
  | .gme d => own (gmeWrites d)
  | .dma d => dmaLines p.die p.group (dmDst d) (dmDa d) (dmFld d 8 24)
  | .tpl _ => []

def Placed.lines (p : Placed) : List (Nat × Nat × Nat × Nat) := p.reads ++ p.stores

/-- Every line a body names lies in the slice it addresses: a cluster reaches no other's (R16, R209). -/
def Card.boundsOk (c : Card) : Bool := c.placed.all fun p => p.lines.all fun l => decide (l.2.2.1 + l.2.2.2 ≤ 32768)

/-- Vat endpoints of a DMA: whether it pushes, vat, record bytes. -/
def FigProg.vatEnds (f : FigProg) (die group : Nat) : List (Bool × Nat × Nat) :=
  match f.body with
  | .dma d => ([(false, dmSrc d, dmSa d), (true, dmDst d, dmDa d)].filterMap fun e =>
      if e.2.1 = 1 then some (e.1, vatKey die group (bits e.2.2 0 6), dmBytes d)
      else if e.1 ∧ e.2.1 = 7 then some (e.1, vatKey (bits e.2.2 0 2) (bits e.2.2 2 10) (bits e.2.2 12 6), dmBytes d) else none)
  | _ => []

/-- Bytes moved through one end of a vat in beat `pos` before cycle `start`. -/
def Card.vatMoved (c : Card) (push : Bool) (key pos start : Nat) : Nat :=
  c.placed.foldl (fun n p => if p.pos ≤ pos ∧ pos < p.pos + p.rpt ∧ p.start < start then
    (p.f.vatEnds p.die p.group).foldl (fun m e => if e.1 == push && e.2.1 == key then m + e.2.2 else m) n else n) 0

/-- Lines of vats a figure uses in beat `pos`: its record's, from the pointer the card expects in that beat; without expected values those of a
record of 1 KiB or more, which spreads over every bank (R210, R218, R221). -/
def Card.vatLines (c : Card) (p : Placed) (pos : Nat) : List (Nat × Nat × Nat × Nat) :=
  (p.f.vatEnds p.die p.group).flatMap fun e =>
    match c.vatSets.find? fun v => v.1 == e.2.1 with
    | none => []
    | some v =>
      let at_ := fun (i : Nat) => (e.2.1 / 65536, e.2.1 / 64 % 1024, vatBase v.2 * 64 + i % (64 * max 1 (vatUnits v.2)), 1)
      match (c.seqAt pos).find? fun x => entType x.2.2 == 0x86 && vatKey x.1 x.2.1 (ent x.2.2 8 6) == e.2.1 with
      | some x => (upTo (lineCount e.2.2)).map fun i => at_ (((if e.1 then ent x.2.2 64 21 else ent x.2.2 32 21) + c.vatMoved e.1 e.2.1 pos p.start) / 64 + i)
      | none => if e.2.2 < 1024 then [] else (upTo 16).map at_

/-- The card that a next one follows: one that waits to swap, else the one in force. -/
def State.before (s : State) : Option Card := s.plan.next.orElse fun _ => s.plan.card

/-- Banks that are off in the beat before position `pos`: at position 0 the last beat of the measure, or before the swap that of the card
that this one follows. -/
def Card.offBefore (c : Card) (s : State) (pos : Nat) : List Nat :=
  if pos = 0 then c.offAt (c.measBeats - 1) ++ (match s.before with | some b => b.offAt (b.measBeats - 1) | none => []) else c.offAt (pos - 1)

/-- No planned access targets a bank that is off, or one that wakes before cycle 2,304 (R222, R224). -/
def Card.banksOk (c : Card) (s : State) : Bool :=
  (c.side.banks.isEmpty && s.before.all fun b => b.side.banks.isEmpty) || c.placed.all fun p => (upTo p.rpt).all fun r =>
    let off := c.offAt (p.pos + r)
    let woken := c.offBefore s (p.pos + r)
    (p.lines ++ c.vatLines p (p.pos + r)).all fun l => (upTo l.2.2.2).all fun i =>
      let b := bankKey l.1 l.2.1 (bankOf (s.get (F.CD_SP_CFG_MODE.cd l.1) == 1) ((l.2.2.1 + i) * 64))
      !off.contains b && (!woken.contains b || decide (2304 ≤ p.start))

/-! ## Templates (R75) -/

/-- The template of a figure: a TPL entry without its first unit. -/
def Fig.template (f : Fig) : Template :=
  ⟨f.die, f.group, f.queue, f.cls, match f.body with | .tpl d => .tpl (BitVec.ofNat 128 (setBits d.toNat 64 32 0)) | b => b⟩

/-- What a list of records says of a template: longest time and highest quantities; none where it has no record. -/
def tmplGet (l : List (Template × Nat × List Nat)) (k : Template) : Option (Nat × List Nat) := (l.find? fun x => x.1 == k).map (·.2)

/-- CHAIN, MAND and PRO of PLC_MARGIN as it stands, HEADROOM, and each die's GAP: what a build starting now plans with (R87). -/
def State.buildCfg (s : State) : Nat × Nat × List Nat :=
  (tGet s.regs 0x10004, s.get F.PLC_PLAN_CFG_HEADROOM, (upTo s.nMu).map fun mu => s.get (F.MU_ARB_CFG_GAP.mu mu))

/-! ## Energy (R79, Table 3.6) -/

/-- Data bytes of one slot, and of the four read and four write slots an accumulate write to one granule is planned with (R269, R276). -/
def slotBytes : Nat := 992
def accBytes : Nat := 8 * slotBytes

/-- Bits of T1 traffic per parameter that a TPL body of a memory-update die is planned with (Table 11.3); each pass of FACTORED reads the
gradient, the last the master too, which it writes; the gather-add reads every buffer and writes the first (R244). -/
def Param.traffic (q : Param) (part : Nat) : Nat := match part with
  | 0 => if uRule q.op = 1 then 65 else 96
  | 1 => 32
  | 2 => 32
  | 3 => 96
  | 4 => 32 + wcWidth q.t
  | 5 => 32 * (q.p.tied.length + 2)
  | 6 => 32
  | _ => if uRule q.op = 1 then 1 else 32

/-- Bytes the planned T1 accesses of a figure move on die `mu`: the lines of a DMA, accumulate writes as reads and writes (R276), the
traffic of Table 11.3 for a TPL range of granules, a read and a write of each granule for work of no operation. -/
def State.t1Bytes (s : State) (f : Fig) (mu : Nat) : Nat := match f.body with
  | .dma d => (if (dmSrc d = 3 ∨ dmSrc d = 4) ∧ bits (dmSa d) 0 3 = mu then dmBytes d else 0)
      + if bits (dmDa d) 0 3 = mu then (if dmDst d = 3 then dmBytes d else if dmDst d = 5 then ceilDiv (dmBytes d) 4096 * accBytes else 0) else 0
  | .matrix d (some x) => if bit d.toNat 19 ∧ xFld x 0 3 = mu then ceilDiv (mFld d 40 24) 32 * ceilDiv (mFld d 64 24) 32 * accBytes else 0
  | .tpl d =>
    if f.die ≠ 4 + mu then 0
    else if tplOp d = tplNoOp then tplCount d * 8192
    else match s.param (tplOp d) with
      | some q => tplCount d * 128 * q.traffic (tplPart d)
      | none => 0
  | _ => 0

/-- LPDDR5X data rates in MT/s (R81). -/
def rateMt (rate : Nat) : Nat := match rate with | 0 => 10667 | 1 => 8533 | _ => 7500

/-- The figure of the hub die writes the cellar: a drain, a mirror or shipment (Table 18.13). -/
def Fig.onCellar (f : Fig) : Bool := match f.body with
  | .tpl d => tplOp d == tplNoOp
  | _ => false

/-- Power in W of a figure's class at full rate, and the instances of the class (Table 3.6, Tables 1.1, 1.2). DESIGN CHOICE (log entry 68):
the hub die's class has 87 instances, the ingest units of Table 12.1, which Table 3.6 does not count. -/
def State.figPower (s : State) (f : Fig) : Nat × Nat :=
  let v := s.vg4
  if f.die < 4 then
    if f.queue ≤ 1 then (if v then 2100 else 1050, s.nCd * 2048)
    else if f.queue ≤ 4 then (if v then 220 else 110, s.nCd * 3072)
    else (if v then 150 else 75, s.nCd * 2048)
  else if f.die < 12 then (if v then 70 else 35, s.nMu)
  else if f.die < 14 then (if v then 40 else 20, if v then 18 else 10)
  else if f.onCellar then (if v then 30 else 15, 1)
  else (50, 87)

/-- Energy of the LPDDR5X slots a figure's T1 accesses take, in milliwatt-cycles at coefficients of 1: the class power in proportion to
the rate, over the channels of the module, for 512 transfers a slot; DESIGN CHOICE (log entry 68): a part of a milliwatt-cycle is cut off (R81,
R269). -/
def State.slotEnergy (s : State) (f : Fig) : Nat :=
  (upTo s.nMu).foldl (fun n mu =>
    n + (if s.vg4 then 170 else 85) * 1000 * ceilDiv (s.t1Bytes f mu) slotBytes * (1900 * 512) / (10667 * (24 * s.nMu))) 0

/-- Planned energy of a beat, in milliwatt-cycles. -/
def State.beatEnergy (s : State) (c : Card) (pos : Nat) : Nat :=
  (if s.vg4 then 550 else 297) * 1000 * (c.lenUs * 1900) + (c.figsAt pos).foldl (fun a f =>
    let p := s.figPower f
    a + (p.1 * 1000 * f.dur * s.plan.coefMil / (1000 * p.2) + s.slotEnergy f * s.plan.coefMil / 1000)) 0

def Card.energyOk (c : Card) (s : State) : Bool :=
  (upTo c.measBeats).all fun p => decide (s.beatEnergy c p ≤ s.tdp * 10 * c.cap * (c.lenUs * 1900))

/-! ## Slots for refresh (R270, R271, R502) -/

/-- Data bandwidth of a die before refresh, in bytes per second (Table 10.2). -/
def t1DataRate (rate : Nat) : Nat := match rate with | 0 => 496 * 10 ^ 9 | 1 => 3968 * 10 ^ 8 | _ => 3488 * 10 ^ 8

/-- Slots per 1,000 that refresh takes on die `mu` at the rate the next card plans. -/
def State.refreshShare (s : State) (mu : Nat) : Nat :=
  match (if s.hostCards then s.planRates else s.t1.refNext).getD mu 0 with
  | 0 => s.get (F.MU_REF_COST_X1.mu mu)
  | 1 => s.get (F.MU_REF_COST_X2.mu mu)
  | _ => s.get (F.MU_REF_COST_X4.mu mu)

/-- In every beat the T1 figures of each die leave the refresh share of its planned window (R502; log entry 60). -/
def Card.refreshOk (c : Card) (s : State) (window : Nat) : Bool :=
  (upTo c.measBeats).all fun pos => let figs := c.figsAt pos
    figs.isEmpty || (upTo s.nMu).all fun mu =>
      decide ((figs.foldl (fun n f => n + s.t1Bytes f mu) 0) * 1000 * (19 * 10 ^ 8) ≤ t1DataRate c.rate * (1000 - s.refreshShare mu) * window)

/-- No entry of a slot table holds a reserved owner code: 16 codes of 4 bits a row (R216, Table 8.2). -/
def slotsOk (side : CardSide) : Bool := side.slots.all fun e => (upTo 16).all fun b => decide (bits e.2 (4 * b) 4 ≤ 10)

/-- Codebook slots: at most 64 on a populated cluster, each filled once, by a codebook of the graph (R136). -/
def State.slotCbsOk (s : State) (side : CardSide) : Bool :=
  (side.cb.map (·.1)).eraseDups.length == side.cb.length
    && side.cb.all fun x => decide (x.1 < s.nCd * 1024 * 64) && s.plan.graph.any fun g => (g.codebook x.2).isSome

/-- First 2 MiB unit of a die's share of the host window, above the shuffle pool (R266). -/
def State.winUnit (s : State) : Nat := 95232 - s.get F.HUB_WIN_CFG_SIZE_MIB / s.nMu / 2

/-- Page-table entries of the next card (Table 3.4): a valid one names a populated die and a page of its pool, or of the window if HOST_WIN
says so, and T2 only for a page of an eligible tensor (R21, R22); no migration has set SHADOW yet. -/
def State.pagesOk (s : State) (side : CardSide) : Bool :=
  side.pages.all fun e => !bit e.2 0 || (!bit e.2 1 && match bits e.2 2 2 with
    | 0 => decide (bits e.2 4 3 < s.nMu) && (if bit e.2 7 then decide (s.winUnit ≤ bits e.2 8 32) && decide (bits e.2 8 32 < 95232) else decide (bits e.2 8 32 < s.poolUnits))
    | 1 => !bit e.2 7 && s.plan.graph.any fun g => side.pageOf.any fun x => x.1 == e.1 && (g.tensor x.2).any tT2
    | _ => false)

/-- Frames of the placement pool that pages in force hold, as (die, unit). -/
def poolFrames (t : Tab) : List (Nat × Nat) := (t.filter fun e => bit e.2 0 && bits e.2 2 2 == 0 && !bit e.2 7).map fun e => (bits e.2 4 3, bits e.2 8 32)

/-- The frames of the next card are those ALLOC returns to its build or those that pages hold already, moves go to frames of this build, and what
the card gives up is allocated and held by none of its pages (R273, R274). -/
def State.framesOk (s : State) (side : CardSide) : Bool :=
  let got := allocTaken side.allocs s.t1.free
  let held := poolFrames s.plan.pages
  (poolFrames side.pages).all (fun x => (inBlocks got x.1 x.2 || held.contains x) && !inBlocks side.frees x.1 x.2)
    && side.moves.all (fun m => inBlocks got m.2.2.2.1 (m.2.2.2.2 / 2 ^ 21))
    && side.frees.all fun b => b.2.1 % 2 ^ b.2.2 == 0 && decide (b.2.1 + 2 ^ b.2.2 ≤ s.poolUnits)
      && s.t1.free.all fun f => f.1 != b.1 || decide (f.2.1 + 2 ^ f.2.2 ≤ b.2.1) || decide (b.2.1 + 2 ^ b.2.2 ≤ f.2.1)

/-- Bytes of the working copy a parameter has in T1: none for a trainable FP32 parameter, whose master serves. -/
def wcHeld (t : BitVec 512) : Nat := if tFormat t = 0 ∧ tTrainable t then 0 else wcBytes t

/-- A move leaves a working copy whole: one that reaches into it stays on the die, and moves of all its units shift them alike (R69, R73). -/
def State.moveKeeps (s : State) (side : CardSide) (m : Nat × Nat × Nat × Nat × Nat) : Bool :=
  s.places.all fun p => match s.tensorOf p.handle with
    | none => true
    | some t =>
      p.mu != m.2.1 || wcHeld t == 0 || decide (p.wcAddr + wcHeld t ≤ m.2.2.1) || decide (m.2.2.1 + 2 ^ 21 ≤ p.wcAddr)
        || (m.2.2.2.1 == p.mu && (upTo ((p.wcAddr + wcHeld t - 1) / 2 ^ 21 - p.wcAddr / 2 ^ 21 + 1)).all fun i =>
          side.moves.any fun n => n.2.1 == p.mu && n.2.2.2.1 == p.mu && n.2.2.1 == (p.wcAddr / 2 ^ 21 + i) * 2 ^ 21 && n.2.2.2.2 + m.2.2.1 == m.2.2.2.2 + n.2.2.1)

/-- Migrations move pages from where the page table in force resolves them to places of the pool (R21, R72, R73). -/
def State.migrOk (s : State) (side : CardSide) : Bool :=
  side.moves.all fun m => pageResolve (tGet s.plan.pages m.1) == some (m.2.1, m.2.2.1)
    && decide (m.2.1 < s.nMu) && decide (m.2.2.2.1 < s.nMu) && m.2.2.2.2 % 2 ^ 21 == 0 && s.inPool m.2.2.2.2 (2 ^ 21)
    && s.moveKeeps side m

/-- What comes beside the card's bytes. -/
def State.sideOk (s : State) (side : CardSide) : Bool := slotsOk side && s.slotCbsOk side && s.pagesOk side && s.framesOk side && s.migrOk side

/-- The generation of the next card accepted (Tables 3.10, 14.2: 16 bits). -/
def State.nextGen (s : State) : Nat := (match s.plan.next with | some c => c.gen + 1 | none => s.plan.gen + 1) % 2 ^ 16

/-- A card that passes every check of load; none is PLAN_REJECT. -/
def State.checkCard (s : State) (side : CardSide) (im : CardImage) : Option Card :=
  match readCard s.nextGen side im with
  | none => none
  | some c =>
    let window := c.lenUs * 1900 - rindCycles c.lenUs c.rindUs
    if s.sideOk side && c.boundsOk && c.headerOk s && c.slicesOk s && c.placed.all (s.figOk side window) && c.slices.all (fun sl => sl.queues.all fun q => secsFollow c.measBeats q.secs)
        && fidsDiffer c.placed && c.placed.all c.depsOk && c.orderOk (s.plan.graph.any Graph.hasUpdate) && c.rangesOk s && c.passesOk && c.dualOk && c.thinOk
        && c.seqOk && c.vatsOk && c.banksOk s && (c.placed.isEmpty || c.energyOk s) && c.refreshOk s window then some c
    else none

end Sys2Proof.Machine
end

