-- ==== Sys2Proof/Machine/GraphCheck.lean ====
section
/-! DEFINITION. Reading a work graph and the checks of LOAD_GRAPH in the order of Table 3.3 (R65 to R68, R89, R91, R134, R138,
R179, R189 to R191, R247, R252, R278, R293, R302, R345, R350, R370, R392, R529 to R531). -/
namespace Sys2Proof.Machine

/-! ## Reading -/

/-- Entry `i` of `n` bytes of a section at `off`. -/
def entryAt (im : Bytes) (off n i : Nat) : Nat := leNat (bytesAt im (off + n * i) n)

def secOff (h : BitVec 2048) (k : Nat) : Nat := bits h.toNat (128 * k + 128) 64
def secCount (h : BitVec 2048) (k : Nat) : Nat := bits h.toNat (128 * k + 192) 32
/-- Entry sizes of the sections (Table 3.1). -/
def secSize (k : Nat) : Nat := match k with | 0 => 64 | 1 => 128 | 2 => 16 | 3 => 512 | _ => 32
def secLimit (k : Nat) : Nat := match k with | 0 => 262144 | 1 => 1048576 | 2 => 8 | 3 => 4095 | _ => 1

/-- The sections lie in the image. -/
def sectionsIn (im : Bytes) (h : BitVec 2048) : Bool :=
  (upTo 5).all fun k => secCount h k == 0 || decide (secOff h k + secSize k * secCount h k ≤ im.length)

/-- The work graph an image spells, with the placement the trial finds for it. -/
def readGraph (im mask : Bytes) (places : List Placement) : Graph :=
  let h := BitVec.ofNat 2048 (leNat (im.take 256))
  let rd := fun k i => entryAt im (secOff h k) (secSize k) i
  { hdr := h
    tensors := (upTo (secCount h 0)).map fun i => BitVec.ofNat 512 (rd 0 i)
    ops := (upTo (secCount h 1)).map fun i => BitVec.ofNat 1024 (rd 1 i)
    axes := (upTo (secCount h 2)).map fun i => BitVec.ofNat 128 (rd 2 i)
    codebooks := (upTo (secCount h 3)).map fun i => BitVec.ofNat 4096 (rd 3 i)
    policy := if secCount h 4 = 0 then none else some (BitVec.ofNat 256 (rd 4 0))
    image := im, maskImg := mask, digest := Config.shake256 256 im, places := places }

/-! ## GRAPH_FORMAT -/

/-- Header fields (R247, R529, Table 15.8). -/
def Graph.headerOk (g : Graph) : Bool :=
  g.h 0 16 == 1 && decide (g.h 64 13 ≤ 4096) && g.h 106 22 == 0
    && (g.budget == 0 || (g.budget % 1024 == 0 && inRange 1024 1048576 g.budget))

def tCoded (t : BitVec 512) : Bool := tFormat t == 5 || tFormat t == 6

/-- A tensor entry (Table 3.2, R134, R138, R392). -/
def Graph.tensorOk (g : Graph) (t : BitVec 512) : Bool :=
  decide (tFormat t ≤ 6) && inRange 1 6 (tRank t) && (upTo 6).all (fun k => decide (k < tRank t) || tDim t k == 1)
    && tFld t 224 2 != 3 && (tParam t || tSnap t == 0 || tSnap t == 3)
    && (!tCoded t || ((tCodebook t == 0xFFF || (g.codebook (tCodebook t)).isSome) && cbValid (g.tensorCb t) && (tParam t || tGran t == 3)))

/-- Extents of a MATMUL agree under some ORIENT of A and B (R102). -/
def matmulDims (a b c : BitVec 512) : Bool :=
  [(tRows a, tCols a), (tCols a, tRows a)].any fun x => [(tRows b, tCols b), (tCols b, tRows b)].any fun y =>
    x.2 == y.1 && tRows c == x.1 && tCols c == y.2

/-- The bias of a MATMUL has one element for each column of its output (Table 4.5). -/
def Graph.biasOk (g : Graph) (o : BitVec 1024) (n : Nat) : Bool :=
  decide (oNin o < 3) || (g.whole (oIn o 2)).any fun t => tElems t == n

def Graph.matmulOk (g : Graph) (o : BitVec 1024) : Bool :=
  match g.whole (oIn o 0), g.whole (oIn o 1), g.whole (oOut o 0) with
  | some a, some b, some c => oNout o == 0 || (matmulDims a b c && g.biasOk o (tCols c))
  | some _, some _, none => oNout o == 0
  | _, _, _ => false

/-- Extents of the other kinds that the manual's text fixes (R68; log entry 24): SPARSE_MATMUL is C = A · B as stored (R180, R183); NORM
and SOFTMAX give each element of their input one of their output. -/
def Graph.extentsOk (g : Graph) (o : BitVec 1024) : Bool :=
  if oNout o = 0 then true
  else if oKind o = K.sparseMatmul then
    match g.whole (oIn o 0), g.whole (oIn o 1), g.whole (oOut o 0) with
    | some a, some b, some c => tCols a == tRows b && tRows c == tRows a && tCols c == tCols b
    | _, _, _ => false
  else if oKind o = K.norm ∨ oKind o = K.softmax then
    match g.whole (oIn o 0), g.whole (oOut o 0) with
    | some a, some c => decide (oNin o = 0) || tDims a == tDims c
    | _, _ => false
  else true

/-- A curd operand's format (R179). -/
def curdOk (t : BitVec 512) : Bool :=
  (tFormat t == 1 || tFormat t == 3 || tFormat t == 4 || tFormat t == 6) && (tFormat t != 6 || (tParam t && decide (tGran t ≤ 1)))

def fNonneg (v : Nat) : Bool := !fNonfin (BitVec.ofNat 32 v) && (decide (v < 2 ^ 31) || v == 2 ^ 31)

/-- An update block (R293, Table 11.2). -/
def Graph.updateOk (g : Graph) (o : BitVec 1024) : Bool :=
  match g.tensor (oIn o 0) with
  | none => false
  | some t => oNin o == 1 && tParam t && uRule o != 3 && uShape o != 3
      && [32, 64, 96, 128, 224].all (fun lo => fNonneg (oParam o lo 32))
      && (uShape o == 0 || decide (uWarm o < uEnd o)) && !(uRule o == 1 && tCoded t)

/-- Pixels of a patch by PATCH code (Table 12.9). -/
def patchPx (k : Nat) : Nat := match k with | 0 => 8 | 1 => 14 | 2 => 16 | _ => 32

/-- An ingest block (R350, Table 12.9). -/
def ingestOk (o : BitVec 1024) : Bool :=
  let b := oParam o
  let px := patchPx (b 8 2)
  decide (b 0 2 ≤ 1) && b 4 2 != 3 && b 6 2 != 3 && b 12 2 != 3 && b 19 2 != 3
    && b 32 16 != 0 && b 32 16 % px == 0 && b 48 16 != 0 && b 48 16 % px == 0
    && !(b 17 1 == 1 && b 128 32 == 0) && !(b 21 1 == 1 && b 160 32 == 0) && b 160 32 % 4 == 0

/-- An operation entry (R530, Table 3.12). -/
def Graph.opOk (g : Graph) (o : BitVec 1024) : Bool :=
  let n := g.tensors.length
  decide (oKind o ≤ 13) && decide (oNin o ≤ 6) && decide (oNout o ≤ 2) && oSplit o != 6
    && (oIns o).all (fun h => decide (h < n)) && (oOuts o).all (fun h => decide (h < n))
    && (oSplit o == 7 || match g.whole (oOut o 0) with
        | some t => decide (1 ≤ oNout o) && decide (oSplit o < tRank t)
        | none => false)
    && (oKind o == K.loop || oBound o == 0)
    && (oKind o != K.matmul || (inRange 2 3 (oNin o) && g.matmulOk o)) && g.extentsOk o
    && (oKind o != K.sparseMatmul || (decide (2 ≤ oNin o) && (g.tensor (oIn o 0)).any curdOk))
    && (oKind o != K.update || g.updateOk o)
    && (oKind o != K.ingest || ingestOk o)

/-- The mask source of a MASK_24 tensor, in the MATMUL that first consumes it, is no reserved one (R530). -/
def Graph.sourcesOk (g : Graph) : Bool := g.tensors.zipIdx.all fun t => !tMask24 t.1 || (g.maskDecl t.2).1 != 3

/-- A codebook that no tensor of format C4 or C8 names is valid as the table of one of them (R134; log entry 24). -/
def Graph.codebooksOk (g : Graph) : Bool :=
  (upTo g.codebooks.length).all fun n => g.tensors.any (fun t => tCoded t && tCodebook t == n) || (g.codebook n).any fun l => cbValid l || cbValid (l.take 16)

/-- Every trainable parameter has one UPDATE operation, and no parameter two (R293). -/
def Graph.updatesOk (g : Graph) : Bool :=
  g.tensors.zipIdx.all fun t =>
    let n := (g.ops.filter fun o => oKind o == K.update && oIn o 0 == t.2).length
    decide (n ≤ 1) && (!tTrainable t.1 || n == 1)

def Graph.formatOk (g : Graph) : Bool :=
  decide (256 ≤ g.image.length) && g.headerOk && sectionsIn g.image g.hdr && g.tensors.all g.tensorOk && g.ops.all g.opOk && g.updatesOk && g.sourcesOk && g.codebooksOk
    && g.axes.all fun a => decide (axKind a ≤ 4) && axSize a != 0

/-! ## EXPERT_DENIED, GRAPH_LIMIT, GRAPH_UNBOUNDED -/

/-- Expert levels used are accepted (R6, R91, R342, R409). -/
def State.expertGraph (s : State) (g : Graph) : Bool :=
  (upTo 10).all (fun i => !bit (g.h 96 32) i || s.feat i)
    && g.tensors.all (fun t => (!tPin t || s.feat 1) && (!tParam t || tSnap t == 0 || s.feat 9))
    && g.ops.all fun o => oKind o != K.ingest || oParam o 0 2 != 1 || s.feat 7

/-- The sets one seat belongs to at most: the domain's, one for each axis, and the list and tie sets, of which there are no more than
operations that can name one (R370; log entry 24). -/
def Graph.setCount (g : Graph) : Nat :=
  let l := g.ops.filter fun o => oKind o == K.collective || (oIns o).any fun h => (g.tensor h).any tParam && oKind o != K.update
  1 + g.axes.length + min l.length (Config.listSets l)

/-- An operation that draws random numbers: MATMUL, SPARSE_MATMUL, LOOP, COLLECTIVE, INGEST and UPDATE draw none under an operation
index (R345; log entry 24). -/
def opDraws (o : BitVec 1024) : Bool :=
  !([K.matmul, K.sparseMatmul, K.loop, K.collective, K.ingest, K.update].contains (oKind o)) && Config.drawsRandom o

/-- Entry counts of Table 3.1, sets of a seat (R370), and no draw at an index of 65,280 or above (R345). -/
def Graph.limitOk (g : Graph) : Bool :=
  (upTo 5).all (fun k => decide (secCount g.hdr k ≤ secLimit k)) && decide (g.setCount ≤ 4096) && !(g.ops.drop 65280).any opDraws

/-- Every LOOP has a bound (R24). DESIGN CHOICE (log entry 24): the operation table encodes a bound for LOOP alone, so a recursion without one is a
LOOP with BOUND 0, and operations that name each other's tensors in a ring outside a LOOP are not refused here. -/
def Graph.bounded (g : Graph) : Bool := g.ops.all fun o => oKind o != K.loop || oBound o != 0

/-! ## GRAPH_MASK (R189, R191) -/

/-- No column keeps three or more positions. -/
def colsFit (k : Nat) : Bool := (upTo 4).all fun c => decide (((upTo 4).filter fun r => k.testBit (4 * r + c)).length ≤ 2)

def Graph.maskOk (g : Graph) : Bool :=
  g.tensors.all (fun t => !tMask24 t || (tRank t == 2 && tDim t 0 % 4 == 0 && tDim t 1 % 4 == 0))
    && g.wholeMasks.all fun x => x.2.2.length == tRows x.2.1 * tCols x.2.1 / 4
      && (maskBlocks x.2.1).all fun b =>
        let k := (blockKept x.2.2 (tCols x.2.1) b.1 b.2).1
        colsFit k && (fitPattern k).isSome

/-! ## GRAPH_AXES (R89, R252) -/

/-- The fabric factor of an axis: the tensor axis's inner factor runs across the compute dies. -/
def State.fabricFactor (s : State) (a : BitVec 128) : Nat := if axKind a = 1 then axSize a / s.nCd else axSize a

/-- The extents split into groups that multiply to the factors, each used once. -/
def splitDims : List Nat → List Nat → Bool
  | [], fs => fs.all (· == 1)
  | d :: ds, fs => (upTo fs.length).any fun i => fs.getD i 1 % d == 0 && splitDims ds (fs.set i (fs.getD i 1 / d))

def State.axesOk (s : State) (g : Graph) : Bool :=
  g.axes.all (fun a => (axKind a != 1 || axSize a % s.nCd == 0) && decide (axVirt a ≤ 8))
    && (g.axes.map axKind).eraseDups.length == g.axes.length
    && (g.axes.foldl (fun n a => n * s.fabricFactor a) 1) == s.positions
    && splitDims (s.dims.filter fun d => decide (1 < d)) ((g.axes.map s.fabricFactor).filter fun f => decide (1 < f))

/-! ## GRAPH_FIT (R531) -/

def fmtBits (f : Nat) : Nat := match f with | 0 => 32 | 1 => 16 | 2 => 16 | 5 => 4 | _ => 8

/-- Bytes of a tensor in its declared FORMAT. -/
def tBytes (t : BitVec 512) : Nat := ceilDiv (tElems t * fmtBits (tFormat t)) 8

/-- Words of scales and of optimiser statistics a trainable parameter has (R139, R303; log entry 20). -/
def paramScales (outer : Bool) (t : BitVec 512) : Nat := if tCoded t then groupCount (tGran t) outer (tRows t) (tCols t) else 0
def paramStats (outer : Bool) (t : BitVec 512) (o : BitVec 1024) : Nat :=
  if uRule o = 2 then (if tRank t ≤ 1 then tCols t else tRows t + tCols t) + paramScales outer t else 0

/-- A placement has the granules its parameter needs (R69, R244, R295). -/
def Graph.placeOk (g : Graph) (p : Placement) (t : BitVec 512) : Bool :=
  if tFrozen t then p.count == 0 && p.statCount == 0
  else match g.updateOf p.handle with
    | none => false
    | some o => p.count == granCount t && p.scaleCount == ceilDiv (paramScales (g.kOuter p.handle) t) 1024 && p.statCount == ceilDiv (paramStats (g.kOuter p.handle) t o) 1024
        && p.tied.length == (g.ops.filter fun x => oKind x != K.update && (oIns x).contains p.handle).length - 1

/-- Bytes a placement holds on its die: pairs with their tags, scale-gradient buffers, gradients of later tied uses, counts,
working copy. -/
def placeBytes (p : Placement) (t : BitVec 512) : Nat :=
  (p.count + p.scaleCount + p.statCount) * (2 * 4096 + 8) + (p.count + p.scaleCount) * 4 + p.scaleCount * 4096
    + p.tied.length * (p.count + p.scaleCount) * 4096 + wcHeld t

/-- Ranges of granules a placement takes. -/
def placeRanges (p : Placement) : List (Nat × Nat) :=
  ([(p.gran, p.count), (p.scaleGran, p.scaleCount), (p.sgGran, p.scaleCount), (p.statGran, p.statCount)]
    ++ p.tied.flatMap fun u => [(u.1, p.count), (u.2, p.scaleCount)]).filter fun r => r.2 != 0

def rangesApart : List (Nat × Nat) → Bool
  | [] => true
  | r :: l => l.all (fun x => decide (r.1 + r.2 ≤ x.1) || decide (x.1 + x.2 ≤ r.1)) && rangesApart l

/-- An operation of this seat: no parameter it names is placed on another (R531). -/
def Graph.ownOp (g : Graph) (o : BitVec 1024) : Bool := (oIns o).all fun h => !(g.tensor h).any tParam || (g.place h).isSome

/-- Non-parameter tensors that the seat's chain or loss operations of a training graph read: what the forward pass saves for the
backward pass (R237). -/
def Graph.saved (g : Graph) : List (BitVec 512) :=
  if !g.hasUpdate then [] else
    g.tensors.zipIdx.filterMap fun t =>
      if !tParam t.1 && !tT2 t.1 && !tPin t.1 && g.ops.any (fun o => decide (oRole o ≤ 1) && oKind o != K.update && (oIns o).contains t.2 && g.ownOp o) then some t.1 else none

/-- Pins (R91): T0 pins name clusters of a populated die and overlap no other; T1 pins a populated die; T2 pins an eligible
tensor. -/
def State.pinsOk (s : State) (g : Graph) : Bool :=
  let pins := g.tensors.filter tPin
  let t0 := (pins.filter fun t => tFld t 224 2 == 0).map fun t => (tFld t 226 4 * 1024 + tFld t 230 10, max 1 (ceilDiv (tBytes t) (2 ^ 21)))
  pins.all (fun t => match tFld t 224 2 with
    | 0 => decide (tFld t 226 4 < s.nCd) && decide (tFld t 230 10 + max 1 (ceilDiv (tBytes t) (2 ^ 21)) ≤ 1024)
    | 1 => decide (tFld t 226 4 < s.nMu)
    | _ => tT2 t) && rangesApart t0

/-- A shard is a part of its tensor, of whole groups of four under a mask, and only a domain of several seats cuts one (R302, R531). -/
def State.shardOk (s : State) (t : BitVec 512) (x : Nat × Nat × Nat × Nat) : Bool :=
  decide (1 < s.positions) && decide (1 ≤ x.2.1) && decide (1 ≤ x.2.2.2) && decide (x.1 + x.2.1 ≤ tRows t) && decide (x.2.2.1 + x.2.2.2 ≤ tCols t)
    && (!tMask24 t || [x.1, x.2.1, x.2.2.1, x.2.2.2].all (· % 4 == 0))

/-- Placement of every parameter, or of this seat's shard of it, on the pinned die where one is named; in a domain of several seats the leader may
have given a parameter to others (log entry 24). -/
def State.placesOk (s : State) (g : Graph) : Bool :=
  g.tensors.zipIdx.all fun t => !tParam t.1 || match g.place t.2, g.tensor t.2 with
    | some p, some u => decide (p.mu < s.nMu) && g.placeOk p u && p.shard.all (s.shardOk t.1) && !(tPin t.1 && tFld t.1 224 2 == 1 && p.mu != tFld t.1 226 4)
    | _, _ => decide (1 < s.positions)

/-- Bytes of the tensors other than parameters pinned to die `mu` (R91). -/
def Graph.pinnedOn (g : Graph) (mu : Nat) : Nat :=
  g.tensors.foldl (fun n t => if tPin t && !tParam t && tFld t 224 2 == 1 && tFld t 226 4 == mu then n + tBytes t else n) 0

/-- Bytes, gradient granules and journalled granules of one die (R278, R531). -/
def State.dieFits (s : State) (g : Graph) (mu : Nat) : Bool :=
  let ps := g.places.filterMap fun p => match g.tensor p.handle with
    | some t => if p.mu = mu then some (p, t) else none
    | none => none
  let pool := s.poolUnits * 2 ^ 21
  decide (ps.foldl (fun n x => n + placeBytes x.1 x.2) (basicRingOf g.places mu * 4096 + g.pinnedOn mu) ≤ pool)
    && decide (ps.foldl (fun n x => n + (x.1.count + x.1.scaleCount) * (1 + x.1.tied.length)) 0 ≤ 12582912)
    && decide ((ps.filter fun x => tSnap x.2 == 2).foldl (fun n x => n + (placeKeys x.1).length) 0 ≤ 12582912)
    && rangesApart (ps.flatMap fun x => placeRanges x.1) && (ps.flatMap fun x => placeRanges x.1).all (fun r => decide (r.1 + r.2 ≤ 2 ^ 26))
    && rangesApart ((ps.map fun x => (x.1.wcAddr, wcHeld x.2)).filter fun r => r.2 != 0)
    && ps.all fun x => decide (x.1.wcAddr + wcHeld x.2 ≤ pool)

/-- The whole of R531 on this seat: placements, saved tensors, reference pictures (R313). -/
def State.fitOk (s : State) (g : Graph) : Bool :=
  let held := g.places.foldl (fun n p => match g.tensor p.handle with | some t => n + placeBytes p t | none => n)
    ((upTo s.nMu).foldl (fun n mu => n + basicRingOf g.places mu * 4096 + g.pinnedOn mu) 0)
  let saved := g.saved.foldl (fun n t => n + tBytes t) 0
  let pics := if g.ingest.isSome then 6 * 2 ^ 30 else 0
  s.pinsOk g && s.placesOk g && (upTo s.nMu).all (s.dieFits g)
    && g.ops.all (fun o => oKind o != K.update || uRule o != 2 || (g.place (oIn o 0)).isNone && decide (1 < s.positions) || match g.tensor (oIn o 0) with
        | some t => decide (tRank t ≤ 1) || decide (tRows t + tCols t ≤ 393216)
        | none => false)
    && decide (held + saved + pics ≤ s.nMu * s.poolUnits * 2 ^ 21)

/-- The first status of Table 3.3 that applies (R68). -/
def State.graphStatus (s : State) (g : Graph) : Nat :=
  if !g.formatOk then St.graphFormat
  else if g.h 16 4 ≠ s.fuses.sku then St.graphSku
  else if !s.expertGraph g then St.expertDenied
  else if !g.limitOk then St.graphLimit
  else if !g.bounded then St.graphUnbounded
  else if !g.maskOk then St.graphMask
  else if !s.axesOk g then St.graphAxes
  else if !s.fitOk g then St.graphFit
  else St.ok

end Sys2Proof.Machine
end

