-- ==== Sys2Proof/Machine/Lower.lean ====
section
/-! DEFINITION. How a built card lowers the resident graph under basic control: figure classes (R62, Table 2.3), the parts of reduction and
update and their order (R244, R245, R256, R303), forward and backward figures (R234 to R236, R241, R246), saved tensors and their space (R237,
R238), chunks and units of a pipeline (R252, R253), T2 reads (R22, R70, R76). The lowering itself stands beside the card's bytes (log entry
17). -/
namespace Sys2Proof.Machine

/-! ## Classes -/

/-- The class a figure has by what it does: update slices, reductions and the gather-add are mandatory, re-encodes prologue, work of no
operation tail but for the verdict figure; cross-seat transfers and the work of compute dies are chain, there all but DMA figures that stage
ahead; of ingest the pack is chain and the fill tail (Tables 2.3, 9.5). -/
def State.classOk (s : State) (p : Placed) : Bool :=
  let chainOrTail := p.cls == Cls.chain || p.cls == Cls.tail
  (p.cls == Cls.chain || ent p.f.fig 16 16 == 0xFFFF) && (p.cls != Cls.chain || ent p.f.fig 16 16 != 0xFFFF) && match p.f.body with
  | .tpl d =>
    let o := s.plan.graph.bind fun g => g.op (tplOp d)
    if tplOp d = tplNoOp then p.cls == (if p.f.body.isVerdict p.die then Cls.mandatory else Cls.tail)
    else if p.die < 12 then p.cls == (if tplPart d = 4 then Cls.prologue else Cls.mandatory)
    else if p.die < 14 then p.cls == (if o.any (fun o => oKind o == K.update || (oKind o == K.collective && oRole o == 2)) then Cls.mandatory else Cls.chain)
    else if tplPart d = 5 then p.cls == Cls.chain
    else if tplPart d = 0 then p.cls == Cls.tail
    else chainOrTail
  | .dma d => if dmDst d = 5 then p.cls == Cls.chain else chainOrTail
  | _ => p.cls == Cls.chain

/-! ## Update and reduction -/

def Placed.last (p : Placed) : Nat := p.pos + p.rpt - 1

/-- All of `p` is over before `q` begins: in an earlier beat, or earlier in a beat of the same die. -/
def Placed.before (p q : Placed) : Bool := decide (p.last < q.pos) || (p.last == q.pos && p.die == q.die && decide (p.start + p.dur ≤ q.start))

/-- Gradient granules of a parameter that this figure accumulates into. -/
def Placed.gradOf (x : Placed) (p : Placement) : Bool :=
  let own := fun (mu g : Nat) => mu == p.mu && ((p.gran, p.count) :: (p.sgGran, p.scaleCount) :: p.tied.flatMap fun u => [(u.1, p.count), (u.2, p.scaleCount)]).any fun r =>
    decide (r.1 ≤ g) && decide (g < r.1 + r.2)
  match x.f.body with
  | .matrix d (some e) => mAccw d && own (xFld e 0 3) (xFld e 3 26)
  | .dma d => dmDst d == 5 && own (bits (dmDa d) 0 3) (bits (dmDa d) 3 26)
  | _ => false

/-- The graph reduces gradients over several seats: its data or temporal-sequence axis runs on the fabric (R256). -/
def State.reduces (s : State) (g : Graph) : Bool := g.axes.any fun a => (axKind a == 0 || axKind a == 4) && decide (1 < s.fabricFactor a)

/-- The parts a measure holds for one trainable parameter, and their order: the gather-add of a tied one after its last backward writer and
before any cross-seat reduction, the tie-set stages next, the data reduction after both and after the last backward writer, its stages and sinks
over before the verdict figure; update slices, and re-encodes of a working copy (R36, R244, R245, R256, R300 to R303, R309). -/
def Card.paramOk (c : Card) (s : State) (g : Graph) (q : Param) : Bool :=
  let ps := c.placed
  let part := fun (lo hi : Nat) (die : Nat → Bool) => ps.filter fun p => match p.f.body with
    | .tpl d => tplOp d == q.idx && die p.die && inRange lo hi (tplPart d)
    | _ => false
  let onMu := fun (n : Nat) => decide (n < 12)
  let onLd := fun (n : Nat) => inRange 12 13 n
  let writers := ps.filter fun p => p.gradOf q.p
  let adds := part 5 5 onMu
  let red := part 6 6 onMu ++ part 16 31 onLd
  let tie := part 32 47 onLd
  let ends := part 7 7 onMu ++ part 16 47 onLd
  let verdicts := ps.filter fun p => p.f.body.isVerdict p.die
  let slices := if uRule q.op = 2 then part 3 3 onMu else part 0 0 onMu
  (q.p.tied.isEmpty || !adds.isEmpty) && !slices.isEmpty && (wcHeld q.t == 0 || !(part 4 4 onMu).isEmpty)
    && (!s.reduces g || (!(part 6 6 onMu).isEmpty && !(part 7 7 onMu).isEmpty && !(part 16 31 onLd).isEmpty))
    && writers.all (fun w => (adds ++ red ++ tie).all w.before)
    && adds.all (fun a => (red ++ tie).all a.before) && tie.all (fun t => (part 16 31 onLd).all t.before)
    && ends.all fun e => verdicts.all fun v => decide (e.last < v.pos) || (e.last == v.pos && decide (e.start ≤ v.start))

/-- Every trainable parameter of the seat has its parts. -/
def Card.paramsOk (c : Card) (s : State) : Bool :=
  s.plan.graph.all fun g => (upTo g.ops.length).all fun i => match s.param i with
    | some q => tFrozen q.t || c.paramOk s g q
    | none => true

/-! ## Forward and backward -/

/-- Tensors that a parameter with a gradient lies upstream of, in operation-table order. -/
def Graph.gradTensors (g : Graph) : List Nat :=
  g.ops.foldl (fun l o => if oKind o ≠ K.update ∧ (oIns o).any (fun h => l.contains h || (g.tensor h).any tTrainable) then l ++ oOuts o else l) []

/-- A parameter with a gradient lies upstream of the operation, or is its own (R234). -/
def Graph.hasGrad (g : Graph) (o : BitVec 1024) : Bool := (oIns o).any fun h => g.gradTensors.contains h || (g.tensor h).any tTrainable

/-- Its input gradient reaches a parameter with a gradient (R246). -/
def Graph.dxReaches (g : Graph) (o : BitVec 1024) : Bool := (oIns o).any fun h => g.gradTensors.contains h

/-- What a role may be for its operation. -/
def Graph.roleOk (g : Graph) (r : Role) : Bool :=
  (g.op r.op).any fun o => oKind o != K.update && oKind o != K.ingest && match r.step with
    | .forward => true
    | .save => true
    | .loss => oKind o == K.loss || oRole o == 1
    | .dx => g.dxReaches o
    | .dw => if oKind o = K.attention then g.hasGrad o else (oIns o).any fun h => (g.tensor h).any tTrainable
    | .backward => g.hasGrad o
    | .regen => oKind o == K.attention && g.hasGrad o

/-- A placed figure with its role. -/
def Card.withRoles (c : Card) : List (Placed × Role) := c.placed.filterMap fun p => (c.side.roles.find? fun r => r.fid == p.f.fid).map (p, ·)

/-- How the products of an operation run backward: a MATMUL whose weight has a gradient and whose dX reaches one as a DUAL pair, a T24
weight's dX on array A alone, a frozen weight's dX as SOLO on both arrays of the cluster, the two pairs of fused attention without accumulate
writes; gradients leave as FP32, BF16 where the operation asks for it, or E5M2 (R125, R235, R236, R241, R246). That an operation asks for BF16
its entry has no field for: any may (DESIGN CHOICE, log entry 17). -/
def Card.productOk (c : Card) (g : Graph) (x : Placed × Role) : Bool :=
  match x.1.f.body, g.op x.2.op with
  | .matrix d _, some o =>
    let grad := x.2.step == .dx || x.2.step == .dw
    let w := g.tensor (oIn o 1)
    if oKind o = K.matmul then
      (grad || x.2.step == .forward) && (mAccw d == (x.2.step == .dw))
        && (!grad || mPair d == (if w.any (fun t => tTrainable t && !tMask24 t) ∧ g.dxReaches o then (if x.2.step = .dx then 1 else 2) else 0))
        && (x.2.step != .dx || mFmtOut d == 0 || mFmtOut d == 1 || mFmtOut d == 3)
        && (x.2.step != .dx || !w.any tMask24 || x.1.queue == 0)
        && (x.2.step != .dx || !w.any tFrozen || w.any tMask24 || c.withRoles.any fun y => y.2.op == x.2.op && y.2.step == .dx && y.1.die == x.1.die && y.1.group == x.1.group
          && y.1.queue + x.1.queue == 1 && y.1.pos == x.1.pos)
    else if oKind o = K.attention ∧ grad then !mAccw d && mPair d == (if x.2.step = .dx then 1 else 2)
    else !mAccw d || x.2.step == .dw
  | _, _ => true

/-- A figure in one repetition with its role. -/
structure Part where
  r : Role
  mb : Nat
  pos : Nat
  start : Nat
  dur : Nat
deriving DecidableEq, Repr

/-- Cycle of the measure, rinds and all, at which a part starts, and ends. -/
def Part.from_ (beat : Nat) (x : Part) : Nat := x.pos * beat + x.start
def Part.end_ (beat : Nat) (x : Part) : Nat := x.from_ beat + x.dur

/-- The chain figures of compute dies, each repetition by itself. -/
def Card.parts (c : Card) : List Part :=
  (c.slices.filter fun sl => decide (sl.die < 4)).flatMap fun sl => sl.queues.flatMap fun q => q.secs.flatMap fun x => x.figs.flatMap fun f =>
    match c.side.roles.find? fun r => r.fid == f.fid with
    | some role => if ent f.fig 8 3 != Cls.chain then [] else (upTo x.rpt).map fun r => let g := f.inst sl q x r; ⟨role, g.mb, g.pos, g.start, g.dur⟩
    | none => []

def forwardRole (r : Role) : Bool := r.step == .forward || r.step == .save
def backwardRole (r : Role) : Bool := !forwardRole r && r.step != .loss

/-- First starts of a list of parts by operation. -/
def firstStarts (beat : Nat) (l : List Part) : List (Nat × Nat) :=
  (l.map fun x => x.r.op).eraseDups.map fun o => (o, ((l.filter fun x => x.r.op == o).map fun x => x.from_ beat).foldl min (2 ^ 64))

/-- The order within a micro-batch (R234, R237; that the order of figures is that of each operation's first start is DEDUCED, log entry 17):
forward in operation-table order, then loss figures, then backward in the reverse order; no forward figure follows a backward one. -/
def orderedMb (beat : Nat) (l : List Part) : Bool :=
  let f := firstStarts beat (l.filter fun x => forwardRole x.r)
  let b := firstStarts beat (l.filter fun x => backwardRole x.r)
  let z := firstStarts beat (l.filter fun x => x.r.step == .loss)
  let fs := l.filter fun x => forwardRole x.r
  f.all (fun x => f.all fun y => decide (y.1 ≤ x.1) || decide (x.2 ≤ y.2))
    && b.all (fun x => b.all fun y => decide (x.1 ≤ y.1) || decide (x.2 ≤ y.2))
    && fs.all (fun x => (z ++ b).all fun y => decide (x.from_ beat ≤ y.2)) && z.all fun x => b.all fun y => decide (x.2 ≤ y.2)

/-- Every chain figure of a compute die has one role, which its operation allows; a tensor it reads as saved has its space (R234 to R237). -/
def Card.rolesOk (c : Card) (s : State) : Bool :=
  s.plan.graph.any fun g =>
    c.placed.all (fun p => decide (4 ≤ p.die) || p.cls != Cls.chain || (c.side.roles.filter fun r => r.fid == p.f.fid).length == 1)
      && c.side.roles.all g.roleOk && c.withRoles.all (c.productOk g)
      && let ps := c.parts
        ((ps.map (·.mb)).eraseDups).all fun m => orderedMb (c.lenUs * 1900) (ps.filter fun x => x.mb == m)

/-! ## Saved tensors (R237, R238) -/

/-- Spaces of one die that share bytes are held in different beats of the measure. -/
def savesApart : List Save → Bool
  | [] => true
  | a :: l => l.all (fun b => a.mu != b.mu || decide (a.off + a.bytes ≤ b.off) || decide (b.off + b.bytes ≤ a.off) || decide (a.last < b.first) || decide (b.last < a.first))
    && savesApart l

/-- The T1 bytes a DMA body reads or writes lie in a space. -/
def inSave (v : Save) (write : Bool) (d : BitVec 256) : Bool :=
  let a := if write then dmDa d else dmSa d
  bits a 0 3 == v.mu && decide (v.off ≤ bits a 3 32 * 64) && decide (bits a 3 32 * 64 + dmBytes d ≤ v.off + v.bytes)

/-- Each saved tensor has its space in the placement pool from the beat of its forward write to that of its last backward reader, holds no
more than the tensor in its FORMAT (a row statistic, which is no table entry, FP32 words), and is read by backward figures of the same
micro-batch only; spaces stay clear of each other and of working copies, and none outlives the measure. -/
def Card.savesOk (c : Card) (s : State) : Bool :=
  let beat := c.lenUs * 1900
  let ps := c.parts
  s.plan.graph.any fun g =>
    savesApart c.side.saves && c.side.saves.all (fun v =>
      decide (v.mu < s.nMu) && s.inPool v.off v.bytes && decide (v.first ≤ v.last) && decide (v.last < c.measBeats)
        && (match g.tensor v.handle with
          | some t => !tParam t && decide ((c.side.saves.filter fun w => w.handle == v.handle && w.mb == v.mb).foldl (fun n w => n + w.bytes) 0 ≤ roundUp (tBytes t) 64)
          | none => v.bytes % 4 == 0)
        && g.places.all (fun p => p.mu != v.mu || (g.tensor p.handle).all fun t => wcHeld t == 0 || decide (p.wcAddr + wcHeld t ≤ v.off) || decide (v.off + v.bytes ≤ p.wcAddr))
        && ps.any (fun x => forwardRole x.r && x.mb == v.mb && x.r.saved.contains v.handle && x.pos == v.first)
        && ps.all fun x => x.mb != v.mb || !x.r.saved.contains v.handle || (decide (v.first ≤ x.pos) && decide (x.pos ≤ v.last)))
    && ps.all (fun x => !backwardRole x.r || x.r.saved.all fun h => (c.side.saves.any fun v => v.handle == h && v.mb == x.mb)
        && ps.any fun y => forwardRole y.r && y.mb == x.mb && y.r.saved.contains h && decide (y.end_ beat ≤ x.from_ beat))
    && c.withRoles.all fun x => match x.1.f.body with
      | .dma d => x.2.saved.isEmpty || !((forwardRole x.2 && dmDst d == 3) || (backwardRole x.2 && dmSrc d == 3))
          || c.side.saves.any fun v => x.2.saved.contains v.handle && inSave v (forwardRole x.2) d
      | _ => true

/-! ## Chunks and units (R252, R253) -/

/-- Warm-up units of the seat at position `i` of a pipeline of `p` seats with `v` virtual stages and `m` micro-batches. -/
def warmUp (p v m i : Nat) : Nat := min (v * m) (if v ≤ 1 then p - 1 - i else (v - 1) * p + 2 * (p - 1 - i))

def Graph.pipeline (g : Graph) : Option (BitVec 128) := g.axes.find? fun a => axKind a == 2

/-- Every way to give each of some dimensions to one of `n` axes. -/
def assignDims (n : Nat) : List Nat → List (List (Nat × Nat))
  | [] => [[]]
  | d :: l => (upTo n).flatMap fun a => (assignDims n l).map fun x => (d, a) :: x

/-- The axes that run on the fabric. -/
def State.fabricAxes (s : State) (g : Graph) : List (BitVec 128) := g.axes.filter fun a => decide (1 < s.fabricFactor a)

/-- The assignments of R89: the extents each axis receives multiply to its fabric factor. -/
def State.dimChoices (s : State) (g : Graph) : List (List (Nat × Nat)) :=
  let fs := (s.fabricAxes g).map s.fabricFactor
  (assignDims fs.length ((upTo 4).filter fun k => decide (1 < s.dims.getD k 1))).filter fun as =>
    fs.zipIdx.all fun f => (as.filter fun x => x.2 == f.2).foldl (fun n x => n * s.dims.getD x.1 1) 1 == f.1

/-- Dimensions that an assignment gives to axis `a`. -/
def dimsOf (as : List (Nat × Nat)) (a : Nat) : List Nat := (as.filter fun x => x.2 == a).map (·.1)

/-- Place of a seat along some dimensions. -/
def State.along (s : State) (seat : Nat) (ds : List Nat) : Nat :=
  ds.foldl (fun n k => n * s.dims.getD k 1 + (coordsOf s.dims seat).getD k 0) 0

/-- Positions in the pipeline that this seat can have under an assignment the leader may choose (R89; log entry 67). -/
def State.pipeSpots (s : State) (g : Graph) : List Nat :=
  match (s.fabricAxes g).findIdx? fun a => axKind a == 2 with
  | some k => ((s.dimChoices g).map fun as => s.along s.ownSeat (dimsOf as k)).eraseDups
  | none => [0]

/-- Under an assignment that the leader may choose, this seat holds the first pipeline stage and has rank 0 in its temporal-sequence set (R314). -/
def State.mayIngest (s : State) (g : Graph) : Bool :=
  (s.dimChoices g).any fun as => (s.fabricAxes g).zipIdx.all fun a => (axKind a.1 != 2 && axKind a.1 != 4) || s.along s.ownSeat (dimsOf as a.2) == 0

/-- Only the seats of the ingest set run ingest figures (R314). -/
def Card.ingestOk (c : Card) (s : State) : Bool :=
  s.plan.graph.all fun g => s.mayIngest g || c.placed.all fun p => p.die != 14 || match p.f.body with
    | .tpl d => tplOp d == tplNoOp
    | _ => true

/-- A unit is a chunk of a micro-batch: when its first figure starts and its last one ends, forward and backward units each in order of
start. -/
def unitSpans (beat : Nat) (l : List Part) : List (Nat × Nat) :=
  ((l.map fun x => (x.mb, x.r.chunk)).eraseDups.map fun u =>
    let mine := l.filter fun x => (x.mb, x.r.chunk) == u
    ((mine.map fun x => x.from_ beat).foldl min (2 ^ 64), (mine.map fun x => x.end_ beat).foldl max 0)).mergeSort fun a b => decide (a.1 ≤ b.1)

/-- One forward, one backward: backward unit k starts once forward unit k + w has started, and forward unit k + w + 1 once backward unit k
has ended; so at most w + 1 units hold saved activations. -/
def unitsFollow (w : Nat) (fs bs : List (Nat × Nat)) : Bool :=
  bs.zipIdx.all fun b => (match fs[b.2 + w]? with | some f => decide (f.1 ≤ b.1.1) | none => true)
    && match fs[b.2 + w + 1]? with
      | some f => decide (b.1.2 ≤ f.1)
      | none => true

/-- A pipeline seat's chain figures: chunk c of p × v on position c mod p, chunks in the order of their operations, the number of
micro-batches a multiple of p where the graph fixes v at 2 or more, and the order of R253 for the seat's own position. -/
def Card.unitsOk (c : Card) (s : State) : Bool :=
  s.plan.graph.all fun g => match g.pipeline with
  | none => true
  | some a =>
    let p := s.fabricFactor a
    let ps := c.parts
    let m := ((ps.map (·.mb)).eraseDups).length
    let beat := c.lenUs * 1900
    decide (p ≤ 1) || ps.isEmpty || ((decide (axVirt a < 2) || m % p == 0)
      && c.side.roles.all (fun x => c.side.roles.all fun y => decide (y.op ≤ x.op) || decide (x.chunk ≤ y.chunk))
      && (s.pipeSpots g).any fun i => (if axVirt a = 0 then [1, 2, 3, 4, 5, 6, 7, 8] else [axVirt a]).any fun v =>
        c.side.roles.all (fun r => decide (r.chunk < p * v) && r.chunk % p == i)
          && unitsFollow (warmUp p v m i) (unitSpans beat (ps.filter fun x => !backwardRole x.r)) (unitSpans beat (ps.filter fun x => backwardRole x.r)))

/-! ## T2 reads (R22, R70, R76) -/

/-- Cycles that `bytes` take at the rate T2 reads are planned with. -/
def State.t2Time (s : State) (bytes : Nat) : Nat := ceilDiv (bytes * 19) (10 * max 1 s.plan.t2gbs)

/-- A figure's T2 read, if it is one: bytes and the memory-update die they go to. -/
def Card.t2Of (c : Card) (f : Fig) : Option (Nat × Nat) :=
  c.placed.findSome? fun p => if p.die = f.die ∧ p.f.fid ≤ f.fid ∧ f.fid < p.f.fid + 16 * p.rpt then (c.side.t2.find? fun x => x.1 == p.f.fid).map (·.2) else none

/-- A T2 read completes a whole beat before the beat of its first consumer (DEDUCED from R70's words against Table 3.5's for a prologue figure,
log entry 66), the reads of a beat stay within the planned rate, and no mandatory figure of the same memory-update die stands in the beat. -/
def Card.t2Ok (c : Card) (s : State) (window : Nat) : Bool :=
  c.side.t2.isEmpty || (upTo c.measBeats).all fun pos =>
    let figs := c.figsAt pos
    let reads := figs.filterMap fun f => (c.t2Of f).map (f, ·)
    reads.all (fun x => (c.consumers x.1.fid).all fun y => decide (pos + 2 ≤ y.pos))
      && decide (19 * reads.foldl (fun n x => n + x.2.1) 0 ≤ 10 * s.plan.t2gbs * window)
      && reads.all fun x => figs.all fun f => f.die != 4 + x.2.2 || f.cls != Cls.mandatory

/-! ## Pages and pins -/

/-- The tensor a page belongs to (R71). -/
def pageTensor (side : CardSide) (g : Graph) (page : Nat) : Option (BitVec 512) :=
  (side.pageOf.find? fun x => x.1 == page).bind fun x => g.tensor x.2

/-- Pages keep to pins and eligibility: in T2 only the pages of a tensor that may lie there, those of a pinned tensor at its tier and die, and
no move of them (R22, R69, R91). -/
def Card.pagesKept (c : Card) (s : State) : Bool :=
  s.plan.graph.any fun g => c.side.pages.all (fun e => !bit e.2 0 || match pageTensor c.side g e.1 with
      | some t => (bits e.2 2 2 == 0 || tT2 t) && (!tPin t || (match tFld t 224 2 with
          | 1 => bits e.2 2 2 == 0 && bits e.2 4 3 == tFld t 226 4
          | 2 => bits e.2 2 2 == 1
          | _ => true))
      | none => bits e.2 2 2 == 0)
    && c.side.moves.all fun m => !(pageTensor c.side g m.1).any tPin

/-- Clusters that T0 pins reserve: die, cluster, lines their tensor holds there (R91). -/
def Graph.reserved (g : Graph) : List (Nat × Nat × Nat) :=
  (g.tensors.filter fun t => tPin t && tFld t 224 2 == 0).flatMap fun t =>
    (upTo (max 1 (ceilDiv (tBytes t) (2 ^ 21)))).map fun i => (tFld t 226 4, tFld t 230 10 + i, min 32768 (ceilDiv (tBytes t - i * 2 ^ 21) 64))

/-- Nothing but the pinned tensor is written into a reserved scratchpad. -/
def Card.reservedOk (c : Card) (s : State) : Bool :=
  s.plan.graph.all fun g => g.reserved.all fun z => c.placed.all fun p => p.stores.all fun l =>
    l.1 != z.1 || l.2.1 != z.2.1 || decide (l.2.2.1 + l.2.2.2 ≤ z.2.2)

/-- What the lowering of the graph asks of a built card. -/
def Card.loweredOk (c : Card) (s : State) (window : Nat) : Bool :=
  c.placed.all s.classOk && c.paramsOk s && c.rolesOk s && c.savesOk s && c.unitsOk s && c.t2Ok s window && c.pagesKept s && c.reservedOk s && c.ingestOk s

end Sys2Proof.Machine
end

