-- ==== Sys2Proof/Machine/Build.lean ====
section
/-! DEFINITION. What the placement controller keeps to when it builds a card under basic control: the values the host set (R25, R31, R62,
R85), planned durations and reserves (R74 to R77, R203, R204), the order of pipeline units (R253), free slots (R290), places of working
copies, pages and pins (R69 to R73, R91); and the sets of the domain (R90, R370). SEAT_READY takes no card that breaks one of these. -/
namespace Sys2Proof.Machine

/-! ## Values the host set -/

/-- Beat length, rind in cycles and cap a build without a command for them keeps: those of the card before it, at first those of START. -/
def State.keptBeat (s : State) : Nat × Nat := match s.before with
  | some c => (c.lenUs, rindCycles c.lenUs c.rindUs)
  | none => (s.clk.lenUs, s.clk.rindCyc)
def State.keptCap (s : State) : Nat := match s.before with
  | some c => c.cap
  | none => s.plan.cap

/-- The header has the beat, cap and phrase length the build carries (R25, R31, R62, R85, R87, R529) and the measure length its work
needs (R78). -/
def Card.plannedHeader (c : Card) (s : State) (beatsNeeded : Nat) : Bool :=
  let beat := match s.plan.carried.len with
    | some x => (x.1, rindCycles x.1 x.2)
    | none => s.keptBeat
  c.lenUs == beat.1 && rindCycles c.lenUs c.rindUs == beat.2 && c.cap == s.plan.carried.cap.getD s.keptCap
    && c.phrase == s.plan.carried.phrase.getD (s.get F.PLC_PLAN_CFG_PHRASE) && c.measBeats == beatsNeeded

/-! ## Durations and reserves -/

/-- Class margin in % (Table 3.5): chain, mandatory, prologue; none for tail figures. -/
def State.margin (s : State) (cls : Nat) : Nat := if cls ≤ 2 then bits s.plan.margins.1 (8 * cls) 8 else 0

/-- A quantity with headroom, rounded up and capped at its dense value (R77, R203). -/
def State.reserve (s : State) (q dense : Nat) : Nat := min dense (ceilDiv (q * (100 + s.plan.margins.2.1)) 100)

/-- A time with its class margin, rounded up to a whole cycle (R75, R204). -/
def State.withMargin (s : State) (cls t : Nat) : Nat := ceilDiv (t * (100 + s.margin cls)) 100

/-- What is recorded of a figure at the start of the build (R82). -/
def State.recorded? (s : State) (f : Fig) : Option (Nat × List Nat) := tmplGet s.plan.basis f.template

/-- Slots of one expert in the calibration phrase (R203). -/
def calibSlots (t k e : Nat) : Nat := min t (ceilDiv (2 * t * k) (max 1 e))

/-- PLAN_NNZ of a GME body as R203 plans it from the highest quantities reported, `none` those of the calibration phrase or of a template
that reported nothing; the bytes of a ragged buffer are capped at its M rows of K bytes, and ROUTE_MERGE reports none (log entry 66). -/
def State.plannedNnz (s : State) (d : BitVec 256) (q : Option (List Nat)) : Option Nat :=
  let dense := match gOp d with
    | 1 => some (gM d * gK d * gN d / 16)
    | 7 => some (ceilDiv (gM d) 32 * ceilDiv (gM d) 32)
    | 3 => none
    | 4 => none
    | _ => some (gM d * gK d)
  match gOp d, q with
  | 3, none => some (gFld d 236 16 * calibSlots (gM d) (gFld d 232 4) (gFld d 236 16))
  | 3, some l => some (l.foldl (fun a x => a + s.reserve x (gM d)) 0)
  | _, none => dense
  | _, some l => dense.map fun n => s.reserve (l.headD 0) n

/-- Slot capacity of each expert of a ROUTE_GATHER, from the reserves PLAN_NNZ is the sum of (R77, R199, R203). -/
def State.expertCaps (s : State) (d : BitVec 256) (q : Option (List Nat)) : List Nat :=
  (upTo (gFld d 236 16)).map fun e => match q with
    | none => calibSlots (gM d) (gFld d 232 4) (gFld d 236 16)
    | some l => s.reserve (l.getD e 0) (gM d)

/-- g_lane and s of an SPSP_MM, capped by their fields (R184, R203). -/
def State.plannedLanes (s : State) (d : BitVec 256) (q : Option (List Nat)) : Bool :=
  gOp d != 1 || match q with
    | none => true
    | some l => gFld d 232 12 == s.reserve (l.getD 1 0) 4095 && gFld d 244 12 == min 4095 (ceilDiv (s.reserve (l.getD 2 0) (4095 * 4096)) 4096)

/-- Time of a block-masked matrix body over `n` non-empty tiles (R120); the dense time has all of them. The tiles are those of the grid the mask
covers: of A, of B, or the output tiles of DUAL_DW (R119, R121). -/
def maskedTime (inA : Bool) (d : BitVec 256) (n : Nat) : Nat :=
  let full := matTime (BitVec.ofNat 256 (setBits d.toNat 20 2 0))
  let none_ := matTime d
  let grid := fun (x y : Nat) => ceilDiv x 32 * ceilDiv y 32
  let tiles := if mPair d = 2 then grid (mM d) (mN d)
    else if mStat d = 2 ∨ (mStat d = 1 ∧ inA) then grid (mM d) (mK d) else grid (mK d) (mN d)
  none_ + ceilDiv ((full - none_) * min n tiles) (max 1 tiles)

/-- The block mask of a matrix body counts its non-empty tiles. -/
def Body.masked (b : Body) : Bool := match b with
  | .matrix d _ => mFld d 20 2 == 1
  | _ => false

/-- Least time of one hop of a gradient-reduction stage over a data-parallel set of several seats (R379): its flits over the open ports of
its dimension at the narrowest one's rate, the hop and its acknowledgement, delay beyond 210 ns, and the edge skew. -/
def State.stageTime (s : State) (f : Fig) : Nat :=
  match f.body with
  | .tpl d =>
    let ports := s.stagePorts f
    let wide := s.plan.graph.any fun g => g.axes.any fun a => axKind a == 0 && decide (1 < s.fabricFactor a)
    let sum := (s.param (tplOp d)).any (fun q => uRule q.op != 1) && inRange 16 31 (tplPart d)
    if !f.isTransfer || !wide || !sum || ports.isEmpty then 0
    else
      let w := ports.foldl (fun a n => max a (s.port n).width) 0
      let extra := ports.foldl (fun a n => max a (s.get (s.portField F.LD_PORT_n_DELAY_NS n) - 210)) 0
      ceilDiv (ceilDiv (tplCount d) ports.length * 128 * 19 * 2 ^ min w 2) 1160 + ceilDiv ((210 + extra + 200 + 210) * 19) 10
  | _ => 0

/-- Least time of a decode figure on its clips' cores: the reserved core time of its template, in the calibration phrase that of clips of the
largest cost (R330, R331). -/
def State.decodeTime (s : State) (f : Fig) : Nat :=
  match f.body with
  | .tpl d =>
    if f.die ≠ 14 ∨ tplOp d = tplNoOp ∨ tplPart d ≠ 1 then 0
    else
      let need := if s.plan.calib then tplCount d * s.maxCost else match s.recorded? f with
        | some r => ceilDiv (r.2.headD 0 * (100 + s.plan.margins.2.1)) 100
        | none => 0
      ceilDiv need (min 64 (max 1 (tplCount d)))
  | _ => 0

/-- Static time of the work of a memory-update die on an operation: its traffic of Table 11.3 at the data rate, or its elements at the 96 a
cycle of the die's lanes (Table 11.1), whichever takes longer; a time the manual does not state (DESIGN CHOICE, log entry 77). -/
def State.sliceTime (s : State) (c : Card) (f : Fig) : Nat :=
  match f.body with
  | .tpl d => if inRange 4 11 f.die ∧ tplOp d ≠ tplNoOp then
      max (ceilDiv (s.t1Bytes f (f.die - 4) * (19 * 10 ^ 8)) (t1DataRate c.rate)) (if inRange 6 7 (tplPart d) then 0 else ceilDiv (tplCount d * 1024) 96) else 0
  | _ => 0

/-- Static time of a figure: that of its body, of a T2 read its bytes at the planned rate. -/
def State.staticTime (s : State) (c : Card) (f : Fig) : Nat :=
  match c.t2Of f with
  | some x => s.t2Time x.1
  | none =>
    match f.body with
    | .matrix d _ => if f.body.masked then maskedTime (c.side.maskA.contains f.fid) d (2 ^ 32) else matTime d
    | .tpl _ => max (s.sliceTime c f) (max (s.stageTime f) (s.decodeTime f))
    | b => b.time (c.side.curdBf.contains f.fid)

/-- Planned duration of a figure, where its template or its static time gives one: in the calibration phrase 1.5 times the static
duration, or twice for a mandatory figure (R74); later the longest recorded time with its margin (R75), for dynamic figures the time at
the reserve with its margin (R77, R204), dense where nothing was reported, and for T2 reads twice the longest and 10 µs (R70). -/
def State.plannedDur (s : State) (c : Card) (f : Fig) : Option Nat :=
  let static := s.staticTime c f
  let t2 := (c.t2Of f).isSome
  if f.cls = Cls.tail ∧ !t2 then none
  else if s.plan.calib then (if static = 0 then none else some (if f.cls = Cls.mandatory then 2 * static else ceilDiv (3 * static) 2))
  else if t2 then (s.recorded? f).map fun r => 2 * r.1 + 19000
  else match f.body with
  | .tpl _ => (s.recorded? f).map fun r => max (max (s.stageTime f) (s.decodeTime f)) (s.withMargin f.cls r.1)
  | .gme _ => some (s.withMargin f.cls static)
  | .matrix d _ =>
    if f.body.masked then some (s.withMargin f.cls (match s.recorded? f with
      | some r => if r.2.isEmpty then static else maskedTime (c.side.maskA.contains f.fid) d (s.reserve (r.2.headD 0) (2 ^ 32))
      | none => static))
    else (s.recorded? f).map fun r => max static (s.withMargin f.cls r.1)
  | _ => (s.recorded? f).map fun r => max static (s.withMargin f.cls r.1)

/-- The quantities a GME figure is planned from: none in the calibration phrase, or of a template that reported nothing. -/
def State.planned (s : State) (f : Fig) : Option (List Nat) :=
  if s.plan.calib then none else (s.recorded? f).bind fun r => if r.2.isEmpty then none else some r.2

/-- The capacity tables of a built card's ROUTE_GATHER figures, as the controller writes them with the card (R199). -/
def State.writeCaps (s : State) (c : Card) : State :=
  if s.hostCards then s
  else (c.slices.flatMap fun sl => sl.queues.flatMap fun q => q.secs.flatMap fun x => x.figs.map fun f => f.inst sl q x 0).foldl (fun t f => match f.body with
    | .gme d => if gOp d = 3 then t.t0Write f.die f.group (gFld d 184 15) ((s.expertCaps d (s.planned f)).flatMap (leBytes 4)) else t
    | _ => t) s

/-- A figure has its planned duration and its reserve. -/
def State.durOk (s : State) (c : Card) (f : Fig) : Bool :=
  (match s.plannedDur c f with | some n => f.dur == n | none => decide (max (s.stageTime f) (s.decodeTime f) ≤ f.dur))
    && match f.body with
      | .gme d =>
        let q := s.planned f
        (match s.plannedNnz d q with | some n => gFld d 200 32 == min n (2 ^ 32 - 1) | none => true) && s.plannedLanes d q
      | _ => true

/-! ## Places in a beat (Table 3.5) -/

/-- The verdict figure ends its beat's planned window; a figure that depends on a prologue figure stands in a later beat. -/
def Card.placedOk (c : Card) (window : Nat) : Bool :=
  (upTo c.measBeats).all fun pos => (c.figsAt pos).all fun f =>
    (!f.isVerdict || f.start + f.dur == window)
      && f.deps.all fun p => match c.fig p with
        | some g => g.cls != Cls.prologue || decide (g.pos < f.pos)
        | none => true

/-! ## Free slots (R269, R270, R290) -/

/-- Whole slots of one channel in `cycles`: 512 transfers each (R269). -/
def slotsIn (rate cycles : Nat) : Nat := cycles * rateMt rate / (1900 * 512)

/-- The k-th of `f` free slots among `w` planned-window slots, before it gives way to refresh windows (R290). -/
def freeSlot (w f k : Nat) : Nat := (2 * k + 1) * w / (2 * f)

/-- The nearest slot from `x` on that is not busy. -/
def nextOpen (busy : List Nat) : Nat → Nat → Nat
  | 0, x => x
  | n + 1, x => if busy.contains x then nextOpen busy n (x + 1) else x

/-- Free slots of a channel in a planned window: `f` of `w`, none a refresh window (R290). -/
def freeSlots (w f : Nat) (refresh : List Nat) : List Nat :=
  ((upTo f).foldl (fun l k => l ++ [nextOpen (refresh ++ l) w (freeSlot w f k)]) [])

/-- Earmarks carry what flagged requesters need over the phrase, some in every beat, spread evenly over each channel's planned window like free slots (R289,
R290). -/
def Card.earmarksOk (c : Card) (s : State) (window : Nat) : Bool :=
  let w := slotsIn c.rate window
  s.plan.needs.all (fun n => let own := c.side.earmarks.filter fun e => e.1 / 24 == n.1 && e.2.2.2 == n.2.1
      decide (n.2.2 ≤ c.phrase * own.length) && (n.2.2 == 0 || (upTo c.measBeats).all fun p => own.any fun e => e.2.1 == p))
    && (upTo (24 * s.nMu)).all fun key => (upTo c.measBeats).all fun p =>
      let mine := ((c.side.earmarks.filter fun e => e.1 == key && e.2.1 == p).map fun e => e.2.2.1).mergeSort
      mine.zipIdx.all fun x => decide (freeSlot w mine.length x.2 ≤ x.1) && decide (x.1 < freeSlot w mine.length (x.2 + 1))

/-- In every beat, beside refresh and planned figures each channel keeps at least ⌈w / GAP⌉ free slots, and as many as it has earmarks; figures load the channels of a die
alike (R265). -/
def Card.freeOk (c : Card) (s : State) (window : Nat) : Bool :=
  let w := slotsIn c.rate window
  (upTo c.measBeats).all fun pos => let figs := c.figsAt pos
    (upTo s.nMu).all fun mu =>
      let used := ceilDiv (figs.foldl (fun n f => n + s.t1Bytes f mu) 0) (24 * slotBytes)
      let marks := (upTo 24).foldl (fun a ch => max a (c.side.earmarks.filter fun e => e.1 == chKey mu ch && e.2.1 == pos).length) 0
      decide (used + ceilDiv (s.refreshShare mu * w) 1000 + max marks (ceilDiv w (max 1 (s.plan.margins.2.2.getD mu 32))) ≤ w)

/-! ## Die-to-die links (R17, R18) -/

/-- GB/s of a link per direction (Table 1.3). -/
def linkRate (l : Nat × Nat) : Nat := if l.2 = 14 then 480 else if 4 ≤ l.2 ∧ l.2 < 12 then 720 else 960

/-- The compute die through which a die is reached. -/
def homeDie (d : Nat) : Nat := if d < 4 then d else (d - 4) / 2

/-- Links that any route from a compute or memory-update die to a compute, memory-update or link die takes, as (from, to); between compute dies
that share no link the controller has two routes and none is certain. -/
def State.hops (s : State) (a b : Nat) : List (Nat × Nat) :=
  let x := homeDie a
  let y := if 12 ≤ b then x else homeDie b
  (if a = x then [] else [(a, x)]) ++ (if s.dieLinks.contains (min x y, max x y) then [(x, y)] else []) ++ if b = y then [] else [(y, b)]

/-- A figure's transfer between dies: bytes, from, to. -/
def State.transfer (s : State) (f : Fig) : Option (Nat × Nat × Nat) :=
  match f.body with
  | .dma d =>
    let src := if dmSrc d = 2 then bits (dmSa d) 0 2 else if dmSrc d = 3 ∨ dmSrc d = 4 then 4 + bits (dmSa d) 0 3 else f.die
    let dst := if dmDst d = 2 ∨ dmDst d = 7 then bits (dmDa d) 0 2 else if dmDst d = 3 ∨ dmDst d = 5 then 4 + bits (dmDa d) 0 3
      else if dmDst d = 6 then (if s.vg4 then 12 + f.die / 2 else 12) else f.die
    some (dmBytes d, src, dst)
  | .matrix d (some x) => if mAccw d then some (ceilDiv (mM d) 32 * ceilDiv (mN d) 32 * 4096, f.die, 4 + xFld x 0 3) else none
  | _ => none

/-- The planned transfers of a beat fit every link in its planned window. -/
def Card.linksOk (c : Card) (s : State) (window : Nat) : Bool :=
  (upTo c.measBeats).all fun pos =>
    let ts := (c.figsAt pos).filterMap fun f => (s.transfer f).bind fun t => if t.2.1 = t.2.2 then none else some (t.1, s.hops t.2.1 t.2.2)
    s.dieLinks.all fun l => [l, (l.2, l.1)].all fun e =>
      decide (19 * ts.foldl (fun n t => if t.2.contains e then n + t.1 else n) 0 ≤ linkRate l * 10 * window)

/-! ## Vats and bank power (R221, R222) -/

/-- Every planned vat has expected values in every beat of the measure (R221). -/
def Card.expectsOk (c : Card) : Bool :=
  c.vatSets.all fun v => !vatPlanned v.2 || (upTo c.measBeats).all fun p =>
    (c.seqAt p).any fun x => entType x.2.2 == 0x86 && vatKey x.1 x.2.1 (ent x.2.2 8 6) == v.1

/-- A line that figure `p` reads in beat `pos` has been written since its bank last was off, if any beat of the measure has it off. -/
def Card.keptFor (c : Card) (s : State) (p : Placed) (pos : Nat) (l : Nat × Nat × Nat) : Bool :=
  let b := bankKey l.1 l.2.1 (bankOf (s.get (F.CD_SP_CFG_MODE.cd l.1) == 1) (l.2.2 * 64))
  let back := (upTo c.measBeats).map fun i => (pos + c.measBeats - i) % c.measBeats
  let since := back.takeWhile fun q => !(c.offAt q).contains b
  since.length == back.length || c.placed.any fun q => (upTo q.rpt).any fun r =>
    since.contains (q.pos + r) && (q.pos + r != pos || decide (q.start + q.dur ≤ p.start))
      && q.stores.any fun x => x.1 == l.1 && x.2.1 == l.2.1 && decide (x.2.2.1 ≤ l.2.2) && decide (l.2.2 < x.2.2.1 + x.2.2.2)

/-- Banks are off only where nothing a later figure of the phrase reads lies in them (R222). -/
def Card.powerKept (c : Card) (s : State) : Bool :=
  c.side.banks.isEmpty || c.placed.all fun p => (upTo p.rpt).all fun r =>
    p.reads.all fun l => (upTo l.2.2.2).all fun i => c.keptFor s p (p.pos + r) (l.1, l.2.1, l.2.2.1 + i)

/-! ## Where things lie -/

/-- Bytes of the working copy at `p` that compute die `cd` reads by DMA. -/
def Card.readsOf (c : Card) (p : Placement) (t : BitVec 512) (cd : Nat) : Nat :=
  c.placed.foldl (fun n x => match x.f.body with
    | .dma d => let o := bits (dmSa d) 3 32 * 64
        if x.die = cd ∧ dmSrc d = 3 ∧ bits (dmSa d) 0 3 = p.mu ∧ p.wcAddr ≤ o ∧ o < p.wcAddr + wcHeld t then n + x.rpt * dmBytes d else n
    | _ => n) 0

/-- A working copy lies on a home die of the compute die that reads most of it (R69, Table 1.3). -/
def Card.homeOk (c : Card) (s : State) : Bool :=
  s.plan.graph.any fun g => g.places.all fun p => match g.tensor p.handle with
    | none => true
    | some t =>
      let reads := (upTo s.nCd).map (c.readsOf p t)
      (tPin t && tFld t 224 2 == 1) || reads.all (· == 0) || reads.all fun n => decide (n ≤ reads.getD (p.mu / 2) 0)

/-- Moves keep away from pinned tensors (R91). -/
def Card.movesOk (c : Card) (s : State) : Bool :=
  s.plan.graph.any fun g => c.side.moves.all fun m => g.places.all fun p => match g.tensor p.handle with
    | none => true
    | some t => !tPin t || p.mu != m.2.1 || wcHeld t == 0 || decide (p.wcAddr + wcHeld t ≤ m.2.2.1) || decide (m.2.2.1 + 2 ^ 21 ≤ p.wcAddr)

/-- A card the placement controller may have built. -/
def State.builtOk (s : State) (c : Card) (beatsNeeded : Nat) : Bool :=
  let window := c.lenUs * 1900 - rindCycles c.lenUs c.rindUs
  c.plannedHeader s beatsNeeded && (upTo c.measBeats).all (fun pos => (c.figsAt pos).all (s.durOk c)) && c.placedOk window && c.loweredOk s window
    && c.freeOk s window && c.linksOk s window && c.earmarksOk s window && c.homeOk s && c.movesOk s && c.expectsOk && c.powerKept s

/-! ## Sets (R90, R370) -/

/-- Seats that share this seat's coordinates in every dimension but those of `ds`. -/
def State.setAlong (s : State) (ds : List Nat) : List Nat :=
  let own := coordsOf s.dims s.ownSeat
  (upTo s.positions).filter fun x => s.hasMember x && (upTo 4).all fun k => ds.contains k || (coordsOf s.dims x).getD k 0 == own.getD k 0

/-- Both directions of a dimension have their links up at full width (R90, Table 13.1). -/
def State.fullDim (s : State) (k : Nat) : Bool := ((upTo (if s.vg4 then 16 else 8)).filter fun n => s.portDim n == k).all fun n => (s.port n).open_ && (s.port n).width == 0

/-- The assignments the leader chooses among: those that give some axis only dimensions at full width, where there are any (R90). -/
def State.goodChoices (s : State) (g : Graph) : List (List (Nat × Nat)) :=
  let cs := s.dimChoices g
  let best := cs.filter fun as => (upTo (s.fabricAxes g).length).any fun a => (dimsOf as a).all s.fullDim
  if best.isEmpty then cs else best

/-- The sets of this seat as a swap gives them: the domain set and one for each fabric axis, of occupied positions; which axis has the most
traffic, and so which of the assignments the leader chose, is free here, and tie and list sets follow places of operations that no rule
gives (log entry 67). -/
def State.formSets (s : State) (g : Graph) : State :=
  let cs := s.goodChoices g
  let r := if cs.length ≤ 1 then (0, s) else s.draw
  let as := cs.getD (r.1 % max 1 cs.length) []
  let t := r.2
  { t with fab := { t.fab with
    sets := (0, (upTo s.positions).filter s.hasMember) :: (upTo (s.fabricAxes g).length).map fun a => (a + 1, s.setAlong (dimsOf as a)) } }

end Sys2Proof.Machine
end

