-- ==== Sys2Proof/Machine/Loads.lean ====
section
/-! DEFINITION. Loading and removing (R65, R68, R92, R230 to R232, R429, R430), restores (R402 to R405, R348, R349), host access
to parameters (R431, R432), host-memory read errors (R433). -/
namespace Sys2Proof.Machine

/-! ## LOAD_GRAPH -/

/-- The block axis of a tensor of the resident graph is its outer axis. -/
def State.kOuter (s : State) (h : Nat) : Bool := s.plan.graph.any fun g => g.kOuter h

/-- A parameter for the layout of its working copy and scales alone. -/
def layoutOf (outer : Bool) (t : BitVec 512) (p : Placement) : Param := ⟨0, 0#1024, t, p, [], outer⟩

/-- Write the pattern numbers of the EXPLICIT masks, fitted to the lowest pattern (R191), and count the META_DUPs. -/
def State.writeMasks (s : State) (g : Graph) : State :=
  g.explicitMasks.foldl (fun t x => match g.place x.1 with
    | none => t
    | some p => (maskBlocks x.2.1).foldl (fun u b =>
        let k := blockKept x.2.2 (tCols x.2.1) b.1 b.2
        let u1 := u.count F.PLC_META_DUP_COUNT k.2
        u1.setBlock (layoutOf true x.2.1 p) (4 * b.1) (4 * b.2) ((fitPattern k.1).getD 0)) t) s

/-- A graph becomes resident: the first phrase is a calibration phrase, its card is to be built unless the host builds cards
(R74, R92, R430, R529). -/
def State.placeGraph (s : State) (g : Graph) (measure : Nat) : State :=
  let ph := if g.h 64 13 = 0 then s.plan.req.phrase else some (g.h 64 13)
  let s1 := match ph with
    | some p => s.set F.PLC_PLAN_CFG_PHRASE p
    | none => s
  let s2 : State := { s1 with
    plan := { s1.plan with
      graph := some g, loading := true, calib := true, card := none, next := none, building := !s1.hostCards
      margins := s1.buildCfg, needs := [], joins := s1.fab.joins.length
      carried := { s1.plan.req with phrase := some (s1.get F.PLC_PLAN_CFG_PHRASE) }, req := ⟨none, none, none, false⟩, ready := false, swapBit := false
      tmpl := [], basis := [], energyRatio := 0, coefMil := 1000, cardCoef := 1000, pages := [], migr := [] }
    clk := { s1.clk with measure := measure, pos := none, phrPos := 0, phrase := 0 }
    host := { s1.host with rings := s1.host.rings.map fun r => { r with active := r.active.map carryCmd } }
    run := { Run.reset with stopped := s1.run.stopped }
    t1 := { s1.t1 with encoded := [], scaled := [], supplied := [], pruneDue := [], pruneRedo := [], part := [], started := [], staged := [], reading := [], repair := [], persistBad := []
                       refNext := s1.planRates }
    cel := { s1.cel with ringMib := s1.get F.CEL_RING_MIB, cutNo := 0, lastCut := none, dueDeferred := false, wheeled := [], base := none, newDirty := [], journal := [], drainCyc := 0, drainOld := 0 } }
  s2.writeMasks g

/-- Masters take tag 0 and spares all ones (R295). -/
def State.firstTags (s : State) : State :=
  (s.places.flatMap placeKeys).foldl (fun t k => (t.setTag k 0 0).setTag k 1 0xFFFFFFFF) s

/-! ### An evaluation graph's source (R261, R262, R408) -/

/-- The snapshot an evaluation graph, one with no UPDATE operation, takes its parameters from: the completed, shipped one it names. -/
def Graph.evalSource (g : Graph) (src : Option Snap) : Option Snap :=
  if g.hasUpdate then none else src.filter fun x => x.role == 2 && x.complete && x.crcOk

/-- The graph with the snapshot's codebooks in the places its matching tensors name. -/
def Graph.takeBooks (g y : Graph) : Graph :=
  { g with codebooks := g.places.foldl (fun l p => match g.tensor p.handle, y.tensor p.handle with
      | some t, some v => match y.codebooks[tCodebook v]? with
          | some c => if tParam v && tCoded t && tCoded v then l.set (tCodebook t) c else l
          | none => l
      | _, _ => l) g.codebooks }

/-- Masters and scales of one parameter of a snapshot, in location 0 of the granules its new die would give them. -/
def evalPairs (x : Snap) (o : Placement) (mu : Nat) : Mem :=
  (((upTo o.count).map fun i => o.gran + i) ++ (upTo o.scaleCount).map fun i => o.scaleGran + i).foldl
    (fun m i => mWrite m (locBase (granKey mu i) 0) (mRead x.state (granKey o.mu i * 4096) 4096)) []

/-- A frozen FP32 working copy takes the masters as they are. -/
def State.evalMasters (s : State) (q : Param) : State :=
  (upTo (granCount q.t)).foldl (fun t gi => (elems q gi).foldl (fun (u : State) e =>
    match u.wcSlot q.p q.t e.2.1 e.2.2 with
    | some w => u.wcPut q.p.mu w.1 32 w.2 (u.curWord (masterKey q gi) e.1).toNat
    | none => u) t) s

/-- The working copy of `q` from granules that stand for its masters and scales alone; the paired state is left as it was. -/
def State.evalEncode (s : State) (q : Param) (pairs : Mem) : State :=
  let u : State := { s with t1 := { s.t1 with pair := pairs, tag := [] } }
  let w := if tFormat q.t = 0 then u.evalMasters q else (upTo (granCount q.t)).foldl (fun z gi => z.reencode q gi false true) u
  { w with t1 := { w.t1 with pair := s.t1.pair, tag := s.t1.tag } }

/-- The scales of a snapshot's parameter, into the scale granules of the placement. -/
def State.evalScales (s : State) (x : Snap) (o p : Placement) : State :=
  (upTo (min p.scaleCount o.scaleCount)).foldl (fun z i =>
    z.locWrite (granKey p.mu (p.scaleGran + i)) 0 0 (mRead x.state (granKey o.mu (o.scaleGran + i) * 4096) 4096)) s

/-- One frozen parameter of an evaluation graph, matched by handle: the shipped working copy of a frozen parameter; of a trainable
one the encoding of its masters with its scales (R309), which also go to the scale granules of the placement. -/
def State.evalParam (x : Snap) (y : Graph) (s : State) (p : Placement) : State :=
  match s.tensorOf p.handle, y.tensor p.handle, y.place p.handle with
  | some t, some v, some o =>
    if !(tFrozen t && tParam v && tSnap v != 3 && tRows t == tRows v && tCols t == tCols v) then s
    else if tFrozen v then
      if tFormat t = tFormat v ∧ tMask24 t = tMask24 v then
        { s with t1 := { s.t1 with mem := mWrite s.t1.mem (t1Addr p.mu p.wcAddr) (mRead x.frozen (t1Addr o.mu o.wcAddr) (wcBytes t)) } }
      else s
    else
      let q : Param := ⟨0, 0#1024, t, { p with gran := o.gran, scaleGran := o.scaleGran }, (s.plan.graph.map fun g => g.tensorCb t).getD [], s.kOuter p.handle⟩
      (s.evalEncode q (evalPairs x o p.mu)).evalScales x o p
  | _, _, _ => s

/-- Parameters, scales and codebooks of the source and nothing else of it (R262). -/
def State.loadEval (s : State) (src : Option Snap) : State :=
  match src with
  | none => s
  | some x => match s.plan.graph with
    | none => s
    | some g =>
      let y := readGraph x.graph x.maskImg x.places
      (g.takeBooks y).places.foldl (State.evalParam x y) { s with plan := { s.plan with graph := some (g.takeBooks y) } }

/-- The digest of the leader's graph: this seat's own where it leads or is alone, else what no flit of the manual carries, a free value
(R430; log entry 44). -/
def State.leaderDigest (s : State) (g : Graph) : Nat × State :=
  if s.fab.leader || s.alone then (g.digest, s) else (s.draw.1 % 2 ^ 256, s.draw.2)

/-- LOAD_GRAPH (R65, R68, R261, R430): GRAPH_BUSY while a graph is resident or out of RUNNING, then with the first status of Table 3.3, and
GRAPH_MISMATCH where the leader's graph is another; an accepted graph is copied, an evaluation graph filled from its source, and its command
completes at the edge that opens its first measure. -/
def execLoadGraph (cyc : Nat) (ring : Nat) (image mask : Bytes) (places : List Placement) (src : Option Snap) (s : State) : Host.Outcome State Fault Refusal :=
  if s.dev == .off then .next s else
  .next ((s.tick cyc).start ring 0x01 true false fun d t =>
    if t.plan.graph.isSome || t.dev != .running then t.finish ring d St.graphBusy 0
    else
      let g := readGraph (image.take (dW d 2)) (mask.take (dW d 4)) places
      let st := t.graphStatus g
      if st ≠ St.ok then t.finish ring d st 0
      else
        let l := t.leaderDigest g
        if l.1 ≠ g.digest then l.2.finish ring d St.graphMismatch 0
        else (((l.2.placeGraph g l.2.clk.measure).firstTags).loadEval (g.evalSource src)).activate ring d 0)

/-! ## LOAD_CARD, SEAT_READY -/

/-- A card stands in every Caller's idle buffer, in place of one that never swapped; its page moves start, and the seat is READY when they are done (R73, R83). -/
def State.stageCard (s : State) (c : Card) (free : List (Nat × Nat × Nat)) : State :=
  let s1 : State := { s with
    t1 := { s.t1 with free := free, refNext := if s.hostCards then s.planRates else s.t1.refNext }
    plan := { s.plan with next := some c, building := false, ready := false, migr := [], pages := s.plan.migr.foldl (fun t m => tSet t m.page (setBits (tGet t m.page) 1 1 0)) s.plan.pages
                          carried := ⟨none, none, none, false⟩ }
    host := { s.host with rings := s.host.rings.map fun r => { r with active := r.active.map builtCmd } } }
  (c.side.moves.foldl State.startMove s1).noteReady

/-- LOAD_CARD (R92, R216): expert card, and explicit slot tables need their bit; refused by the checks of load; accepted for the next swap with its generation. -/
def execLoadCard (cyc : Nat) (ring : Nat) (card : CardImage) (side : CardSide) (s : State) : Host.Outcome State Fault Refusal :=
  if s.dev == .off then .next s else
  .next ((s.tick cyc).start ring 0x02 false true fun d t =>
    if !t.feat 0 || (!side.slots.isEmpty && !t.feat 2) then t.finish ring d St.expertDenied 0
    else match t.checkCard side (card.take (dW d 2 / 16)), allocAll side.allocs t.t1.free with
      | some c, some free => (t.stageCard c free).finish ring d St.ok c.gen
      | _, _ => t.finish ring d St.planReject 0)

/-- SEAT_READY (R78, R83, R274, R362): the build in progress has ended: a card such as the controller builds is loaded, or the work needs more than 65,535 beats or
an allocation failed, and the current card stays (PLAN_NOFIT). -/
def execSeatReady (cyc : Nat) (card : CardImage) (side : CardSide) (beatsNeeded : Nat) (s : State) : Host.Outcome State Fault Refusal :=
  if s.dev == .off then .next s else
  let s1 := s.tick cyc
  if !s1.plan.building || s1.hostCards || s1.plan.graph.isNone || !s1.ringsOn || !s1.fab.formed then .next s1
  else
    let nofit := State.emit { s1 with plan := { s1.plan with building := false } } Ev.planNofit 14 (beatsNeeded % 2 ^ 32)
    if 65535 < beatsNeeded then .next nofit
    else match allocAll side.allocs s1.t1.free with
      | none => .next nofit
      | some free => match s1.checkCard side card with
        | some c => if s1.builtOk c beatsNeeded then .next (s1.stageCard c free) else .next s1
        | none => .next s1

/-! ## KILL and scrubs -/

/-- First byte of the host window on each die. -/
def State.winBase (s : State) : Nat := 186 * 2 ^ 30 - s.get F.HUB_WIN_CFG_SIZE_MIB * 2 ^ 20 / s.nMu

/-- A scrub: zeros in both tiers but the host window, with valid ECC, and a fresh allocator (R230, R273). -/
def State.scrub (s : State) : State :=
  let w := s.winBase
  { s with
    t0 := { T0.reset with hub := s.t0.hub, armed := s.t0.armed, bankOff := s.t0.bankOff, bankNext := s.t0.bankNext,
                          bankDefer := s.t0.bankDefer }
    t1 := { T1.reset with
      mem := s.t1.mem.filter fun e => decide (w ≤ e.1 % 2 ^ 38)
      poison := s.t1.poison.filter fun k => decide (k % 2 ^ 40 < 2 ^ 32) && decide (w ≤ k % 2 ^ 40 * 64)
      cxl := s.t1.cxl, free := s.freeBlocks, bank := s.t1.bank, mr4 := s.t1.mr4, refNext := s.t1.refNext, extraLog := s.t1.extraLog, req := s.t1.req
      grants := s.t1.grants, rank := s.t1.rank, settled := s.t1.settled, flagged := s.t1.flagged, moved := s.t1.moved, patrol := s.t1.patrol, lrMul := s.t1.lrMul }
    plan := { s.plan with pages := [], migr := [] } }

/-- The resident graph, its cards and its run end; hub objects are zero (R229, R429). -/
def State.dropGraph (s : State) : State :=
  let s1 := s.killCommands.abandonCut 5
  { s1 with
    plan := { s1.plan with
      graph := none, loading := false, calib := false, card := none, next := none, building := false, ready := false
      swapBit := false, tmpl := [], basis := [], energyRatio := 0, coefMil := 1000, cardCoef := 1000 }
    clk := { s1.clk with pos := none, phrPos := 0, phrase := 0 }
    run := { Run.reset with stopped := s1.run.stopped }
    t0 := { s1.t0 with hub := [], armed := [], vatWait := [] }
    t1 := { s1.t1 with staged := [], reading := [], repair := [], part := [], started := [], wb := [], reread := [], served := [] }
    ing := { Ingest.reset with
      nStream := s1.ing.nStream, seed := s1.ing.seed, posMeas := s1.ing.posMeas, nClip := s1.ing.nClip
      fill := { Deck.reset with num := s1.ing.fill.num } }
    fab := { s1.fab with coll := [], rxData := [], txData := [] } }

/-- A KILL skips its scrub: SCRUB is 0 and it carries NOSCRUB (R232). -/
def State.noScrub (s : State) (d : BitVec 512) : Bool := dFlag d && s.get F.HUB_KILL_CFG_SCRUB == 0

/-- KILL (R6, R230, R232, R429): NOSCRUB without its feature is refused; completes at once without a scrub, else when the scrub is
done. -/
def execKill (cyc : Nat) (ring : Nat) (s : State) : Host.Outcome State Fault Refusal :=
  if s.dev == .off then .next s else
  .next ((s.tick cyc).start ring 0x03 false true fun d t =>
    if dFlag d && !t.feat 3 then t.finish ring d St.expertDenied 0
    else if t.noScrub d then t.dropGraph.finish ring d St.ok 0
    else t.dropGraph.activate ring d 0)

/-- SCRUB_DONE (R230, R231): every part of a KILL's scrub is written and verified; a verify read that found a non-zero line is a
class F error. -/
def execScrubDone (cyc : Nat) (nonZero : Option Source) (s : State) : Host.Outcome State Fault Refusal :=
  if s.dev == .off then .next s else
  let s1 := s.tick cyc
  if s1.ringsOn && s1.host.rings.any fun r => r.active.any fun c => dOpcode c.desc == 3 then
    let s2 := s1.scrub
    let s3 := match nonZero with
      | some src => s2.detect ⟨Er.scrubVerify, src, none, 0⟩
      | none => s2
    .next (s3.finishWhere (fun c => dOpcode c.desc == 3) St.ok fun _ => 0)
  else .next s1

/-! ## RESTORE -/

/-- The source's newest snapshot of measure `m` for this seat (R402, R407): its own, or the counterpart's mirror of it. Of its own, `others` names
one of which a block, a directory, a section or the record failed its ECC or CRC as it was read, or its framing (Table 14.4; log entry 27). -/
def State.sourceSnap (s : State) (twin : Bool) (others : List Snap) (m : Nat) : Option Snap :=
  let bad := !twin && others.any fun y => y.role == 0 && y.measure == m && !y.crcOk
  ((if twin then others else s.cel.snaps).reverse.find? fun x =>
    x.role == (if twin then 1 else 0) && x.seat == s.seat && x.measure == m && x.complete).map fun x => { x with crcOk := x.crcOk && !bad }

/-- Occupied positions. -/
def State.seatCount (s : State) : Nat := (s.fab.members.filter fun m => m.occupied).length

def snapGraph (x : Snap) : Graph := readGraph x.graph x.maskImg x.places

/-- This seat's own checks of Table 14.4, in table order. -/
def State.restoreCheck (s : State) (x : Option Snap) : Nat := match x with
  | none => St.restoreNone
  | some x =>
    if !x.crcOk then St.restoreFrame
    else if x.sku ≠ s.fuses.sku then St.restoreSku
    else if x.feat ≠ s.acceptWord then St.restoreFeat
    else if x.seats ≠ s.seatCount ∨ x.dims ≠ s.dimsField then St.restoreSeats
    else s.graphStatus (snapGraph x)

/-- The place of a status among the checks of Table 14.4. -/
def restoreRank (st : Nat) : Nat := if st < St.restoreMix then 0x100 + st else st

/-- What the seats make of it: the first check of Table 14.4 that fails on any of them refuses all with that seat's status (R402); each
entry of `others` is the measure another seat named and the status of its own checks. -/
def firstRefusal (own : Nat) (others : List (Nat × Nat)) : Nat :=
  others.foldl (fun a x => if x.2 ≠ St.ok ∧ (a = St.ok ∨ restoreRank x.2 < restoreRank a) then x.2 else a) own

/-- The first check of Table 14.4 that fails. -/
def State.restoreStatus (s : State) (m : Nat) (others : List (Nat × Nat)) (x : Option Snap) : Nat :=
  if others.any (·.1 != m) then St.restoreMix
  else firstRefusal (s.restoreCheck x) others

/-- Step 3 (R403): current locations hold the snapshot under tag STEP − 1, spares have tag all ones; frozen working copies. -/
def State.restorePairs (s : State) (x : Snap) : State :=
  let keys := s.places.flatMap placeKeys
  let s1 : State := { s with t1 := { s.t1 with mem := x.frozen.foldl (fun m e => mSet m e.1 e.2) s.t1.mem } }
  keys.foldl (fun t k => ((t.locWrite k 0 0 (mRead x.state (k * 4096) 4096)).setTag k 0 (x.step - 1)).setTag k 1 0xFFFFFFFF) s1

/-- Step 5: the recorded sets; the recorded routes if every recorded link is up, else new ones and ROUTE_CHANGED. -/
def State.restoreRoutes (s : State) (x : Snap) : State :=
  let down := (x.links.zipIdx.filter fun l => l.1 && !(s.port l.2).up).length
  let s1 : State := { s with fab := { s.fab with sets := x.sets } }
  if down = 0 then { s1 with fab := { s1.fab with route := x.routes.map fun r => tabOf (r.zipIdx.map fun e => (e.2, e.1)) } }
  else if s1.fab.leader then s1.ownRoutes.emit Ev.routeChanged 14 down else s1

/-- Fields of a data position (Table 12.8). -/
def dpFld (p : BitVec 1024) (lo w : Nat) : Nat := bits p.toNat lo w

/-- Step 6 (R348): the generator key, the next stream, the deck to cut again and the draws to skip. -/
def restoreIngest (p : BitVec 1024) (m : Nat) : Ingest :=
  let n := dpFld p 288 32
  { Ingest.reset with
    nStream := dpFld p 320 32, nClip := dpFld p 96 48 - n, seed := dpFld p 192 64, posMeas := p, nextMeas := m + 1
    from_ := (dpFld p 320 32, dpFld p 352 64), psiFrom := dpFld p 416 64
    skip := if n = 0 then dpFld p 144 32 else 0
    recut := if n = 0 then none else some (n, dpFld p 144 32, dpFld p 256 32, dpFld p 480 32, dpFld p 512 32)
    refill := if dpFld p 704 32 = 0xFFFFFFFF then none else some (dpFld p 704 32, dpFld p 736 32) }

/-- R349: an explicit offset that differs from the restored SHUFFLE loses, once told. -/
def State.realign (s : State) (shuffle : Nat) : State :=
  let draws := s.get F.ING_RNG_OFFSET_DRAWS
  if s.get F.ING_RNG_CFG_OFFSET_EN = 1 ∧ draws ≠ shuffle then
    (s.count F.ING_RNG_REALIGN_COUNT 1).emit Ev.rngRealign 14 (draws + shuffle * 2 ^ 32)
  else s

/-- Steps 1 to 6 of R403 on this seat. -/
def State.restoreFrom (s : State) (x : Snap) (own : Bool) : State :=
  let s1 := (s.killCommands.abandonCut 6).scrub
  let s2 := s1.placeGraph (snapGraph x) (x.measure + 1)
  let s3 := ((((s2.restorePairs x).set F.PLC_STEP_T x.step).set F.PLC_LSCALE_EXP x.exp).set F.PLC_LSCALE_CLEAN x.clean).restoreRoutes x
  let s4 : State := { s3 with
    ing := restoreIngest x.dataPos x.measure
    plan := { s3.plan with loading := false }
    t1 := { s3.t1 with scaled := x.places.map (·.handle) }
    cel := { s3.cel with lastCut := some x.measure, wheeled := if own then x.places.map (·.handle) else [], base := if own then some x else none } }
  s4.realign (dpFld x.dataPos 144 32)

/-- RESTORE (R402 to R405): no graph resident and the domain formed; the checks of Table 14.4; a refusal changes nothing but the
count of a record that failed. -/
def execRestore (cyc : Nat) (ring : Nat) (others : List (Nat × Nat)) (twin : List Snap) (s : State) : Host.Outcome State Fault Refusal :=
  if s.dev == .off then .next s else
  .next ((s.tick cyc).start ring 0x04 false false fun d t =>
    if t.plan.graph.isSome then t.finish ring d St.graphBusy 0
    else if !t.fab.formed then t.finish ring d St.state 0
    else
      let m := bits (dW d 1) 0 48
      let x := t.sourceSnap (dFlag d) twin m
      let st := t.restoreStatus m others x
      if st ≠ St.ok then (if t.restoreCheck x = St.restoreFrame ∧ st ≠ St.restoreMix then t.count F.CEL_FRAME_ERR_COUNT 1 else t).finish ring d st 0
      else match x with
        | some x => (t.restoreFrom x (!dFlag d)).activate ring d m
        | none => t.finish ring d St.restoreNone 0)

/-- Step 7: every working copy of a trainable parameter is encoded again, its mask chosen again from its values (R309). -/
def State.reencodeAll (s : State) : State :=
  match s.plan.graph with
  | none => s
  | some g => (upTo g.ops.length).foldl (fun t i => match t.param i with
      | none => t
      | some q => if tFrozen q.t then t else (upTo (granCount q.t)).foldl (fun u gi => u.encodeGran q gi false) t) s

/-- RESTORE_DONE (R403): every seat has finished step 7; the command completes. -/
def execRestoreDone (cyc : Nat) (s : State) : Host.Outcome State Fault Refusal :=
  if s.dev == .off then .next s else
  let s1 := s.tick cyc
  if s1.ringsOn && s1.host.rings.any fun r => r.active.any fun c => dOpcode c.desc == 4 then
    .next (s1.reencodeAll.finishWhere (fun c => dOpcode c.desc == 4) St.ok fun _ => 0)
  else .next s1

/-! ## PARAM_WRITE, PARAM_READ -/

/-- The tensor and placement an access names, if its handle, range and SCALE flag are within bounds (R428, R431). -/
def State.paramAccess (s : State) (d : BitVec 512) : Option (BitVec 512 × Placement) :=
  let h := bits (dW d 1) 0 18
  match s.tensorOf h, s.plan.graph.bind fun g => g.place h with
  | some t, some p =>
    let n := if dFlag d then paramScales (s.kOuter h) t else tElems t
    if tParam t && (!dFlag d || (!tFrozen t && tCoded t)) && decide (dW d 3 ≤ 2 ^ 28) && decide (dW d 2 + dW d 3 ≤ n) then some (t, p) else none
  | _, _ => none

/-- Bits of a source or destination element, and its floating format: codes have none. -/
def accessBits (t : BitVec 512) (scale : Bool) : Nat := if scale || !tFrozen t then 32 else fmtBits (tFormat t)
def accessFmt (t : BitVec 512) (scale : Bool) : Option Fmt :=
  if scale || !tFrozen t then some Fmt.fp32
  else match tFormat t with
    | 0 => some Fmt.fp32 | 1 => some Fmt.bf16 | 2 => some Fmt.fp16 | 3 => some Fmt.e4m3 | 4 => some Fmt.e5m2 | _ => none

/-- Element `i` of packed source bytes. -/
def srcElem (w : Nat) (b : Bytes) (i : Nat) : Nat :=
  if w = 4 then bits (leNat (bytesAt b (i / 2) 1)) (4 * (i % 2)) 4 else leNat (bytesAt b (i * (w / 8)) (w / 8))

/-- No floating-point source value is a NaN or an infinity (R145, R431). -/
def srcFinite (t : BitVec 512) (scale : Bool) (n : Nat) (b : Bytes) : Bool :=
  match accessFmt t scale with
  | none => true
  | some fm => (upTo n).all fun i => (fm.value (srcElem (accessBits t scale) b i)).isFin

/-- PARAM_WRITE (R431): bounds, finite values, then staged until the next measure boundary. -/
def execParamWrite (cyc : Nat) (ring : Nat) (src : Bytes) (s : State) : Host.Outcome State Fault Refusal :=
  if s.dev == .off then .next s else
  .next ((s.tick cyc).start ring 0x40 false true fun d u =>
    match u.paramAccess d with
    | none => u.finish ring d St.badArg 0
    | some (t, _) =>
      if !srcFinite t (dFlag d) (dW d 3) src then u.finish ring d St.dataNonfinite 0
      else
        let g : Staged := ⟨ring, dTag d, bits (dW d 1) 0 18, dFlag d, dW d 2, dW d 3, src⟩
        State.activate { u with t1 := { u.t1 with staged := u.t1.staged ++ [g] } } ring d 0)

/-- Granule and word of linear element `l` of a master. -/
def wordOf (t : BitVec 512) (l : Nat) : Nat × Nat :=
  if tRank t ≤ 1 then (l / 1024, l % 1024)
  else
    let c := max 1 (tCols t)
    (l / c / 32 * ceilDiv (tCols t) 32 + l % c / 32, l / c % 32 * 32 + l % c % 32)

/-- A staged word into the current location of a pair, after copy-before-write; the granule is dirty (R280, R395); without one, class F (R298). -/
def State.hostWord (s : State) (k i v : Nat) : State :=
  match s.current k with
  | none => s.pairLost (k / 2 ^ 26) none
  | some l => ((s.copyBefore k l).setLocWord k l i v).setDirty k

/-- Granules of the working copy that a written element reaches. -/
def reached (q : Param) (g : Staged) (gi : Nat) : Bool :=
  if g.scale then (elems q gi).any fun e => decide (g.off ≤ scaleGroup q e.2) && decide (scaleGroup q e.2 < g.off + g.count)
  else (elems q gi).any fun e =>
    let l := e.2.1 * tCols q.t + e.2.2
    decide (g.off ≤ l) && decide (l < g.off + g.count)

/-- Write one staged command's values (R431 steps 3 and 4): scales clamped (R141), affected granules wait for REPAIR; the command
completes. -/
def State.applyStaged (s : State) (g : Staged) : State :=
  let s1 : State := match s.tensorOf g.handle, s.plan.graph.bind fun x => x.place g.handle with
    | some t, some p =>
      let w := accessBits t g.scale
      let q := layoutOf (s.kOuter g.handle) t p
      if tFrozen t then
        (upTo g.count).foldl (fun (u : State) i =>
          let e := g.off + i
          match u.wcSlot p t (e / max 1 (tCols t)) (e % max 1 (tCols t)) with
          | some x => u.wcPut p.mu x.1 w x.2 (srcElem w g.src i)
          | none => u) s
      else
        let u1 := (upTo g.count).foldl (fun (u : State) i =>
          let v := srcElem w g.src i
          let e := g.off + i
          if g.scale then
            let k := scaleKey q e
            let c := clampScale (u.curWord k e) (BitVec.ofNat 32 v)
            (if c.2 then u.count (F.MU_SCALE_CLAMP_COUNT.mu p.mu) 1 else u).hostWord k (e % 1024) c.1.toNat
          else u.hostWord (granKey p.mu (p.gran + (wordOf t e).1)) (wordOf t e).2 v) s
        let hit := ((upTo (granCount t)).filter (reached q g)).map fun gi => granKey p.mu (p.gran + gi)
        { u1 with t1 := { u1.t1 with supplied := if g.scale then u1.t1.supplied ++ [(g.handle, g.off, g.count)] else u1.t1.supplied, repair := u1.t1.repair ++ hit.filter fun k => !u1.t1.repair.contains k } }
    | _, _ => s
  s1.finishTag g.ring 0x40 g.tag St.ok 0

/-- Apply every staged PARAM_WRITE, in the order of their starts. -/
def State.applyAllStaged (s : State) : State :=
  s.t1.staged.foldl State.applyStaged { s with t1 := { s.t1 with staged := [] } }

/-- PARAM_READ (R432): names the locations current now; HOST grants read them. -/
def execParamRead (cyc : Nat) (ring : Nat) (s : State) : Host.Outcome State Fault Refusal :=
  if s.dev == .off then .next s else
  .next ((s.tick cyc).start ring 0x41 false true fun d u =>
    match u.paramAccess d with
    | none => u.finish ring d St.badArg 0
    | some (t, p) =>
      let g : Staged := ⟨ring, dTag d, bits (dW d 1) 0 18, dFlag d, dW d 2, dW d 3, []⟩
      let keys := if dFlag d then (upTo p.scaleCount).filterMap fun k =>
            if decide (g.off < (k + 1) * 1024) && decide (k * 1024 < g.off + g.count) then some (granKey p.mu (p.scaleGran + k)) else none
        else ((upTo (granCount t)).filter (reached (layoutOf (u.kOuter g.handle) t p) g)).map fun gi => granKey p.mu (p.gran + gi)
      let left := if dW d 3 = 0 then [] else if tFrozen t then u.frozenPieces p t g.off g.count else keys.flatMap fun k => (upTo 4).map fun x => (k, 4 * (u.current k).getD 0 + x)
      let u := if !tFrozen t && left.any fun x => (u.current x.1).isNone then u.pairLost p.mu none else u
      if left.isEmpty then u.finish ring d St.ok 0
      else
        let r : Reading := ⟨ring, dTag d, g.handle, g.scale, g.off, g.count, dW d 4, left⟩
        State.activate { u with t1 := { u.t1 with reading := u.t1.reading ++ [r] } } ring d 0)

/-! ## HOST_READ_ERROR -/

/-- A stream whose bytes cannot be read ends: clips already cut stand, the fill goes on with the next (R433). -/
def State.dropStream (s : State) (ring tag : Nat) : State :=
  match s.ing.streams.find? fun x => x.ring == ring && x.tag == tag with
  | none => s
  | some x =>
    let first := s.ing.streams.head? == some x
    let s1 : State := { s with ing := { s.ing with
      streams := s.ing.streams.erase x
      clip := if first then none else s.ing.clip
      demux := if first then Demux.reset else s.ing.demux } }
    s1.finishTag ring 0x30 tag St.hostErr 0

/-- Commands that read host memory when they start. -/
def readsHost (op : Nat) : Bool := op == 1 || op == 2 || op == 0x30 || op == 0x40

/-- HOST_READ_ERROR (R433): a command's read returned an error, poison or an unsupported request: the command completes with
HOST_ERR and changes nothing; on a T2 read figure it is a class D error that travels with the data. -/
def execHostReadError (cyc : Nat) (what : HostRead) (s : State) : Host.Outcome State Fault Refusal :=
  if s.dev == .off then .next s else
  let s1 := s.tick cyc
  match what with
  | .command ring tag =>
    if s1.ringsOn && s1.ing.streams.any fun x => x.ring == ring && x.tag == tag then .next (s1.dropStream ring tag)
    else match s1.startable ring readsHost with
      | some d => if dTag d = tag ∧ s1.dev = .running then .next ((s1.popCmd ring).finish ring d St.hostErr 0) else .next s1
      | none => .next s1
  | .t2Figure fid =>
    if s1.ringsOn && (s1.stat fid).phase == .running then .next (s1.detectFor Er.hostRead 14 6 0 fid) else .next s1

end Sys2Proof.Machine
end

