-- ==== Sys2Proof/Machine/Figures.lean ====
section
/-! DEFINITION. Figures: starting one (R24, R37 to R40, R44, R46, R53, R491), its body, completing it (R39, R40, R75, R490). -/
namespace Sys2Proof.Machine

/-! ## Starting -/

/-- Figures of one queue share its resource (R35, R491). -/
def Fig.sameQueue (f g : Fig) : Bool := f.die == g.die && f.group == g.group && f.queue == g.queue

/-- The figures the running card places in the open beat. -/
def State.figsNow (s : State) : List Fig := match s.plan.card, s.clk.pos with
  | some c, some p => c.figsAt p
  | _, _ => []

/-- Figures run: not after a class F stop, in HALTED, or in a group cut off from the domain (R369). -/
def State.figsOn (s : State) : Bool := s.ringsOn && !s.run.stopped && !s.fab.part

/-- An update slice of Table 18.13 (parts 0 to 3). -/
def Fig.isSlice (f : Fig) : Bool := match f.body with
  | .tpl d => decide (4 ≤ f.die) && decide (f.die < 12) && tplOp d != tplNoOp && decide (tplPart d ≤ 3)
  | _ => false

/-- Skipped in this measure: its COND is not met (R491), or it is an update slice and the local verdict is DROP (R53). -/
def State.skips (s : State) (f : Fig) : Bool := !s.condMet f || (f.isSlice && s.run.local_ == some false)

/-- A producer in an earlier beat has its yield bit clear (R491). -/
def State.unyielded (s : State) (f : Fig) : Bool :=
  f.deps.any fun p => match s.figure p with
    | some g => decide (g.pos < f.pos) && !(s.stat p).yield
    | none => false

/-- Planned in the open beat and not yet started; only tail figures in beats of no measure (R86, R442). -/
def State.waitsToStart (s : State) (f : Fig) : Bool :=
  s.figsOn && s.clk.pos == some f.pos && (!s.run.tailOnly || f.cls == Cls.tail) && (s.stat f.fid).phase == .waiting

/-- Its resource is free: nothing of its queue runs, and no earlier figure of the queue still waits (R226, R491). -/
def State.queueFree (s : State) (f : Fig) : Bool :=
  !(s.running.any fun x => (s.figure x.fid).any fun g => g.sameQueue f) &&
    s.figsNow.all fun g => !(g.sameQueue f && decide (g.start < f.start) && s.waitsToStart g && !s.skips g && !s.cascaded g)

/-- Skip a figure: its yield bit is set at its planned start (R491). -/
def State.skipFig (s : State) (f : Fig) : State :=
  s.setStat { s.stat f.fid with phase := .skipped, yield := true, pos := f.pos, start := s.clk.cyc }

/-- Work of the device's own that a TPL entry names: snapshot drain, copy-before-write slots, migration, shipping and mirror;
the verdict figure's contribution (Table 18.13). -/
def State.ownWork (s : State) (f : Fig) (d : BitVec 128) : State :=
  let n := tplCount d
  if f.die < 4 then s
  else if f.die < 12 then
    match tplPart d with
    | 0 => (upTo n).foldl (fun t _ => t.readCut (f.die - 4) 0) s
    | 2 => (s.migrate (f.die - 4) n).noteReady
    | 3 => (upTo n).foldl (fun t _ => t.shipCut (f.die - 4)) s
    | _ => s
  else if f.isVerdict then s.contribute.sendStage f d
  else s

/-- The body of a TPL entry, expanded from the resident graph (R502): device activity, reduction source and sink, update
family, what a link-die stage sends (it combines as flits arrive); ingest figures act when they complete. -/
def State.tplRun (s : State) (f : Fig) (d : BitVec 128) : State :=
  if tplOp d = tplNoOp then s.ownWork f d
  else if 4 ≤ f.die ∧ f.die < 12 then
    if tplPart d = 6 ∨ tplPart d = 7 then
      match s.param (tplOp d) with
      | some q => if tplPart d = 6 then s.redSource q d else s.redSink f q d
      | none => s
    else s.updateRun f d
  else if f.die = 12 ∨ f.die = 13 then s.sendStage f d
  else s

/-- What a figure does when it starts. Its writes are made by its completion, and one that is stopped before takes back those it had not made
(`State.unwrite`; log entry 64). -/
def State.bodyRun (s : State) (f : Fig) (env : FigEnv) : State :=
  match f.body with
  | .matrix d ext => s.matrixRun f d ext env
  | .vec prog => s.vecRun f prog 1
  | .gme d => s.gmeRun f d
  | .dma d => s.dmaRun f d
  | .tpl d => s.tplRun f d

/-! ## Completing -/

/-- The die that acknowledges a DMA transfer (R39, R500): for FABRIC the cluster's link die, which receives the lines (Table 18.10). -/
def State.dmAckDie (s : State) (f : Fig) (d : BitVec 256) : Nat :=
  match dmDst d with
  | 2 | 7 => bits (dmDa d) 0 2
  | 3 | 5 => 4 + bits (dmDa d) 0 3
  | 6 => s.linkDie f.die
  | _ => f.die

/-- SIG_EN: the acknowledging die signals SYNC by SIG_N (R225, R500), 24 cycles on (Table 8.6). -/
def State.dmSignal (s : State) (f : Fig) : State :=
  match f.body with
  | .dma d => if dmFld d 45 1 = 1 then s.signalAt (syncKey (s.dmAckDie f d) (dmFld d 32 13)) (dmFld d 46 16) 24 false else s
  | _ => s

/-- The body has come to its end: a vector body has run every step, no vat access waits, a pack figure's micro-batch is
composed; no read of its was lost at a bank's power-down (R223), and every accumulate tile of its has arrived (R39, R226, R275). -/
def State.bodyDone (s : State) (f : Fig) : Bool :=
  !s.run.noData.contains f.fid && !(s.run.acc.any fun a => a.fid == f.fid) && match f.body with
  | .vec prog => decide ((vSteps prog.length prog).length ≤ (s.stat f.fid).at_)
  | .dma _ => !(s.t0.vatWait.any fun w => w.fid == f.fid)
  | .tpl d => f.die != 14 || tplOp d == tplNoOp || tplPart d != 5 || s.packReady f.mb
  | _ => true

/-- What a figure does when it completes: vats' pointers, update-slice count, the verdict header, ingest results. -/
def State.bodyEnd (s : State) (f : Fig) : State :=
  match f.body with
  | .dma _ => s.vatDone f
  | .tpl d =>
    if f.isVerdict then { s with run := { s.run with vhdr := some (s.coll tplNoOp).hdr } }
    else if f.isSlice then s.count (F.MU_UPD_SLICE_COUNT.mu (f.die - 4)) 1
    else if f.die = 14 ∧ tplOp d ≠ tplNoOp then
      let s0 := if tplPart d = 1 then s.setStat { s.stat f.fid with quantity := [s.decodeNeed f.mb (tplFirst d) (tplCount d)] } else s
      let t := s0.ingestPart (tplPart d) f.mb (tplFirst d) (tplCount d)
      if inRange 2 3 (tplPart d) && s.rowsBad f.mb (tplFirst d) (tplCount d) (tplPart d == 3) then t.setNonfinite f 0 else t
    else s
  | _ => s

/-- The higher of two lists of quantities, place by place. -/
def maxes : List Nat → List Nat → List Nat
  | [], l => l
  | l, [] => l
  | a :: l, b :: m => max a b :: maxes l m

/-- The longest completion time and the highest data quantities of a figure template (R75, R77, R203). -/
def State.record (s : State) (f : Fig) (time : Nat) (quantity : List Nat) : State :=
  let k := f.template
  let old := (tmplGet s.plan.tmpl k).getD (0, [])
  { s with plan := { s.plan with
    tmpl := (s.plan.tmpl.filter fun x => x.1 != k) ++ [(k, max old.1 time, maxes old.2 quantity)] } }

/-- A micro-batch is complete when all its chain figures on the seat are (R52, Table 2.7). -/
def State.noteMb (s : State) (f : Fig) : State :=
  if f.cls != Cls.chain || f.mb == 0xFFFF || s.run.mbDone.contains f.mb || s.run.mbDrop.contains f.mb then s
  else match s.plan.card with
    | none => s
    | some c =>
      if (c.chainOf f.mb).all fun g => (s.stat g.fid).phase == .complete || (s.stat g.fid).phase == .skipped then
        { s with run := { s.run with mbDone := s.run.mbDone ++ [f.mb] } }
      else s

/-- Figure `f` completes: its yield bit is set, its results stand, its signals are issued (R39, R40, R490). -/
def State.completeFig (s : State) (f : Fig) : State :=
  let x := s.stat f.fid
  let s1 := ((s.setStat { x with phase := .complete, yield := true, done := s.clk.cyc }).keepWrites f.fid).bodyEnd f
  let s2 := (f.signals.foldl (fun t e => t.issue f e 0) s1).dmSignal f
  (s2.record f (s2.clk.cyc - x.start) (s2.stat f.fid).quantity).noteMb f

/-! ## Starting, continued -/

/-- A figure that completes at its planned start: a matrix body with no output element (R115, R118), an update slice of a frozen parameter
(R308), a stage of a collective or the verdict of a domain with one member, which returns its own input (R370). -/
def State.instant (s : State) (f : Fig) : Bool := match f.body with
  | .matrix d _ => matTime d == 0
  | .tpl d => (f.isSlice && (s.param (tplOp d)).any fun q => tFrozen q.t) || (f.isTransfer && s.alone)
  | _ => false

/-- A slice of an earlier pass of the same shard, planned in the same beat, that has not completed (R310). -/
def State.passWaits (s : State) (f : Fig) : Bool := match f.body with
  | .tpl d => f.isSlice && s.figsNow.any fun g => match g.body with
    | .tpl e => g.isSlice && tplOp e == tplOp d && decide (tplPart e < tplPart d) && (s.stat g.fid).phase != .complete
        && (s.stat g.fid).phase != .skipped
    | _ => false
  | _ => false

/-- Start figure `f`, which its WAIT entries and resource allow: skipped; dropped by cascade, with VOID in place of a transfer;
dropped with cause BOUND (R24, R42); or running (R491), and complete at once if that is all it takes (R115, R118, R308, R370). A figure of an iteration
beyond the actual count is skipped (R24), also in a micro-batch already dropped (DESIGN CHOICE, log entry 76: R24 and R45 give no precedence). -/
def State.startFig (s : State) (f : Fig) (env : FigEnv) : State :=
  if s.skips f || env.beyondCount then s.skipFig f
  else if s.cascaded f || s.unyielded f then (s.drop f .cascade).sendVoid f
  else if env.boundExceeded then s.drop f (.direct Cause.bound)
  else
    let x := s.stat f.fid
    let t := (s.setStat { x with phase := .running, pos := f.pos, start := s.clk.cyc, at_ := 0 }).bodyRun f env
    if s.instant f then t.completeFig f else t

/-- FIGURE_START (R491): figure `fid` of the open beat, at or after its planned start, its resource free and every leading WAIT
satisfied; a skip or cascade needs no resource. -/
def execFigureStart (cyc : Nat) (fid : Nat) (env : FigEnv) (s : State) : Host.Outcome State Fault Refusal :=
  if s.dev == .off then .next s else
  let s1 := s.tick cyc
  match s1.figure fid with
  | none => .next s1
  | some f =>
    if !s1.waitsToStart f || decide (s1.clk.cyc < f.start) then .next s1
    else if s1.skips f || env.beyondCount || s1.cascaded f || s1.unyielded f || (s1.queueFree f && !s1.passWaits f && f.waits.all (s1.waitMet f)) then .next (s1.startFig f env)
    else .next s1

/-! ## FIGURE_COMPLETE -/

/-- FIGURE_COMPLETE (R39): the last output of a running figure is written and acknowledged. A vector body first runs on past
WAITs that are satisfied by now. -/
def execFigureComplete (cyc : Nat) (fid : Nat) (s : State) : Host.Outcome State Fault Refusal :=
  if s.dev == .off then .next s else
  let s1 := s.tick cyc
  match s1.figure fid with
  | none => .next s1
  | some f =>
    if !s1.figsOn || (s1.stat fid).phase != .running then .next s1
    else
      let s2 := match f.body with
        | .vec prog => s1.vecRun f prog 0
        | _ => s1
      if s2.bodyDone f && (s2.stat fid).phase == .running then .next (s2.completeFig f) else .next s2

end Sys2Proof.Machine
end

