-- ==== Sys2Proof/Machine/Beat.lean ====
section
/-! DEFINITION. The edge (R34, R41, R44, R54, R82 to R86), the local verdict and the commit check (R52 to R59), the measure
boundary (R47, R60, R61, R88, R243, R257, R297, R388), builds and swaps, the end of draining (R442). -/
namespace Sys2Proof.Machine

/-! ## The clock and the state of a beat -/

/-- SYNC_SET entries of a scope, as (object key, value). -/
def State.syncSets (s : State) (scope : Nat) : List (Nat × Nat) :=
  match s.plan.card with
  | none => []
  | some c => (c.seqAll.filter fun x => entType x.2.2 == 0x88 && ent x.2.2 21 2 == scope).map fun x =>
      (syncKey x.1 (ent x.2.2 8 13), ent x.2.2 64 32)

/-- Beat-scoped objects return to their initial values; signals to them that have not applied are discarded, others go on
(R225, R227). -/
def State.syncEdge (s : State) (len : Nat) : State :=
  let keep := fun (k : Nat) => decide (15 * 8192 ≤ k) || (s.syncSets 1).any fun x => x.1 == k
  { s with
    t0 := { s.t0 with sync := (s.syncSets 0).foldl (fun t x => tSet t x.1 x.2) (s.t0.sync.filter fun e => keep e.1) }
    run := { s.run with sig := (s.run.sig.filter fun g => keep g.key).map fun g => { g with due := g.due - len, sent := g.sent - len } } }

/-- Banks that were off and are on wake and hold zeros; the others stay or are off (R223, R224). -/
def State.bankEdge (s : State) : State :=
  let woke := s.t0.bankOff.filter fun b => !s.t0.bankNext.contains b
  let bank := fun (cl off : Nat) => cl * 16 + bankOf (s.get (F.CD_SP_CFG_MODE.cd (cl / 1024)) == 1) off
  { s with t0 := { s.t0 with
    mem := if woke.isEmpty then s.t0.mem else s.t0.mem.filter fun e => !woke.contains (bank (e.1 / 2 ^ 21) (e.1 % 2 ^ 21))
    poison := if woke.isEmpty then s.t0.poison else s.t0.poison.filter fun k => !woke.contains (bank (k / 32768) (k % 32768 * 64))
    bankOff := s.t0.bankNext, bankDefer := [] } }

/-- A measured beat energy more than 2 % above the cap (R81). -/
def State.powerCheck (s : State) (uj : Nat) : State :=
  if s.ringsOn && decide (s.plan.cap * s.tdp * s.clk.lenUs * 102 < uj * 10000) then s.emit Ev.powerOver 14 (uj % 2 ^ 32) else s

/-- E(b + 1): the beat's last cycle passes, its records may be written, waits are accounted, and the next beat opens with the
state of a beat (R34, R50, R213, R220, R225, R286). -/
def State.advance (s : State) (uj : Nat) : State :=
  let len := s.clk.beatCycles
  let s1 := (s.tick (len - 1)).openEvents s.clk.beat
  let s2 := s1.t0.vatWait.foldl (fun t w => t.count (F.CD_VAT_STALL_COUNT.cd (w.key / 65536)) (len - w.since)) s1
  let s3 := (s2.syncEdge len).bankEdge
  let s4 : State := { s3 with
    clk := { s3.clk with beat := s3.clk.beat + 1, base := s3.clk.base + len, cyc := 0 }
    t0 := { s3.t0 with vatWait := [], slotSel := [] }
    run := { s3.run with wheyLog := [], sigDone := [], numEvt := [], staleEvt := false, noData := [], peakUj := max s3.run.peakUj uj } }
  ((upTo s4.nMu).foldl State.settleWaits s4).powerCheck uj

/-! ## Completion at the edge -/

/-- A figure whose completion flag is clear at its edge is dropped directly (R41); it is recorded at twice its planned duration
(R75); a late verdict figure is VERDICT_LATE (R52). -/
def State.dropLate (s : State) (f : Fig) : State :=
  if (s.stat f.fid).phase == .dropped then s
  else
    let s1 := (s.dropOne f (.direct Cause.late)).record f (2 * f.dur) []
    if f.isVerdict then s1.flag Flags.setVerdLate else s1

/-- The figures of the closing beat: those a skip or a cascade kept from starting; then every incomplete one is late, before
any cascade; then what their drops stop (R41, R44, R228, R491). -/
def State.closeFigs (s : State) : State :=
  if !s.figsOn then s
  else
    let open_ := s.figsNow.filter fun f => (s.waitsToStart f || (s.stat f.fid).phase == .running)
    let skip := open_.filter fun f => (s.stat f.fid).phase == .waiting && s.skips f
    let casc := open_.filter fun f => (s.stat f.fid).phase == .waiting && !s.skips f && (s.cascaded f || s.unyielded f)
    let late := open_.filter fun f => !skip.contains f && !casc.contains f
    let s1 := casc.foldl (fun t f => t.drop f .cascade) (skip.foldl State.skipFig s)
    let s2 := late.foldl State.dropLate s1
    late.foldl (fun t f => (t.victims f).foldl (fun u g => u.drop g .cascade) t) s2

/-! ## The two rounds of the verdict -/

/-- The local verdict, at the edge after the verdict figure's beat (R53): no result is VERDICT_LATE; a result's flags, a
counter other than this seat's or without LDR, and a count of 0 are causes of DROP. A flag the seat raised after its contribution is
no part of it: NONFINITE counts in the header only (Table 2.6), the others reach the seal marker (R55). -/
def State.formLocal (s : State) : State :=
  match s.run.vhdr with
  | none =>
    let s1 := s.flag Flags.setVerdLate
    { s1 with run := { s1.run with local_ := some false } }
  | some h =>
    let s1 := if h.ldr then s.stepSeen tplNoOp h.step else s
    let f := s1.run.flags
    let skew := h.skew || !h.ldr || decide (h.step ≠ s1.step_)
    let empty := decide (h.count = 0)
    let f1 : Flags := { f with
      nonfin := h.nonfin, mandLate := f.mandLate || h.mandLate, errS := f.errS || h.errS, skew := f.skew || skew, empty := f.empty || empty }
    { s1 with run := { s1.run with flags := f1, local_ := some !(h.nonfin || h.mandLate || h.errS || skew || empty) } }

/-- The open beat is the seal beat of a measure with a verdict. -/
def State.inSeal (s : State) : Bool := s.measuring && s.clk.pos.any fun p => decide (p + 1 = s.clk.measBeats)

/-- COMMIT_CHECK (R55, R57): in the rind of the seal beat, COMMIT only if every seat's marker has arrived and every DROP bit is
clear; a missing marker is SEAL_MISS. -/
def execCommitCheck (cyc : Nat) (s : State) : Host.Outcome State Fault Refusal :=
  if s.dev == .off then .next s else
  let s1 := s.tick cyc
  if !s1.figsOn || !s1.inSeal || !s1.run.sealSent || decide (s1.clk.cyc < s1.clk.rindStart) then .next s1
  else match s1.fab.comb with
    | none => .next { s1 with run := { s1.run with commit := some false, cause := 64 } }
    | some c =>
      let seen := decide (max 1 s1.seatCount ≤ c.seen)
      .next { s1 with run := { s1.run with commit := some (seen && !c.drop), cause := if seen then c.cause else Nat.lor c.cause 64 } }

/-! ## The verdict applied -/

/-- COMMIT (R54, R280, R297, R305, R308): spares tagged t become current; they and what the touched bank marks are dirty; the counter advances but
never past all ones, each UPDATE of a frozen parameter counts. -/
def State.commitSeal (s : State) : State :=
  let t := s.step_
  let keys := (s.snapPlaces.flatMap placeKeys).filter fun k => s.tag k 0 == t || s.tag k 1 == t || s.touched k
  let s1 := (keys.foldl State.setDirty s).set F.PLC_STEP_T (min (t + 1) 0xFFFFFFFF)
  let frozen := match s.plan.graph with
    | some g => (g.ops.filter fun o => oKind o == K.update && (g.tensor (oIn o 0)).any tFrozen).length
    | none => 0
  s1.count F.PLC_FROZEN_SKIP_COUNT frozen

/-- DROP with STEP_SKEW (R55, R297): the leader's counter is adopted; if it differs, tags at or above the old counter become all
ones. -/
def State.dropSeal (s : State) (cause : Nat) : State :=
  match s.fab.comb with
  | none => s
  | some c =>
    if !bit cause 2 || !c.ldr || decide (c.step = s.step_) then s
    else
      let t := s.step_
      let s1 : State := { s with t1 := { s.t1 with tag := s.t1.tag.map fun e => if t ≤ e.2 then (e.1, 0xFFFFFFFF) else e } }
      s1.set F.PLC_STEP_T c.step

/-- The loss scale (R257, R59, R260). -/
def State.lossScale (s : State) (commit : Bool) (cause : Nat) : State :=
  let e := sext 8 (s.get F.PLC_LSCALE_EXP)
  if s.get F.PLC_LSCALE_CFG_FIXED = 1 then s
  else if commit then
    let n := s.get F.PLC_LSCALE_CLEAN + 1
    if n < s.get F.PLC_LSCALE_GROW_GROWTH then s.set F.PLC_LSCALE_CLEAN n
    else
      let s1 := s.set F.PLC_LSCALE_CLEAN 0
      if e < sext 8 (s.get F.PLC_LSCALE_CFG_MAX_EXP) then (s1.set F.PLC_LSCALE_EXP (unsext 8 (e + 1))).count F.PLC_LSCALE_DOUBLE_COUNT 1
      else s1
  else if bit cause 1 then
    let s1 := s.set F.PLC_LSCALE_CLEAN 0
    if sext 8 (s.get F.PLC_LSCALE_CFG_MIN_EXP) < e then (s1.set F.PLC_LSCALE_EXP (unsext 8 (e - 1))).count F.PLC_LSCALE_HALVE_COUNT 1
    else s1.emit Ev.lscaleFloor 14 (unsext 8 e)
  else s

/-! ## Records of a measure -/

def State.mbPlanned (s : State) : Nat := match s.plan.card with
  | some c => c.mbs.length
  | none => 0

/-- The VERDICT record (Table 2.7); a DROP counts in the Caller on HD (Table 2.4). -/
def State.verdictEvent (s : State) (commit : Bool) (cause : Nat) : State :=
  let p := s.clk.measure % 2 ^ 32 + (if commit then 2 ^ 32 else 0) + (cause % 256) * 2 ^ 33 + (min s.run.mbDone.length 0xFFFF) * 2 ^ 48
    + (min s.mbPlanned 0xFFFF) * 2 ^ 64 + s.run.wheyFig * 2 ^ 80 + s.run.wheyDirect * 2 ^ 112
  let s1 := s.emit Ev.verdict 14 p
  if commit then s1 else s1.count (F.CALLER_VERDICT_DROP_COUNT.caller 14) 1

/-- In micro-batch order. -/
def insertMb (x : Nat × Word32 × Nat) : List (Nat × Word32 × Nat) → List (Nat × Word32 × Nat)
  | [] => [x]
  | y :: l => if x.1 ≤ y.1 then x :: y :: l else y :: insertMb x l

/-- What the loss figures of completed micro-batches report. -/
def State.lossDone (s : State) (m : EdgeMeas) : List (Nat × Word32 × Nat) :=
  ((m.loss.getD []).filter fun x => s.run.mbDone.contains x.1).foldl (fun l x => insertMb x l) []

def sumTokens (l : List (Nat × Word32 × Nat)) : Nat := min (l.foldl (fun a x => a + x.2.2) 0) 0xFFFFFFFF

/-- The LOSS record of a seat that holds loss figures (R243, Table 9.2). -/
def State.lossEvent (s : State) (m : EdgeMeas) : State :=
  match m.loss with
  | none => s
  | some _ =>
    let l := s.lossDone m
    let sum := l.foldl (fun a x => fAdd a x.2.1) fZero
    s.emit Ev.loss 14 (s.clk.measure % 2 ^ 32 + sum.toNat * 2 ^ 32 + sumTokens l * 2 ^ 64 + (if fNonfin sum then 2 ^ 96 else 0)
      + (if s.run.mbDrop.isEmpty then 0 else 2 ^ 97))

/-- The phase record (Table 3.10). -/
def State.phaseBits (s : State) (m : EdgeMeas) (commit : Bool) : Nat :=
    let us := fun (k : Nat) => m.phaseUs.getD k 0 % 2 ^ 32
    s.clk.measure % 2 ^ 48 + (if commit then 2 ^ 48 else 0) + (s.clk.phrPos % 2 ^ 12) * 2 ^ 52
      + (upTo 7).foldl (fun a k => a + us k * 2 ^ (64 + 32 * k)) 0 + (s.run.wheyUs / 1900 % 2 ^ 32) * 2 ^ 288 + (m.energyMj % 2 ^ 32) * 2 ^ 320
      + (s.run.peakUj % 2 ^ 32) * 2 ^ 352 + s.seat * 2 ^ 384 + (min s.run.mbDone.length 0xFFFF) * 2 ^ 400 + (min s.mbPlanned 0xFFFF) * 2 ^ 416
      + s.plan.gen * 2 ^ 432 + sumTokens (s.lossDone m) * 2 ^ 448 + (min s.run.expertDrop 0xFFFFFFFF) * 2 ^ 480

/-- Each measure produces its record; with the phase ring enabled it goes there too, and a full ring discards and counts it (R88, R437). -/
def State.phaseRecord (s0 : State) (m : EdgeMeas) (commit : Bool) : State :=
  let r := s0.phaseBits m commit
  let s : State := { s0 with plan := { s0.plan with phaseRec := r } }
  if s.get F.HUB_PHQ_CFG_EN = 0 then s
  else
    let size := 2 ^ s.get F.HUB_PHQ_CFG_LOG2
    if size ≤ cntSub s.host.phTail s.host.phHead then s.count F.HUB_PHQ_LOST_COUNT 1
    else
      let s1 := s.hostPut (s.get F.HUB_PHQ_BASE_ADDR + 64 * (s.host.phTail % size)) 64 r
      State.recorded { s1 with host := { s1.host with phTail := cntAdd s1.host.phTail 1 } } 64 (some (s.get F.HUB_PHQ_CFG_VEC))

/-! ## What else a boundary does -/

/-- Persistent objects take their planned boundary values; each that differed counts (R225). -/
def State.syncRealign (s : State) : State :=
  (s.syncSets 1).foldl (fun t x =>
    if t.syncGet x.1 = x.2 then t else (t.syncPut x.1 x.2).count (F.CD_SYNC_REALIGN_COUNT.cd (x.1 / 8192)) 1) s

/-- Poison found in persistent state in the measure is class F at its boundary (R455). -/
def State.persistFault (s : State) : State :=
  s.t1.persistBad.eraseDups.foldl (fun t mu => t.detectAt Er.persistPoison (4 + mu) 9 0 0) { s with t1 := { s.t1 with persistBad := [] } }

/-- A cut is due at measure `m` (R388). -/
def State.cutDue (s : State) (m : Nat) : Bool :=
  let i := s.get F.CEL_INTERVAL_EFFECTIVE
  i != 0 && match s.cel.lastCut with
    | none => true
    | some l => decide (l + i ≤ m)

/-- A due cut opens on COMMIT; a DROP defers it to the next COMMIT, counted once (R388). -/
def State.boundaryCut (s : State) (m : Nat) (commit limit : Bool) : State :=
  if limit || !s.cutDue m then s
  else if commit then s.openCut m
  else if s.cel.dueDeferred then s
  else State.count { s with cel := { s.cel with dueDeferred := true } } F.CEL_CUT_DEFER_COUNT 1

/-- MASK_24 parameters whose masks the next re-encode prunes again: those still due, and at the end of a phrase whose number is
a multiple of their interval, those with one (R194). -/
def State.pruneNext (s : State) : List Nat :=
  let left := if s.run.lastCommit then [] else s.t1.pruneDue
  if s.clk.phrPos + 1 ≠ s.clk.phraseLen then left
  else match s.plan.graph with
    | none => left
    | some g => (left ++ (s.places.map (·.handle)).filter fun h =>
        (g.tensor h).any tMask24 && (g.maskDecl h).2 != 0 && s.clk.phrase % (g.maskDecl h).2 == 0).eraseDups

/-- The bitmaps, the factored sums, the sticky bits and the learning-rate multiplier of a new measure (R47, R171, R279, R303,
R311). -/
def State.freshMeasure (s : State) : State :=
  let s1 := s.flipTouched
  { s1 with
    t0 := { s1.t0 with sticky := [] }
    t1 := { s1.t1 with part := [], pruneDue := s.pruneNext, lrMul := BitVec.ofNat 32 (s.get F.PLC_LR_MUL_VALUE) } }

/-- The run of the next measure: yield bits are discarded; flags and whey after the seal marker count (R47, R58); beats of no
measure follow a departure or a STOP (R86, R442). -/
def State.freshRun (s : State) (m : Nat) (commit idle : Bool) : State :=
  { s with run := { Run.reset with
    flags := s.run.nextFlags, wheyFig := s.run.nextWhey.1, wheyDirect := s.run.nextWhey.2.1, wheyUs := s.run.nextWhey.2.2, lastCommit := commit, cutOpened := s.cel.open_.any fun c => c.measure == m
    acc := s.run.acc, sig := s.run.sig, wheyLog := s.run.wheyLog, limEvt := s.run.limEvt, applied := commit, stopped := s.run.stopped
    tailOnly := idle } }

/-! ## Builds (R80, R82, R85) -/

def State.plannedEnergy (s : State) : Nat := match s.plan.card with
  | some c => (upTo c.measBeats).foldl (fun a p => a + s.beatEnergy c p) 0
  | none => 0

/-- A measure's energy against its own card's plan, in millionths, the largest of the phrase (R80). -/
def State.noteEnergy (s : State) (mj : Nat) : State :=
  let p := State.plannedEnergy { s with plan := { s.plan with coefMil := s.plan.cardCoef } }
  if p = 0 then s else { s with plan := { s.plan with energyRatio := max s.plan.energyRatio (ceilDiv (mj * (19 * 10 ^ 8) * 10 ^ 6) p) } }

/-- Dynamic coefficients follow the largest ratio of measured to planned energy, falling by at most 5 % (R80). -/
def State.newCoef (s : State) : Nat :=
  if s.plan.energyRatio = 0 then s.plan.coefMil
  else max (ceilDiv (s.plan.cardCoef * s.plan.energyRatio) (10 ^ 6)) (ceilDiv (s.plan.coefMil * 95) 100)

/-- Later values hold over earlier ones (R85). -/
def PlanReq.merge (a b : PlanReq) : PlanReq := ⟨b.len.orElse fun _ => a.len, b.cap.orElse fun _ => a.cap, b.phrase.orElse fun _ => a.phrase, a.force || b.force⟩

/-- A build starts from the measurements and settings up to now, with the plan commands and joins received since the last; none under
host cards or while one runs. A phrase length asked for stands in PLC_PLAN_CFG from then on (R82, R85, R87, R529; log entry 65). -/
def State.startBuild (s0 : State) : State :=
  if s0.hostCards || s0.plan.building || s0.plan.graph.isNone then s0
  else
    let s := match s0.plan.req.phrase with
      | some p => s0.set F.PLC_PLAN_CFG_PHRASE p
      | none => s0
    let link := tGet s.regs 0x4
    { s with
      plan := { s.plan with
        building := true, margins := s.buildCfg, needs := s.slotNeeds, joins := s.fab.joins.length
        carried := s.plan.carried.merge { s.plan.req with phrase := some (s.get F.PLC_PLAN_CFG_PHRASE) }, req := ⟨none, none, none, false⟩
        coefMil := s.newCoef, energyRatio := 0, basis := s.plan.tmpl, t2gbs := t2Limit (bits link 7 2) (bits link 9 1) }
      host := { s.host with rings := s.host.rings.map fun r => { r with active := r.active.map carryCmd } }
      t1 := { s.t1 with refNext := s.planRates, flagged := [], moved := [] }
      cel := { s.cel with ringMib := s.get F.CEL_RING_MIB } }

/-- The build starts at the boundary that opens measure P − L, or the phrase if P ≤ L (R82). -/
def State.buildIfDue (s : State) : State :=
  let l := s.get F.PLC_PLAN_CFG_LEAD
  if s.clk.phrPos = (if l < s.clk.phraseLen then s.clk.phraseLen - l else 0) then s.startBuild else s

/-! ## Swaps (R83) -/

/-- Codebook slots as the card fills them. -/
def State.cardCbs (s : State) (c : Card) : List (Nat × List Nat) :=
  c.side.cb.filterMap fun x => (s.plan.graph.bind fun g => g.codebook x.2).map fun t => (x.1, t)

/-- Page tables after a swap: moved pages at their shadow locations, then the card's entries (R71, R73). -/
def State.cardPages (s : State) (c : Card) : Tab :=
  c.side.pages.foldl (fun t e => tSet t e.1 e.2) (s.plan.migr.foldl (fun t m => tSet t m.page (pageSwap (tGet t m.page) m.toMu)) s.plan.pages)

/-- A working copy whose units moved stands at its new place for every requester from the swap on (R72, R73). -/
def State.movedPlace (s : State) (p : Placement) : Placement :=
  match s.plan.migr.find? fun m => m.mu == p.mu && decide (m.fromOff ≤ p.wcAddr) && decide (p.wcAddr < m.fromOff + 2 ^ 21) && (s.tensorOf p.handle).any fun t => wcHeld t != 0 with
  | some m => { p with wcAddr := m.toOff + (p.wcAddr - m.fromOff) }
  | none => p

/-- The effective interval of a card, and SNAP_INTERVAL when it is raised above the graph's (R389). -/
def State.setInterval (s : State) (measCycles : Nat) : State :=
  let i := min (s.effInterval measCycles) 0xFFFF
  let old := s.get F.CEL_INTERVAL_EFFECTIVE
  let s1 := s.set F.CEL_INTERVAL_EFFECTIVE i
  if (s.plan.graph.any fun g => decide (g.snapInterval < i)) && i != old then s1.emit Ev.snapInterval 14 i else s1

/-- Cluster-side objects take the scope and the value the card in force gives them (R225, R494). -/
def State.syncLoad (s : State) : State :=
  { s with t0 := { s.t0 with sync := (s.syncSets 0 ++ s.syncSets 1).foldl (fun t x => tSet t x.1 x.2) [] } }

/-- Every Caller takes card `c` (R31, R81, R83, R85, R157, R213, R272, R274, R281): new beat, measure and phrase length, cap and rate,
page tables, capacity tables (R199), slots and constants, ranks and refresh rates, sets; commands it carries out and LOAD_GRAPH complete (R430). -/
def State.swapCard (s0 : State) (c : Card) : State :=
  let s := s0.writeCaps c
  let s1 : State := { s with
    plan := { s.plan with
      card := some c, next := none, gen := c.gen, ready := false, swapBit := false, cap := c.cap, rate := c.rate, calib := false, joins := 0
      graph := s.plan.graph.map fun g => { g with places := g.places.map s.movedPlace }
      loading := false, pages := s.cardPages c, migr := [], carried := if s.plan.building then s.plan.carried else ⟨none, none, none, false⟩, cardCoef := s.plan.coefMil }
    clk := { s.clk with
      lenUs := c.lenUs, rindCyc := rindCycles c.lenUs c.rindUs, measBeats := c.measBeats, phraseLen := c.phrase, pos := some 0, phrPos := 0 }
    run := { s.run with swapped := true }
    t0 := { s.t0 with konst := c.side.konst, cb := s.cardCbs c, slot := c.side.slots }
    t1 := { s.t1 with
      free := c.side.frees.foldl (fun l x => freeBlock x.1 16 x.2.1 x.2.2 l) s.t1.free
      rank := (upTo s.nMu).foldl (fun t mu => tSet t mu (s.get (F.MU_ARB_RANK_RANK.mu mu))) [] }
    fab := { s.fab with pendingJoin := !(s.fab.joins.drop s.plan.joins).isEmpty, joins := s.fab.joins.drop s.plan.joins }
    cel := { s.cel with journal := s.journalSet s.snapPlaces } }
  let s2 := (upTo s1.nMu).foldl (fun (t : State) mu => t.set (F.MU_REF_CFG_RATE.mu mu) (t.t1.refNext.getD mu 0)) s1
  let s3 := s2.setInterval (c.measBeats * (c.lenUs * 1900))
  let s4 := (match s3.plan.graph with | some g => s3.formSets g | none => s3).syncLoad.finishWhere (fun x => inRange 0x10 0x13 (dOpcode x.desc) && x.datum == Prog.built) St.ok fun _ => 0
  s4.finishWhere (fun x => dOpcode x.desc == 1) St.ok fun _ => 0

/-- The current card is kept for the next phrase: REPLAN_LATE, with the generation of the card that waits or would be next (R83). -/
def State.replanLate (s : State) : State :=
  s.emit Ev.replanLate 14 (match s.plan.next with | some c => c.gen % 2 ^ 16 | none => s.nextGen)

/-- No leader's marker came at the edge that opened the closing beat. -/
def State.missedLeader (s : State) : Bool := !s.fab.leader && !s.alone && !(s.fab.comb.any fun c => c.ldr)

/-- Dimensions along which the seats of a set differ from this seat. -/
def State.setDims (s : State) (set : List Nat) : List Nat :=
  (upTo 4).filter fun k => set.any fun x => (coordsOf s.dims x).getD k 0 != (coordsOf s.dims s.ownSeat).getD k 0

/-- The ingest set in ascending order of seat: the seats of the first pipeline stage with rank 0 in their temporal-sequence set (R314), by the
dimensions that the sets in force give these axes. A seat's rank is its place there (DEDUCED, log entry 47: R328 names no order). -/
def State.ingestSet (s : State) : List Nat := match s.plan.graph with
  | none => []
  | some g =>
    let ds := ((s.fabricAxes g).zipIdx.filter fun a => axKind a.1 == 2 || axKind a.1 == 4).flatMap fun a =>
      s.setDims ((s.fab.sets.find? fun x => x.1 == a.2 + 1).elim [] (·.2))
    (upTo s.positions).filter fun x => s.hasMember x && ds.all fun k => (coordsOf s.dims x).getD k 0 == 0

/-- The seat that this one exchanges clips with in phrase `q`, if any (R328). -/
def State.partner (s : State) (q : Nat) : Option Nat :=
  let l := s.ingestSet
  let d := l.length
  match l.findIdx? (· == s.ownSeat) with
  | none => none
  | some r =>
    if d < 2 then none
    else
      let k := 1 + rngWord s.ing.seed q 0xFFFF Purpose.exchange 0 % (d - 1)
      let p := (k + d - r) % d
      if p = r then none else l[p]?

/-- At a phrase boundary the filling deck's first exchange begins (R328). -/
def State.beginExchange (s : State) : State :=
  if s.get F.ING_SHUF_CFG_EXCH_EN = 1 ∧ s.ing.fill.exch = 0xFFFFFFFF ∧ !s.ing.fill.clips.isEmpty ∧ (s.partner s.clk.phrase).isSome ∧ s.poolBytes ≠ 0 then
    { s with ing := { s.ing with exchPending := true, fill := { s.ing.fill with exch := s.clk.phrase % 2 ^ 32 } } }
  else s

/-- An exchange that begins at this boundary sends clip counts, sizes and clips to the partner (R328). -/
def State.sendClips (s : State) (before : Bool) : State :=
  match s.partner s.clk.phrase with
  | some p => if s.ing.exchPending && !before then s.sendData p else s
  | none => s

/-- A phrase closes (R83, R84, R272, R328, R343, R377, R389): swap, or keep the card and say so. -/
def State.phraseBoundary (s : State) : State :=
  let s1 : State := { s with
    clk := { s.clk with phrase := s.clk.phrase + 1, phrPos := 0 }
    t1 := { s.t1 with mr4 := List.replicate 8 0, extraLog := [] }
    ing := { s.ing with starved := false }
    cel := { s.cel with drainCyc := 0, drainOld := if s.cel.drainCyc = 0 then s.cel.drainOld else s.cel.drainCyc }
    fab := { s.fab with skewEvt := false } }
  let s2 := match s1.plan.next with
    | some c => if s1.plan.swapBit then s1.swapCard c else if s1.missedLeader then { s1 with run := { s1.run with swapMiss := true } } else s1.replanLate
    | none => s1.replanLate
  (s2.beginExchange.sendClips s2.ing.exchPending).starve

/-- What figures of a closed phrase reported served the builds started up to its boundary (R77, R82, R203). -/
def State.freshRecords (s : State) : State := { s with plan := { s.plan with tmpl := [] } }

/-- Every shard a departed seat held has a replica in its data-parallel set: a seat still present that differs from it along the data axis
only (R86). -/
def State.replicas (s : State) : Bool := s.plan.graph.any fun g =>
  match (s.fabricAxes g).findIdx? fun a => axKind a == 0 with
  | none => (upTo s.positions).all s.hasMember
  | some k =>
    let ds := s.setDims ((s.fab.sets.find? fun x => x.1 == k + 1).elim [] (·.2))
    (upTo s.positions).all fun x => s.hasMember x || (upTo s.positions).any fun y => s.hasMember y
      && (upTo 4).all fun i => ds.contains i || (coordsOf s.dims x).getD i 0 == (coordsOf s.dims y).getD i 0

/-- An edge in beats of no measure, or before the first: a card whose swap is announced opens a new phrase at position 0; a joiner
takes the domain's measure number with it, which no flit of the manual carries, so a free value; the learning-rate multiplier is latched
(R86, R294, R366). -/
def State.idleEdge (s : State) : State :=
  match s.plan.next with
  | some c =>
    if s.plan.swapBit && s.dev == .running && s.plan.graph.isSome && s.fab.formed && s.figsOn && (!s.run.tailOnly || s.replicas) then
      let join := s.fab.pendingJoin && !s.fab.leader
      let s1 := if join then let (v, t) := s.draw; { t with clk := { t.clk with measure := v % 2 ^ 48 } } else s
      let s2 : State := { s1 with
        clk := { s1.clk with phrase := if s1.plan.card.isSome then s1.clk.phrase + 1 else s1.clk.phrase }
        run := { Run.reset with acc := s1.run.acc, sig := s1.run.sig, wheyLog := s1.run.wheyLog, limEvt := s1.run.limEvt
                                lastCommit := s1.run.lastCommit, applied := s1.run.applied } }
      let s3 := (s2.swapCard c).buildIfDue.freshRecords
      { s3 with t1 := { s3.t1 with lrMul := BitVec.ofNat 32 (s3.get F.PLC_LR_MUL_VALUE) } }
    else s
  | none => s

/-! ## Markers received -/

/-- A seat that missed the SWAP marker learns on the next edge what the others did: it swaps now, or keeps its card and says so (R83,
R84). -/
def State.lateSwap (s : State) (m : Marker) : State :=
  if !s.run.swapMiss then s
  else
    let s1 : State := { s with run := { s.run with swapMiss := false } }
    match m.swapped, s1.plan.next with
    | true, some c => s1.swapCard c
    | false, _ => s1.replanLate
    | _, _ => s1

/-- What the leader's marker tells: swap at the coming boundary; a joiner's adopted values; verdict and swap applied, and
at the seal EXP and clean count, which must agree (R57, R83, R84, R259, R366). -/
def State.heedLeader (s : State) (m : Marker) : State :=
  if s.fab.pendingJoin && !s.fab.leader then
    let s1 : State := { s with clk := { s.clk with beat := m.beat } }
    ((s1.set F.PLC_STEP_T m.step).set F.PLC_LSCALE_EXP m.exp).set F.PLC_LSCALE_CLEAN m.clean
  else
    let atStart := s.clk.pos == some 0 && s.measuring && m.beat == s.clk.beat && !s.run.tailOnly
    let s0 := if atStart then s.lateSwap m else s
    let s1 : State := if s0.fab.leader then s0 else { s0 with plan := { s0.plan with swapBit := m.swap } }
    let bad := (atStart && (m.applied != s1.run.applied || m.swapped != s1.run.swapped))
      || (m.sealed && s1.measuring && (m.exp != s1.get F.PLC_LSCALE_EXP || m.clean != s1.get F.PLC_LSCALE_CLEAN))
    if bad then s1.detectAt Er.verdictMismatch 14 2 0 0 else s1

/-- MARKER_RECEIVED (R376 to R378): the contribution of a neighbour, for this edge's combined marker. -/
def execMarkerReceived (cyc : Nat) (port : Nat) (mk : Marker) (offsetQns : Int) (s : State) : Host.Outcome State Fault Refusal :=
  if s.dev == .off then .next s else
  let s1 := s.tick cyc
  let p := s1.port port
  if !p.open_ || isTwin port then .next s1
  else
    let s2 := s1.setPort port { p with heard := true, miss := 0 }
    let s3 : State := { s2 with fab := { s2.fab with
      marks := s2.fab.marks ++ [(port, mk)]
      comb := some (match s2.fab.comb with | some c => combineMarks c mk | none => mk) } }
    let s4 := if s3.fab.leader then s3 else s3.steer port offsetQns
    if mk.ldr then .next (s4.heedLeader mk) else .next s4

/-! ## The measure boundary -/

/-- The edge that closes a measure's last beat (R47, R54, R60, R61, R88, R243, R257, R297, R388, R431): the verdict is applied and
told, the state of a measure starts afresh, staged writes land, the phrase goes on. -/
def State.boundary (s : State) (m : EdgeMeas) : State :=
  let n := s.clk.measure
  let ver := s.measuring
  let limit := s.step_ == 0xFFFFFFFF
  let commit := ver && s.run.commit == some true
  let cause := if s.run.commit.isSome then s.run.cause else 64
  let s1 := if commit then s.commitSeal else if ver then s.dropSeal cause else s
  let s2 := if ver && !limit then s1.lossScale commit cause else s1
  let s3 := if ver then s2.verdictEvent commit cause else s2
  let s4 := ((s3.lossEvent m).phaseRecord m commit).persistFault.syncRealign
  let s5 := s4.boundaryPos n
  let s6 := if ver then s5.boundaryCut n commit limit else s5
  let depart := bit cause 5 && ver || s6.run.flags.depart
  let idle := depart || s6.dev == .draining
  let s7 := (s6.freshMeasure.freshRun n commit idle).applyAllStaged
  let s8 : State := State.noteEnergy { s7 with clk := { s7.clk with measure := n + 1, pos := some 0 } } m.energyMj
  if idle then (if s8.dev == .running && s8.replicas then s8.startBuild else s8)
  else if s8.clk.phrPos + 1 = s8.clk.phraseLen then s8.phraseBoundary.buildIfDue.freshRecords
  else State.buildIfDue { s8 with clk := { s8.clk with phrPos := s8.clk.phrPos + 1 } }

/-- The position moves on. -/
def State.nextPos (s : State) (m : EdgeMeas) : State :=
  match s.clk.pos with
  | none => s.idleEdge
  | some p =>
    if !s.figsOn then s
    else if s.run.tailOnly then
      let s1 : State := { s with clk := { s.clk with pos := some ((p + 1) % max 1 s.clk.measBeats) } }
      s1.idleEdge
    else if s.clk.measBeats ≤ p + 1 then s.boundary m
    else { s with clk := { s.clk with pos := some (p + 1) } }

/-! ## Opening the beat -/

/-- The leader sets SWAP for the marker of the phrase's last seal beat, or of a beat of no measure, when every seat has reported
READY; the reports of other seats are a free value (R83; log entry 44). -/
def State.setSwap (s : State) : State :=
  let last := s.run.tailOnly || s.clk.pos.isNone
    || (s.clk.pos.any (fun p => decide (p + 1 = s.clk.measBeats)) && decide (s.clk.phrPos + 1 = s.clk.phraseLen))
  if !(s.fab.leader && last && s.plan.ready && s.plan.next.isSome) then { s with plan := { s.plan with swapBit := false } }
  else if s.alone then { s with plan := { s.plan with swapBit := true } }
  else
    let (v, t) := s.draw
    { t with plan := { t.plan with swapBit := v % 2 == 1 } }

/-- A measure of step all ones cannot be sealed: class S error at its first beat, and once STEP_LIMIT (R305). -/
def State.stepLimit (s : State) : State :=
  if s.measuring && s.clk.pos == some 0 && s.step_ == 0xFFFFFFFF then
    let s1 := s.detectAt Er.stepLimit 14 2 0 0
    if s1.run.limEvt then s1
    else State.emit { s1 with run := { s1.run with limEvt := true } } Ev.stepLimit 14 (s1.clk.measure % 2 ^ 32)
  else s

/-- The beat opens: step limit, SWAP, beat markers, and in the seal beat the seal marker with them (R55, R58, R83, R376, R378). -/
def State.openBeat (s : State) : State :=
  let s1 := s.stepLimit.setSwap
  let sealing := s1.inSeal
  let s2 := s1.fabricEdge sealing
  { s2 with run := { s2.run with sealSent := s2.run.sealSent || sealing } }

/-- One edge of a running device. -/
def State.edge (s : State) (m : EdgeMeas) : State :=
  let s1 := (s.advance m.beatUj).closeFigs
  let verdictBeat := s1.measuring && s1.clk.pos.isSome && (s1.plan.card.bind Card.verdictPos) == s1.clk.pos
  let s2 := if verdictBeat && s1.figsOn then s1.formLocal else s1
  (s2.nextPos m).openBeat

/-- An edge of a device that runs no figures: the beat number goes on, in BOOT the count since BOOT began with it; link dies that a
fabric-preserving reset kept in a formed domain go on sending markers (R34, R381, R470). -/
def State.quietEdge (s : State) : State :=
  let s1 : State := { s with clk := { s.clk with
    beat := s.clk.beat + 1, base := s.clk.base + s.clk.beatCycles, cyc := if s.dev == .boot then s.clk.cyc else 0 } }
  if s.boot.kind == .fabric && s.fab.formed && s.dev != .halted then s1.fabricEdge false else s1

/-- BEAT_EDGE (R34, R41): the edge that closes the open beat and opens the next; `m` is what was measured. The time base runs from
the end of BOOT, through BOOT where the link dies kept it; figures and measures are those of RUNNING and DRAINING. -/
def execBeatEdge (m : EdgeMeas) (s : State) : Host.Outcome State Fault Refusal :=
  if !s.clk.ticking || s.dev == .off then .next s
  else if s.ringsOn then .next (s.edge m)
  else .next s.quietEdge

/-! ## The end of draining -/

/-- DRAIN_TO_HALT (R442): figures but tail figures have stopped and no cut is open; a scrub if HUB_KILL_CFG.SCRUB, the STOP
completion, HALTED with cause 1 and the ports down. -/
def execDrainToHalt (cyc : Nat) (s : State) : Host.Outcome State Fault Refusal :=
  if s.dev == .off then .next s else
  let s1 := s.tick cyc
  if s1.dev == .draining && (s1.run.tailOnly || s1.clk.pos.isNone) && s1.cel.open_.isNone then
    let s2 := if s1.get F.HUB_KILL_CFG_SCRUB = 1 then s1.scrub else s1
    let s3 := s2.finishWhere (fun c => dOpcode c.desc == 6) St.ok fun _ => 0
    .next ((s3.halted 1).portsDown)
  else .next s1

end Sys2Proof.Machine
end

