-- ==== Sys2Proof/Machine/Dispatch.lean ====
section
/-! DEFINITION. What each command does to everything but the queue: one arm per constructor of `Instr`. -/
namespace Sys2Proof.Machine

def exec (i : Instr) (s : State) : Host.Outcome State Fault Refusal :=
  match i with
  | .powerOnReset cyc straps test => Sys2Proof.Machine.execPowerOnReset cyc straps test s
  | .bootComplete cyc => Sys2Proof.Machine.execBootComplete cyc s
  | .t1ClearDone cyc => Sys2Proof.Machine.execT1ClearDone cyc s
  | .pwrgdFall cyc => Sys2Proof.Machine.execPwrgdFall cyc s
  | .coldReset cyc test => Sys2Proof.Machine.execColdReset cyc test s
  | .perstRelease cyc cxl width speed => Sys2Proof.Machine.execPerstRelease cyc cxl width speed s
  | .hubResetCold cyc test => Sys2Proof.Machine.execHubResetCold cyc test s
  | .hubResetWarm cyc test => Sys2Proof.Machine.execHubResetWarm cyc test s
  | .pldmReset cyc test => Sys2Proof.Machine.execPldmReset cyc test s
  | .domainReset cyc test => Sys2Proof.Machine.execDomainReset cyc test s
  | .hostBootImage cyc image test => Sys2Proof.Machine.execHostBootImage cyc image test s
  | .inputVoltageFault cyc mv ns => Sys2Proof.Machine.execInputVoltageFault cyc mv ns s
  | .thermalShutdown cyc tempC => Sys2Proof.Machine.execThermalShutdown cyc tempC s
  | .inputPowerOverTdp cyc watts us => Sys2Proof.Machine.execInputPowerOverTdp cyc watts us s
  | .refclk156Loss cyc => Sys2Proof.Machine.execRefclk156Loss cyc s
  | .hostLinkLost cyc recovered => Sys2Proof.Machine.execHostLinkLost cyc recovered s
  | .hostLinkRetrain cyc width speed => Sys2Proof.Machine.execHostLinkRetrain cyc width speed s
  | .featAcceptWrite cyc k v => Sys2Proof.Machine.execFeatAcceptWrite cyc k v s
  | .start cyc go => Sys2Proof.Machine.execStart cyc go s
  | .secArbCommit cyc => Sys2Proof.Machine.execSecArbCommit cyc s
  | .debugUnlock cyc => Sys2Proof.Machine.execDebugUnlock cyc s
  | .starveFlagClear cyc mu v setNow => Sys2Proof.Machine.execStarveFlagClear cyc mu v setNow s
  | .vecStickyClear cyc cd v setNow => Sys2Proof.Machine.execVecStickyClear cyc cd v setNow s
  | .errStatusWrite cyc v => Sys2Proof.Machine.execErrStatusWrite cyc v s
  | .errLogHeadWrite cyc v => Sys2Proof.Machine.execErrLogHeadWrite cyc v s
  | .planCfgWrite cyc margin v => Sys2Proof.Machine.execPlanCfgWrite cyc margin v s
  | .lrMulWrite cyc v => Sys2Proof.Machine.execLrMulWrite cyc v s
  | .arbRankWrite cyc mu v => Sys2Proof.Machine.execArbRankWrite cyc mu v s
  | .celRegWrite cyc ring v => Sys2Proof.Machine.execCelRegWrite cyc ring v s
  | .registerWrite cyc off size v => Sys2Proof.Machine.execRegisterWrite cyc off size v s
  | .hostLineWrite cyc line => Sys2Proof.Machine.execHostLineWrite cyc line s
  | .hostLinePoll cyc lines => Sys2Proof.Machine.execHostLinePoll cyc lines s
  | .descriptorFetch cyc ring desc => Sys2Proof.Machine.execDescriptorFetch cyc ring desc s
  | .badOpcode cyc ring => Sys2Proof.Machine.execBadOpcode cyc ring s
  | .nop cyc ring => Sys2Proof.Machine.execNop cyc ring s
  | .loadGraph cyc ring image mask places src => Sys2Proof.Machine.execLoadGraph cyc ring image mask places src s
  | .loadCard cyc ring card side => Sys2Proof.Machine.execLoadCard cyc ring card side s
  | .kill cyc ring => Sys2Proof.Machine.execKill cyc ring s
  | .scrubDone cyc nonZero => Sys2Proof.Machine.execScrubDone cyc nonZero s
  | .restore cyc ring others twin => Sys2Proof.Machine.execRestore cyc ring others twin s
  | .restoreDone cyc => Sys2Proof.Machine.execRestoreDone cyc s
  | .ship cyc ring => Sys2Proof.Machine.execShip cyc ring s
  | .stop cyc ring => Sys2Proof.Machine.execStop cyc ring s
  | .drainToHalt cyc => Sys2Proof.Machine.execDrainToHalt cyc s
  | .setBeat cyc ring => Sys2Proof.Machine.execSetBeat cyc ring s
  | .setCap cyc ring => Sys2Proof.Machine.execSetCap cyc ring s
  | .setPhrase cyc ring => Sys2Proof.Machine.execSetPhrase cyc ring s
  | .replan cyc ring => Sys2Proof.Machine.execReplan cyc ring s
  | .syncSignal cyc ring => Sys2Proof.Machine.execSyncSignal cyc ring s
  | .syncRead cyc ring => Sys2Proof.Machine.execSyncRead cyc ring s
  | .syncArm cyc ring => Sys2Proof.Machine.execSyncArm cyc ring s
  | .ingestStream cyc ring sd => Sys2Proof.Machine.execIngestStream cyc ring sd s
  | .ingestMb cyc ring => Sys2Proof.Machine.execIngestMb cyc ring s
  | .ingPosRead cyc ring => Sys2Proof.Machine.execIngPosRead cyc ring s
  | .paramWrite cyc ring src => Sys2Proof.Machine.execParamWrite cyc ring src s
  | .paramRead cyc ring => Sys2Proof.Machine.execParamRead cyc ring s
  | .goResponse cyc line => Sys2Proof.Machine.execGoResponse cyc line s
  | .msixModerationExpiry cyc vec => Sys2Proof.Machine.execMsixModerationExpiry cyc vec s
  | .cxlMemAccess cyc write line data => Sys2Proof.Machine.execCxlMemAccess cyc write line data s
  | .hostReadError cyc what => Sys2Proof.Machine.execHostReadError cyc what s
  | .spdmRequest cyc req => Sys2Proof.Machine.execSpdmRequest cyc req s
  | .pldmRequest cyc req => Sys2Proof.Machine.execPldmRequest cyc req s
  | .pldmFirmwareUpdate cyc op => Sys2Proof.Machine.execPldmFirmwareUpdate cyc op s
  | .beatEdge m => Sys2Proof.Machine.execBeatEdge m s
  | .seatReady cyc card side beatsNeeded => Sys2Proof.Machine.execSeatReady cyc card side beatsNeeded s
  | .figureStart cyc fid env => Sys2Proof.Machine.execFigureStart cyc fid env s
  | .figureComplete cyc fid => Sys2Proof.Machine.execFigureComplete cyc fid s
  | .vatWaitResume cyc die cluster vat => Sys2Proof.Machine.execVatWaitResume cyc die cluster vat s
  | .vatExpectLoad cyc => Sys2Proof.Machine.execVatExpectLoad cyc s
  | .slotSel cyc die cluster => Sys2Proof.Machine.execSlotSel cyc die cluster s
  | .syncSetAt cyc die obj => Sys2Proof.Machine.execSyncSetAt cyc die obj s
  | .rindStart cyc inFlight => Sys2Proof.Machine.execRindStart cyc inFlight s
  | .bankPowerDown cyc bank writeFid readFid => Sys2Proof.Machine.execBankPowerDown cyc bank writeFid readFid s
  | .commitCheck cyc => Sys2Proof.Machine.execCommitCheck cyc s
  | .eventBeatClose cyc => Sys2Proof.Machine.execEventBeatClose cyc s
  | .errorDetected cyc e => Sys2Proof.Machine.execErrorDetected cyc e s
  | .errorLogged cyc => Sys2Proof.Machine.execErrorLogged cyc s
  | .errorHandling cyc => Sys2Proof.Machine.execErrorHandling cyc s
  | .errorHandled cyc => Sys2Proof.Machine.execErrorHandled cyc s
  | .tsPacket cyc pkt => Sys2Proof.Machine.execTsPacket cyc pkt s
  | .clipDraw cyc => Sys2Proof.Machine.execClipDraw cyc s
  | .linkUp cyc port width => Sys2Proof.Machine.execLinkUp cyc port width s
  | .helloReceived cyc port payload => Sys2Proof.Machine.execHelloReceived cyc port payload s
  | .leaderElected cyc => Sys2Proof.Machine.execLeaderElected cyc s
  | .linkRetrain cyc port width => Sys2Proof.Machine.execLinkRetrain cyc port width s
  | .linkDown cyc port => Sys2Proof.Machine.execLinkDown cyc port s
  | .memberReceived cyc msg => Sys2Proof.Machine.execMemberReceived cyc msg s
  | .leaderLost cyc => Sys2Proof.Machine.execLeaderLost cyc s
  | .routeReceived cyc ld first entries => Sys2Proof.Machine.execRouteReceived cyc ld first entries s
  | .delayMeasure cyc port roundTripQns => Sys2Proof.Machine.execDelayMeasure cyc port roundTripQns s
  | .markerReceived cyc port mk offsetQns => Sys2Proof.Machine.execMarkerReceived cyc port mk offsetQns s
  | .beatOffsetLimit cyc => Sys2Proof.Machine.execBeatOffsetLimit cyc s
  | .flitReceived cyc port flit trailer => Sys2Proof.Machine.execFlitReceived cyc port flit trailer s
  | .flitCrcFail cyc port => Sys2Proof.Machine.execFlitCrcFail cyc port s
  | .linkControlFlit cyc port lastGood nak credits => Sys2Proof.Machine.execLinkControlFlit cyc port lastGood nak credits s
  | .linkControlSend cyc port => Sys2Proof.Machine.execLinkControlSend cyc port s
  | .accumulateWrite cyc src mu => Sys2Proof.Machine.execAccumulateWrite cyc src mu s
  | .slotArbitration cyc mu ch requests slot => Sys2Proof.Machine.execSlotArbitration cyc mu ch requests slot s
  | .arbStarve cyc mu ch req => Sys2Proof.Machine.execArbStarve cyc mu ch req s
  | .mr4Report cyc mu rate hot => Sys2Proof.Machine.execMr4Report cyc mu rate hot s
  | .extraRefresh cyc mu ch offered displaced => Sys2Proof.Machine.execExtraRefresh cyc mu ch offered displaced s
  | .t1InlineEcc cyc mu ch line check fid => Sys2Proof.Machine.execT1InlineEcc cyc mu ch line check fid s
  | .patrolScrub cyc mu line corrected => Sys2Proof.Machine.execPatrolScrub cyc mu line corrected s
  | .scratchpadEcc cyc die cluster line fatal fid => Sys2Proof.Machine.execScratchpadEcc cyc die cluster line fatal fid s
  | .snapDone cyc => Sys2Proof.Machine.execSnapDone cyc s
  | .snapDomain cyc => Sys2Proof.Machine.execSnapDomain cyc s
  | .nandProgramFail cyc => Sys2Proof.Machine.execNandProgramFail cyc s
  | .mirrorDone cyc => Sys2Proof.Machine.execMirrorDone cyc s
  | .dieToDieRetry cyc die port lanes retrained => Sys2Proof.Machine.execDieToDieRetry cyc die port lanes retrained s
  | .shipDone cyc measure => Sys2Proof.Machine.execShipDone cyc measure s
  | .configurationRequest cyc => Sys2Proof.Machine.execConfigurationRequest cyc s

end Sys2Proof.Machine
end

