-- ==== Sys2Proof/Safety.lean ====
section
/-! DEFINITION. What counts as a safe run of the block: a step answers a next state. The canonical form of the stores
that hold the module's memories and registers. -/
namespace Sys2Proof.Machine

/-- A step from `s` answers a next state. -/
def State.steps (s : State) : Prop := ∃ t, step s = .next t

/-- Every sparse store of the state is in canonical form: strictly rising keys, no entry at its default. -/
def State.canonical (s : State) : Bool :=
  tabWf s.regs && memWf s.host.mem && memWf s.t0.mem && memWf s.t1.mem && memWf s.t1.pair && tabWf s.t1.tag
    && tabWf s.t1.cnt && tabWf s.t1.touch0 && tabWf s.t1.touch1 && tabWf s.t0.sync && tabWf s.t0.hub && s.fab.routeNext.all tabWf

/-- Every word of the register file holds 32 bits, and so do the words that a reset takes from the fuses. -/
def State.wordsFit (s : State) : Prop :=
  (∀ k, tGet s.regs k < 2 ^ 32) ∧ s.fuses.arb ≤ 64 ∧ s.fuses.sku + 16 * s.fuses.stepping < 2 ^ 32 ∧ s.fuses.revoked + 16 < 2 ^ 32

/-- The front command of ring `n` has descriptor `d` and opcode `op`, and R425 lets it start: its FENCE finds no uncompleted
command of the ring, and a state command finds none running. -/
def State.frontIs (u : State) (n op : Nat) (d : BitVec 512) : Prop :=
  n < 64 ∧ (u.ring n).queue.head? = some ⟨d⟩ ∧ dOpcode d = op ∧ (dFence d = true → (u.ring n).active = [])
    ∧ (op = 1 ∨ op = 2 ∨ op = 3 ∨ op = 4 ∨ op = 6 → u.stateBusy = false)


/-! ## Commands by what they may do to the device state (R441, R468, R469) -/

end Sys2Proof.Machine

namespace Sys2Proof

/-- The command may reset the module; REGISTER_WRITE is among them because it may write HUB_RESET. -/
def Instr.resets : Instr → Bool
  | .powerOnReset _ _ _ | .coldReset _ _ | .hubResetCold _ _ | .hubResetWarm _ _ | .pldmReset _ _ | .domainReset _ _
  | .registerWrite _ _ _ _ => true
  | _ => false

/-- The command may take the module's power away. -/
def Instr.cutsPower : Instr → Bool
  | .pwrgdFall _ | .inputVoltageFault _ _ _ | .thermalShutdown _ _ => true
  | _ => false

/-- The command may negotiate features or evaluate START. -/
def Instr.configures : Instr → Bool
  | .start _ _ | .featAcceptWrite _ _ _ | .t1ClearDone _ | .registerWrite _ _ _ _ => true
  | _ => false

/-- The command may log an error or end its handling. -/
def Instr.handlesErrors : Instr → Bool
  | .errorLogged _ | .errorHandled _ => true
  | _ => false

/-- The command may boot an image while BOOT waits for one or is in recovery. -/
def Instr.boots : Instr → Bool
  | .hostBootImage _ _ _ | .pldmFirmwareUpdate _ _ => true
  | _ => false

end Sys2Proof
end

