-- ==== Sys2Proof/Certificates/Slice0/Obligations.lean ====
section
/-! DEFINITION. The statements for the provers. Each docstring says what its statement claims; OBLIGATIONS.json cites the rules. -/

open Sys2Proof Sys2Proof.Machine

/-- With command c at the front of the queue and rest behind it, step is exec of c on the state whose queue is rest; on an empty
queue step answers the same state (log entry 1, the model's convention). -/
def Obligations.StepRunsFrontCommand : Prop :=
  (∀ (s : State) (c : Instr) (rest : List Instr), s.pending = c :: rest → step s = exec c { s with pending := rest })
    ∧ (∀ s : State, s.pending = [] → step s = .next s)

/-- For every state and every step that answers a next state: the queue loses exactly its front; every fuse but the anti-
rollback count is as before; the count never falls and stays at most 64 if it was; if it changed, the device was
UNCONFIGURED, the command was SEC_ARB_COMMIT, the PLDM commit or a register write of SEC_ARB with COMMIT 1, and the count is
the larger of itself and the running image's SVN (at most 64). SEC_ARB_COMMIT and the PLDM commit in UNCONFIGURED make it
that value. An image with an SVN above 64 fails check 4 of R476 or an earlier one. -/
def Obligations.FusesRiseOnly : Prop :=
  (∀ s t : State, step s = .next t →
    t.pending = s.pending.tail
      ∧ t.fuses = { s.fuses with arb := t.fuses.arb }
      ∧ s.fuses.arb ≤ t.fuses.arb
      ∧ (s.fuses.arb ≤ 64 → t.fuses.arb ≤ 64)
      ∧ (t.fuses.arb ≠ s.fuses.arb →
          s.dev = .unconfigured ∧ t.fuses.arb = max s.fuses.arb (min s.boot.svn 64)
            ∧ ∃ cyc, s.pending.head? = some (.secArbCommit cyc) ∨ s.pending.head? = some (.pldmRequest cyc .arbCommit)
                ∨ ∃ size v, v.getLsbD 7 = true ∧ s.pending.head? = some (.registerWrite cyc 0x40000 size v)))
    ∧ (∀ (s : State) (cyc : Nat) (rest : List Instr), s.dev = .unconfigured →
        s.pending = .secArbCommit cyc :: rest ∨ s.pending = .pldmRequest cyc .arbCommit :: rest →
        ∃ t, step s = .next t ∧ t.fuses.arb = max s.fuses.arb (min s.boot.svn 64))
    ∧ (∀ (s : State) (b : Bytes), 64 < imgSvn b → s.verifyImage b = 4 ∨ s.verifyImage b ∈ [1, 2, 3, 6])

/-- State.reset is in BOOT with no command waiting, no graph, no card and no measure, its stores are canonical, its anti-
rollback count is at most 64, and the registers whose reset value the tables give read it: PHRASE 64, HEADROOM 25, LEAD 2,
the default ranks 0x1FB11, STARVE_US 50, NTH 8, SETTLE 256, seat 0xFFF, LR_MUL 1.0, GROWTH 1,000 and PERIOD_H 24. (That it
is the state in which PWRGD has risen with straps and fuses of zero on a VG4 is log entries 2 to 5.) -/
def Obligations.ResetState : Prop :=
  State.reset.dev = .boot ∧ State.reset.pending = [] ∧ State.reset.plan.graph = none ∧ State.reset.plan.card = none
    ∧ State.reset.clk.pos = none ∧ State.reset.canonical = true ∧ State.reset.fuses.arb ≤ 64
    ∧ State.reset.get F.PLC_PLAN_CFG_PHRASE = 64 ∧ State.reset.get F.PLC_PLAN_CFG_HEADROOM = 25
    ∧ State.reset.get F.PLC_PLAN_CFG_LEAD = 2 ∧ State.reset.get (F.MU_ARB_RANK_RANK.mu 0) = 0x1FB11
    ∧ State.reset.get (F.MU_ARB_CFG_STARVE_US.mu 7) = 50 ∧ State.reset.get (F.MU_ARB_CFG_NTH.mu 3) = 8
    ∧ State.reset.get F.LD_FORM_CFG_SETTLE = 256 ∧ State.reset.get F.LD_SEAT_SEAT = 0xFFF
    ∧ State.reset.get F.PLC_LR_MUL_VALUE = 0x3F800000 ∧ State.reset.get F.PLC_LSCALE_GROW_GROWTH = 1000
    ∧ State.reset.get (F.MU_SCRUB_CFG_PERIOD_H.mu 2) = 24

/-- Every command answers a next state in every state: errors are effects on the state, never a stop of the model. -/
def Obligations.EveryCommandAnswers : Prop :=
  ∀ (c : Instr) (s : State), ∃ t, exec c s = .next t

/-- The clock of a command moves to its cycle, never back and, out of BOOT and OFF, never past the last cycle of the beat;
device state, pins, fuses, plan, rings, ingest, fabric, cellar, queue, vats and all of T1 but the account of arbiter waits
stay. Where no running vector body has a step left to take, the signals in flight that are due are gone and the others are
as they were, no scratchpad byte and no figure changes; and with no signal in flight and no request at an arbiter nothing
but the clock has moved. (A vector body that waits goes on at the cycle its signal applies: FIGURE statements say what it
does.) -/
def Obligations.TickMovesTime : Prop :=
  ∀ (s : State) (cyc : Nat), let t := s.tick cyc
    t.clk = { s.clk with cyc := if s.dev = .boot ∨ s.dev = .off then max s.clk.cyc cyc else min (max s.clk.cyc cyc) (s.clk.beatCycles - 1) }
      ∧ t.dev = s.dev ∧ t.halt = s.halt ∧ t.pins = s.pins ∧ t.fuses = s.fuses ∧ t.flash = s.flash ∧ t.boot = s.boot ∧ t.sec = s.sec
      ∧ t.plan = s.plan ∧ t.ing = s.ing ∧ t.fab = s.fab ∧ t.cel = s.cel ∧ t.pending = s.pending ∧ t.host.rings = s.host.rings
      ∧ t.t0.vat = s.t0.vat ∧ t.t1 = { s.t1 with settled := t.t1.settled }
      ∧ ((∀ x ∈ s.running, s.stepsLeft x = []) → (∀ g, g ∈ t.run.sig ↔ g ∈ s.run.sig ∧ t.clk.cyc < g.due)
          ∧ t.t0 = { s.t0 with sync := t.t0.sync, hub := t.t0.hub, armed := t.t0.armed }
          ∧ t.run = { s.run with sig := t.run.sig, sigDone := t.run.sigDone }
          ∧ t.err = { s.err with inFlight := t.err.inFlight }
          ∧ t.host = { s.host with mem := t.host.mem, evTail := t.host.evTail, evLost := t.host.evLost, evHeld := t.host.evHeld, go := t.host.go })
      ∧ (s.run.sig = [] → s.t1.req = [] →
          t = { s with clk := t.clk, run := { s.run with sigDone := s.run.sigDone.filter fun g => g.due == t.clk.cyc } })

/-- POWER_ON_RESET, unless the power stages are latched off (then nothing happens), starts BOOT with the straps sampled: host
interface, plan, run, both tiers, ingest, link dies and the errors are as at reset, the beat is the straps' beat, no START
is accepted or held; every register but those BOOT itself writes (HUB_BOOT_STATUS, the nonce, CD_SPARE_MAP, MU_REF_COST, the
abandon counter and the error registers) is at its reset value for these straps and fuses, and LAST_RESET reads power-on.
Fuses, flash and the snapshots of the cellar stay, its open cut is abandoned; the queue stays. With a passing self-test the
device is in BOOT; a failing one HALTs it with cause 2 where an image has booted, and where BOOT waits for the host or is in
recovery it stays in BOOT. -/
def Obligations.PowerOnResets : Prop :=
  ∀ (s : State) (cyc : Nat) (straps : BitVec 16) (test : BootTest),
    (s.pins.latched = true → exec (.powerOnReset cyc straps test) s = .next s)
      ∧ (s.pins.latched = false → ∃ t, exec (.powerOnReset cyc straps test) s = .next t
        ∧ (test.fail = none → t.dev = .boot ∧ t.halt = 0 ∧ t.err = Errors.reset)
        ∧ (test.fail ≠ none → (t.boot.waitHost = false ∧ t.boot.recovery = false → t.dev = .halted ∧ t.halt = 2)
            ∧ (t.boot.waitHost = true ∨ t.boot.recovery = true → t.dev = .boot ∧ t.halt = 0 ∧ t.err = Errors.reset))
        ∧ t.boot.kind = .power ∧ t.boot.startHeld = false ∧ t.boot.started = false
        ∧ t.pins = ⟨true, s.pins.perstN, true, false, true⟩
        ∧ t.clk = { Clock.reset with lenUs := strapBeatUs straps.toNat, rindCyc := rindCycles (strapBeatUs straps.toNat) 0 }
        ∧ t.host = { HostIf.reset with mem := s.host.mem, irqSent := s.host.irqSent, crs := s.host.crs, cfgOk := s.host.cfgOk }
        ∧ t.plan = Plan.reset ∧ t.run = Run.reset ∧ t.t0 = T0.reset ∧ t.t1 = T1.reset
        ∧ t.ing = Ingest.reset ∧ t.fab = Fabric.reset s.fuses.serial
        ∧ t.sec.fw = none ∧ t.sec.spdmStage = 0 ∧ t.sec.sessions = 0
        ∧ t.fuses = s.fuses ∧ t.flash = s.flash ∧ t.pending = s.pending
        ∧ t.cel = { Cellar.reset with snaps := s.cel.snaps, spare := s.cel.spare, readOnly := s.cel.readOnly, wear := s.cel.wear }
        ∧ t.get F.HUB_BOOT_STATUS_LAST_RESET = 0
        ∧ (∀ k, k ≠ 0xC → k ≠ 0x30048 → ¬ (0x40010 ≤ k ∧ k < 0x40020) → ¬ (0x50000 ≤ k ∧ k < 0x50020)
            → (∀ n, n < 4 → k ≠ 0x100020 + n * 0x10000) → (∀ n, n < 8 → k ≠ 0x180010 + n * 0x10000) →
            tGet t.regs k = tGet (tabOf (resetWords straps.toNat s.fuses.sku s.fuses.stepping s.fuses.arb
              (s.fuses.revoked + (if s.fuses.dbgDis then 16 else 0)))) k))

/-- COLD_RESET, HUB_RESET_COLD and HUB_RESET_WARM (both out of BOOT), PLDM_RESET and DOMAIN_RESET, out of OFF, start BOOT and
set LAST_RESET: the run stops, every command is dropped without a completion, the open cut is abandoned, and plan, run, both
tiers and ingest are as at reset. Straps as sampled, error log, counters and sticky registers stay, but the abandon counter;
fuses, flash, snapshots and host memory stay. A warm and a fabric-preserving reset keep the trained host link and the
LPDDR5X training, a fabric-preserving one the link dies and their beat too, after a leader has flooded it. A cold reset
asked for by PERST_N leaves that pin low. With a passing self-test the device is in BOOT; a failing one HALTs it with cause
2 where an image has booted, and where BOOT waits for the host or is in recovery it stays in BOOT. -/
def Obligations.OtherResets : Prop :=
  ∀ (s : State) (cyc : Nat) (test : BootTest) (c : Instr) (k : ResetKind), s.dev ≠ .off →
    ((c = .coldReset cyc test ∧ k = .cold) ∨ (c = .hubResetCold cyc test ∧ k = .cold ∧ s.dev ≠ .boot)
      ∨ (c = .hubResetWarm cyc test ∧ k = .warm ∧ s.dev ≠ .boot) ∨ (c = .pldmReset cyc test ∧ k = .warm)
      ∨ (c = .domainReset cyc test ∧ k = .fabric)) →
    let u := s.tick cyc
    let keep := decide (k = .warm ∨ k = .fabric)
    ∃ t, exec c s = .next t
      ∧ (test.fail = none → t.dev = .boot ∧ t.halt = 0 ∧ t.err = { Errors.reset with log := s.err.log })
      ∧ (test.fail ≠ none → (t.boot.waitHost = false ∧ t.boot.recovery = false → t.dev = .halted ∧ t.halt = 2)
          ∧ (t.boot.waitHost = true ∨ t.boot.recovery = true → t.dev = .boot ∧ t.halt = 0))
      ∧ t.boot.kind = k ∧ t.boot.startHeld = false ∧ t.boot.started = false
      ∧ (keep = true → s.boot.trained = true → t.boot.trained = true)
      ∧ t.get F.HUB_BOOT_STATUS_LAST_RESET = (match k with | .power => 0 | .cold => 1 | .warm => 2 | .fabric => 3)
      ∧ t.get F.HUB_STRAP_RAW = u.get F.HUB_STRAP_RAW
      ∧ t.host = { HostIf.reset with link := keep && s.host.link, mem := u.host.mem, irqSent := s.host.irqSent, crs := s.host.crs, cfgOk := s.host.cfgOk }
      ∧ t.plan = Plan.reset ∧ t.run = Run.reset ∧ t.t0 = T0.reset ∧ t.t1 = T1.reset ∧ t.ing = Ingest.reset
      ∧ t.fab = (if k = .fabric then u.floodReset.fab else Fabric.reset s.fuses.serial)
      ∧ (k = .fabric → t.clk.beat = s.clk.beat ∧ t.clk.epoch = s.clk.epoch ∧ t.clk.lenUs = s.clk.lenUs ∧ t.clk.ticking = true)
      ∧ t.cel = { Cellar.reset with snaps := s.cel.snaps, spare := s.cel.spare, readOnly := s.cel.readOnly, wear := s.cel.wear }
      ∧ t.fuses = s.fuses ∧ t.flash = s.flash ∧ t.pending = s.pending
      ∧ t.pins = (if c = .coldReset cyc test then { s.pins with perstN := false } else s.pins)
      ∧ (test.fail = none → tabWf u.regs = true → ∀ j, keptWord k j = true → j ≠ 0x30048 → tGet t.regs j = tGet u.regs j)

/-- While BOOT waits for the host, HOST_BOOT_IMAGE with an image that verifies ends the wait with the image's SVN running (a
failing self-test then HALTs the device with cause 2); with one that fails a check it leaves the device in BOOT in recovery,
HUB_BOOT_STATUS.CODE naming the check; module flash stays as it was. With no wait and no recovery BOOT_COMPLETE enters
UNCONFIGURED, starts the time base at cycle 0 and begins the T1 clear, T1_CLEAR reading 0; T1_CLEAR_DONE then empties T1,
T1_CLEAR reads 1, and a START that was held is evaluated. -/
def Obligations.BootStages : Prop :=
  (∀ (s : State) (cyc : Nat) (image : Bytes) (test : BootTest), s.dev = .boot → s.boot.waitHost = true → let u := s.tick cyc
    ∃ t, exec (.hostBootImage cyc image test) s = .next t
      ∧ (if s.verifyImage image = 0 ∧ test.fail ≠ none then t.dev = .halted ∧ t.halt = 2 else t.dev = .boot ∧ t.halt = s.halt)
      ∧ t.flash = s.flash ∧ t.fuses = s.fuses ∧ t.boot.waitHost = false ∧ t.boot.test = test
      ∧ (s.verifyImage image = 0 → t.boot.svn = imgSvn image ∧ t.boot.trained = true ∧ t.boot.recovery = false)
      ∧ (s.verifyImage image ≠ 0 → t.boot.recovery = true ∧ t.boot.svn = s.boot.svn
          ∧ t = { u with boot := t.boot, regs := (u.set F.HUB_BOOT_STATUS_CODE (s.verifyImage image)).regs })
      ∧ t.plan = s.plan ∧ t.t0.mem = s.t0.mem ∧ t.t1 = { u.t1 with cxl := t.t1.cxl } ∧ t.cel = s.cel ∧ (test.fail = none → t.fab = s.fab))
    ∧ (∀ (s : State) (cyc : Nat), s.dev = .boot → s.boot.waitHost = false → s.boot.recovery = false → let u := s.tick cyc
    ∃ t, exec (.bootComplete cyc) s = .next t
      ∧ t.dev = .unconfigured ∧ t.halt = 0 ∧ t.clk = { u.clk with cyc := 0, ticking := true }
      ∧ (tabWf u.regs = true → t.get F.HUB_BOOT_STATUS_T1_CLEAR = 0)
      ∧ t = { u with dev := .unconfigured, halt := 0, clk := t.clk, regs := t.regs, host := { u.host with link := u.host.link || s.pins.perstN } })
    ∧ (∀ (s : State) (cyc : Nat), let u := s.tick cyc
      u.dev = .unconfigured ∨ u.dev = .negotiated → u.get F.HUB_BOOT_STATUS_T1_CLEAR = 0 →
      let w : State := { u.set F.HUB_BOOT_STATUS_T1_CLEAR 1 with t1 := { u.t1 with mem := [], pair := [] } }
      exec (.t1ClearDone cyc) s = .next (if u.boot.startHeld then w.evalStart else w)
        ∧ (tabWf u.regs = true → w.get F.HUB_BOOT_STATUS_T1_CLEAR = 1))

/-- PWRGD falling, an input voltage outside 39 to 61 V for more than 50 µs and a junction at 115 °C each enter OFF at once, stop
the Callers and take the host link down; nothing else changes but the pins: PWRGD low ends a latched shutdown, the other two
latch the power stages off. Input in range, or out of it for less, only shows on the supply pin; a cooler junction changes
nothing. In OFF every command but POWER_ON_RESET leaves everything but the pins as it is, and so does POWER_ON_RESET while
the stages are latched off. -/
def Obligations.PowerGoesOff : Prop :=
  (∀ (s : State) (cyc : Nat), let u := if s.dev = .off then s else s.tick cyc
    (exec (.pwrgdFall cyc) s = .next { u with
        pins := { u.pins with pwrgd := false, latched := false }, dev := .off, run := { u.run with stopped := true }
        host := { u.host with link := false } })
      ∧ (∀ mv ns, (mv < 39000 ∨ 61000 < mv) → 50000 < ns → s.dev ≠ .off →
          exec (.inputVoltageFault cyc mv ns) s = .next { u with
            pins := { u.pins with vin := false, latched := true }, dev := .off, run := { u.run with stopped := true }
            host := { u.host with link := false } })
      ∧ (∀ mv ns, ¬ ((mv < 39000 ∨ 61000 < mv) ∧ 50000 < ns ∧ s.dev ≠ .off) →
          exec (.inputVoltageFault cyc mv ns) s = .next { u with pins := { u.pins with vin := decide (40000 ≤ mv ∧ mv ≤ 60000) } })
      ∧ (∀ temp, 115 ≤ temp → s.dev ≠ .off →
          exec (.thermalShutdown cyc temp) s = .next { u with
            pins := { u.pins with latched := true }, dev := .off, run := { u.run with stopped := true }
            host := { u.host with link := false } })
      ∧ (∀ temp, temp < 115 → exec (.thermalShutdown cyc temp) s = .next s))
    ∧ (∀ (c : Instr) (s : State), s.dev = .off → s.run.stopped = true → s.host.link = false →
        ((∃ cyc straps test, c = .powerOnReset cyc straps test) → s.pins.latched = true) →
        ∃ t, exec c s = .next t ∧ t = { s with pins := t.pins })

/-- Out of OFF, PERST_RELEASE raises PERST_N and the host link trains to its mode, width and rate in HUB_STATE;
HOST_LINK_RETRAIN writes the new width and rate and keeps the mode. The T2 limit is 48 GB/s at full width and rate and
halves with each step. In BOOT, with PERST_N high and from 5 ms on, a configuration request is answered with retry status
until step 4 ends (90 ms of BOOT, a wait for the host's image not counted) and in recovery, and completes from then on and
while the device waits for the host's image; before 5 ms, with PERST_N low, or past BOOT with the link down, it is
unanswered; past BOOT with the link up it completes. Input power above the TDP for more than 1 ms sends error 0x0402 (in
BOOT with a stamp left open, log entry 63); a host link lost for good in RUNNING or DRAINING sends 0x0408, in any state
takes the link down and ends its sessions, and a loss that recovers changes nothing; REFCLK156 stopping stops the time base. -/
def Obligations.HostLink : Prop :=
  ((∀ (s : State) (cyc : Nat) (cxl : Bool) (width speed : Nat), let u := s.tick cyc
    s.dev ≠ .off → exec (.perstRelease cyc cxl width speed) s = .next { u with
      pins := { u.pins with perstN := true }
      regs := fset u.regs ⟨0x4, 6, 4⟩ ((if cxl then 0 else 1) + width * 2 + speed * 8)
      host := { u.host with link := true } })
    ∧ (∀ (s : State) (cyc width speed : Nat), let u := s.tick cyc
      u.dev ≠ .off → u.host.link = true → exec (.hostLinkRetrain cyc width speed) s = .next { u with
        regs := fset u.regs ⟨0x4, 6, 4⟩ ((if bit (tGet u.regs 0x4) 6 then 1 else 0) + width * 2 + speed * 8)
        host := { u.host with link := true } })
    ∧ t2Limit 0 0 = 48 ∧ t2Limit 1 0 = 24 ∧ t2Limit 2 0 = 12 ∧ t2Limit 0 1 = 24 ∧ t2Limit 1 1 = 12 ∧ t2Limit 2 1 = 6)
    ∧ (∀ (s : State) (cyc : Nat), let u := s.tick cyc
    (u.dev = .boot → u.pins.perstN = true → 5 * bootMs ≤ u.clk.cyc → u.boot.waitHost = false →
        u.boot.recovery = true ∨ u.clk.cyc - u.boot.delay < 90 * bootMs →
        exec (.configurationRequest cyc) s = .next { u with host := { u.host with crs := u.host.crs + 1 } })
      ∧ (u.dev = .boot → u.pins.perstN = true → 5 * bootMs ≤ u.clk.cyc →
        u.boot.waitHost = true ∨ (u.boot.recovery = false ∧ 90 * bootMs ≤ u.clk.cyc - u.boot.delay) →
        exec (.configurationRequest cyc) s = .next { u with host := { u.host with cfgOk := u.host.cfgOk + 1 } })
      ∧ (u.dev = .boot → u.pins.perstN = false ∨ u.clk.cyc < 5 * bootMs → exec (.configurationRequest cyc) s = .next u)
      ∧ (u.dev ≠ .boot → u.dev ≠ .off → exec (.configurationRequest cyc) s
          = .next (if u.host.link then { u with host := { u.host with cfgOk := u.host.cfgOk + 1 } } else u)))
    ∧ (∀ (s : State) (cyc : Nat), let u := s.tick cyc
      let excess := fun (beatCyc : Nat) => (⟨0x0402, ⟨14, 10, 0⟩, u.clk.beat, beatCyc, 0xFFFFFFFF, 0⟩ : ErrRec)
    (∀ watts us, (if u.fuses.sku = 1 then 3600 else 1900) < watts → 1000 < us →
        (u.dev ≠ .off → u.dev ≠ .boot → exec (.inputPowerOverTdp cyc watts us) s
          = .next { u with err := { u.err with inFlight := u.err.inFlight ++ [excess u.clk.cyc] } })
        ∧ (u.dev = .boot → ∃ o, exec (.inputPowerOverTdp cyc watts us) s
          = .next { u with free := u.free + 1, err := { u.err with inFlight := u.err.inFlight ++ [excess o] } }))
      ∧ (∀ watts us, watts ≤ (if u.fuses.sku = 1 then 3600 else 1900) ∨ us ≤ 1000 → u.dev ≠ .off →
        exec (.inputPowerOverTdp cyc watts us) s = .next u)
      ∧ (u.dev ≠ .off → exec (.refclk156Loss cyc) s = .next { u with pins := { u.pins with refclk := false }, clk := { u.clk with ticking := false } })
      ∧ (let down : State := { u with host := { u.host with link := false }, sec := { u.sec with spdmStage := 0, sessions := 0 } }
        (u.dev = .running ∨ u.dev = .draining → exec (.hostLinkLost cyc false) s
          = .next { down with err := { u.err with inFlight := u.err.inFlight ++ [⟨0x0408, ⟨14, 6, 0⟩, u.clk.beat, u.clk.cyc, 0xFFFFFFFF, 0⟩] } })
        ∧ (u.dev ≠ .running → u.dev ≠ .draining → u.dev ≠ .off → exec (.hostLinkLost cyc false) s = .next down))
      ∧ (u.dev ≠ .off → exec (.hostLinkLost cyc true) s = .next u))

/-- In UNCONFIGURED or NEGOTIATED, with no START held or accepted, FEAT_ACCEPT_WRITE stores the word (each bit as written) and
the device is NEGOTIATED; in any other state out of OFF, with a START held or accepted, or beyond the eight words, it
changes nothing. -/
def Obligations.FeatureNegotiation : Prop :=
  ∀ (s : State) (cyc k : Nat) (v : Word32), let u := s.tick cyc
    (u.dev = .unconfigured ∨ u.dev = .negotiated → u.boot.startHeld = false → u.boot.started = false → k < 8 →
      tabWf u.regs = true → ∃ r t, exec (.featAcceptWrite cyc k v) s = .next t
        ∧ fget r ⟨0x60 + 4 * k, 0, 32⟩ = v.toNat ∧ (∀ j, j ≠ 0x60 + 4 * k → tGet r j = tGet u.regs j)
        ∧ t = (if u.dev = .unconfigured then State.enter { u with regs := r } .negotiated 0 else { u with regs := r })
        ∧ t.dev = .negotiated ∧ t.clk = u.clk ∧ t.plan = u.plan ∧ t.t1 = u.t1 ∧ t.fab = u.fab ∧ t.boot = u.boot ∧ t.host.rings = u.host.rings)
    ∧ (u.dev ≠ .off → 8 ≤ k → exec (.featAcceptWrite cyc k v) s = .next u)
    ∧ ((u.dev ≠ .unconfigured ∧ u.dev ≠ .negotiated ∧ u.dev ≠ .off) ∨ (u.dev ≠ .off ∧ (u.boot.startHeld = true ∨ u.boot.started = true)) →
      exec (.featAcceptWrite cyc k v) s = .next u)

/-- With GO, in UNCONFIGURED or NEGOTIATED: before the T1 clear has completed START is held; then the first failing check in the
order FEAT_REJECT, EXPERT_DENIED, BEAT_RANGE, PLAN_RANGE, PLAN_REJECT refuses it (the device NEGOTIATED, HUB_START.STATUS
written, nothing locked that was not); with none failing the device is RUNNING and locked with no graph, the power cap and
beat settings taken, T1 carved, hub objects zero. Without GO, in any other state, or with a START held, nothing happens.
That GO counts in UNCONFIGURED too is log entry 13. -/
def Obligations.StartChecks : Prop :=
  ∀ (s : State) (cyc : Nat), let u := s.tick cyc
    u.dev ≠ .off →
    let may := (u.dev = .unconfigured ∨ u.dev = .negotiated) ∧ u.boot.startHeld = false
    (exec (.start cyc false) s = .next u ∧ (¬ may → exec (.start cyc true) s = .next u))
      ∧ u.startStatus = (if u.featOk = false then 0x16 else if u.expertOk = false then 0x01 else if u.beatOk = false then 0x02
          else if u.rangesOk = false then 0x0C else if u.modesAgree = false then 0x0B else 0)
      ∧ (may → u.get F.HUB_BOOT_STATUS_T1_CLEAR ≠ 1 → exec (.start cyc true) s = .next { u with boot := { u.boot with startHeld := true } })
      ∧ (may → u.get F.HUB_BOOT_STATUS_T1_CLEAR = 1 → u.startStatus ≠ 0 → ∃ t, exec (.start cyc true) s = .next t
          ∧ t.dev = .negotiated ∧ t.locked = u.boot.started
          ∧ t = (if u.dev = .unconfigured then (u.set F.HUB_START_STATUS u.startStatus).enter .negotiated 0 else u.set F.HUB_START_STATUS u.startStatus)
          ∧ t.plan = u.plan ∧ t.t1 = u.t1 ∧ t.fab = u.fab ∧ t.clk = u.clk)
      ∧ (may → u.get F.HUB_BOOT_STATUS_T1_CLEAR = 1 → u.startStatus = 0 → ∃ t, exec (.start cyc true) s = .next t
          ∧ t.dev = .running ∧ t.halt = 0 ∧ t.locked = true ∧ t.plan.graph = none ∧ t.plan.card = none
          ∧ t.plan.cap = u.get F.PLC_POWER_CFG_CAP ∧ t.t0.hub = [] ∧ t.t0.armed = [] ∧ t.t1.free = u.freeBlocks
          ∧ t.t1.mem = u.t1.mem ∧ t.cel = u.cel ∧ t.fuses = u.fuses ∧ t.host.rings = u.host.rings
          ∧ (u.fab.formed = false → t.clk.lenUs = u.get (F.CALLER_BEAT_CFG_LEN_US.caller 14)))

/-- SEC_ARB_COMMIT and the PLDM commit, in UNCONFIGURED, set the fused count to the larger of itself and the running image's SVN
(at most 64) and show it in SEC_ARB.FUSED; in any other state out of OFF they do nothing. DEBUG_UNLOCK draws a new nonce
every time; a token that verifies, in UNCONFIGURED or NEGOTIATED with fewer than 8 failures and unlock not fused off, opens
its level, and measurement 4 is taken anew with the alias key; any other counts a failure. Nothing else changes. -/
def Obligations.AntiRollbackAndDebug : Prop :=
  ∀ (s : State) (cyc : Nat), let u := s.tick cyc
    let n := max u.fuses.arb (min u.boot.svn 64)
    let nonce := fun (w : State) => w.set F.SEC_DBG_NONCE_VALUE (Config.nonce (u.sec.draws + 1) % 2 ^ 128)
    (∀ c, c = .secArbCommit cyc ∨ c = .pldmRequest cyc .arbCommit →
        (u.dev = .unconfigured → exec c s = .next (State.set { u with fuses := { u.fuses with arb := n } } F.SEC_ARB_FUSED n))
          ∧ (u.dev ≠ .unconfigured → u.dev ≠ .off → exec c s = .next u))
      ∧ (u.dev ≠ .off → u.tokenOk = false ∨ u.fuses.dbgDis = true ∨ 8 ≤ u.get F.SEC_DBG_CTL_FAILS ∨ (u.dev ≠ .unconfigured ∧ u.dev ≠ .negotiated) →
          exec (.debugUnlock cyc) s = .next (nonce { u.count F.SEC_DBG_CTL_FAILS 1 with sec := { u.sec with draws := u.sec.draws + 1 } }))
      ∧ (u.tokenOk = true → u.fuses.dbgDis = false → u.get F.SEC_DBG_CTL_FAILS < 8 → u.dev = .unconfigured ∨ u.dev = .negotiated →
          let w := u.set F.SEC_DBG_CTL_LEVEL (leNat (bytesAt u.token 28 1))
          let m := u.sec.meas.set 3 (measure512 w.fuseBytes)
          ∃ cert, exec (.debugUnlock cyc) s = .next (nonce { w with
            sec := { u.sec with meas := m, aliasK := Config.aliasKey (m.take 4), aliasCert := cert, draws := u.sec.draws + 1 } }))

/-- On a VG4 module STARVE_FLAG_CLEAR clears the flags written as 1 of its die, or for 8 of every die; a flag set in the same
cycle, by a request that waits beyond STARVE_US, prevails, and where it was clear writes ARB_STARVE with the longest such
wait and tells the placement controller. VEC_STICKY_CLEAR clears the sticky bits written as 1 of its die, or for 4 of every
die, in the register and in every cluster; a bit set in the same cycle prevails in the register. A die that is absent, and
on VG2 the starvation flags, ignore the write. ERR_STATUS with bit DOUBLE written 0 clears DOUBLE and MAX; written 1 it is
ignored. ERR_LOG_HEAD takes a value at most 256 below ERR_LOG_TAIL and ignores any other. -/
def Obligations.ClearBits : Prop :=
  (∀ (s : State) (cyc : Nat) (v : Word32), let u := s.tick cyc
    u.dev ≠ .off → u.dev ≠ .boot →
    (∀ mu new, exec (.starveFlagClear cyc mu v new) s
        = .next (if mu = 8 then (upTo u.nMu).foldl (fun w k => w.clearStarve k v.toNat new) u
            else if mu < u.nMu then u.clearStarve mu v.toNat new else u))
      ∧ (∀ cd new, exec (.vecStickyClear cyc cd v new) s
        = .next (if cd = 4 then (upTo u.nCd).foldl (fun w k => w.clearSticky k v.toNat new) u
            else if cd < u.nCd then u.clearSticky cd v.toNat new else u))
      ∧ exec (.errStatusWrite cyc v) s = .next (if v.getLsbD 3 then u else (u.set F.ERR_STATUS_DOUBLE 0).set F.ERR_STATUS_MAX 0)
      ∧ exec (.errLogHeadWrite cyc v) s
          = .next (if (u.get F.ERR_LOG_TAIL_COUNT + (2 ^ 32 - v.toNat)) % 2 ^ 32 ≤ 256 then u.set F.ERR_LOG_HEAD_COUNT v.toNat else u))
    ∧ (∀ (u : State) (k v new : Nat),
    (u.vg4 = false → u.clearStarve k v new = u)
      ∧ (u.vg4 = true → let kept := Nat.land (u.get (F.MU_ARB_STARVE_FLAG.mu k)) (127 - v % 128)
        let up := ((upTo 7).filter fun r => bit new r && (u.starving k r).isSome).foldl (fun a r => a + 2 ^ r) 0
        let w := u.set (F.MU_ARB_STARVE_FLAG.mu k) (Nat.lor kept (up % 128))
        u.clearStarve k v new = ((upTo 7).filter fun r => bit (Nat.land (up % 128) (127 - kept)) r).foldl
          (fun t r => match u.starving k r with
            | some x => State.emit { t with t1 := { t.t1 with flagged := t.t1.flagged ++ [(k, r)] } } Ev.arbStarve (4 + k)
                (r + x.key % 24 * 8 + ((u.clk.base + u.clk.cyc - x.since) % 2 ^ 32) * 2 ^ 32)
            | none => t) w)
      ∧ (∀ r, let late := fun (x : ArbReq) => x ∈ u.t1.req ∧ x.key / 24 = k ∧ x.req = r ∧ u.get (F.MU_ARB_CFG_STARVE_US.mu k) * 1900 < u.clk.base + u.clk.cyc - x.since
          (u.starving k r = none ↔ ∀ x, ¬ late x) ∧ ∀ x, u.starving k r = some x → late x ∧ ∀ y, late y → x.since ≤ y.since)
      ∧ (tabWf u.t0.sticky = true → let t := u.clearSticky k v new
        t.regs = (u.set ⟨0x100040 + k * 0x10000, 0, 2⟩
              (Nat.lor (Nat.land (u.get ⟨0x100040 + k * 0x10000, 0, 2⟩) (3 - v % 4)) (new % 4))).regs
          ∧ (∀ c, c < 1024 → tGet t.t0.sticky (clKey k c) = Nat.land (tGet u.t0.sticky (clKey k c)) (3 - v % 4))
          ∧ (∀ j, (∀ c, c < 1024 → j ≠ clKey k c) → tGet t.t0.sticky j = tGet u.t0.sticky j)
          ∧ t = { u with regs := t.regs, t0 := { u.t0 with sticky := t.t0.sticky } }))

/-- Past BOOT, PLC_PLAN_CFG and PLC_MARGIN take a write whose every field is in range (a SET_PHRASE that still waits gives way
to the first), PLC_LR_MUL, MU_ARB_RANK (of one die, or for 8 of every die) and CEL_RING one whose expert feature is
accepted, CEL_CFG one in range before START; each field then holds what was written and no other register has changed. Any
other write of them changes no field and is refused with its status; CEL_CFG once locked and MU_ARB_RANK of an absent die
are ignored, and in BOOT all of them are. The refusal writes offset and status to HUB_REG_REFUSED, counts one (saturating)
and writes one REG_REFUSED event. -/
def Obligations.GuardedRegisters : Prop :=
  (∀ (s : State) (cyc : Nat) (v : Word32), let u := s.tick cyc
    let f := fun (lo w : Nat) => v.toNat / 2 ^ lo % 2 ^ w
    (u.dev = .boot → ∀ b mu, ∀ c ∈ [Instr.planCfgWrite cyc b v, .lrMulWrite cyc v, .arbRankWrite cyc mu v, .celRegWrite cyc b v], exec c s = .next u)
      ∧ (u.dev ≠ .off → u.dev ≠ .boot → tabWf u.regs = true →
    (1 ≤ f 0 13 ∧ f 0 13 ≤ 4096 ∧ f 16 7 ≤ 100 ∧ 1 ≤ f 24 4 ∧ f 24 4 ≤ 8 →
        ∃ t, exec (.planCfgWrite cyc false v) s = .next t
          ∧ t = { u with regs := t.regs, plan := { u.plan with req := { u.plan.req with phrase := none } } }
          ∧ t.get F.PLC_PLAN_CFG_PHRASE = f 0 13 ∧ t.get F.PLC_PLAN_CFG_HEADROOM = f 16 7 ∧ t.get F.PLC_PLAN_CFG_LEAD = f 24 4
          ∧ ∀ k, k ≠ 0x10000 → tGet t.regs k = tGet u.regs k)
      ∧ (¬ (1 ≤ f 0 13 ∧ f 0 13 ≤ 4096 ∧ f 16 7 ≤ 100 ∧ 1 ≤ f 24 4 ∧ f 24 4 ≤ 8) →
        exec (.planCfgWrite cyc false v) s = .next (u.refuseReg 0x10000 0x0C))
      ∧ (f 0 8 ≤ 100 ∧ 5 ≤ f 8 8 ∧ f 8 8 ≤ 200 ∧ f 16 8 ≤ 100 →
        ∃ t, exec (.planCfgWrite cyc true v) s = .next t ∧ t = { u with regs := t.regs }
          ∧ t.get F.PLC_MARGIN_CHAIN = f 0 8 ∧ t.get F.PLC_MARGIN_MAND = f 8 8 ∧ t.get F.PLC_MARGIN_PRO = f 16 8
          ∧ ∀ k, k ≠ 0x10004 → tGet t.regs k = tGet u.regs k)
      ∧ (¬ (f 0 8 ≤ 100 ∧ 5 ≤ f 8 8 ∧ f 8 8 ≤ 200 ∧ f 16 8 ≤ 100) →
        exec (.planCfgWrite cyc true v) s = .next (u.refuseReg 0x10004 0x0C))
      ∧ (u.feat 6 = true → ∃ t, exec (.lrMulWrite cyc v) s = .next t ∧ t = { u with regs := t.regs }
          ∧ t.get F.PLC_LR_MUL_VALUE = v.toNat ∧ ∀ k, k ≠ 0x1002C → tGet t.regs k = tGet u.regs k)
      ∧ (u.feat 6 = false → exec (.lrMulWrite cyc v) s = .next (u.refuseReg 0x1002C 0x01))
      ∧ (∀ mu, mu < u.nMu → u.feat 4 = true → ∃ t, exec (.arbRankWrite cyc mu v) s = .next t ∧ t = { u with regs := t.regs }
          ∧ t.get (F.MU_ARB_RANK_RANK.mu mu) = f 0 21 ∧ ∀ k, k ≠ 0x180004 + mu * 0x10000 → tGet t.regs k = tGet u.regs k)
      ∧ (u.feat 4 = true → ∃ t, exec (.arbRankWrite cyc 8 v) s = .next t ∧ t = { u with regs := t.regs }
          ∧ (∀ mu, mu < u.nMu → t.get (F.MU_ARB_RANK_RANK.mu mu) = f 0 21)
          ∧ ∀ k, (∀ mu, mu < u.nMu → k ≠ 0x180004 + mu * 0x10000) → tGet t.regs k = tGet u.regs k)
      ∧ (∀ mu, mu < u.nMu ∨ mu = 8 → u.feat 4 = false → exec (.arbRankWrite cyc mu v) s = .next (u.refuseReg (0x180004 + mu * 0x10000) 0x01))
      ∧ (∀ mu, u.nMu ≤ mu → mu ≠ 8 → exec (.arbRankWrite cyc mu v) s = .next u)
      ∧ (u.feat 9 = true → ∃ t, exec (.celRegWrite cyc true v) s = .next t ∧ t = { u with regs := t.regs }
          ∧ t.get F.CEL_RING_MIB = f 0 16 ∧ ∀ k, k ≠ 0x30004 → tGet t.regs k = tGet u.regs k)
      ∧ (u.feat 9 = false → exec (.celRegWrite cyc true v) s = .next (u.refuseReg 0x30004 0x01))
      ∧ (u.locked = true → exec (.celRegWrite cyc false v) s = .next u)
      ∧ (u.locked = false → 1 ≤ f 0 4 ∧ f 4 7 ≤ 75 ∧ 1 ≤ f 11 5 →
        ∃ t, exec (.celRegWrite cyc false v) s = .next t ∧ t = { u with regs := t.regs }
          ∧ t.get F.CEL_CFG_KEEP = f 0 4 ∧ t.get F.CEL_CFG_TWIN_SHARE = f 4 7 ∧ t.get F.CEL_CFG_YEARS = f 11 5
          ∧ ∀ k, k ≠ 0x30000 → tGet t.regs k = tGet u.regs k)
      ∧ (u.locked = false → ¬ (1 ≤ f 0 4 ∧ f 4 7 ≤ 75 ∧ 1 ≤ f 11 5) → exec (.celRegWrite cyc false v) s = .next (u.refuseReg 0x30000 0x0C))))
    ∧ (∀ (s : State) (off status : Nat), tabWf s.regs = true → (∀ k, tGet s.regs k < 2 ^ 32) → off < 2 ^ 26 → status < 2 ^ 16 →
    ∃ w : State, s.refuseReg off status = w.emit Ev.regRefused 14 (off + status * 2 ^ 32)
      ∧ w = { s with regs := w.regs }
      ∧ w.get F.HUB_REG_REFUSED_OFFSET = off ∧ w.get F.HUB_REG_REFUSED_STATUS = status
      ∧ w.get F.HUB_REG_REFUSED_COUNT = min (s.get F.HUB_REG_REFUSED_COUNT + 1) 65535
      ∧ (∀ k, k ≠ 0x118 → k ≠ 0x11C → tGet w.regs k = tGet s.regs k)
      ∧ tabWf w.regs = true)

/-- In a canonical register file of 32-bit words, after set, get gives the value modulo the field's width; every field that
shares no bit with it, in any other word or in the same one, reads as before; the register file stays canonical. -/
def Obligations.FieldsReadBack : Prop :=
  ∀ (s : State) (f g : Field) (v : Nat), tabWf s.regs = true → (∀ k, tGet s.regs k < 2 ^ 32) →
    (s.set f v).get f = v % 2 ^ f.w
      ∧ (g.off + 4 * g.words ≤ f.off ∨ f.off + 4 * f.words ≤ g.off → (s.set f v).get g = s.get g)
      ∧ (g.off = f.off → g.lo + g.w ≤ f.lo ∨ f.lo + f.w ≤ g.lo → (s.set f v).get g = s.get g)
      ∧ tabWf (s.set f v).regs = true ∧ (∀ k, tGet (s.set f v).regs k < 2 ^ 32)
      ∧ s.set f v = { s with regs := (s.set f v).regs }

/-- Out of OFF, REGISTER_WRITE acts when it is naturally aligned and of 4 bytes, or of 8 bytes as a write of the lower word and
then of the upper; any other, and a word that holds no register, changes nothing. Past BOOT, a write of HUB_IRQ_CFG, read-
write, replaces its field and changes no other word; of PLC_LSCALE, read-only, changes nothing; of HUB_POLL_CFG, writable
until START, replaces its field before START and is ignored once locked. HUB_START.GO requests START as START does, and an
offset in BOOT other than HUB_BOOT_IMG is ignored. -/
def Obligations.RegisterWrites : Prop :=
  ∀ (s : State) (cyc off size : Nat) (v : Word64), let u := s.tick cyc
    (u.dev ≠ .off → ¬ (size = 4 ∧ off % 4 = 0) → ¬ (size = 8 ∧ off % 8 = 0) → exec (.registerWrite cyc off size v) s = .next u)
      ∧ (u.dev ≠ .off → off % 4 = 0 → exec (.registerWrite cyc off 4 v) s = .next (u.writeWord off (v.toNat % 2 ^ 32)))
      ∧ (u.dev ≠ .off → off % 8 = 0 → exec (.registerWrite cyc off 8 v) s
          = .next ((u.writeWord off (v.toNat % 2 ^ 32)).writeWord (off + 4) (v.toNat / 2 ^ 32)))
      ∧ (barAddr off = none → u.writeWord off (v.toNat % 2 ^ 32) = u)
      ∧ (u.dev = .boot → ¬ (u.boot.waitHost = true ∧ off ∈ [0x20, 0x24, 0x28, 0x2C]) → u.writeWord off (v.toNat % 2 ^ 32) = u)
      ∧ (u.dev ≠ .off → exec (.registerWrite cyc 0x18 4 v) s = exec (.start cyc (v.getLsbD 0)) s)
      ∧ (u.dev ≠ .off → u.dev ≠ .boot → tabWf u.regs = true →
        (∃ t, exec (.registerWrite cyc 0x84 4 v) s = .next t ∧ t = { u with regs := t.regs }
            ∧ t.get F.HUB_IRQ_CFG_MOD_US = v.toNat % 256 ∧ ∀ k, k ≠ 0x84 → tGet t.regs k = tGet u.regs k)
          ∧ (u.locked = false → ∃ t, exec (.registerWrite cyc 0x88 4 v) s = .next t ∧ t = { u with regs := t.regs }
            ∧ t.get F.HUB_POLL_CFG_US = v.toNat % 1024 ∧ ∀ k, k ≠ 0x88 → tGet t.regs k = tGet u.regs k)
          ∧ (u.locked = true → ∃ t, exec (.registerWrite cyc 0x88 4 v) s = .next t ∧ t = { u with regs := t.regs }
            ∧ ∀ k, tGet t.regs k = tGet u.regs k)
          ∧ (∃ t, exec (.registerWrite cyc 0x10024 4 v) s = .next t ∧ t = { u with regs := t.regs } ∧ ∀ k, tGet t.regs k = tGet u.regs k))

/-- Completing a command of ring n writes the 16 bytes of its record at slot COMPLETED of the completion ring and no other byte
of host memory, counts COMPLETED modulo 2^32, and lets the record wait for GO with the vector if the command asked for one;
a status other than OK counts in HUB_CMD_REFUSED. Nothing else changes. -/
def Obligations.CompletionRecords : Prop :=
  ∀ (s : State) (n tag : Nat) (irq : Bool) (status result : Nat), n < 64 → s.host.rings.length = 64 → memWf s.host.mem = true →
    let t := s.complete n tag irq status result
    let a := s.get (F.HUB_CRING_n_CPL_ADDR.at 64 n) + 16 * ((s.ring n).completed % s.ringSize n)
    t.ring n = { s.ring n with completed := ((s.ring n).completed + 1) % 2 ^ 32 }
      ∧ (∀ m, m ≠ n → t.ring m = s.ring m)
      ∧ mRead t.host.mem a 16 = leBytes 16 (tag + status * 2 ^ 32 + n * 2 ^ 48 + (result % 2 ^ 64) * 2 ^ 64)
      ∧ (∀ b, b < a ∨ a + 16 ≤ b → mGet t.host.mem b = mGet s.host.mem b)
      ∧ (t.goLine n).recWait = true
      ∧ (irq = true → s.get (F.HUB_CRING_n_CFG_VEC.at 64 n) ∈ (t.goLine n).vecs)
      ∧ t.regs = (if status = 0 then s.regs else (s.count F.HUB_CMD_REFUSED_COUNT 1).regs)
      ∧ t = { s with regs := t.regs, host := { s.host with rings := t.host.rings, mem := t.host.mem, go := t.host.go } }

/-- Without an event ring there is none. A record of a beat not yet open in the ring is held. With room and none lost, its 32
bytes stand at slot TAIL of the ring and no other byte of host memory changes, TAIL counts, and the record waits for GO with
the vector if HUB_EVT_IRQ has its kind. A full ring discards it and counts the loss (saturating); the next record with room
for both follows one EVT_LOST record with that count, which clears it. EVENT_BEAT_CLOSE opens the ring to the open beat and
writes the held records of beats up to it in their order. -/
def Obligations.EventRecords : Prop :=
  (∀ (s : State) (kind die payload : Nat), memWf s.host.mem = true →
    let t := s.emit kind die payload
    let e : EvtRec := ⟨kind, die, s.seat, s.clk.beat, s.clk.cyc, payload⟩
    let slot := fun k => s.get F.HUB_EVQ_BASE_ADDR + 32 * (k % s.evqSize)
    let a := slot s.host.evTail
    (s.evqOn = false → t = s)
      ∧ (s.evqOn = true → s.host.evOpen < s.clk.beat → t = { s with host := { s.host with evHeld := s.host.evHeld ++ [e] } })
      ∧ (s.evqOn = true → s.clk.beat ≤ s.host.evOpen → t = s.writeEvent e)
      ∧ (s.evqOn = true → s.clk.beat ≤ s.host.evOpen → s.host.evLost = 0 → s.evqUsed < s.evqSize →
          mRead t.host.mem a 32 = leBytes 32 e.encode ∧ (∀ b, b < a ∨ a + 32 ≤ b → mGet t.host.mem b = mGet s.host.mem b)
            ∧ t.host.evTail = (s.host.evTail + 1) % 2 ^ 32 ∧ (t.goLine 64).recWait = true
            ∧ (bit (s.get F.HUB_EVT_IRQ_MASK) kind = true → s.get F.HUB_EVQ_CFG_VEC ∈ (t.goLine 64).vecs)
            ∧ (bit (s.get F.HUB_EVT_IRQ_MASK) kind = false → (t.goLine 64).vecs = (s.goLine 64).vecs)
            ∧ t = { s with host := { s.host with mem := t.host.mem, evTail := t.host.evTail, go := t.host.go } })
      ∧ (s.evqOn = true → s.clk.beat ≤ s.host.evOpen → s.host.evLost ≠ 0 → s.evqUsed + 1 < s.evqSize →
          mRead t.host.mem a 32 = leBytes 32 (EvtRec.encode ⟨0, 14, s.seat, s.clk.beat, s.clk.cyc, s.host.evLost⟩)
            ∧ mRead t.host.mem (slot (s.host.evTail + 1)) 32 = leBytes 32 e.encode
            ∧ t.host.evTail = (s.host.evTail + 2) % 2 ^ 32 ∧ t.host.evLost = 0)
      ∧ (s.evqOn = true → s.clk.beat ≤ s.host.evOpen → s.evqSize ≤ s.evqUsed →
          t = { s.count F.HUB_EVT_LOST_COUNT 1 with host := { s.host with evLost := min (s.host.evLost + 1) (2 ^ 32 - 1) } }))
    ∧ (∀ (s : State) (cyc : Nat), let u := s.tick cyc
    u.dev ≠ .off → ∃ t, exec (.eventBeatClose cyc) s = .next t
      ∧ t = (u.host.evHeld.filter fun e => decide (e.beat ≤ u.clk.beat)).foldl State.writeEvent { u with host := { u.host with
          evHeld := u.host.evHeld.filter (fun e => !decide (e.beat ≤ u.clk.beat)), evOpen := max u.clk.beat u.host.evOpen } }
      ∧ t.dev = u.dev ∧ t.clk = u.clk ∧ t.run = u.run ∧ t.t0 = u.t0 ∧ t.t1 = u.t1 ∧ t.plan = u.plan ∧ t.fab = u.fab)

/-- In RUNNING or DRAINING with the link up, HOST_LINE_WRITE reads its line when CXL_CACHE is accepted and HOST_LINE_POLL its
lines in turn when it is not; otherwise they change nothing. A doorbell of an enabled ring takes TAIL and CPL_HEAD when both
are within the ring; with a TAIL beyond the ring or a CPL_HEAD ahead of COMPLETED the ring stops, the fault counts and
RING_FAULT is written; a ring that has stopped or is not enabled is left alone. The consumer line takes both heads. -/
def Obligations.HostLines : Prop :=
  (∀ (s : State) (cyc : Nat), let u := s.tick cyc
    let up := (u.dev = .running ∨ u.dev = .draining) ∧ u.host.link = true
    (∀ line, (up → u.feat 32 = true → exec (.hostLineWrite cyc line) s = .next (u.takeLine line))
        ∧ (u.dev ≠ .off → ¬ up ∨ u.feat 32 = false → exec (.hostLineWrite cyc line) s = .next u))
      ∧ (∀ ls, (up → u.feat 32 = false → exec (.hostLinePoll cyc ls) s = .next (ls.foldl State.takeLine u))
        ∧ (u.dev ≠ .off → ¬ up ∨ u.feat 32 = true → exec (.hostLinePoll cyc ls) s = .next u)))
    ∧ (∀ (u : State) (n tail head e p : Nat),
    let r := u.ring n
    let good := (tail + (2 ^ 32 - r.fetched % 2 ^ 32)) % 2 ^ 32 ≤ 2 ^ u.get (F.HUB_CRING_n_CFG_LOG2.at 64 n)
      ∧ (r.completed + (2 ^ 32 - head % 2 ^ 32)) % 2 ^ 32 ≤ 2 ^ u.get (F.HUB_CRING_n_CFG_LOG2.at 64 n)
    (n < 64 → u.get (F.HUB_CRING_n_CFG_EN.at 64 n) = 1 → r.stopped = false →
        u.takeLine (.doorbell n tail head) = if good then u.setRing n { r with tail := tail % 2 ^ 32, cplHead := head % 2 ^ 32 }
          else ((u.setRing n { r with stopped := true }).count F.HUB_RING_FAULT_COUNT 1).emit Ev.ringFault 14 n)
      ∧ (64 ≤ n ∨ u.get (F.HUB_CRING_n_CFG_EN.at 64 n) ≠ 1 ∨ r.stopped = true → u.takeLine (.doorbell n tail head) = u)
      ∧ u.takeLine (.consumer e p) = { u with host := { u.host with evHead := e % 2 ^ 32, phHead := p % 2 ^ 32 } })

/-- With the link up in RUNNING or DRAINING, when ring n is the first from the round-robin pointer on that is enabled, not
stopped, has a descriptor and a free completion entry, its descriptor joins the fetched commands, FETCHED counts and the
first four bytes of its status line show it; for any other ring, with the link down, or in another state, nothing happens. -/
def Obligations.DescriptorFetches : Prop :=
  ∀ (s : State) (cyc n : Nat) (d : BitVec 512), let u := s.tick cyc
    let r := u.ring n
    let may := fun k => u.get (F.HUB_CRING_n_CFG_EN.at 64 k) = 1 ∧ (u.ring k).stopped = false
      ∧ ((u.ring k).tail + (2 ^ 32 - (u.ring k).fetched % 2 ^ 32)) % 2 ^ 32 ≠ 0
      ∧ ((u.ring k).fetched + (2 ^ 32 - (u.ring k).cplHead % 2 ^ 32)) % 2 ^ 32 < 2 ^ u.get (F.HUB_CRING_n_CFG_LOG2.at 64 k)
    let up := (u.dev = .running ∨ u.dev = .draining) ∧ u.host.link = true
    (∀ j, j < 64 → n = (u.host.rr + j) % 64 →
        (up → may n → (∀ i, i < j → ¬ may ((u.host.rr + i) % 64)) →
        ∃ t, exec (.descriptorFetch cyc n d) s = .next t
          ∧ t.host.rings = u.host.rings.set n { r with fetched := (r.fetched + 1) % 2 ^ 32, queue := r.queue ++ [⟨d⟩] }
          ∧ t.host.rr = (n + 1) % 64
          ∧ t.host.mem = mWrite u.host.mem (u.get (F.HUB_CRING_n_STAT_ADDR.at 64 n)) (leBytes 4 ((r.fetched + 1) % 2 ^ 32))
          ∧ t = { u with host := { u.host with rings := t.host.rings, rr := t.host.rr, mem := t.host.mem } })
        ∧ ((∃ i, i < j ∧ may ((u.host.rr + i) % 64)) → u.dev ≠ .off → exec (.descriptorFetch cyc n d) s = .next u))
      ∧ (u.dev ≠ .off → ¬ may n ∨ 64 ≤ n ∨ ¬ up → exec (.descriptorFetch cyc n d) s = .next u)

/-- For every command that is taken from a ring: in DRAINING, unless it is NOP, SYNC_READ or ING_POS_READ, it completes with
STATE, LOAD_GRAPH with GRAPH_BUSY; one that needs the resident graph completes with NO_GRAPH while there is none; one that
is not at the front of its ring, waits behind its FENCE or as a state command for another, or comes outside RUNNING and
DRAINING, changes nothing. -/
def Obligations.RingCommandsRefused : Prop :=
  ∀ (s : State) (cyc n : Nat) (d : BitVec 512) (image mask src : Bytes) (places : List Placement) (card : CardImage) (side : CardSide)
      (others : List (Nat × Nat)) (twin : List Snap) (org : Option Snap) (sd : BitVec 512), let u := s.tick cyc
    let all : List (Instr × Nat × Bool × Bool) :=
      [(.nop cyc n, 0x00, true, false), (.loadGraph cyc n image mask places org, 0x01, false, false), (.loadCard cyc n card side, 0x02, false, true),
       (.kill cyc n, 0x03, false, true), (.restore cyc n others twin, 0x04, false, false), (.ship cyc n, 0x05, false, true),
       (.stop cyc n, 0x06, false, false), (.setBeat cyc n, 0x10, false, false), (.setCap cyc n, 0x11, false, false),
       (.setPhrase cyc n, 0x12, false, false), (.replan cyc n, 0x13, false, false), (.syncSignal cyc n, 0x20, false, false),
       (.syncRead cyc n, 0x21, true, false), (.syncArm cyc n, 0x22, false, false), (.ingestStream cyc n sd, 0x30, false, true),
       (.ingestMb cyc n, 0x31, false, true), (.ingPosRead cyc n, 0x32, true, true), (.paramWrite cyc n src, 0x40, false, true),
       (.paramRead cyc n, 0x41, false, true)]
    ∀ x ∈ all,
      (u.dev = .draining → u.frontIs n x.2.1 d → x.2.2.1 = false →
            exec x.1 s = .next ((u.popCmd n).finish n d (if x.2.1 = 0x01 then 0x03 else 0x18) 0))
        ∧ (u.dev = .running ∨ (u.dev = .draining ∧ x.2.2.1 = true) → u.frontIs n x.2.1 d → x.2.2.2 = true → u.plan.graph = none →
            exec x.1 s = .next ((u.popCmd n).finish n d 0x17 0))
        ∧ (u.dev ≠ .off → (u.dev ≠ .running ∧ u.dev ≠ .draining) ∨ (∀ e, ¬ u.frontIs n x.2.1 e) → exec x.1 s = .next u)

/-- In RUNNING and DRAINING NOP completes with OK, an opcode that is none of Table 15.4 with BAD_OPCODE, SYNC_READ with the
value of its object. In RUNNING SYNC_SIGNAL of n from 1 completes and adds n to its object (up to all ones), and changes
nothing else where the sum is below 2^32 and no armed threshold is reached; of 0 it completes with BAD_ARG. SYNC_ARM arms
its object at the threshold, and one already reached fires after the completion. STOP ends the commands that need the graph
(each leaves its ring, counted as completed there), disarms every object, enters DRAINING and stays uncompleted. -/
def Obligations.HubCommands : Prop :=
  ∀ (s : State) (cyc n : Nat) (d : BitVec 512), let u := s.tick cyc
    let o := bits (dW d 1) 0 9
    let k := bits (dW d 1) 16 16
    let p := u.popCmd n
    (u.dev = .running ∨ u.dev = .draining →
      (u.frontIs n 0x00 d → exec (.nop cyc n) s = .next (p.finish n d 0 0))
      ∧ (∀ op, op ∉ [0, 1, 2, 3, 4, 5, 6, 0x10, 0x11, 0x12, 0x13, 0x20, 0x21, 0x22, 0x30, 0x31, 0x32, 0x40, 0x41] → u.frontIs n op d →
          exec (.badOpcode cyc n) s = .next (p.finish n d 0x1A 0))
      ∧ (u.frontIs n 0x21 d → exec (.syncRead cyc n) s = .next (p.finish n d 0 (tGet u.t0.hub o))))
      ∧ (u.dev = .running →
      (u.frontIs n 0x20 d → k = 0 → exec (.syncSignal cyc n) s = .next (p.finish n d 0x1B 0))
      ∧ (u.frontIs n 0x20 d → k ≠ 0 → tabWf u.t0.hub = true → ∃ t, exec (.syncSignal cyc n) s = .next t
          ∧ tGet t.t0.hub o = min (tGet u.t0.hub o + k) (2 ^ 32 - 1) ∧ (∀ x, x ≠ o → tGet t.t0.hub x = tGet u.t0.hub x)
          ∧ (t.ring n).completed = (p.finish n d 0 0 |>.ring n).completed
          ∧ (tGet u.t0.hub o + k < 2 ^ 32 → (∀ a ∈ u.t0.armed, a.1 = o → tGet u.t0.hub o + k < a.2) →
              t = { p.finish n d 0 0 with t0 := { u.t0 with hub := t.t0.hub } }))
      ∧ (u.frontIs n 0x22 d → tGet u.t0.hub o < bits (dW d 1) 32 32 →
          exec (.syncArm cyc n) s = .next { p.finish n d 0 0 with
            t0 := { u.t0 with armed := (u.t0.armed.filter fun a => a.1 != o) ++ [(o, bits (dW d 1) 32 32)] } })
      ∧ (u.frontIs n 0x22 d → bits (dW d 1) 32 32 ≤ tGet u.t0.hub o →
          exec (.syncArm cyc n) s = .next (State.emit { p.finish n d 0 0 with t0 := { u.t0 with armed := u.t0.armed.filter fun a => a.1 != o } }
            Ev.sync 14 (o + tGet u.t0.hub o * 2 ^ 32)))
      ∧ (u.frontIs n 0x06 d → u.host.rings.length = 64 → ∃ t, exec (.stop cyc n) s = .next t ∧ t.dev = .draining ∧ t.halt = 0
          ∧ (∀ m, m < 64 → let gone := fun (c : ActiveCmd) => decide (dOpcode c.desc ∈ [0x05, 0x10, 0x11, 0x12, 0x13, 0x30, 0x31, 0x40, 0x41])
              (t.ring m).active = ((u.ring m).active.filter fun c => !gone c) ++ (if m = n then [⟨d, 0⟩] else [])
              ∧ ((u.ring m).active.filter gone ≠ [] → (t.ring m).completed = ((u.ring m).completed + ((u.ring m).active.filter gone).length) % 2 ^ 32))
          ∧ t.t0.armed = [] ∧ t.t1.staged = [] ∧ t.t1.reading = []
          ∧ t.ing.streams = [] ∧ t.cel.ships = [] ∧ t.plan.graph = u.plan.graph ∧ t.t0.mem = u.t0.mem ∧ t.t1.mem = u.t1.mem ∧ t.t1.pair = u.t1.pair
          ∧ t.clk = u.clk ∧ t.fuses = u.fuses ∧ t.cel.snaps = u.cel.snaps))

/-- With cards the device builds: SET_BEAT of 20 to 20,000 µs, with a rind of at most a quarter of the beat and a window that
holds the marker flood, SET_CAP of 25 to 100 %, SET_PHRASE of 1 to 4,096 measures and REPLAN are kept for the next build and
wait uncompleted; while a build waits for the domain to form, that build takes them. Out of range they complete with
BEAT_RANGE or PLAN_RANGE; with host-built cards each completes with STATE. -/
def Obligations.PlanCommands : Prop :=
  ∀ (s : State) (cyc n : Nat) (d : BitVec 512), let u := s.tick cyc
    let p := u.popCmd n
    let len := bits (dW d 1) 0 15
    let rind := max (max 3800 (len * 38)) (bits (dW d 1) 16 15 * 1900)
    let okBeat := 20 ≤ len ∧ len ≤ 20000 ∧ rind * 4 ≤ len * 1900 ∧ (u.diameter * 210 + 200) * 19 ≤ (len * 1900 - rind) * 10
    let v := bits (dW d 1) 0 13
    let cap := bits (dW d 1) 0 7
    let keep := fun (q : PlanReq → PlanReq) =>
      if u.plan.building = true ∧ u.fab.formed = false then State.activate { p with plan := { p.plan with carried := q u.plan.carried } } n d 1
      else State.activate { p with plan := { p.plan with req := q u.plan.req } } n d 0
    u.dev = .running →
    (u.feat 0 = true → (u.frontIs n 0x10 d → exec (.setBeat cyc n) s = .next (p.finish n d 0x18 0))
        ∧ (u.frontIs n 0x11 d → exec (.setCap cyc n) s = .next (p.finish n d 0x18 0))
        ∧ (u.frontIs n 0x12 d → exec (.setPhrase cyc n) s = .next (p.finish n d 0x18 0))
        ∧ (u.frontIs n 0x13 d → exec (.replan cyc n) s = .next (p.finish n d 0x18 0)))
      ∧ (u.feat 0 = false →
        (u.frontIs n 0x10 d → (okBeat → exec (.setBeat cyc n) s = .next (keep fun q => { q with len := some (len, bits (dW d 1) 16 15) }))
            ∧ (¬ okBeat → exec (.setBeat cyc n) s = .next (p.finish n d 0x02 0)))
        ∧ (u.frontIs n 0x11 d → (25 ≤ cap ∧ cap ≤ 100 → exec (.setCap cyc n) s = .next (keep fun q => { q with cap := some cap }))
            ∧ (¬ (25 ≤ cap ∧ cap ≤ 100) → exec (.setCap cyc n) s = .next (p.finish n d 0x0C 0)))
        ∧ (u.frontIs n 0x12 d → (1 ≤ v ∧ v ≤ 4096 → exec (.setPhrase cyc n) s = .next (keep fun q => { q with phrase := some v }))
            ∧ (¬ (1 ≤ v ∧ v ≤ 4096) → exec (.setPhrase cyc n) s = .next (p.finish n d 0x0C 0)))
        ∧ (u.frontIs n 0x13 d → exec (.replan cyc n) s = .next (keep fun q => { q with force := true })))

/-- With the link up, GO on a line's records writes its status line, which waits for GO with the vectors its records ask for; GO
on the status line signals them; GO on a line with neither outstanding, or with the link down, does nothing. A vector is
signalled at once for vector 0 or with MOD_US 0; otherwise at once only outside its moderation interval, which it opens, and
within it is kept as a cause. An interval that ends with a cause sends one message and opens the next; without one it only
closes, and for a vector with no interval nothing happens. -/
def Obligations.GoAndVectors : Prop :=
  (∀ (s : State) (cyc l v : Nat), let u := s.tick cyc
    let g := u.goLine l
    u.dev ≠ .off →
    (u.host.link = true → g.statWait = true →
        exec (.goResponse cyc l) s = .next (g.covered.foldl State.signal (u.setGo { g with statWait := false, covered := [] })))
      ∧ (u.host.link = true → g.statWait = false → g.recWait = true → ∃ t, exec (.goResponse cyc l) s = .next t
          ∧ (t.goLine l).statWait = true ∧ (t.goLine l).recWait = false ∧ (t.goLine l).covered = g.vecs ∧ (t.goLine l).vecs = []
          ∧ (∀ m, m ≠ l → t.goLine m = u.goLine m)
          ∧ t.host.mem = (if l < 64 then
              mWrite u.host.mem (u.get (F.HUB_CRING_n_STAT_ADDR.at 64 l)) (leBytes 8 ((u.ring l).fetched + (u.ring l).completed * 2 ^ 32))
            else mWrite u.host.mem (u.get F.HUB_HLINE_OUT_ADDR)
              (leBytes 9 (u.host.evTail + u.host.phTail * 2 ^ 32 + (u.dev.code + u.halt * 8) * 2 ^ 64)))
          ∧ t = { u with host := { u.host with mem := t.host.mem, go := t.host.go } })
      ∧ (u.host.link = false ∨ (g.statWait = false ∧ g.recWait = false) → exec (.goResponse cyc l) s = .next u)
      ∧ (v ∉ u.host.irqHot → exec (.msixModerationExpiry cyc v) s = .next u)
      ∧ (v ∈ u.host.irqHot → v ∉ u.host.irqCause →
          exec (.msixModerationExpiry cyc v) s = .next { u with host := { u.host with irqHot := u.host.irqHot.filter (· != v) } })
      ∧ (v ∈ u.host.irqHot → v ∈ u.host.irqCause →
          exec (.msixModerationExpiry cyc v) s = .next { u with host := { u.host with
            irqHot := (u.host.irqHot.filter (· != v)) ++ (if v = 0 ∨ u.get F.HUB_IRQ_CFG_MOD_US = 0 then [] else [v])
            irqCause := u.host.irqCause.filter (· != v), irqSent := u.host.irqSent ++ [v] } }))
    ∧ (∀ (u : State) (v : Nat), u.signal v =
      (if v = 0 ∨ u.get F.HUB_IRQ_CFG_MOD_US = 0 then { u with host := { u.host with irqSent := u.host.irqSent ++ [v] } }
        else if v ∉ u.host.irqHot then { u with host := { u.host with irqSent := u.host.irqSent ++ [v], irqHot := u.host.irqHot ++ [v] } }
        else if v ∈ u.host.irqCause then u else { u with host := { u.host with irqCause := u.host.irqCause ++ [v] } }))

/-- In RUNNING: with a graph resident it completes with GRAPH_BUSY; a graph that fails a check completes with the first failing
status; one whose digest differs from the leader's with GRAPH_MISMATCH (the seat's own where it leads or is alone, else a
free value, log entry 44); otherwise the graph of the image is resident, its first phrase calibrates, a build begins unless
cards are host-built, its phrase length if it has one is in PLC_PLAN_CFG, every granule of its parameters has tag 0 in
location 0 and all ones in location 1, and the command waits; planning commands that wait for a build are carried by this
one. A graph with no UPDATE operation that names a shipped snapshot takes its codebooks from it; the ingest is as before. -/
def Obligations.GraphLoads : Prop :=
  ∀ (s : State) (cyc n : Nat) (d : BitVec 512) (image mask : Bytes) (places : List Placement) (src : Option Snap), let u := s.tick cyc
    let p := u.popCmd n
    let g := readGraph (image.take (dW d 2)) (mask.take (dW d 4)) places
    let l := p.leaderDigest g
    u.dev = .running → u.frontIs n 0x01 d →
    (u.plan.graph ≠ none → exec (.loadGraph cyc n image mask places src) s = .next (p.finish n d 0x03 0))
      ∧ (u.plan.graph = none → p.graphStatus g ≠ 0 →
          exec (.loadGraph cyc n image mask places src) s = .next (p.finish n d (p.graphStatus g) 0))
      ∧ (u.fab.leader = true ∨ u.alone = true → l = (g.digest, p)) ∧ l.2 = { p with free := l.2.free }
      ∧ (u.plan.graph = none → p.graphStatus g = 0 → l.1 ≠ g.digest →
          exec (.loadGraph cyc n image mask places src) s = .next (l.2.finish n d 0x1D 0))
      ∧ (u.plan.graph = none → p.graphStatus g = 0 → l.1 = g.digest → u.host.rings.length = 64 → tabWf u.t1.tag = true → tabWf u.regs = true →
          ∃ t, exec (.loadGraph cyc n image mask places src) s = .next t
            ∧ (∀ x, g.evalSource src = some x → t.plan.graph = some (g.takeBooks (readGraph x.graph x.maskImg x.places)))
            ∧ (g.evalSource src = none → t.plan.graph = some g ∧ t.t1.pair = u.t1.pair) ∧ t.plan.loading = true ∧ t.plan.calib = true ∧ t.plan.card = none ∧ t.plan.next = none
            ∧ t.plan.building = !u.feat 0 ∧ t.clk.pos = none ∧ t.clk.measure = u.clk.measure ∧ t.run.figs = [] ∧ t.cel.cutNo = 0
            ∧ (g.h 64 13 ≠ 0 → t.get F.PLC_PLAN_CFG_PHRASE = g.h 64 13)
            ∧ (∀ q ∈ t.places, ∀ k ∈ placeKeys q, t.tag k 0 = 0 ∧ t.tag k 1 = 0xFFFFFFFF)
            ∧ (t.ring n).active = (u.ring n).active.map carryCmd ++ [⟨d, 0⟩] ∧ (t.ring n).queue = (u.ring n).queue.tail
            ∧ t.dev = u.dev ∧ t.t0 = u.t0 ∧ t.ing = u.ing ∧ t.fab = u.fab ∧ t.cel.snaps = u.cel.snaps ∧ t.fuses = u.fuses)

/-- LOAD_CARD without the expert card feature, or with slot tables and without theirs, completes with EXPERT_DENIED; a card that
fails a check, or whose allocations fail, with PLAN_REJECT; otherwise the card is next and the command completes with its
generation. In a formed domain SEAT_READY stages the card a build made; a build that needs more than 65,535 beats or fails
an allocation writes PLAN_NOFIT and the current card stays; a card that no build makes, and one where none is in progress,
changes nothing. Staging leaves the running card alone, takes the allocations, and with no page to move the seat is READY. -/
def Obligations.CardLoads : Prop :=
  (∀ (s : State) (cyc n : Nat) (d : BitVec 512) (image : CardImage) (side : CardSide), let u := s.tick cyc
    let p := u.popCmd n
    u.dev = .running → u.frontIs n 0x02 d → u.plan.graph ≠ none →
    (u.feat 0 = false ∨ (side.slots ≠ [] ∧ u.feat 2 = false) → exec (.loadCard cyc n image side) s = .next (p.finish n d 0x01 0))
      ∧ (u.feat 0 = true → side.slots = [] ∨ u.feat 2 = true → p.checkCard side (image.take (dW d 2 / 16)) = none ∨ allocAll side.allocs u.t1.free = none →
          exec (.loadCard cyc n image side) s = .next (p.finish n d 0x0B 0))
      ∧ (∀ c free, u.feat 0 = true → side.slots = [] ∨ u.feat 2 = true → p.checkCard side (image.take (dW d 2 / 16)) = some c → allocAll side.allocs u.t1.free = some free →
          exec (.loadCard cyc n image side) s = .next ((p.stageCard c free).finish n d 0 c.gen)))
    ∧ (∀ (s : State) (cyc beats : Nat) (image : CardImage) (side : CardSide), let u := s.tick cyc
      let nofit := State.emit { u with plan := { u.plan with building := false } } Ev.planNofit 14 (beats % 2 ^ 32)
      let may := (u.dev = .running ∨ u.dev = .draining) ∧ u.plan.building = true ∧ u.feat 0 = false ∧ u.plan.graph ≠ none ∧ u.fab.formed = true
      (may → 65535 < beats ∨ allocAll side.allocs u.t1.free = none → exec (.seatReady cyc image side beats) s = .next nofit)
        ∧ (∀ c free, may → beats ≤ 65535 → allocAll side.allocs u.t1.free = some free → u.checkCard side image = some c → u.builtOk c beats = true →
            exec (.seatReady cyc image side beats) s = .next (u.stageCard c free))
        ∧ (may → beats ≤ 65535 → allocAll side.allocs u.t1.free ≠ none → (∀ c, u.checkCard side image = some c → u.builtOk c beats = false) →
            exec (.seatReady cyc image side beats) s = .next u)
        ∧ (¬ may → u.dev ≠ .off → exec (.seatReady cyc image side beats) s = .next u))
    ∧ (∀ (p : State) (c : Card) (free : List (Nat × Nat × Nat)), let w := p.stageCard c free
      w.plan.next = some c ∧ w.plan.card = p.plan.card ∧ w.plan.building = false ∧ w.t1.free = free ∧ w.t1.mem = p.t1.mem
        ∧ (c.side.moves = [] → w.plan.ready = true)
        ∧ w = { p with plan := w.plan, t1 := { p.t1 with free := free, refNext := w.t1.refNext }
                       host := { p.host with rings := p.host.rings.map fun r => { r with active := r.active.map builtCmd } } })

/-- KILL that asks to skip the scrub needs its expert feature; with HUB_KILL_CFG.SCRUB 0 it then completes at once; any other
KILL waits for the scrub. No graph, card, position, armed object or stream is left and hub objects are zero. SCRUB_DONE
leaves zero in every byte of the scratchpads, vector registers and pairs and of T1 below the host window, keeps the window,
completes the KILL, and sends error 0x0404 if a line read non-zero; with no KILL waiting it does nothing. -/
def Obligations.GraphsRemoved : Prop :=
  (∀ (s : State) (cyc n : Nat) (d : BitVec 512), let u := s.tick cyc
    let p := u.popCmd n
    let skip := dFlag d = true ∧ u.get F.HUB_KILL_CFG_SCRUB = 0
    u.dev = .running → u.frontIs n 0x03 d → u.plan.graph ≠ none →
    (dFlag d = true → u.feat 3 = false → exec (.kill cyc n) s = .next (p.finish n d 0x01 0))
      ∧ (skip → u.feat 3 = true → exec (.kill cyc n) s = .next (p.dropGraph.finish n d 0 0))
      ∧ (¬ skip → dFlag d = false ∨ u.feat 3 = true → exec (.kill cyc n) s = .next (p.dropGraph.activate n d 0)))
    ∧ (∀ p : State, let t := p.dropGraph
      t.plan.graph = none ∧ t.plan.card = none ∧ t.plan.next = none ∧ t.clk.pos = none ∧ t.run.figs = [] ∧ t.t0.hub = [] ∧ t.t0.armed = []
        ∧ t.ing.streams = [] ∧ t.t1.staged = [] ∧ t.t1.reading = [] ∧ t.cel.open_ = none
        ∧ t.t0.mem = p.t0.mem ∧ t.t1.mem = p.t1.mem ∧ t.t1.pair = p.t1.pair ∧ t.dev = p.dev ∧ t.cel.snaps = p.cel.snaps ∧ t.fuses = p.fuses)
    ∧ (∀ (s : State) (cyc : Nat) (bad : Option Source), let u := s.tick cyc
      let waits := (u.dev = .running ∨ u.dev = .draining) ∧ ∃ r ∈ u.host.rings, ∃ c ∈ r.active, dOpcode c.desc = 3
      (¬ waits → u.dev ≠ .off → exec (.scrubDone cyc bad) s = .next u)
        ∧ (waits → u.host.rings.length = 64 → ∃ t, exec (.scrubDone cyc bad) s = .next t
        ∧ t.t0.mem = [] ∧ t.t0.vreg = [] ∧ t.t0.sync = [] ∧ t.t1.pair = [] ∧ t.t0.hub = u.t0.hub
        ∧ (∀ a, a % 2 ^ 38 < u.winBase → mGet t.t1.mem a = 0#8) ∧ (∀ a, u.winBase ≤ a % 2 ^ 38 → mGet t.t1.mem a = mGet u.t1.mem a)
        ∧ t.t1.free = u.freeBlocks ∧ (∀ r ∈ t.host.rings, ∀ c ∈ r.active, dOpcode c.desc ≠ 3) ∧ t.dev = u.dev ∧ t.plan.graph = u.plan.graph
        ∧ (bad = none → t.err = u.err)
        ∧ (∀ src, bad = some src → ∃ fig, t.err = { u.err with inFlight := u.err.inFlight ++ [⟨0x0404, src, u.clk.beat, u.clk.cyc, fig, 0⟩] })))

/-- With a graph resident RESTORE completes with GRAPH_BUSY and before the domain is formed with STATE; a failed check of Table
14.4 completes with its status, a frame of this seat that fails counting once; otherwise the graph, step counter, combine
sets and measure of the snapshot stand, the scratchpads hold zeros, every pair has its current location tagged one below the
counter and its spare all ones, and the command waits for RESTORE_DONE, which re-encodes the working copies and completes
it; with no RESTORE waiting RESTORE_DONE does nothing. -/
def Obligations.Restores : Prop :=
  (∀ (s : State) (cyc n : Nat) (d : BitVec 512) (others : List (Nat × Nat)) (twin : List Snap), let u := s.tick cyc
    let p := u.popCmd n
    let m := bits (dW d 1) 0 48
    let x := p.sourceSnap (dFlag d) twin m
    let st := p.restoreStatus m others x
    u.dev = .running → u.frontIs n 0x04 d →
    (u.plan.graph ≠ none → exec (.restore cyc n others twin) s = .next (p.finish n d 0x03 0))
      ∧ (u.plan.graph = none → u.fab.formed = false → exec (.restore cyc n others twin) s = .next (p.finish n d 0x18 0))
      ∧ (u.plan.graph = none → u.fab.formed = true → st ≠ 0 →
          exec (.restore cyc n others twin) s = .next ((if p.restoreCheck x = 0x12 ∧ st ≠ 0x10 then p.count F.CEL_FRAME_ERR_COUNT 1 else p).finish n d st 0))
      ∧ (∀ y, u.plan.graph = none → u.fab.formed = true → st = 0 → x = some y →
          exec (.restore cyc n others twin) s = .next ((p.restoreFrom y (!dFlag d)).activate n d m))
      ∧ (st = 0 → ∃ y, x = some y))
    ∧ (∀ (p : State) (y : Snap) (own : Bool), 1 ≤ y.step → y.step < 2 ^ 32 → let t := p.restoreFrom y own
      t.plan.graph = some (readGraph y.graph y.maskImg y.places) ∧ t.step_ = y.step ∧ t.fab.sets = y.sets ∧ t.clk.measure = y.measure + 1
        ∧ t.cel.lastCut = some y.measure ∧ t.t0.mem = [] ∧ t.cel.open_ = none ∧ t.ing.nextMeas = y.measure + 1
        ∧ (∀ q ∈ t.places, ∀ k ∈ placeKeys q, t.tag k 0 = y.step - 1 ∧ t.current k = some 0)
        ∧ (∀ q ∈ t.places, ∀ k ∈ placeKeys q, t.tag k 1 = 0xFFFFFFFF) ∧ t.cel.snaps = p.cel.snaps ∧ t.dev = p.dev)
    ∧ (∀ (s : State) (cyc : Nat), let u := s.tick cyc
      let waits := (u.dev = .running ∨ u.dev = .draining) ∧ ∃ r ∈ u.host.rings, ∃ c ∈ r.active, dOpcode c.desc = 4
      (¬ waits → u.dev ≠ .off → exec (.restoreDone cyc) s = .next u)
        ∧ (waits → u.host.rings.length = 64 → ∃ t, exec (.restoreDone cyc) s = .next t ∧ (∀ r ∈ t.host.rings, ∀ c ∈ r.active, dOpcode c.desc ≠ 4)
        ∧ t.t1 = u.reencodeAll.t1
        ∧ t.plan = u.plan ∧ t.dev = u.dev ∧ t.t0 = u.t0 ∧ t.t1.tag = u.t1.tag ∧ t.fab = u.fab ∧ t.clk = u.clk))

/-- SHIP with its flag waits for the next cut; naming a measure of which this seat holds a complete own snapshot it ships that;
naming any other it completes with BAD_ARG. SHIP_DONE forgets the shipment and no SHIP of it waits any more; for a measure
that is not being shipped it does nothing. MIRROR_DONE ends the oldest mirror, and its reader of the open cut if it is of
that measure; with no mirror it does nothing. -/
def Obligations.Shipments : Prop :=
  (∀ (s : State) (cyc n : Nat) (d : BitVec 512), let u := s.tick cyc
    let p := u.popCmd n
    let m := bits (dW d 1) 0 48
    let own := ∃ x ∈ u.cel.snaps, x.role = 0 ∧ x.complete = true ∧ x.measure = m
    u.dev = .running → u.frontIs n 0x05 d → u.plan.graph ≠ none →
    (dFlag d = true → exec (.ship cyc n) s
        = .next (State.activate { p with cel := { p.cel with ships := p.cel.ships ++ [(n, dTag d, 2 ^ 48)] } } n d (2 ^ 48)))
      ∧ (dFlag d = false → own → exec (.ship cyc n) s = .next (State.activate { p with cel := { p.cel with
          ships := p.cel.ships ++ [(n, dTag d, m)], shipping := p.cel.shipping ++ [m] } } n d m))
      ∧ (dFlag d = false → ¬ own → exec (.ship cyc n) s = .next (p.finish n d 0x1B 0)))
    ∧ (∀ (s : State) (cyc m : Nat), let u := s.tick cyc
      let may := (u.dev = .running ∨ u.dev = .draining) ∧ m ∈ u.cel.shipping
      (may → u.host.rings.length = 64 → ∃ t, exec (.shipDone cyc m) s = .next t
          ∧ m ∉ t.cel.shipping ∧ (∀ x ∈ t.cel.ships, x.2.2 ≠ m) ∧ (∀ x ∈ u.cel.ships, x.2.2 ≠ m → x ∈ t.cel.ships)
          ∧ (∀ r ∈ t.host.rings, ∀ c ∈ r.active, dOpcode c.desc = 5 → ∀ x ∈ u.cel.ships, x.2.2 = m → x.2.1 ≠ dTag c.desc)
          ∧ t.dev = u.dev ∧ t.cel.snaps = u.cel.snaps ∧ t.t0 = u.t0 ∧ t.t1 = u.t1)
        ∧ (¬ may → u.dev ≠ .off → exec (.shipDone cyc m) s = .next u))
    ∧ (∀ (s : State) (cyc : Nat), let u := s.tick cyc
      u.dev ≠ .off → (u.cel.mirrors = [] → exec (.mirrorDone cyc) s = .next u)
        ∧ (∀ m rest, u.cel.mirrors = m :: rest → let w : State := { u with cel := { u.cel with mirrors := rest } }
          ((∀ c, u.cel.open_ = some c → c.measure ≠ m) → exec (.mirrorDone cyc) s = .next w)
            ∧ (∀ c, u.cel.open_ = some c → c.measure = m → exec (.mirrorDone cyc) s = .next (State.set { w with cel := { w.cel with
                open_ := some (Cut.trim { c with readers := c.readers.filter fun r => r.kind != 1 }) } } F.CEL_STATUS_MIRROR_UP 0))))

/-- In DRAINING, with beats of no measure or none begun and no open cut, DRAIN_TO_HALT enters HALTED with cause 1, stops the
Callers, takes every port down, completes the STOP, and scrubs the scratchpads, the pairs and T1 below the host window if
HUB_KILL_CFG.SCRUB is 1; otherwise it does nothing. -/
def Obligations.DrainingEnds : Prop :=
  ∀ (s : State) (cyc : Nat), let u := s.tick cyc
    let may := u.dev = .draining ∧ (u.run.tailOnly = true ∨ u.clk.pos = none) ∧ u.cel.open_ = none
    let scrub := u.get F.HUB_KILL_CFG_SCRUB = 1
    (may → u.host.rings.length = 64 → ∃ t, exec (.drainToHalt cyc) s = .next t
        ∧ t.dev = .halted ∧ t.halt = 1 ∧ t.run.stopped = true ∧ (∀ p ∈ t.fab.ports, p.up = false)
        ∧ (∀ r ∈ t.host.rings, ∀ c ∈ r.active, dOpcode c.desc ≠ 6)
        ∧ t.t0.mem = (if scrub then [] else u.t0.mem) ∧ t.t1.pair = (if scrub then [] else u.t1.pair)
        ∧ (∀ a, mGet t.t1.mem a = if scrub ∧ a % 2 ^ 38 < u.winBase then 0#8 else mGet u.t1.mem a)
        ∧ t.fuses = u.fuses ∧ t.cel.snaps = u.cel.snaps ∧ t.clk = u.clk)
      ∧ (¬ may → u.dev ≠ .off → exec (.drainToHalt cyc) s = .next u)

/-- An access out of bounds completes with BAD_ARG. PARAM_WRITE of a value that is not finite completes with DATA_NONFINITE; any
other is staged for the next measure boundary and changes no memory. PARAM_READ with nothing to read completes at once; any
other keeps the pieces of 1 KiB it reaches, of each granule the four quarters of the location current at its start (a
granule without one is the fault of a lost pair), for a frozen parameter the blocks of its working copy, and waits. -/
def Obligations.ParameterAccess : Prop :=
  ∀ (s : State) (cyc n : Nat) (d : BitVec 512) (src : Bytes), let u := s.tick cyc
    let p := u.popCmd n
    u.dev = .running → u.plan.graph ≠ none →
    (u.frontIs n 0x40 d → p.paramAccess d = none → exec (.paramWrite cyc n src) s = .next (p.finish n d 0x1B 0))
      ∧ (u.frontIs n 0x41 d → p.paramAccess d = none → exec (.paramRead cyc n) s = .next (p.finish n d 0x1B 0))
      ∧ (∀ t q, u.frontIs n 0x40 d → p.paramAccess d = some (t, q) →
        (srcFinite t (dFlag d) (dW d 3) src = false → exec (.paramWrite cyc n src) s = .next (p.finish n d 0x0D 0))
          ∧ (srcFinite t (dFlag d) (dW d 3) src = true → exec (.paramWrite cyc n src) s = .next (State.activate { p with t1 := { p.t1 with
              staged := p.t1.staged ++ [⟨n, dTag d, bits (dW d 1) 0 18, dFlag d, dW d 2, dW d 3, src⟩] } } n d 0)))
      ∧ (∀ t q, u.frontIs n 0x41 d → p.paramAccess d = some (t, q) →
        let h := bits (dW d 1) 0 18
        let keys := if dFlag d then (upTo q.scaleCount).filterMap fun k =>
            if decide (dW d 2 < (k + 1) * 1024) && decide (k * 1024 < dW d 2 + dW d 3) then some (granKey q.mu (q.scaleGran + k)) else none
          else ((upTo (granCount t)).filter (reached (layoutOf (u.kOuter h) t q) ⟨n, dTag d, h, dFlag d, dW d 2, dW d 3, []⟩)).map fun gi => granKey q.mu (q.gran + gi)
        let left := if tFrozen t then p.frozenPieces q t (dW d 2) (dW d 3) else keys.flatMap fun k => (upTo 4).map fun x => (k, 4 * (u.current k).getD 0 + x)
        let e := if tFrozen t = false ∧ ∃ x ∈ left, u.current x.1 = none then p.pairLost q.mu none else p
        (dW d 3 = 0 ∨ left = [] → exec (.paramRead cyc n) s = .next (p.finish n d 0 0))
          ∧ (dW d 3 ≠ 0 → left ≠ [] → exec (.paramRead cyc n) s = .next (State.activate { e with t1 := { e.t1 with
              reading := e.t1.reading ++ [⟨n, dTag d, h, dFlag d, dW d 2, dW d 3, dW d 4, left⟩] } } n d 0)))

/-- The front command of a ring whose read failed completes with HOST_ERR and nothing else; a read of a stream ends that stream,
with the clip under cutting if it was the one being filled from, and its command completes with HOST_ERR; a read of no such
command changes nothing. On a running T2 figure it is a class D error at HD that charges and poisons the figure; on a figure
that does not run nothing. -/
def Obligations.HostReadErrors : Prop :=
  ∀ (s : State) (cyc n tag fid : Nat) (d : BitVec 512), let u := s.tick cyc
    let mine := fun (x : Stream) => x.ring == n && x.tag == tag
    let front := fun e => u.frontIs n 0x01 e ∨ u.frontIs n 0x02 e ∨ u.frontIs n 0x30 e ∨ u.frontIs n 0x40 e
    (u.dev = .running → front d → dTag d = tag → u.ing.streams.find? mine = none →
        exec (.hostReadError cyc (.command n tag)) s = .next ((u.popCmd n).finish n d 0x1C 0))
      ∧ (u.dev ≠ .off → u.ing.streams.find? mine = none → u.dev ≠ .running ∨ (∀ e, front e → dTag e ≠ tag) →
        exec (.hostReadError cyc (.command n tag)) s = .next u)
      ∧ (∀ x, u.dev = .running ∨ u.dev = .draining → u.ing.streams.find? mine = some x →
        let head := u.ing.streams.head? = some x
        exec (.hostReadError cyc (.command n tag)) s = .next (State.finishTag { u with ing := { u.ing with
          streams := u.ing.streams.erase x
          clip := if head then none else u.ing.clip
          demux := if head then Demux.reset else u.ing.demux } } n 0x30 tag 0x1C 0))
      ∧ (u.dev = .running ∨ u.dev = .draining → (u.stat fid).phase = .running →
        exec (.hostReadError cyc (.t2Figure fid)) s = .next (State.poisonFid { u with err := { u.err with
          inFlight := u.err.inFlight ++ [⟨0x0203, ⟨14, 6, 0⟩, u.clk.beat, u.clk.cyc, fid, 0⟩] } } fid))
      ∧ (u.dev ≠ .off → (u.dev ≠ .running ∧ u.dev ≠ .draining) ∨ (u.stat fid).phase ≠ .running →
        exec (.hostReadError cyc (.t2Figure fid)) s = .next u)

/-- INGEST_STREAM out of sequence, or beyond 4,096 streams, completes with ING_SEQ; with a reserved encoding, with ING_FORMAT;
otherwise the stream joins the streams and its command waits. INGEST_MB without its feature completes with EXPERT_DENIED,
without host packing with STATE, with an address that is not 4 KiB aligned or not inside the window with BAD_ARG; otherwise
it waits. ING_POS_READ, in DRAINING too, writes the 128 bytes of the position record and its result is the record's measure. -/
def Obligations.IngestCommands : Prop :=
  ∀ (s : State) (cyc n : Nat) (d sd : BitVec 512), let u := s.tick cyc
    let p := u.popCmd n
    u.plan.graph ≠ none →
    (u.dev = .running →
    (u.frontIs n 0x30 d → sdFld sd 0 32 ≠ u.ing.nStream ∨ 4096 ≤ u.ing.streams.length →
        exec (.ingestStream cyc n sd) s = .next (p.finish n d 0x0E 0))
      ∧ (u.frontIs n 0x30 d → sdFld sd 0 32 = u.ing.nStream → u.ing.streams.length < 4096 → sdReserved sd = true →
        exec (.ingestStream cyc n sd) s = .next (p.finish n d 0x0F 0))
      ∧ (u.frontIs n 0x30 d → sdFld sd 0 32 = u.ing.nStream → u.ing.streams.length < 4096 → sdReserved sd = false →
        exec (.ingestStream cyc n sd) s = .next (State.activate { p with ing := { p.ing with
          nStream := p.ing.nStream + 1
          streams := p.ing.streams ++ [⟨p.ing.nStream, sd, n, dTag d, if p.ing.nStream = p.ing.from_.1 then p.ing.psiFrom else 0⟩] } } n d p.ing.nStream))
      ∧ (u.frontIs n 0x31 d → u.feat 7 = false → exec (.ingestMb cyc n) s = .next (p.finish n d 0x01 0))
      ∧ (u.frontIs n 0x31 d → u.feat 7 = true → u.hostPack = false → exec (.ingestMb cyc n) s = .next (p.finish n d 0x18 0))
      ∧ (u.frontIs n 0x31 d → u.hostPack = true → u.feat 7 = true → dW d 1 % 4096 ≠ 0 ∨ u.get F.HUB_WIN_CFG_SIZE_MIB * 2 ^ 20 ≤ dW d 1 →
        exec (.ingestMb cyc n) s = .next (p.finish n d 0x1B 0))
      ∧ (u.frontIs n 0x31 d → u.hostPack = true → u.feat 7 = true → dW d 1 % 4096 = 0 → dW d 1 < u.get F.HUB_WIN_CFG_SIZE_MIB * 2 ^ 20 →
        exec (.ingestMb cyc n) s = .next (State.activate { p with ing := { p.ing with
          hostMb := p.ing.hostMb ++ [(n, dTag d, dW d 1, bits (dW d 2) 0 32)] } } n d 0)))
      ∧ (u.dev = .running ∨ u.dev = .draining → u.frontIs n 0x32 d → let m := bits u.ing.posMeas.toNat 768 48
        exec (.ingPosRead cyc n) s = .next (State.finish { p with host := { p.host with
          mem := mWrite p.host.mem (dW d 1) (leBytes 128 (p.dataPos m).toNat) } } n d 0 m))

/-- With the link up in RUNNING or DRAINING an access of a line inside the window waits for a grant of HOST; a line past the
window changes nothing. Outside those states a read answers poison, a write is discarded, and each counts; so do accesses
still waiting when the device HALTs. With the link down nothing happens. A grant of HOST on a channel serves up to 16
accesses that lie on it, the oldest first: a read answers the 64 bytes, with poison if the line is poisoned; a write
replaces the 64 bytes, ends the line's poison and cancels a writeback that waits for it, and while no page moves changes no
other byte. A read after a write of the same line gives what was written, clean. -/
def Obligations.WindowAccess : Prop :=
  (∀ (s : State) (cyc line : Nat) (w : Bool) (data : BitVec 512), let u := s.tick cyc
    let run := u.dev = .running ∨ u.dev = .draining
    u.dev ≠ .off → (u.host.link = false → exec (.cxlMemAccess cyc w line data) s = .next u)
      ∧ (u.host.link = true → ¬ run → exec (.cxlMemAccess cyc w line data) s = .next { u.count F.HUB_WIN_EARLY_COUNT 1 with
          host := { u.host with memRsp := if w then u.host.memRsp else u.host.memRsp ++ [(line, 0, true)] } })
      ∧ (u.host.link = true → run → u.get F.HUB_WIN_CFG_SIZE_MIB * 2 ^ 14 ≤ line → exec (.cxlMemAccess cyc w line data) s = .next u)
      ∧ (u.host.link = true → run → line < u.get F.HUB_WIN_CFG_SIZE_MIB * 2 ^ 14 →
          exec (.cxlMemAccess cyc w line data) s = .next { u with t1 := { u.t1 with cxl := u.t1.cxl ++ [⟨w, line, data⟩] } }))
    ∧ (∀ (u : State) (cause : Nat), tabWf u.regs = true → (∀ k, tGet u.regs k < 2 ^ 32) → let t := u.halted cause
      t.t1 = { u.t1 with cxl := [] }
        ∧ t.host.memRsp = u.host.memRsp ++ (u.t1.cxl.filter fun x => !x.write).map (fun x => (x.line, 0, true))
        ∧ t.get F.HUB_WIN_EARLY_COUNT = min (u.get F.HUB_WIN_EARLY_COUNT + u.t1.cxl.length) (2 ^ 32 - 1))
    ∧ (∀ (u : State) (mu ch : Nat),
      let on := fun (x : CxlReq) => (u.winAddr x.line).1 == mu && (u.winAddr x.line).2 / 1024 % 24 == ch
      let mine := (u.t1.cxl.filter on).take 16
      mine ≠ [] → u.serve mu ch 0 = mine.foldl State.serveWin { u with t1 := { u.t1 with cxl := mine.foldl List.erase u.t1.cxl } })
    ∧ (∀ (u : State) (line : Nat) (data : BitVec 512), line < u.get F.HUB_WIN_CFG_SIZE_MIB * 2 ^ 14 →
      u.get F.HUB_WIN_CFG_SIZE_MIB * 2 ^ 20 / u.nMu ≤ 186 * 2 ^ 30 →
      let g := line / 64
      let die := g % u.nMu
      let off := 186 * 2 ^ 30 - u.get F.HUB_WIN_CFG_SIZE_MIB * 2 ^ 20 / u.nMu + g / u.nMu * 4096 + line % 64 * 64
      u.serveWin ⟨false, line, data⟩ = { u with host := { u.host with memRsp := u.host.memRsp
          ++ [(line, BitVec.ofNat 512 (leNat (mRead u.t1.mem (t1Addr die off) 64)), u.t1.poison.contains (t1Line die (off / 64)))] } }
        ∧ (u.plan.migr = [] → memWf u.t1.mem = true → let t := u.serveWin ⟨true, line, data⟩
          mRead t.t1.mem (t1Addr die off) 64 = leBytes 64 data.toNat
            ∧ (∀ a, a < t1Addr die off ∨ t1Addr die off + 64 ≤ a → mGet t.t1.mem a = mGet u.t1.mem a)
            ∧ t.t1.poison = u.t1.poison.filter (· != t1Line die (off / 64))
            ∧ t.t1.wb = u.t1.wb.filter (· != t1Line die (off / 64))
            ∧ t = { u with t1 := { u.t1 with mem := t.t1.mem, poison := t.t1.poison, wb := t.t1.wb } }
            ∧ (t.serveWin ⟨false, line, 0⟩).host.memRsp = u.host.memRsp ++ [(line, data, false)]))

/-- SPDM answers GET_VERSION always and starts the order again with no session; GET_CAPABILITIES, NEGOTIATE_ALGORITHMS and the
rest need those before them, and out of that order are answered with an error. A measurement index 1 to 7 answers its value,
any other an error; key exchanges open sessions and END_SESSION ends one; CHALLENGE needs the alias certificate, which a
debug level that is open denies; a request of no supported kind is an error. In recovery only version and capabilities are
answered, and nothing of PLDM but firmware updates. PLDM answers discovery, sensors, the state sensor with HUB_STATE and the
wear sensor with the bytes written. A firmware transfer invalidates the inactive slot, appends, marks the written slot valid
at its end, where BOOT in recovery tries the slots again, and activation names that slot; the other slot is untouched, and a
part with no transfer of its own open changes nothing. -/
def Obligations.Management : Prop :=
  (∀ (s : State) (cyc : Nat) (req : SpdmReq), let u := s.tick cyc
    let recovery := u.boot.recovery = true ∧ u.dev = .boot
    let say := fun (t : State) (v : Nat) => ({ t with sec := { t.sec with replies := t.sec.replies ++ [v] } } : State)
    u.dev ≠ .off →
    (∃ v, exec (.spdmRequest cyc .getVersion) s = .next (say { u with sec := { u.sec with sessions := 0, spdmStage := 1 } } v))
      ∧ (recovery → req ≠ .getVersion → req ≠ .getCapabilities → exec (.spdmRequest cyc req) s = .next u)
      ∧ (1 ≤ u.sec.spdmStage → ∃ v, exec (.spdmRequest cyc .getCapabilities) s = .next (say { u with sec := { u.sec with spdmStage := max 2 u.sec.spdmStage } } v))
      ∧ (u.sec.spdmStage < 1 → exec (.spdmRequest cyc .getCapabilities) s = .next (say u 0x7F))
      ∧ (¬ recovery →
        (2 ≤ u.sec.spdmStage → ∃ v, exec (.spdmRequest cyc .negotiateAlgorithms) s = .next (say { u with sec := { u.sec with spdmStage := max 3 u.sec.spdmStage } } v))
        ∧ (u.sec.spdmStage < 2 → exec (.spdmRequest cyc .negotiateAlgorithms) s = .next (say u 0x7F))
        ∧ (u.sec.spdmStage < 3 → req ≠ .getVersion → req ≠ .getCapabilities → req ≠ .negotiateAlgorithms → exec (.spdmRequest cyc req) s = .next (say u 0x7F))
        ∧ (3 ≤ u.sec.spdmStage →
          (∀ i, exec (.spdmRequest cyc (.getMeasurements i)) s = .next (say u (if 1 ≤ i ∧ i ≤ 7 then u.sec.meas.getD (i - 1) 0 else 0x7F)))
          ∧ (∃ v, exec (.spdmRequest cyc .keyExchange) s = .next (say { u with sec := { u.sec with sessions := u.sec.sessions + 1 } } v))
          ∧ (∃ v, exec (.spdmRequest cyc .endSession) s = .next (say { u with sec := { u.sec with sessions := u.sec.sessions - 1 } } v))
          ∧ (u.sec.aliasCert = false → exec (.spdmRequest cyc .challenge) s = .next (say u 0x7F))
          ∧ (∀ c, exec (.spdmRequest cyc (.other c)) s = .next (say u 0x7F))
          ∧ (req ∈ [.getDigests, .getCertificate, .finish, .keyUpdate, .heartbeat] ∨ (req = .challenge ∧ u.sec.aliasCert = true) →
              ∃ v, exec (.spdmRequest cyc req) s = .next (say u v)))))
    ∧ (∀ (s : State) (cyc : Nat) (b : Bytes), let u := s.tick cyc
    let recovery := u.boot.recovery = true ∧ u.dev = .boot
    let say := fun (t : State) (v : Nat) => ({ t with sec := { t.sec with replies := t.sec.replies ++ [v] } } : State)
    let k := u.get F.HUB_BOOT_CFG_ACTIVE
    u.dev ≠ .off →
    (recovery → ∀ r, exec (.pldmRequest cyc r) s = .next u)
      ∧ (¬ recovery → exec (.pldmRequest cyc .stateSensor) s = .next (say u u.hubState)
          ∧ exec (.pldmRequest cyc (.numericSensor 8)) s = .next (say u u.cel.wear)
          ∧ (∃ v, exec (.pldmRequest cyc .discovery) s = .next (say u v)) ∧ ∀ id, ∃ v, exec (.pldmRequest cyc (.numericSensor id)) s = .next (say u v))
      ∧ exec (.pldmFirmwareUpdate cyc .start) s = .next { u with
          flash := if k = 1 then { u.flash with a := { u.flash.a with valid := false } } else { u.flash with b := { u.flash.b with valid := false } }
          sec := { u.sec with fw := some ⟨1 - k, [], false⟩ } }
      ∧ (∀ x, u.sec.fw = some x → x.done = false →
        let w : State := { u with
            flash := if x.slot = 0 then { u.flash with a := ⟨x.bytes, true⟩ } else { u.flash with b := ⟨x.bytes, true⟩ }
            sec := { u.sec with fw := some { x with done := true } } }
        exec (.pldmFirmwareUpdate cyc (.data b)) s = .next { u with sec := { u.sec with fw := some { x with bytes := x.bytes ++ b } } }
          ∧ exec (.pldmFirmwareUpdate cyc .activate) s = .next u
          ∧ (¬ recovery → exec (.pldmFirmwareUpdate cyc .done) s = .next w)
          ∧ (recovery → exec (.pldmFirmwareUpdate cyc .done) s = .next { w with boot := { w.boot with recovery := false } }.bootFlash))
      ∧ (∀ x, u.sec.fw = some x → x.done = true →
        exec (.pldmFirmwareUpdate cyc .activate) s = .next { u.set F.HUB_BOOT_CFG_ACTIVE x.slot with sec := { u.sec with fw := none } })
      ∧ ((∀ x, u.sec.fw = some x → x.done = true) →
        exec (.pldmFirmwareUpdate cyc (.data b)) s = .next u ∧ exec (.pldmFirmwareUpdate cyc .done) s = .next u)
      ∧ (u.sec.fw = none → exec (.pldmFirmwareUpdate cyc .activate) s = .next u))

/-- While the time base runs, an edge counts one beat, adds the beat's cycles to the time base and opens at cycle 0 (in BOOT the
count of cycles since BOOT goes on, which is log entry 63). Out of RUNNING and DRAINING nothing else happens, but that link
dies which a fabric-preserving reset kept in a formed domain do their edge. In RUNNING and DRAINING no slot selection and no
vat wait stays, and the banks planned off are off; and at an edge that closes no measure every figure of the closing beat
that still runs, or waits and is not skipped, is dropped with its yield bit clear. With the time base stopped, and in OFF,
an edge does nothing. -/
def Obligations.BeatEdges : Prop :=
  ∀ (s : State) (m : EdgeMeas),
    let q : State := { s with clk := { s.clk with
      beat := s.clk.beat + 1, base := s.clk.base + s.clk.lenUs * 1900, cyc := if s.dev = .boot then s.clk.cyc else 0 } }
    (s.clk.ticking = false ∨ s.dev = .off → exec (.beatEdge m) s = .next s)
      ∧ (s.clk.ticking = true → s.dev = .boot ∨ s.dev = .unconfigured ∨ s.dev = .negotiated ∨ s.dev = .halted →
        exec (.beatEdge m) s = .next (if s.boot.kind = .fabric ∧ s.fab.formed = true ∧ s.dev ≠ .halted then q.fabricEdge false else q))
      ∧ (s.clk.ticking = true → s.dev = .running ∨ s.dev = .draining → ∃ t, exec (.beatEdge m) s = .next t
        ∧ t.clk.beat = s.clk.beat + 1 ∧ t.clk.base = s.clk.base + s.clk.lenUs * 1900 ∧ t.clk.cyc = 0 ∧ t.clk.ticking = true
        ∧ t.t0.slotSel = [] ∧ t.t0.vatWait = [] ∧ t.t0.bankOff = s.t0.bankNext ∧ t.t0.bankDefer = []
        ∧ t.dev = s.dev ∧ t.fuses = s.fuses ∧ t.pins = s.pins ∧ t.flash = s.flash ∧ t.boot = s.boot
        ∧ ∀ p f, s.clk.pos = some p → p + 1 < s.clk.measBeats → s.run.tailOnly = false → s.figsOn = true → f ∈ s.figsNow →
            (s.stat f.fid).phase = .running ∨ (s.waitsToStart f = true ∧ s.skips f = false) →
            (t.stat f.fid).phase = .dropped ∧ (t.stat f.fid).yield = false)

/-- At or after its planned start a waiting figure of the open beat is skipped when its COND is not met, when it is an update
slice after a local DROP, or when its iteration is beyond the actual count (also in a micro-batch already dropped: the
model's choice, log entry 76), with its yield bit set; dropped by cascade, with VOID in place of a transfer, when a producer
was dropped or has no yield, or an earlier chain figure of its micro-batch was dropped; otherwise, with its queue free, no
earlier pass of its shard pending and every leading WAIT met, it is dropped with cause BOUND if its loop bound is exceeded,
and else runs its body, completing at once if its body takes no time. Before its start, or while it must wait, nothing
happens; nor for a figure that does not wait to start or is not in the card. -/
def Obligations.FiguresStart : Prop :=
  ∀ (s : State) (cyc fid : Nat) (env : FigEnv), let u := s.tick cyc
    u.dev ≠ .off →
    (u.figure fid = none → exec (.figureStart cyc fid env) s = .next u)
      ∧ ∀ f, u.figure fid = some f →
        let skip := f.cond = 1 ∧ u.run.lastCommit = false ∨ f.cond = 2 ∧ u.run.cutOpened = false ∨ 2 < f.cond
          ∨ (f.isSlice = true ∧ u.run.local_ = some false) ∨ env.beyondCount = true
        let casc := (∃ p ∈ f.deps, (u.stat p).phase = .dropped) ∨ (f.cls = 0 ∧ f.mb ≠ 0xFFFF ∧ f.mb ∈ u.run.mbDrop ∧ ∃ x ∈ u.run.figs, x.phase = .dropped ∧ ∃ g, u.figure x.fid = some g ∧ g.cls = 0 ∧ g.mb = f.mb
            ∧ (g.pos < f.pos ∨ (g.pos = f.pos ∧ g.start < f.start)))
          ∨ ∃ p ∈ f.deps, ∃ g, u.figure p = some g ∧ g.pos < f.pos ∧ (u.stat p).yield = false
        let ready := u.queueFree f = true ∧ u.passWaits f = false
          ∧ ∀ e ∈ f.waits, ent e 32 32 ≤ u.syncGet (entKey e f.die) + u.nearSum (entKey e f.die) (clKey f.die f.group)
        let w := (u.setStat { u.stat f.fid with phase := .running, pos := f.pos, start := u.clk.cyc, at_ := 0 }).bodyRun f env
        (u.waitsToStart f = false ∨ u.clk.cyc < f.start → exec (.figureStart cyc fid env) s = .next u)
          ∧ (u.waitsToStart f = true → f.start ≤ u.clk.cyc →
            (skip → exec (.figureStart cyc fid env) s
              = .next (u.setStat { u.stat f.fid with phase := .skipped, yield := true, pos := f.pos, start := u.clk.cyc }))
            ∧ (¬ skip → casc → exec (.figureStart cyc fid env) s = .next ((u.drop f .cascade).sendVoid f))
            ∧ (¬ skip → ¬ casc → ready → exec (.figureStart cyc fid env) s
                = .next (if env.boundExceeded then u.drop f (.direct 4) else if u.instant f then w.completeFig f else w))
            ∧ (¬ skip → ¬ casc → ¬ ready → exec (.figureStart cyc fid env) s = .next u))

/-- Dropping a figure that was not dropped leaves it dropped with its yield bit clear, whatever its drop stops besides; a figure
dropped already stays as it is. One drop alone counts one in the whey counter of its kind at its Caller and one in the whey
of the measure, or of the next one once the seal marker is sent; signals of the figure not issued yet are gone, a vat access
of its that waits is gone, no write of its is kept as one that could still be taken back, and every other figure keeps its
tiles and writes; what a scratchpad byte then holds is what it held, or what it held before a write of the dropped figure; a
chain figure's drop also drops its micro-batch, and a mandatory figure's sets MAND_LATE; no other figure's status, clock or
plan changes. (How many of its writes stand and tiles are on their way is a free value, log entry 64.) -/
def Obligations.DropsAreCounted : Prop :=
  (∀ (s : State) (f : Fig) (k : DropKind),
    ((s.stat f.fid).phase = .dropped → s.drop f k = s)
      ∧ ((s.stat f.fid).phase ≠ .dropped → ((s.drop f k).stat f.fid).phase = .dropped ∧ ((s.drop f k).stat f.fid).yield = false))
    ∧ (∀ (s : State) (f : Fig) (k : DropKind), tabWf s.regs = true → (∀ j, tGet s.regs j < 2 ^ 32) → f.die < 15 → memWf s.t0.mem = true →
      let t := s.dropOne f k
      (t.stat f.fid).phase = .dropped ∧ (t.stat f.fid).yield = false
        ∧ t.get (k.counter.caller f.die) = min (s.get (k.counter.caller f.die) + 1) (2 ^ k.counter.w - 1)
        ∧ (s.run.sealSent = false → t.run.wheyFig = min (s.run.wheyFig + 1) (2 ^ 32 - 1) ∧ t.run.nextWhey = s.run.nextWhey)
        ∧ (s.run.sealSent = true → t.run.nextWhey.1 = min (s.run.nextWhey.1 + 1) (2 ^ 32 - 1) ∧ t.run.wheyFig = s.run.wheyFig)
        ∧ (∀ g, g ∈ t.run.sig ↔ g ∈ s.run.sig ∧ ¬ (g.owner = some f.fid ∧ s.clk.cyc < g.sent))
        ∧ (∀ a ∈ t.run.acc, a ∈ s.run.acc) ∧ (∀ a ∈ s.run.acc, a.fid ≠ f.fid → a ∈ t.run.acc)
        ∧ (∀ x, x ∈ t.run.undo ↔ x ∈ s.run.undo ∧ x.fid ≠ f.fid)
        ∧ (∀ x, x ∈ t.t0.vatWait ↔ x ∈ s.t0.vatWait ∧ x.fid ≠ f.fid)
        ∧ t.t0 = { s.t0 with mem := t.t0.mem, vreg := t.t0.vreg, mask := t.t0.mask, vatWait := t.t0.vatWait }
        ∧ (∀ a, mGet t.t0.mem a = mGet s.t0.mem a
            ∨ ∃ x ∈ s.run.undo, x.fid = f.fid ∧ x.space = 0 ∧ ∃ c ∈ x.cells, c.1 = a ∧ mGet t.t0.mem a = c.2.1)
        ∧ ((∀ x ∈ s.run.undo, x.fid ≠ f.fid) → t.t0 = { s.t0 with vatWait := t.t0.vatWait } ∧ t.t1.mem = s.t1.mem)
        ∧ (f.cls = 0 → f.mb ≠ 0xFFFF → f.mb ∈ t.run.mbDrop)
        ∧ (f.cls = 1 → s.run.sealSent = false → t.run.flags.mandLate = true)
        ∧ (f.cls = 1 → s.run.sealSent = true → t.run.nextFlags.mandLate = true)
        ∧ (∀ g, g ≠ f.fid → t.stat g = s.stat g)
        ∧ t.clk = s.clk ∧ t.plan = s.plan ∧ t.dev = s.dev)

/-- Starting a DMA figure whose source and destination are its own slice or another cluster's, of at most a slice: with a bank
of the lines named off, no byte is copied and error 0x0107 is on its way; otherwise each byte named is copied (past the end
of a slice it goes on at its start, log entry 71), the destination lines carry poison exactly if a source line or the figure
did, and no other scratchpad byte or line's poison, nor any byte of T1, changes; the write can be taken back until the
figure completes. -/
def Obligations.CopiesBetweenSlices : Prop :=
  ∀ (s : State) (f : Fig) (d : BitVec 256) (env : FigEnv) (src dst : Nat × Nat × Nat),
    f.body = .dma d →
    (dmSrc d = 0 ∧ src = (f.die, f.group, bits (dmSa d) 0 15)) ∨ (dmSrc d = 2 ∧ src = (bits (dmSa d) 0 2, bits (dmSa d) 2 10, bits (dmSa d) 12 15)) →
    (dmDst d = 0 ∧ dst = (f.die, f.group, bits (dmDa d) 0 15)) ∨ (dmDst d = 2 ∧ dst = (bits (dmDa d) 0 2, bits (dmDa d) 2 10, bits (dmDa d) 12 15)) →
    memWf s.t0.mem = true → bits d.toNat 8 24 ≤ 32768 →
    let k := bits d.toNat 8 24
    let from_ := fun (i : Nat) => t0Addr src.1 src.2.1 (src.2.2 * 64 + i)
    let goes := fun (i : Nat) => t0Addr dst.1 dst.2.1 (dst.2.2 * 64 + i)
    let off := s.offLines src.1 src.2.1 src.2.2 k || s.offLines dst.1 dst.2.1 dst.2.2 k
    let bad := s.t0Poisoned src.1 src.2.1 src.2.2 k || (s.stat f.fid).poison
    let t := s.bodyRun f env
    (off = true → t = s.detect ⟨0x0107, ⟨f.die, 1, f.group⟩, some f.fid, 0⟩ ∧ t.t0 = s.t0)
      ∧ (off = false →
        (∀ i, i < k * 64 → mGet t.t0.mem (goes i) = mGet s.t0.mem (from_ i))
          ∧ (∀ x, (∀ i, i < k * 64 → x ≠ goes i) → mGet t.t0.mem x = mGet s.t0.mem x)
          ∧ (∀ l, l ∈ t.t0.poison ↔ if t0Among dst.1 dst.2.1 dst.2.2 k l = true then bad = true else l ∈ s.t0.poison)
          ∧ (t.stat f.fid).poison = bad
          ∧ (∃ w, t.run.undo = s.run.undo ++ [w] ∧ w.fid = f.fid ∧ w.space = 0
              ∧ w.cells = (upTo (k * 64)).map fun i => (goes i, mGet s.t0.mem (goes i), mGet t.t0.mem (goes i)))
          ∧ t = { s with t0 := { s.t0 with mem := t.t0.mem, poison := t.t0.poison }
                         run := { s.run with figs := t.run.figs, undo := t.run.undo }, regs := t.regs }
          ∧ (bad = (s.stat f.fid).poison → t.run.figs = s.run.figs ∧ t.regs = s.regs))

/-- A running figure whose body has ended completes: its yield bit is set, its completion time is its start's distance, its
writes stand for good, its SIGNAL entries are issued, and its template's longest time is recorded; a vector body runs on
first. A figure that does not run, or whose body has not ended, does not complete. Of the requesters that wait on a vat the
first that it serves goes on, and its waiting cycles count; while it serves none, after a stop, in HALTED and with none
waiting nothing happens. -/
def Obligations.FiguresComplete : Prop :=
  (∀ (s : State) (cyc fid : Nat), let u := s.tick cyc
    u.dev ≠ .off →
    (u.figure fid = none ∨ u.figsOn = false ∨ (u.stat fid).phase ≠ .running → exec (.figureComplete cyc fid) s = .next u)
      ∧ ∀ f, u.figure fid = some f → u.figsOn = true → (u.stat fid).phase = .running →
        ((∀ p, f.body ≠ .vec p) → exec (.figureComplete cyc fid) s = .next (if u.bodyDone f then u.completeFig f else u))
        ∧ (∀ p, f.body = .vec p →
          let w := u.vecRun f p 0
          exec (.figureComplete cyc fid) s = .next (if w.bodyDone f = true ∧ (w.stat fid).phase = .running then w.completeFig f else w)))
    ∧ (∀ (u : State) (f : Fig), (∀ d, f.body ≠ .tpl d) → (∀ d, f.body ≠ .dma d) → let t := u.completeFig f
      (t.stat f.fid).phase = .complete ∧ (t.stat f.fid).yield = true ∧ (t.stat f.fid).done = u.clk.cyc
        ∧ (∀ e ∈ f.signals, ∃ g ∈ t.run.sig, g.key = entKey e f.die ∧ g.n = ent e 32 32 ∧ u.clk.cyc < g.due)
        ∧ (∀ g ∈ u.run.sig, g ∈ t.run.sig) ∧ t.run.undo = (u.run.undo.filter fun x => x.fid != f.fid) ∧ t.t0 = u.t0 ∧ t.t1 = u.t1 ∧ t.clk = u.clk ∧ t.regs = u.regs
        ∧ ∃ q, tmplGet t.plan.tmpl f.template = some (max ((tmplGet u.plan.tmpl f.template).getD (0, [])).1 (u.clk.cyc - (u.stat f.fid).start), q))
    ∧ (∀ (s : State) (cyc die cl v : Nat), let u := s.tick cyc
      let key := vatKey die cl v
      u.dev ≠ .off →
      let serves := fun (w : VatWait) => w.key = key ∧ ∃ f, u.figure w.fid = some f ∧ u.vatRefuses f.fid w.key w.bytes w.push = false
      ((∀ w ∈ u.t0.vatWait, ¬ serves w) ∨ u.dev = .halted ∨ u.run.stopped = true → exec (.vatWaitResume cyc die cl v) s = .next u)
        ∧ ∀ pre w post, u.t0.vatWait = pre ++ w :: post → (∀ x ∈ pre, ¬ serves x) → serves w →
            ∀ f d, u.figure w.fid = some f → f.body = .dma d → u.dev ≠ .halted → u.run.stopped = false →
              exec (.vatWaitResume cyc die cl v) s
                = .next (State.dmaRun { u.count (F.CD_VAT_STALL_COUNT.cd die) (u.clk.cyc - w.since) with
                    t0 := { u.t0 with vatWait := u.t0.vatWait.erase w } } f d))

/-- While Callers run, at cycle 64 the VAT_SET and VAT_EXPECT entries of the beat apply in order, and at any other cycle none;
the first SLOT_SEL entry of a cluster whose AT is this cycle makes its table active; a SYNC_SET entry with SCOPE 2 whose AT
is this cycle comes before the signals of that cycle, those already applied in it included, and with no signal in flight
stands as the object's value. Without such an entry, and with Callers stopped, nothing but the clock moves. The occupancy of
a vat follows its pointers: a push of b bytes that fit adds b, a pop of b bytes that are there takes b away, and pointers
stay below the size. -/
def Obligations.SequencerEntries : Prop :=
  (∀ (s : State) (cyc die cl obj : Nat), let u := s.tick cyc
    let on := (u.dev = .running ∨ u.dev = .draining) ∧ u.run.stopped = false
    let sel := u.seqNow.find? fun x => x.1 == die && x.2.1 == cl && ent x.2.2 0 8 == 0x87 && ent x.2.2 32 32 == u.clk.cyc
    u.dev ≠ .off →
    (on ∧ u.clk.cyc = 64 → exec (.vatExpectLoad cyc) s = .next (u.seqNow.foldl State.vatEntry u))
      ∧ (¬ (on ∧ u.clk.cyc = 64) → exec (.vatExpectLoad cyc) s = .next u)
      ∧ (∀ x, on → sel = some x →
        exec (.slotSel cyc die cl) s = .next { u with t0 := { u.t0 with slotSel := tSet u.t0.slotSel (clKey die cl) (ent x.2.2 8 3) } })
      ∧ (¬ on ∨ sel = none → exec (.slotSel cyc die cl) s = .next u)
      ∧ (s.dev ≠ .off → let v := if cyc = 0 then s else s.tick (cyc - 1)
        let on0 := (v.dev = .running ∨ v.dev = .draining) ∧ v.run.stopped = false ∧ v.clk.cyc ≤ cyc
        let set := v.seqNow.find? fun x => x.1 == die && ent x.2.2 0 8 == 0x88 && ent x.2.2 21 2 == 2 && ent x.2.2 8 13 == obj && ent x.2.2 32 32 == cyc
        (¬ on0 ∨ set = none → exec (.syncSetAt cyc die obj) s = .next (v.tick cyc))
          ∧ (∀ x, on0 → set = some x → v.clk.cyc = cyc → exec (.syncSetAt cyc die obj) s = .next (v.syncSetNow (syncKey die obj) (ent x.2.2 64 32)))
          ∧ ∀ x, on0 → set = some x → v.clk.cyc < cyc →
            exec (.syncSetAt cyc die obj) s
                = .next (State.tick { v with run := { v.run with sig := v.run.sig ++ [⟨syncKey die obj, ent x.2.2 64 32, cyc, true, none, none, cyc⟩] } } cyc)
              ∧ (s.run.sig = [] → s.t1.req = [] → (∀ y ∈ s.running, s.stepsLeft y = []) → die < 15 → obj < 8192 → cyc < s.clk.lenUs * 1900 →
                ∃ t, exec (.syncSetAt cyc die obj) s = .next t
                  ∧ t = { u with t0 := { u.t0 with sync := tSet u.t0.sync (syncKey die obj) (ent x.2.2 64 32) }, run := { u.run with sigDone := t.run.sigDone } })))
    ∧ (∀ (e b : Nat), e < 2 ^ 86 → 0 < vatSize e → vatHead e < vatSize e → vatTail e < vatSize e → vatSize e ≤ 2 ^ 21 →
    (bit e 53 = bit e 85 → vatHead e ≤ vatTail e) → (bit e 53 ≠ bit e 85 → vatTail e ≤ vatHead e) →
    (vatOcc e + b ≤ vatSize e → let t := vatAdvance e 64 b
        vatOcc t = vatOcc e + b ∧ vatTail t < vatSize t ∧ vatHead t = vatHead e ∧ vatSize t = vatSize e)
      ∧ (b ≤ vatOcc e → let t := vatAdvance e 32 b
        vatOcc t = vatOcc e - b ∧ vatHead t < vatSize t ∧ vatTail t = vatTail e ∧ vatSize t = vatSize e))

/-- With signals and sets of one object due in one cycle, the last set applies first, then the sum of the signals; the value
saturates at all ones, and exceeding it is one class C error, which for an object of a compute die counts once at its die. A
set that comes when signals of its cycle have applied still comes before them. An armed hub object that a signal brings to
its threshold is disarmed. No other object changes, and the operations are gone from those in flight. -/
def Obligations.SyncOrder : Prop :=
  ∀ (s : State) (key due : Nat), tabWf s.t0.sync = true → tabWf s.t0.hub = true → s.syncGet key < 2 ^ 32 →
    let mine := s.run.sig.filter fun g => g.key == key && g.due == due
    let start := match (mine.filter fun g => g.isSet).getLast? with
      | some g => g.n % 2 ^ 32
      | none => s.syncGet key
    let sum := (mine.filter fun g => !g.isSet).foldl (fun a g => a + g.n) 0
    let t := s.syncCycle key due
    t.syncGet key = min (start + sum) (2 ^ 32 - 1)
      ∧ (∀ k, k ≠ key → t.syncGet k = s.syncGet k)
      ∧ t.run.sig = s.run.sig.filter (fun g => !(g.key == key && g.due == due))
      ∧ t.run.sigDone = s.run.sigDone ++ mine.filter (fun g => !g.isSet)
      ∧ (∀ v, v < 2 ^ 32 → let later := (s.run.sigDone.filter fun g => g.key == key && g.due == s.clk.cyc).foldl (fun a g => a + g.n) 0
          (s.syncSetNow key v).syncGet key = min (v + later) (2 ^ 32 - 1) ∧ ∀ k, k ≠ key → (s.syncSetNow key v).syncGet k = s.syncGet k)
      ∧ (start + sum < 2 ^ 32 → key < 15 * 8192 → t.regs = s.regs ∧ t.err = s.err ∧ t.t0 = { s.t0 with sync := t.t0.sync })
      ∧ (start + sum < 2 ^ 32 → t.err = s.err)
      ∧ (2 ^ 32 ≤ start + sum → ∃ x : ErrRec, x.code = 0x0105 ∧ x.src = ⟨if 15 * 8192 ≤ key then 14 else key / 8192, 2, 0⟩
          ∧ t.err.inFlight = s.err.inFlight ++ [x]
          ∧ (key < 4 * 8192 → t.regs = (s.count (F.CD_SYNC_OVF_COUNT.cd (key / 8192)) 1).regs))
      ∧ (∀ a, 15 * 8192 ≤ key → s.t0.armed.find? (fun a => a.1 == key - 15 * 8192) = some a → 0 < sum →
          t.t0.armed = if a.2 ≤ min (start + sum) (2 ^ 32 - 1) then s.t0.armed.filter (fun x => x.1 != key - 15 * 8192) else s.t0.armed)

/-- In the rind, banks that the card has off in the next beat power down at once unless a write of theirs is in flight; those
wait for the rind's last cycle, when a pending write is discarded, counts once, and its figure is dropped with cause
BANK_LATE, and a figure whose read is pending gets no data; the rind of the beat before a swap takes the next card's rate.
Before the rind, with Callers stopped, and for a bank that does not wait, nothing happens. -/
def Obligations.BankPower : Prop :=
  ∀ (s : State) (cyc bank : Nat) (flying : List Nat) (rf : Option Nat), let u := s.tick cyc
    let on := (u.dev = .running ∨ u.dev = .draining) ∧ u.run.stopped = false
    u.dev ≠ .off →
    (on → u.clk.lenUs * 1900 - u.clk.rindCyc ≤ u.clk.cyc → ∃ t, exec (.rindStart cyc flying) s = .next t
        ∧ (∀ b, b ∈ t.t0.bankNext ↔ b ∈ u.offNext)
        ∧ (∀ b, b ∈ t.t0.bankOff ↔ b ∈ u.t0.bankOff ∨ (b ∈ u.offNext ∧ b ∉ flying))
        ∧ (∀ b, b ∈ t.t0.bankDefer ↔ b ∈ u.offNext ∧ b ∈ flying ∧ b ∉ u.t0.bankOff)
        ∧ t.plan.rate = (match u.plan.next with | some c => if u.swapDue then c.rate else u.plan.rate | none => u.plan.rate)
        ∧ t = { u with t0 := { u.t0 with bankNext := t.t0.bankNext, bankOff := t.t0.bankOff, bankDefer := t.t0.bankDefer }
                       plan := { u.plan with rate := t.plan.rate } })
      ∧ (¬ on ∨ u.clk.cyc < u.clk.lenUs * 1900 - u.clk.rindCyc → exec (.rindStart cyc flying) s = .next u)
      ∧ (on → bank ∈ u.t0.bankDefer → u.clk.lenUs * 1900 ≤ u.clk.cyc + 1 →
        let w : State := { u with
          t0 := { u.t0 with bankDefer := u.t0.bankDefer.filter (· != bank), bankOff := u.t0.bankOff ++ [bank] }
          run := { u.run with noData := u.run.noData ++ rf.toList } }
        let v := w.count (F.CD_SP_BANK_LATE_DROP_COUNT.cd (bank / 16384)) 1
        exec (.bankPowerDown cyc bank none rf) s = .next w
          ∧ (∀ fid f, u.figure fid = some f → exec (.bankPowerDown cyc bank (some fid) rf) s = .next (v.drop f (.direct 3)))
          ∧ (∀ fid, u.figure fid = none → exec (.bankPowerDown cyc bank (some fid) rf) s = .next v)
          ∧ (∀ x f, rf = some x → f.fid = x → w.bodyDone f = false))
      ∧ (¬ on ∨ bank ∉ u.t0.bankDefer ∨ u.clk.cyc + 1 < u.clk.lenUs * 1900 → ∀ wf, exec (.bankPowerDown cyc bank wf rf) s = .next u)

/-- In the rind of the seal beat of a measure with an update step, once the seal marker is sent: COMMIT exactly if the combined
markers count every occupied seat and carry no DROP; a missing marker adds SEAL_MISS to the causes; without any marker it is
DROP with SEAL_MISS. At any other time, and with figures stopped, nothing happens. -/
def Obligations.CommitDecision : Prop :=
  ∀ (s : State) (cyc : Nat), let u := s.tick cyc
    let due := u.figsOn = true ∧ u.measuring = true ∧ (∃ p, u.clk.pos = some p ∧ p + 1 = u.clk.measBeats) ∧ u.run.sealSent = true
      ∧ u.clk.lenUs * 1900 - u.clk.rindCyc ≤ u.clk.cyc
    let seats := max 1 (u.fab.members.filter fun m => m.occupied).length
    (∀ c, due → u.fab.comb = some c → exec (.commitCheck cyc) s = .next { u with run := { u.run with
        commit := some (decide (seats ≤ c.seen ∧ c.drop = false)), cause := if seats ≤ c.seen then c.cause else c.cause ||| 64 } })
      ∧ (due → u.fab.comb = none → exec (.commitCheck cyc) s = .next { u with run := { u.run with commit := some false, cause := 64 } })
      ∧ (¬ due → u.dev ≠ .off → exec (.commitCheck cyc) s = .next u)

/-- ERROR_DETECTED appends to the errors on their way the code, source, stamp of now, figure and detail (before the time base
starts the cycle of the stamp is a free value of a beat: log entry 63). Class C does nothing else; class D poisons the
figure charged; class S drops its figure if it runs and sets ERR_S in a measure, or in the next once the seal marker is
sent; class F waits for the handler. A scratchpad error counts, or poisons its line; a die-to-die retry that retrained
changes nothing, one that could not is class F; neither does anything on a die that is not populated, nor a retry on a port
the die does not have. -/
def Obligations.ErrorsAreStamped : Prop :=
  ∀ (s : State) (cyc : Nat) (e : ErrIn), let u := s.tick cyc
    let fid := if e.code = 0x0304 then none else match e.fid with
      | some f => some f
      | none => u.chargee e.src
    let st := u.stamp
    let w : State := { st.2 with err := { u.err with inFlight := u.err.inFlight ++
      [⟨e.code, e.src, u.clk.beat, st.1, fid.getD 0xFFFFFFFF, e.detail⟩] } }
    u.dev ≠ .off →
    (u.dev ≠ .boot → st = (u.clk.cyc, u))
      ∧ (u.dev = .boot → 0 < u.clk.lenUs → st.1 < u.clk.lenUs * 1900 ∧ st.2 = { u with free := u.free + 1 })
      ∧ (e.code / 256 ≤ 1 ∨ 4 ≤ e.code / 256 → exec (.errorDetected cyc e) s = .next w)
      ∧ (e.code / 256 = 2 → exec (.errorDetected cyc e) s = .next (match fid with | some f => w.poisonFid f | none => w))
      ∧ (e.code / 256 = 3 →
          let runs := fun f => fid.bind (fun x => u.figure x) = some f ∧ (u.stat f.fid).phase = .running
          let tell := fun (x : State) => if u.measuring = true then x.flag Flags.setErr else x
          (∀ f, runs f → exec (.errorDetected cyc e) s = .next (tell (w.drop f (.direct 1)))
            ∧ ((w.drop f (.direct 1)).stat f.fid).phase = .dropped)
            ∧ ((∀ f, ¬ runs f) → exec (.errorDetected cyc e) s = .next (tell w)))
      ∧ (∀ x : State, (x.run.sealSent = false → (x.flag Flags.setErr).run.flags.errS = true)
          ∧ (x.run.sealSent = true → (x.flag Flags.setErr).run.nextFlags.errS = true))
      ∧ (∀ die cl line f, (u.hasDie die = true →
          exec (.scratchpadEcc cyc die cl line false f) s = .next (State.detect (u.count (F.CD_SP_ECC_CORR_COUNT.cd die) 1) ⟨0x0101, ⟨die, 0, cl⟩, f, line⟩)
            ∧ exec (.scratchpadEcc cyc die cl line true f) s = .next (State.detect (u.t0Mark die cl line 1 true) ⟨0x0201, ⟨die, 0, cl⟩, f, line⟩)
            ∧ (u.t0Mark die cl line 1 true).t0Poisoned die cl line 1 = true)
          ∧ (u.hasDie die = false → ∀ fatal, exec (.scratchpadEcc cyc die cl line fatal f) s = .next u))
      ∧ (∀ die port lanes, exec (.dieToDieRetry cyc die port lanes true) s = .next u
          ∧ (u.hasDie die = false ∨ u.linkPorts die ≤ port → exec (.dieToDieRetry cyc die port lanes false) s = .next u)
          ∧ (u.hasDie die = true → port < u.linkPorts die →
            exec (.dieToDieRetry cyc die port lanes false) s = .next (u.detect ⟨0x0401, ⟨die, 3, port⟩, none, lanes⟩)))

/-- ERROR_LOGGED takes, of the errors on their way, the one before which none stands in the order of R452, counts it by its
class and raises ERR_STATUS.MAX. One that coalesces adds to the count of its entry; else it is written at ERR_LOG_TAIL,
which advances, or with the log full counted as overflow and, from class S on, put over the oldest unread class C entry.
What does not coalesce waits for the handler, suspends a lower class in hand, and during the handling of a class F error is
the double fault if it is of class F. With no error on its way nothing happens. -/
def Obligations.ErrorsAreLogged : Prop :=
  (∀ l e, firstErr l = some e → e ∈ l ∧ ∀ x ∈ l, x.before e = false)
    ∧ ∀ (s : State) (cyc : Nat), let u := s.tick cyc
    u.dev ≠ .off →
    (u.err.inFlight = [] → exec (.errorLogged cyc) s = .next u)
      ∧ ∀ e, firstErr u.err.inFlight = some e → u.err.log.length = 256 → e.code / 256 ≤ 4 → 1 ≤ e.code / 256 →
          tabWf u.regs = true → (∀ k, tGet u.regs k < 2 ^ 32) →
          let c := e.code / 256 - 1
          let x : LogEntry := ⟨false, e, 1, e.beat⟩
          let oldest := u.unreadSlots.reverse.find? fun k => (u.logSlot k).any fun l => l.err.code / 256 - 1 == 0
          let slot := if u.logUnread < 256 then some (u.logTail % 256) else if c < 2 then none else oldest
          let double := c = 3 ∧ ∃ h, u.err.cur = some h ∧ h.entry.err.code / 256 - 1 = 3
          ∃ t, exec (.errorLogged cyc) s = .next t
            ∧ t.err.inFlight = u.err.inFlight.erase e ∧ t.logHead = u.logHead
            ∧ t.get (errCounter c) = min (u.get (errCounter c) + 1) (2 ^ 32 - 1)
            ∧ t.get F.ERR_STATUS_MAX = max (u.get F.ERR_STATUS_MAX) c
            ∧ (∀ k, u.coalesce e = some k → ∃ l, u.logSlot k = some l ∧ t.logSlot k = some { l with count := min (l.count + 1) 65535, lastBeat := e.beat }
                ∧ (∀ j, j ≠ k → t.logSlot j = u.logSlot j) ∧ t.logTail = u.logTail
                ∧ t = { u with regs := t.regs, err := { u.err with inFlight := t.err.inFlight, log := t.err.log } })
            ∧ (u.coalesce e = none →
                (∀ k, slot = some k → t.logSlot k = some x ∧ ∀ j, j ≠ k → t.logSlot j = u.logSlot j)
                ∧ (slot = none → ∀ j, t.logSlot j = u.logSlot j)
                ∧ (u.logUnread < 256 → t.logTail = (u.logTail + 1) % 2 ^ 32 ∧ t.get F.ERR_OVERFLOW_COUNT = u.get F.ERR_OVERFLOW_COUNT)
                ∧ (256 ≤ u.logUnread → t.logTail = u.logTail ∧ t.get F.ERR_OVERFLOW_COUNT = min (u.get F.ERR_OVERFLOW_COUNT + 1) (2 ^ 32 - 1))
                ∧ (¬ double → t.err.wait = u.err.wait ++ [⟨slot, x, false⟩] ∧ t = { u with regs := t.regs, err := t.err }
                    ∧ (u.err.cur = none → t.err.cur = none ∧ t.err.susp = u.err.susp)
                    ∧ (∀ h, u.err.cur = some h → c ≤ h.entry.err.code / 256 - 1 → t.err.cur = some h ∧ t.err.susp = u.err.susp)
                    ∧ (∀ h, u.err.cur = some h → h.entry.err.code / 256 - 1 < c →
                        t.err.cur = none ∧ t.err.susp = if c = 3 then [] else h :: u.err.susp))
                ∧ (double → t.dev = .halted ∧ t.halt = 4 ∧ t.run.stopped = true ∧ t.host.link = false ∧ t.get F.ERR_STATUS_DOUBLE = 1
                    ∧ ∀ p ∈ t.fab.ports, p.up = false))

/-- ERROR_HANDLING takes up a waiting entry no other entry outranks, sets BUSY and CUR; a class F entry stops every Caller and
takes the ports down, any other writes its ERROR event. While an entry is in hand, or with none waiting, nothing is taken
up. ERROR_HANDLED ends it, clears BUSY and CUR and sets HANDLED in its slot, if it has one; a class F entry HALTs a device
not halted already, with cause 3 if the host link was lost and 2 otherwise. -/
def Obligations.ErrorsAreHandled : Prop :=
  ∀ (s : State) (cyc : Nat), let u := s.tick cyc
    u.dev ≠ .off → tabWf u.regs = true → (∀ k, tGet u.regs k < 2 ^ 32) →
    (∀ h, u.err.cur = some h → exec (.errorHandling cyc) s = .next u)
      ∧ (u.err.cur = none → u.err.susp = [] → u.err.wait = [] → exec (.errorHandling cyc) s = .next u)
      ∧ (u.err.susp ++ u.err.wait ≠ [] → ∃ h, topHandling (u.err.susp ++ u.err.wait) = some h)
      ∧ (∀ h, u.err.cur = none → topHandling (u.err.susp ++ u.err.wait) = some h → ∃ t, exec (.errorHandling cyc) s = .next t
          ∧ h ∈ u.err.susp ++ u.err.wait ∧ (∀ x ∈ u.err.susp ++ u.err.wait, x.entry.err.code / 256 - 1 ≤ h.entry.err.code / 256 - 1)
          ∧ t.err = { u.err with susp := u.err.susp.erase h, wait := u.err.wait.erase h, cur := some { h with begun := true } }
          ∧ t.get F.ERR_STATUS_BUSY = 1 ∧ (h.entry.err.code / 256 ≤ 4 → t.get F.ERR_STATUS_CUR = h.entry.err.code / 256 - 1)
          ∧ (h.entry.err.code / 256 = 4 → h.begun = false → t.run = { u.run with stopped := true } ∧ ∀ p ∈ t.fab.ports, p.up = false)
          ∧ (h.entry.err.code / 256 ≠ 4 ∨ h.begun = true → t.run = u.run ∧ t.fab = u.fab) ∧ t.dev = u.dev ∧ t.t0 = u.t0 ∧ t.t1 = u.t1 ∧ t.clk = u.clk)
      ∧ (u.err.cur = none → exec (.errorHandled cyc) s = .next u)
      ∧ (∀ h, u.err.cur = some h → ∃ t, exec (.errorHandled cyc) s = .next t
          ∧ t.err.cur = none ∧ t.get F.ERR_STATUS_BUSY = 0 ∧ t.get F.ERR_STATUS_CUR = 0
          ∧ (∀ k l, h.slot = some k → u.logSlot k = some l → k < u.err.log.length → t.logSlot k = some { l with handled := true })
          ∧ (∀ j, h.slot ≠ some j → t.logSlot j = u.logSlot j)
          ∧ (h.entry.err.code / 256 ≠ 4 ∨ u.dev = .halted → t = { u with regs := t.regs, err := t.err } ∧ t.dev = u.dev)
          ∧ (h.entry.err.code / 256 = 4 → u.dev ≠ .halted →
              t.dev = .halted ∧ t.halt = (if h.entry.err.code = 0x0408 then 3 else 2) ∧ (u.host.link = true → t.run.stopped = true)
                ∧ (u.host.link = false → t.host = u.host) ∧ t.t0 = u.t0 ∧ t.t1 = { u.t1 with cxl := t.t1.cxl } ∧ (u.host.link = true → t.t1.cxl = []) ∧ t.cel = u.cel))

/-- TS_PACKET with no stream, or while the fill may not run, changes nothing; otherwise up to 188 bytes of the stream join the
buffer, a transport stream is demultiplexed and a raw one cut into access units, and at the end of the stream it ends. In
sync a whole packet is consumed and taken once; a first byte other than 0x47 loses sync, counted; out of sync bytes are
discarded up to the next sync. A packet with the error indicator damages the picture of its PID; a duplicate of a PID
changes only its counter entry; a counter gap counts once, and on the video PID damages its picture. CLIP_DRAW places what
is carried over first, else the next clip in the drawing order, switching decks when the drawing deck is empty, and waits
with nothing to switch to; a clip that fits is placed whole, one that does not closes the micro-batch first. (The packet
syntax is ISO/IEC 13818-1's: log entry 9.) -/
def Obligations.IngestFills : Prop :=
  (∀ (s : State) (cyc : Nat) (pkt : Bytes), let u := s.tick cyc
    u.dev ≠ .off →
    (u.ing.streams = [] ∨ u.filling = false → exec (.tsPacket cyc pkt) s = .next u)
      ∧ ∀ st rest, u.ing.streams = st :: rest → u.filling = true →
        let p := pkt.take (sdLen st.desc - st.off)
        let st1 : Stream := { st with off := st.off + p.length }
        let buf := u.ing.demux.buf ++ p
        let w : State := { u with ing := { u.ing with streams := st1 :: rest, demux := { u.ing.demux with buf := buf } } }
        let base := st.off - u.ing.demux.buf.length
        let v := if sdKind st.desc = 0 then State.demux st1 (buf.length + 1) base w else State.rawUnits st1 buf.length base w
        exec (.tsPacket cyc pkt) s = .next (if sdLen st.desc ≤ st1.off then v.endStream st1 else v)
          ∧ (sdKind st.desc = 0 → pkt.length = 188 → byteAt pkt 0 = 0x47 → u.ing.demux.sync = true → u.ing.demux.buf = [] → st.off + 188 < sdLen st.desc →
            exec (.tsPacket cyc pkt) s = .next (State.takePacket { u with ing := { u.ing with streams := st1 :: rest } } st1 st.off pkt)))
    ∧ (∀ (v : State) (st : Stream) (off : Nat), let b := v.ing.demux.buf
      (v.ing.demux.sync = true → b.length < 188 → v.demuxOnce st off = (off, v, false))
        ∧ (v.ing.demux.sync = true → 188 ≤ b.length → byteAt b 0 = 0x47 →
            v.demuxOnce st off = (off + 188, (v.demuxTo (b.drop 188) true).takePacket st off (b.take 188), true))
        ∧ (v.ing.demux.sync = true → 188 ≤ b.length → byteAt b 0 ≠ 0x47 → v.demuxOnce st off = (off, v.syncLost, true)
            ∧ v.syncLost.ing.demux.sync = false ∧ (tabWf v.regs = true → v.syncLost.get F.ING_TS_RESYNC_COUNT = min (v.get F.ING_TS_RESYNC_COUNT + 1) (2 ^ 32 - 1)))
        ∧ (∀ o, v.ing.demux.sync = false → o + 376 < b.length → byteAt b o = 0x47 → byteAt b (o + 188) = 0x47 → byteAt b (o + 376) = 0x47 →
            (∀ q, q < o → ¬ (byteAt b q = 0x47 ∧ byteAt b (q + 188) = 0x47 ∧ byteAt b (q + 376) = 0x47)) →
            v.demuxOnce st off = (off + o, v.demuxTo (b.drop o) true, true)))
    ∧ (∀ (v : State) (st : Stream) (off : Nat) (p : Bytes), let d := v.ing.demux
      (tsError p = true → v.takePacket st off p = if some (tsPid p) = d.videoPid then { v with ing := { v.ing with demux := { d with pesBad := true } } } else v)
        ∧ (∀ k dup, tsError p = false → tsPid p ≠ 0 → some (tsPid p) ≠ d.pmtPid →
          some (tsPid p) = d.videoPid ∨ some (tsPid p) = d.audioPid ∨ some (tsPid p) = d.ttxPid →
          tsHasPayload p = true → tsDiscont p = false → ccOf d (tsPid p) = some (k, dup) →
          let cc := fun (x : Bool) => (d.cc.filter fun x => x.1 != tsPid p) ++ [(tsPid p, tsCc p, x)]
          let w := State.count { v with ing := { v.ing with demux := { d with cc := cc false } } } F.ING_TS_CC_ERR_COUNT 1
          (k = tsCc p → dup = false → v.takePacket st off p = { v with ing := { v.ing with demux := { d with cc := cc true } } })
            ∧ (tsCc p ≠ (k + 1) % 16 → ¬ (k = tsCc p ∧ dup = false) →
              (some (tsPid p) ≠ d.videoPid → v.takePacket st off p = w)
              ∧ (some (tsPid p) = d.videoPid → tsStart p = false → v.takePacket st off p
                  = { w with ing := { w.ing with demux := { w.ing.demux with pesBad := true, pes := if d.pes = [] then [] else d.pes ++ tsPayload p } } })
              ∧ (some (tsPid p) = d.videoPid → tsStart p = true →
                  let x := State.endPes { w with ing := { w.ing with demux := { w.ing.demux with pesBad := true } } } st
                  v.takePacket st off p = { x with ing := { x.ing with demux := { x.ing.demux with pes := tsPayload p, pesOff := off } } }))))
    ∧ (∀ (s : State) (cyc : Nat), let u := s.tick cyc
      let on := u.dev = .running ∧ u.run.stopped = false ∧ u.hostPack = false ∧ u.plan.graph.any (fun g => g.ingest.isSome) = true
      let v := (if u.fillFull = true then u else u.count F.ING_DECK_EARLY_COUNT 1).switchDeck u.ing.skip
      u.dev ≠ .off →
      (¬ on → exec (.clipDraw cyc) s = .next u)
        ∧ (on → (∀ c r, u.ing.carry = some (c, r) → exec (.clipDraw cyc) s = .next (u.placePiece (u.dataPos 0) c r))
          ∧ (∀ c, u.ing.carry = none → u.ing.drawn < u.ing.draw.clips.length → u.ing.draw.clips[u.ing.draw.perm.getD u.ing.drawn 0]? = some c →
              exec (.clipDraw cyc) s = .next (State.placePiece { u with ing := { u.ing with drawn := u.ing.drawn + 1 } } (u.dataPos 0) c 0))
          ∧ (∀ c, u.ing.carry = none → u.ing.draw.clips.length ≤ u.ing.drawn → u.ing.fill.clips ≠ [] → u.ing.exchPending = false → u.ing.recut = none →
              v.ing.drawn < v.ing.draw.clips.length → v.ing.draw.clips[v.ing.draw.perm.getD v.ing.drawn 0]? = some c →
              exec (.clipDraw cyc) s = .next (State.placePiece { v with ing := { v.ing with drawn := v.ing.drawn + 1 } } (u.dataPos 0) c 0))
          ∧ (u.ing.carry = none → u.ing.draw.clips.length ≤ u.ing.drawn → u.ing.fill.clips = [] ∨ u.ing.exchPending = true ∨ u.ing.recut.isSome = true →
              exec (.clipDraw cyc) s = .next u)))
    ∧ (∀ (u : State) (pos : BitVec 1024) (c : Clip),
      (u.clipRows c + u.ing.open_.rows < u.budget → u.placePiece pos c 0 = { u with ing := { u.ing with
        open_ := { u.ing.open_ with parts := u.ing.open_.parts ++ [(c, 0, u.clipRows c)], rows := u.ing.open_.rows + u.clipRows c }, carry := none } })
        ∧ (u.clipRows c ≤ u.budget → u.budget < u.clipRows c + u.ing.open_.rows →
            u.placePiece pos c 0 = (u.closePack pos).placePiece pos c 0
              ∧ (u.closePack pos).ing.ready.length = u.ing.ready.length + 1 ∧ (u.closePack pos).ing.open_ = Pack.reset))

/-- A usable port that trains in RUNNING or DRAINING is up with its width and the credits of Table 13.3 less the one its HELLO
took, and is no longer noted as lost. A retrain keeps the wider number of lost lanes and counts; a failed one counts, and
the second in a row takes the link down. A link that goes down loses its replay buffer, waiting flits and width; a twin
link's loss changes no membership. Half the round trip becomes the delay in nanoseconds. No command of these touches another
port's width or state; on a port that is down, or one that may not come up, none changes anything. (That a width of 3 stands
for a failed retrain is log entry 12.) -/
def Obligations.LinksUpDown : Prop :=
  ∀ (s : State) (cyc n width q : Nat), let u := s.tick cyc
    let p := u.port n
    let may := (u.dev = .running ∨ u.dev = .draining) ∧ u.run.stopped = false ∧ u.portUsable n = true ∧ p.up = false
    u.dev ≠ .off → u.fab.ports.length = 18 → n < 18 →
    (may → ∃ t h, exec (.linkUp cyc n width) s = .next t ∧ flOp h = Op.hello ∧ flClass h = 3
          ∧ t.port n = { Port.reset with up := true, width := width, credits := [1024, 1024, 512, 63], owed := [0, 0, 0, 0]
                                         replay := [(0, h)], txSeq := 1, since := 1 }
          ∧ (∀ m, m ≠ n → t.port m = u.port m)
          ∧ t.regs = ((u.set (u.portField F.LD_PORT_n_UP n) 1).set (u.portField F.LD_PORT_n_WIDTH n) width).regs
          ∧ (∀ x, x ∈ t.fab.lost ↔ x ∈ u.fab.lost ∧ ¬ (x.1 = u.seat ∧ x.2.1 = n))
          ∧ t = { u with regs := t.regs, fab := { u.fab with ports := t.fab.ports, lost := t.fab.lost } })
      ∧ (¬ may → exec (.linkUp cyc n width) s = .next u)
      ∧ (p.up = false → exec (.linkRetrain cyc n width) s = .next u ∧ exec (.linkDown cyc n) s = .next u
          ∧ exec (.delayMeasure cyc n q) s = .next u)
      ∧ (p.up = true → width < 3 → tabWf u.regs = true → ∃ t, exec (.linkRetrain cyc n width) s = .next t
          ∧ (t.port n).width = max p.width width ∧ (t.port n).up = true ∧ (t.port n).retrained = true ∧ (t.port n).replays = 0 ∧ (t.port n).fails = 0
          ∧ t.get (F.LD_RETRAIN_COUNT.ld (u.portLd n)) = min (u.get (F.LD_RETRAIN_COUNT.ld (u.portLd n)) + 1) (2 ^ 32 - 1)
          ∧ (∀ m, m ≠ n → t.port m = u.port m) ∧ t.fab = { u.fab with ports := t.fab.ports }
          ∧ t.dev = u.dev ∧ t.clk = u.clk ∧ t.run = u.run ∧ t.t0 = u.t0 ∧ t.t1 = u.t1 ∧ t.plan = u.plan)
      ∧ (p.up = true → 3 ≤ width →
          let w := (u.setPort n { p with fails := p.fails + 1, replays := 0 }).count (F.LD_RETRAIN_COUNT.ld (u.portLd n)) 1
          (p.fails = 0 → exec (.linkRetrain cyc n width) s = .next w)
            ∧ (0 < p.fails → exec (.linkRetrain cyc n width) s = .next (w.linkDown n) ∧ (w.linkDown n).port n = Port.reset))
      ∧ (p.up = true → (∃ t, exec (.linkDown cyc n) s = .next t ∧ t.port n = Port.reset
          ∧ (∀ m, m ≠ n → (t.port m).up = (u.port m).up ∧ (t.port m).width = (u.port m).width)
          ∧ (16 ≤ n → t.fab.members = u.fab.members ∧ t.fab.lost = u.fab.lost ∧ t.run = u.run)
          ∧ t.fab.formed = u.fab.formed ∧ t.fab.leader = u.fab.leader ∧ t.dev = u.dev ∧ t.clk = u.clk ∧ t.t0 = u.t0 ∧ t.plan = u.plan))
      ∧ (p.up = true → exec (.delayMeasure cyc n q) s = .next (u.set (u.portField F.LD_PORT_n_DELAY_NS n) (min 4095 (q / 8))))

/-- A flit that the port does not carry, or out of link sequence, is discarded. One in sequence advances the sequence and owes a
credit of its class: a class 3 flit changes nothing more; one for another seat goes out by the routing table, or nowhere
without an entry; unplanned data for this seat is kept; a planned flit of another beat is stale, and counts; a planned flit
with VOID drops the running or waiting figure that receives it. A CRC failure on a link that is up discards until the replay
and makes a NAK due; a control flit goes out after 128 flits or with a NAK due, and not before; a received one returns
credits up to the full pool, frees confirmed flits, with NAK replays and counts the rest, and then what waits is sent: what
still waits has no credit of its class. On a link that is down none of these changes anything. A flit sent without credit,
or behind one of its class, waits; any other takes a credit, the next sequence and a place in the replay buffer. -/
def Obligations.LinkFlits : Prop :=
  (∀ (s : State) (cyc n : Nat) (f : Flit) (tr : Word32), let u := s.tick cyc
    let p := u.port n
    let c := flClass f
    let w := u.setPort n { p with rxSeq := (p.rxSeq + 1) % 1024, discard := false, owed := p.owed.set c (p.owed.getD c 0 + 1) }
    let mine := flBit f 12 = true ∨ flLayoutA f = true ∨ flDest f = w.seat
    let way := w.fab.route.getD (w.portLd n) []
    u.dev ≠ .off →
    (p.carries f = false ∨ bits tr.toNat 16 10 ≠ p.rxSeq → exec (.flitReceived cyc n f tr) s = .next u)
      ∧ (p.carries f = true → bits tr.toNat 16 10 = p.rxSeq →
          (c = 3 → exec (.flitReceived cyc n f tr) s = .next w)
            ∧ (c ≠ 3 → ¬ mine → exec (.flitReceived cyc n f tr) s
                = .next (if way = [] ∨ tGet way (flDest f) = 31 then w else w.sendFlit (tGet way (flDest f)) f))
            ∧ (c = 2 → mine → n < 16 → u.ing.exchPending = false →
                ∃ i, exec (.flitReceived cyc n f tr) s = .next { w with fab := { w.fab with rxData := w.fab.rxData ++ [(2 ^ 32 + flSrc f, i, f)] } })
            ∧ (c < 2 → mine → n < 16 → flBeat f ≠ u.clk.beat % 16 → ∃ t, exec (.flitReceived cyc n f tr) s = .next t
                ∧ t.fab = w.fab ∧ t.t0 = u.t0 ∧ t.t1 = u.t1 ∧ t.run = { u.run with staleEvt := true } ∧ t.dev = u.dev ∧ t.clk = u.clk
                ∧ (tabWf u.regs = true → t.get (F.LD_FLIT_STALE_COUNT.ld (u.portLd n)) = min (u.get (F.LD_FLIT_STALE_COUNT.ld (u.portLd n)) + 1) (2 ^ 32 - 1)))
            ∧ (∀ g gs, c < 2 → mine → n < 16 → flBeat f = u.clk.beat % 16 → flBit f 41 = true →
                w.receivers (u.portLd n) (flOp f == Op.verdict) = g :: gs → (u.stat g.fid).phase = .running ∨ (u.stat g.fid).phase = .waiting →
                exec (.flitReceived cyc n f tr) s = .next ((w.drop g .void).sendVoid g) ∧ ((w.drop g .void).stat g.fid).phase = .dropped))
      ∧ (p.up = true → exec (.flitCrcFail cyc n) s = .next (u.setPort n { p with discard := true, nakDue := true }))
      ∧ (p.up = false → exec (.flitCrcFail cyc n) s = .next u)
      ∧ (p.up = true → p.nakDue = true ∨ 128 ≤ p.since →
          exec (.linkControlSend cyc n) s = .next (u.setPort n { p with nakDue := false, since := 0, owed := [0, 0, 0, 0] }))
      ∧ (p.up = false ∨ (p.nakDue = false ∧ p.since < 128) → exec (.linkControlSend cyc n) s = .next u))
    ∧ (∀ (s : State) (cyc n lg : Nat) (nak : Bool) (cr : List Nat), let u := s.tick cyc
      let p := u.port n
      let again := if nak then (p.after lg).length else 0
      let q : Port := { p with
        credits := p.credits.zipIdx.map (fun c => min (fullCredits.getD c.2 0) (c.1 + cr.getD c.2 0))
        replay := p.after lg, replays := p.replays + again, since := p.since + again }
      let v := (u.setPort n q).count (F.LD_REPLAY_COUNT.ld (u.portLd n)) again
      u.dev ≠ .off → (p.up = false → exec (.linkControlFlit cyc n lg nak cr) s = .next u)
        ∧ (p.up = true → n < u.fab.ports.length → ∃ t, exec (.linkControlFlit cyc n lg nak cr) s = .next t
            ∧ (p.out = [] → t.port n = q)
            ∧ (∀ x ∈ (t.port n).out, x ∈ p.out ∧ (t.port n).credits.getD (flClass x.2) 0 = 0)
            ∧ (t.port n).replays = p.replays + again ∧ (t.port n).up = true ∧ (t.port n).rxSeq = p.rxSeq
            ∧ (∀ m, m ≠ n → t.port m = u.port m)
            ∧ t = { v with regs := t.regs, fab := { v.fab with ports := t.fab.ports } }))
    ∧ (∀ (u : State) (n : Nat) (f : Flit), let p := u.port n
      let c := flClass f
      let wait := p.credits.getD c 0 = 0 ∨ ∃ x ∈ p.out, flClass x.2 = c
      (p.carries f = false → u.sendFlit n f = u)
        ∧ (p.carries f = true → wait → u.sendFlit n f = u.setPort n { p with out := p.out ++ [(u.clk.base + u.clk.cyc, f)] })
        ∧ (p.carries f = true → ¬ wait → u.sendFlit n f = u.setPort n { p with
            credits := p.credits.set c (p.credits.getD c 0 - 1), txSeq := (p.txSeq + 1) % 1024, since := p.since + 1
            replay := (p.replay ++ [(p.txSeq, f)]).drop (p.replay.length + 1 - 1024) }))

/-- A HELLO on a port that is down does nothing; with another serial after a retrain the link goes down; of another domain it
leaves the link hello-only and the membership as it was; miscabled it holds the link down; of an incompatible device it is
refused and counted; a compatible one from a vacant neighbour position of a formed domain, at its leader, adds the member
and plans its join; a device without a seat takes the position a member's link leads to. A departure notice empties its
position, once; the leader takes a position reported present as a new member, another member of a formed domain as occupied.
The leader is elected after SETTLE beats, and given up after three edges without LDR. Route entries enter the next table
alone. -/
def Obligations.Membership : Prop :=
  ∀ (s : State) (cyc n : Nat) (payload : BitVec 896), let u := s.tick cyc
    let h := payload.toNat
    let p := u.port n
    let peer := u.neighbour u.ownSeat (u.portDim n) (u.portPlus n)
    let other := p.retrained = true ∧ p.peerSerial ≠ bits h 0 64
    let on := u.dev = .running ∨ u.dev = .draining
    u.dev ≠ .off →
    (p.up = false → exec (.helloReceived cyc n payload) s = .next u)
      ∧ (p.up = true → other → exec (.helloReceived cyc n payload) s = .next (u.linkDown n))
      ∧ (p.up = true → ¬ other → n < 16 → u.fab.ports.length = 18 → tabWf u.regs = true →
          let dom := bits h 64 32 = u.get F.LD_DOMAIN_CFG_ID
          let wired := u.portDim (bits h 110 5) = u.portDim n ∧ u.portPlus (bits h 110 5) ≠ u.portPlus n
          (¬ dom → ∃ t, exec (.helloReceived cyc n payload) s = .next t ∧ (t.port n).hello = true ∧ (t.port n).held = true
            ∧ t.fab = { u.fab with ports := t.fab.ports } ∧ t = { u with regs := t.regs, fab := t.fab })
          ∧ (dom → ¬ wired → p.held = false → ∃ t, exec (.helloReceived cyc n payload) s = .next t ∧ (t.port n).up = false ∧ (t.port n).held = true
            ∧ t.fab = { u.fab with ports := t.fab.ports } ∧ t.run = u.run ∧ t.dev = u.dev)
          ∧ (dom → wired → u.incompatible h ≠ 0 → p.held = false → ∃ t, exec (.helloReceived cyc n payload) s = .next t
            ∧ (t.port n).hello = true ∧ (t.port n).held = true
            ∧ t.get (F.LD_JOIN_REFUSED_COUNT.ld (u.portLd n)) = min (u.get (F.LD_JOIN_REFUSED_COUNT.ld (u.portLd n)) + 1) (2 ^ 32 - 1)
            ∧ t.fab = { u.fab with ports := t.fab.ports } ∧ t.run = u.run ∧ t.dev = u.dev)
          ∧ (dom → wired → u.incompatible h = 0 → u.fab.lowSerial ≤ bits h 192 64 → u.fab.leader = true → u.fab.formed = true →
              (∀ m ∈ u.fab.members, m.serial < 2 ^ 64) → (∀ m ∈ u.fab.members, m.occupied = true → m.seat ≠ peer ∧ m.serial ≠ bits h 0 64) →
            ∃ t, exec (.helloReceived cyc n payload) s = .next t ∧ (t.port n).hello = false
              ∧ t.fab.members = (u.fab.members.filter fun m => m.seat != peer) ++ [⟨peer, bits h 0 64, true⟩]
              ∧ t.fab.joins = u.fab.joins ++ [peer] ∧ t.fab.pendingJoin = true)
          ∧ (dom → wired → u.incompatible h = 0 → u.fab.leader = false → u.seat = 0xFFF → bits h 96 12 ≠ 0xFFF →
            ∃ t, exec (.helloReceived cyc n payload) s = .next t ∧ t.fab.formed = true ∧ t.fab.pendingJoin = true ∧ t.fab.calibrating = 64
              ∧ t.clk = { u.clk with epoch := t.clk.epoch } ∧ (t.port n).hello = false
              ∧ t.seat = u.neighbour (bits h 96 12) (u.portDim (bits h 110 5)) (u.portPlus (bits h 110 5)) % 2 ^ 12))
      ∧ (∀ seat, on →
          (∀ m ∈ u.fab.members, m.seat = seat → m.occupied = true → ∃ t, exec (.memberReceived cyc (.departed seat)) s = .next t
            ∧ (∀ x ∈ t.fab.members, x.seat = seat → x.occupied = false)
            ∧ (u.run.sealSent = false → t.run.flags.depart = true) ∧ (u.run.sealSent = true → t.run.nextFlags.depart = true)
            ∧ t.fab = { u.fab with members := t.fab.members } ∧ t = { u with fab := t.fab, run := t.run })
          ∧ ((∀ m ∈ u.fab.members, m.seat = seat → m.occupied = false) → exec (.memberReceived cyc (.departed seat)) s = .next u)
          ∧ ∀ serial,
            (u.fab.leader = false → u.fab.formed = false → exec (.memberReceived cyc (.present seat serial)) s = .next u)
            ∧ (u.fab.leader = false → u.fab.formed = true → exec (.memberReceived cyc (.present seat serial)) s
                = .next { u with fab := { u.fab with members := (u.fab.members.filter fun m => m.seat != seat) ++ [⟨seat, serial, true⟩] } })
            ∧ (u.fab.leader = true → u.hasMember seat = true → exec (.memberReceived cyc (.present seat serial)) s = .next u)
            ∧ (u.fab.leader = true → u.fab.formed = true → u.hasMember seat = false → ∃ t, exec (.memberReceived cyc (.present seat serial)) s = .next t
                ∧ t.fab.members = (u.fab.members.filter fun m => m.seat != seat) ++ [⟨seat, serial, true⟩]
                ∧ t.fab.joins = u.fab.joins ++ [seat] ∧ t.fab.pendingJoin = true ∧ t = { u with fab := t.fab }))
      ∧ (¬ on → (∀ msg, exec (.memberReceived cyc msg) s = .next u) ∧ ∀ ld first es, exec (.routeReceived cyc ld first es) s = .next u)
      ∧ (∀ seat port peer, on → exec (.memberReceived cyc (.linkLoss seat port peer)) s = .next (if u.fab.leader then u.noteLoss seat port peer else u))
      ∧ (let elect := on ∧ u.fab.leader = false ∧ u.get F.LD_DOMAIN_CFG_ID ≠ 0
          ∧ u.fab.lowSerial = u.fuses.serial ∧ u.get F.LD_FORM_CFG_SETTLE ≤ u.fab.held
        (elect → ∃ t, exec (.leaderElected cyc) s = .next t ∧ t.fab.leader = true ∧ t.hasMember u.ownSeat = true ∧ t.fab.lowSerial = u.fab.lowSerial
            ∧ t.dev = u.dev ∧ t.clk = u.clk ∧ (∀ m, (t.port m).up = (u.port m).up))
          ∧ (¬ elect → exec (.leaderElected cyc) s = .next u))
      ∧ (let gone := on ∧ u.fab.formed = true ∧ u.fab.leader = false ∧ 3 ≤ u.fab.noLdr
        (gone → ∃ t, exec (.leaderLost cyc) s = .next t ∧ t.fab.lowSerial = u.fuses.serial ∧ t.fab.held = 0 ∧ t.fab.noLdr = 0
            ∧ (∀ m ∈ t.fab.members, m.occupied = true → m ∈ u.fab.members) ∧ t.fab.ports = u.fab.ports ∧ t.dev = u.dev ∧ t.clk = u.clk)
          ∧ (¬ gone → exec (.leaderLost cyc) s = .next u))
      ∧ (∀ ld first es, on → ld < u.fab.routeNext.length → tabWf (u.fab.routeNext.getD ld []) = true →
        ∃ t, exec (.routeReceived cyc ld first es) s = .next t ∧ t = { u with fab := { u.fab with routeNext := t.fab.routeNext } }
          ∧ (∀ i, i < es.length → tGet (t.fab.routeNext.getD ld []) (first + i) = es.getD i 0 % 32)
          ∧ (∀ k, k < first ∨ first + es.length ≤ k → tGet (t.fab.routeNext.getD ld []) k = tGet (u.fab.routeNext.getD ld []) k)
          ∧ (∀ j, j ≠ ld → t.fab.routeNext.getD j [] = u.fab.routeNext.getD j []))

/-- A marker on an open fabric port joins the combined marker of the edge: seats add, flags and causes are ORed; on a port that
is down or hello-only and on a twin port it does nothing. At the leader a marker without LDR does no more. Elsewhere its
offset goes to LD_BEAT_OFFSET, offsets beyond ±1 µs count in a row, and within it the count restarts; a marker without LDR
does no more there; with LDR the leader's SWAP is taken over, a joiner takes its beat, and a seat that missed the swap
marker swaps with the marker that says the others did. Three edges in a row beyond the limit send error 0x0407, class F;
fewer do nothing. -/
def Obligations.BeatMarkers : Prop :=
  (∀ (s : State) (cyc n : Nat) (mk : Marker) (off : Int), let u := s.tick cyc
    let p := u.port n
    let both := match u.fab.comb with
      | some c => combineMarks c mk
      | none => mk
    let heard := u.setPort n { p with heard := true, miss := 0 }
    let w : State := { heard with fab := { heard.fab with marks := u.fab.marks ++ [(n, mk)], comb := some both } }
    let open_ := p.up = true ∧ p.hello = false ∧ n < 16
    u.dev ≠ .off →
    (n < 18 → ¬ open_ → exec (.markerReceived cyc n mk off) s = .next u)
      ∧ (open_ → u.fab.leader = true → mk.ldr = false → exec (.markerReceived cyc n mk off) s = .next w)
      ∧ (open_ → u.fab.leader = false → mk.ldr = false → ∃ t, exec (.markerReceived cyc n mk off) s = .next t
          ∧ (tabWf u.regs = true → t.get (F.LD_BEAT_OFFSET_OFFSET.ld (u.portLd n)) = unsext 16 off)
          ∧ t = { w with regs := t.regs, host := t.host
                         fab := { w.fab with skewEvt := t.fab.skewEvt, far := if 4000 < off.natAbs then u.fab.far + 1 else 0 } })
      ∧ (open_ → u.fab.leader = false → mk.ldr = true → ∃ t, exec (.markerReceived cyc n mk off) s = .next t
          ∧ t.fab.comb = some both ∧ t.fab.marks = w.fab.marks ∧ t.dev = u.dev
          ∧ (tabWf u.regs = true → t.get (F.LD_BEAT_OFFSET_OFFSET.ld (u.portLd n)) = unsext 16 off)
          ∧ t.fab.far = (if 4000 < off.natAbs then u.fab.far + 1 else 0)
          ∧ (u.fab.pendingJoin = false → t.plan.swapBit = mk.swap)
          ∧ (u.fab.pendingJoin = true → t.clk = { u.clk with beat := mk.beat } ∧ t.plan = u.plan)
          ∧ (u.run.swapMiss = false → t.t0 = u.t0 ∧ t.t1 = u.t1)
          ∧ (∀ c, u.run.swapMiss = true → u.fab.pendingJoin = false → u.clk.pos = some 0 → u.measuring = true → mk.beat = u.clk.beat →
              mk.swapped = true → u.plan.next = some c → t.plan.card = some c ∧ t.plan.next = none ∧ t.run.swapMiss = false))
      ∧ (open_ → u.fab.leader = true → mk.ldr = true → ∃ t, exec (.markerReceived cyc n mk off) s = .next t
          ∧ t.fab.comb = some both ∧ t.fab.marks = w.fab.marks ∧ t.dev = u.dev))
    ∧ (∀ (s : State) (cyc : Nat), let u := s.tick cyc
      u.dev ≠ .off → (u.fab.far < 3 → exec (.beatOffsetLimit cyc) s = .next u)
        ∧ (3 ≤ u.fab.far → u.dev ≠ .boot → ∃ fig, exec (.beatOffsetLimit cyc) s = .next { u with err := { u.err with
            inFlight := u.err.inFlight ++ [⟨0x0407, ⟨12, 5, 0⟩, u.clk.beat, u.clk.cyc, fig, 0⟩] } })
        ∧ (3 ≤ u.fab.far → u.dev = .boot → ∃ at_ fig, exec (.beatOffsetLimit cyc) s = .next { u with free := u.free + 1, err := { u.err with
            inFlight := u.err.inFlight ++ [⟨0x0407, ⟨12, 5, 0⟩, u.clk.beat, at_, fig, 0⟩] } }))
    ∧ (∀ a b : Marker, let c := combineMarks a b
      c.seen = a.seen + b.seen ∧ c.cause = a.cause ||| b.cause ∧ (c.drop = true ↔ a.drop = true ∨ b.drop = true)
        ∧ (c.sealed = true ↔ a.sealed = true ∨ b.sealed = true) ∧ (a.ldr = false → b.ldr = true → c.swap = b.swap ∧ c.step = b.step ∧ c.exp = b.exp ∧ c.clean = b.clean))

/-- An accumulate tile that arrives in its beat replaces an untouched granule's location and adds to a touched one's, with its
count; a sum that is no finite number flags the measure; a line is poison afterwards exactly if the tile was, or its touched
line; a late tile is discarded and counted; no other pair byte changes. While the rate switches no tile is applied and no
slot offered. An offered slot goes to the requester of lowest rank, then longest wait, then lowest number (the reserved VG2
grant: longest wait first): its request leaves, its longest wait is kept and the grant counts; a running figure behind its
schedule takes the slot instead, and one that the card earmarks goes to its requester if that asks, uncounted. On VG4 a wait
beyond STARVE_US raises the flag once. -/
def Obligations.SlowWrites : Prop :=
  (∀ (s : State) (cyc src mu : Nat), let u := s.tick cyc
    u.dev ≠ .off →
    (u.switching = true ∨ u.run.acc.find? (fun a => a.src == src && a.mu == mu) = none → exec (.accumulateWrite cyc src mu) s = .next u)
      ∧ (∀ a, u.switching = false → u.run.acc.find? (fun a => a.src == src && a.mu == mu) = some a →
          let w : State := { u with run := { u.run with acc := u.run.acc.erase a } }
          (a.beat ≠ u.clk.beat → exec (.accumulateWrite cyc src mu) s = .next (w.count (F.MU_ACC_LATE_COUNT.mu mu) 1))
            ∧ (a.beat = u.clk.beat → exec (.accumulateWrite cyc src mu) s = .next (w.applyAcc a))))
    ∧ (∀ (s : State) (a : AccWrite), a.vals.length = 1024 → memWf s.t1.pair = true → tabWf s.t1.touch0 = true → tabWf s.t1.touch1 = true → tabWf s.t1.cnt = true →
      let k := granKey a.mu a.gran
      let l := s.accLoc k
      let t := s.applyAcc a
      (s.touched k = false → word32s (t.locRead k l) 1024 = a.vals ∧ tGet t.t1.cnt k = a.tokens ∧ t.run = s.run)
        ∧ (s.touched k = true → (∀ i, i < 1024 → (word32s (t.locRead k l) 1024).getD i fZero = fAdd ((word32s (s.locRead k l) 1024).getD i fZero) (a.vals.getD i fZero))
            ∧ tGet t.t1.cnt k = min (tGet s.t1.cnt k + a.tokens) (2 ^ 32 - 1)
            ∧ ((word32s (t.locRead k l) 1024).any fNonfin = true → s.measuring = true → s.run.sealSent = false → t.run.flags.nonfin = true)
            ∧ ((word32s (t.locRead k l) 1024).any fNonfin = false → t.run = s.run))
        ∧ t.touched k = true ∧ (∀ j, j ≠ k → t.touched j = s.touched j)
        ∧ (∀ i, i < 64 → (t.linePoisoned k l i = true ↔ a.poison = true ∨ (s.touched k = true ∧ s.linePoisoned k l i = true)))
        ∧ (∀ x, x < locBase k l ∨ locBase k l + 4096 ≤ x → mGet t.t1.pair x = mGet s.t1.pair x) ∧ t.t1.tag = s.t1.tag ∧ t.t1.mem = s.t1.mem)
    ∧ (∀ (s : State) (mu : Nat) (reserved : Bool) (l : List ArbReq) (r : ArbReq), s.winner mu reserved l = some r →
      r ∈ l ∧ ∀ x ∈ l, (if reserved then r.since < x.since ∨ (r.since = x.since ∧ (s.rankOf mu r.req < s.rankOf mu x.req ∨ (s.rankOf mu r.req = s.rankOf mu x.req ∧ r.req ≤ x.req)))
        else s.rankOf mu r.req < s.rankOf mu x.req ∨ (s.rankOf mu r.req = s.rankOf mu x.req ∧ (r.since < x.since ∨ (r.since = x.since ∧ r.req ≤ x.req)))))
    ∧ (∀ (s : State) (mu : Nat) (r : ArbReq) (counted : Bool), let most := (F.MU_ARB_MAXWAIT_n_CYCLES.at 4 r.req).mu mu
      let won := (F.MU_ARB_GRANT_n_COUNT.at 4 r.req).mu mu
      ∃ w : State, s.grant mu r counted = w.serve mu (r.key % 24) r.req
        ∧ w = { s with regs := w.regs, t1 := { s.t1 with req := s.t1.req.erase r, moved := w.t1.moved, grants := w.t1.grants } }
        ∧ (counted = false → w.t1.grants = s.t1.grants)
        ∧ (tabWf s.regs = true → (∀ k, tGet s.regs k < 2 ^ 32) → mu < 8 → r.req < 7 →
            w.get most = max (s.get most) (min (s.clk.base + s.clk.cyc - r.since) (2 ^ 32 - 1))
              ∧ w.get won = if counted then min (s.get won + 1) (2 ^ 32 - 1) else s.get won))
    ∧ (∀ (s : State) (cyc mu ch : Nat) (reqs : List Nat) (use : SlotUse), let u := s.tick cyc
      let w := u.settleWaits mu
      let held := u.t1.req.filter fun r => r.key == chKey mu ch
      let add := (reqs.eraseDups.filter fun n => decide (n < 7) && !(held.any fun r => r.req == n)).map fun n => (⟨chKey mu ch, n, u.clk.base + u.clk.cyc⟩ : ArbReq)
      let v : State := { w with t1 := { w.t1 with req := u.t1.req ++ add } }
      u.dev ≠ .off →
      (u.nMu ≤ mu ∨ (u.dev ≠ .running ∧ u.dev ≠ .draining) ∨ u.switching = true → exec (.slotArbitration cyc mu ch reqs use) s = .next u)
        ∧ (mu < u.nMu → u.dev = .running ∨ u.dev = .draining → u.switching = false →
            let offer := match v.winner mu (!v.vg4 && (tGet v.t1.grants (chKey mu ch) + 1) % max 1 (v.get (F.MU_ARB_CFG_NTH.mu mu)) == 0) (held ++ add) with
              | some r => v.grant mu r true
              | none => v
            (∀ fid, use = .catchUp fid → exec (.slotArbitration cyc mu ch reqs use) s = .next (if (u.stat fid).phase = .running then v else offer))
              ∧ (use = .open_ → exec (.slotArbitration cyc mu ch reqs use) s = .next offer)
              ∧ (∀ q, use = .earmark q →
                  (∀ r, u.earmarked (chKey mu ch) q = true → (held ++ add).find? (fun r => r.req == q) = some r →
                    exec (.slotArbitration cyc mu ch reqs use) s = .next (v.grant mu r false))
                  ∧ (u.earmarked (chKey mu ch) q = false ∨ (held ++ add).find? (fun r => r.req == q) = none →
                    exec (.slotArbitration cyc mu ch reqs use) s = .next offer))))
    ∧ (∀ (s : State) (cyc mu ch req : Nat), (s.tick cyc).dev ≠ .off → (s.tick cyc).t1.req.find? (fun r => r.key == chKey mu ch && r.req == req) = none →
      exec (.arbStarve cyc mu ch req) s = .next (s.tick cyc))
    ∧ (∀ (s : State) (cyc mu ch req : Nat) (r : ArbReq), let u := s.tick cyc
      let wait := u.clk.base + u.clk.cyc - r.since
      u.dev ≠ .off → u.t1.req.find? (fun r => r.key == chKey mu ch && r.req == req) = some r →
      (u.vg4 = false ∨ wait ≤ u.get (F.MU_ARB_CFG_STARVE_US.mu mu) * 1900 ∨ bit (u.get (F.MU_ARB_STARVE_FLAG.mu mu)) req = true →
          exec (.arbStarve cyc mu ch req) s = .next u)
        ∧ (u.vg4 = true → u.get (F.MU_ARB_CFG_STARVE_US.mu mu) * 1900 < wait → bit (u.get (F.MU_ARB_STARVE_FLAG.mu mu)) req = false →
          (∃ t, exec (.arbStarve cyc mu ch req) s = .next t ∧ t.t1 = { u.t1 with flagged := u.t1.flagged ++ [(mu, req)] }
            ∧ (tabWf u.regs = true → req < 7 → bit (t.get (F.MU_ARB_STARVE_FLAG.mu mu)) req = true)
            ∧ t = { u with regs := t.regs, t1 := t.t1, host := t.host })
          ∧ (u.evqOn = false → exec (.arbStarve cyc mu ch req) s = .next { u.set (F.MU_ARB_STARVE_FLAG.mu mu) (u.get (F.MU_ARB_STARVE_FLAG.mu mu) + 2 ^ req) with
            t1 := { u.t1 with flagged := u.t1.flagged ++ [(mu, req)] } })))

/-- MR4_REPORT keeps the highest need of the phrase, in hundredths of the base rate, and the high limit is class F. A build
plans the lowest step at or above it, one higher with GUARD. EXTRA_REFRESH counts beyond the planned rate alone, and not
while the rate switches, the first of a phrase on a die being class C. Inline ECC, on the line's own channel, counts and
logs a corrected line and queues its writeback, reads an uncorrectable one again, and poisons and counts one read again that
fails again. The patrol keeps its place and treats a corrected line alike; out of RUNNING and DRAINING, and while the rate
switches, it does nothing. Each does nothing on a die that is not populated. -/
def Obligations.SlowChecks : Prop :=
  (∀ (s : State) (cyc mu ch line rate : Nat) (off : Bool) (disp fid : Option Nat), let u := s.tick cyc
    let w : State := { u with t1 := { u.t1 with mr4 := u.t1.mr4.set mu (max (u.t1.mr4.getD mu 0) rate) } }
    let need := u.t1.mr4.getD mu 0
    let planned := 100 * 2 ^ u.get (F.MU_REF_CFG_RATE.mu mu)
    let src : Source := ⟨4 + mu, 4, ch⟩
    let on := (u.dev = .running ∨ u.dev = .draining) ∧ u.switching = false
    let own := (if line < 2 ^ 32 then line else line - 2 ^ 32) / 16 % 24
    u.dev ≠ .off →
    (u.nMu ≤ mu → exec (.mr4Report cyc mu rate off) s = .next u ∧ exec (.extraRefresh cyc mu ch off disp) s = .next u
        ∧ (∀ k, exec (.t1InlineEcc cyc mu ch line k fid) s = .next u) ∧ exec (.patrolScrub cyc mu line off) s = .next u)
      ∧ (¬ on → exec (.patrolScrub cyc mu line off) s = .next u)
      ∧ (u.switching = true ∨ need ≤ planned → exec (.extraRefresh cyc mu ch off disp) s = .next u)
      ∧ (ch ≠ own → ∀ k, exec (.t1InlineEcc cyc mu ch line k fid) s = .next u)
      ∧ (mu < u.nMu →
        exec (.mr4Report cyc mu rate false) s = .next w
          ∧ exec (.mr4Report cyc mu rate true) s = .next (w.detect ⟨Er.dramTemp, ⟨4 + mu, 4, 0⟩, none, 0⟩) ∧ Er.dramTemp / 256 = 4
          ∧ (u.switching = false → planned < need → mu ∈ u.t1.extraLog →
              exec (.extraRefresh cyc mu ch off disp) s = .next (u.count (F.MU_REF_EXTRA_COUNT.mu mu) 1))
          ∧ (u.switching = false → planned < need → mu ∉ u.t1.extraLog →
              exec (.extraRefresh cyc mu ch off disp) s = .next (State.detect { u.count (F.MU_REF_EXTRA_COUNT.mu mu) 1 with
                t1 := { u.t1 with extraLog := u.t1.extraLog ++ [mu] } } ⟨Er.extraRefresh, ⟨4 + mu, 4, ch⟩, none, 0⟩))
          ∧ Er.extraRefresh / 256 = 1 ∧ Er.t1Corr / 256 = 1
          ∧ (ch = own →
            exec (.t1InlineEcc cyc mu ch line .corrected fid) s
                = .next { State.detect (u.count (F.MU_ECC_CORR_COUNT.mu mu) 1) ⟨Er.t1Corr, src, fid, line⟩ with t1 := { u.t1 with wb := u.t1.wb ++ [t1Line mu line] } }
              ∧ exec (.t1InlineEcc cyc mu ch line .uncorrectable fid) s = .next { u with t1 := { u.t1 with reread := u.t1.reread ++ [t1Line mu line] } }
              ∧ (t1Line mu line ∉ u.t1.reread → exec (.t1InlineEcc cyc mu ch line .afterReread fid) s = .next u)
              ∧ (t1Line mu line ∈ u.t1.reread → ∃ t, exec (.t1InlineEcc cyc mu ch line .afterReread fid) s = .next t ∧ t1Line mu line ∉ t.t1.reread
                  ∧ t1Line mu line ∈ t.t1.poison ∧ (∀ x, x ≠ t1Line mu line → (x ∈ t.t1.poison ↔ x ∈ u.t1.poison))
                  ∧ (∃ x : ErrRec, x.code = 0x0202 ∧ x.src = src ∧ x.detail = line ∧ t.err = { u.err with inFlight := u.err.inFlight ++ [x] })
                  ∧ (tabWf u.regs = true → t.get (F.MU_ECC_UNCORR_COUNT.mu mu) = min (u.get (F.MU_ECC_UNCORR_COUNT.mu mu) + 1) (2 ^ 32 - 1))
                  ∧ t.t1.mem = u.t1.mem ∧ t.t1.pair = u.t1.pair ∧ t.dev = u.dev ∧ t.clk = u.clk)
              ∧ exec (.t1InlineEcc cyc mu ch line .linkCorrected fid) s = .next (u.count (F.MU_LINK_CORR_COUNT.mu mu) 1))
          ∧ (on → exec (.patrolScrub cyc mu line false) s = .next { u with t1 := { u.t1 with patrol := tSet u.t1.patrol mu line } })
          ∧ (on → ∃ x : ErrRec, x.code = 0x0102 ∧ x.src = ⟨4 + mu, 4, own⟩ ∧ exec (.patrolScrub cyc mu line true) s
              = .next { u.count (F.MU_ECC_CORR_COUNT.mu mu) 1 with err := { u.err with inFlight := u.err.inFlight ++ [x] }, t1 := { u.t1 with patrol := tSet u.t1.patrol mu line, wb := u.t1.wb ++ [t1Line mu line] } })))
    ∧ (∀ r, planRate false r = (if r ≤ 100 then 0 else if r ≤ 200 then 1 else 2) ∧ planRate true r = if r ≤ 100 then 0 else 2)

/-- SNAP_DONE does nothing without an open cut or while the drain has granules left; otherwise the snapshot of the cut joins the
cellar, complete, nothing that stood before it leaves, the cut closes and CEL_LAST names its measure. SNAP_DOMAIN at the
leader takes the last reported measure into CEL_DOMAIN_LAST. A failed NAND block uses up one spare, and with the last one
the cellar is read-only. -/
def Obligations.SnapshotsComplete : Prop :=
  ∀ (s : State) (cyc : Nat), let u := s.tick cyc
    u.dev ≠ .off →
    (u.cel.open_ = none → exec (.snapDone cyc) s = .next u)
      ∧ (∀ c, u.cel.open_ = some c → (∃ r ∈ c.readers, r.kind = 0 ∧ r.left ≠ []) → exec (.snapDone cyc) s = .next u)
      ∧ (∀ c, u.cel.open_ = some c → (∀ r ∈ c.readers, r.kind = 0 → r.left = []) → ∃ t, exec (.snapDone cyc) s = .next t
          ∧ t.cel.snaps = u.cel.snaps ++ [u.snapOf c] ∧ (u.snapOf c).complete = true ∧ (u.snapOf c).measure = c.measure
          ∧ (u.snapOf c).step = c.tag + 1 ∧ (u.snapOf c).exp = c.exp ∧ (u.snapOf c).clean = c.clean ∧ (u.snapOf c).seat = u.seat
          ∧ t.cel.open_ = none ∧ t.cel.wear = u.cel.wear + (u.snapOf c).bytes ∧ t.t1 = { u.t1 with sealedMap := [] }
          ∧ (tabWf u.regs = true → t.get F.CEL_LAST_MEASURE = c.measure % 2 ^ F.CEL_LAST_MEASURE.w)
          ∧ t.dev = u.dev ∧ t.clk = u.clk ∧ t.plan = u.plan ∧ t.t0 = u.t0 ∧ t.fab = u.fab ∧ t.run = u.run)
      ∧ (u.cel.reports = [] ∨ u.fab.leader = false → exec (.snapDomain cyc) s = .next u)
      ∧ (∀ r, u.fab.leader = true → u.cel.reports.getLast? = some r → ∃ t, exec (.snapDomain cyc) s = .next t
          ∧ t.cel = { u.cel with reports := [] } ∧ (tabWf u.regs = true → t.get F.CEL_DOMAIN_LAST_MEASURE = r.2 % 2 ^ F.CEL_DOMAIN_LAST_MEASURE.w)
          ∧ t = { u with regs := t.regs, cel := t.cel, host := t.host })
      ∧ (u.dev = .boot ∨ u.cel.readOnly = true → exec (.nandProgramFail cyc) s = .next u)
      ∧ (u.dev ≠ .boot → u.cel.readOnly = false → ∃ t, exec (.nandProgramFail cyc) s = .next t
          ∧ t.cel = { u.cel with spare := u.cel.spare - 1, readOnly := decide (u.cel.spare ≤ 1) }
          ∧ (∃ x : ErrRec, x.code = Er.cellarBlock ∧ x.src = ⟨14, 8, 0⟩ ∧ t.err = { u.err with inFlight := u.err.inFlight ++ [x] })
          ∧ t = { u with regs := t.regs, err := t.err, cel := t.cel })

/-- The pattern list holds 90 values in strictly ascending order; a 16-bit value stands in it exactly if every row and every
column of its block keeps two positions, bit 4 r + c being row r, column c; numbers 90 to 127 name none; the numbers of
Table 7.7 name its values; each choice of row 3 has 15 patterns, in steps of 15; an element of a 2:4 working copy has a code
exactly if its block's pattern keeps its outer index modulo 4 as row, its inner as column. -/
def Obligations.Patterns24 : Prop :=
  patterns.length = 90 ∧ patterns.Pairwise (· < ·)
    ∧ (∀ p, p < 65536 → (p ∈ patterns ↔ (∀ r, r < 4 → ((List.range 4).filter fun c => p.testBit (4 * r + c)).length = 2)
        ∧ (∀ c, c < 4 → ((List.range 4).filter fun r => p.testBit (4 * r + c)).length = 2)))
    ∧ (∀ p ∈ patterns, p < 65536) ∧ (∀ n, 90 ≤ n → patternAt n = none) ∧ (∀ n, n < 90 → patternAt n = patterns[n]?)
    ∧ patternAt 0 = some 0x33CC ∧ patternAt 1 = some 0x35AC ∧ patternAt 2 = some 0x35CA ∧ patternAt 66 = some 0xA5A5 ∧ patternAt 89 = some 0xCC33
    ∧ (∀ n, n < 90 → ∀ m, m < 90 → (n / 15 = m / 15 ↔ patterns.getD n 0 / 4096 = patterns.getD m 0 / 4096))
    ∧ (∀ (s : State) (p : Placement) (t : BitVec 512) (i j pat : Nat), tMask24 t = true → s.wcPattern p t i j = some pat →
        (s.wcSlot p t i j).isSome = pat.testBit (4 * (i % 4) + j % 4))

/-- In slot mode the bank is offset[9:6], in hash mode that XOR offset[13:10] XOR offset[17:14]. In both modes bank and line
offset[20:10] together name each 64-byte line of a slice once, and the sixteen lines of each aligned kilobyte lie in sixteen
different banks. An access asks for the bank by the mode its die's CD_SP_CFG sets. -/
def Obligations.Banks : Prop :=
  (∀ off, bankOf false off = off / 64 % 16)
    ∧ (∀ off, bankOf true off = Nat.xor (Nat.xor (off / 64 % 16) (off / 1024 % 16)) (off / 16384 % 16))
    ∧ (∀ (hash : Bool) (a b : Nat), a < 2 ^ 21 → b < 2 ^ 21 → bankOf hash a = bankOf hash b → a / 1024 = b / 1024 → a / 64 = b / 64)
    ∧ (∀ (s : State) (die cl line : Nat), s.offLines die cl line 1 = true ↔
        bankKey die cl (bankOf (s.get (F.CD_SP_CFG_MODE.cd die) == 1) (line * 64)) ∈ s.t0.bankOff)
    ∧ (∀ (hash : Bool) (kb bank : Nat), kb < 2048 → bank < 16 → ∃ i, i < 16 ∧ bankOf hash (kb * 1024 + i * 64) = bank)

/-- Whenever a step changes the device state: OFF is entered only by PWRGD falling, an input voltage fault or the thermal
shutdown, with the Callers stopped and the host link down; BOOT only by a reset; UNCONFIGURED only from BOOT when the last
step ends; NEGOTIATED only from UNCONFIGURED, and RUNNING only from those two, by START, FEAT_ACCEPT, the T1 clear ending or
a register write; DRAINING only from RUNNING by STOP; HALTED only by the drain, by an error or by a boot that fails; HALTED
is left only to BOOT or OFF, OFF only by POWER_ON_RESET. (That GO counts in UNCONFIGURED is log entry 13, that OFF ignores
every other command log entry 1.) -/
def Obligations.DeviceStates : Prop :=
  ∀ s t : State, step s = .next t → t.dev ≠ s.dev → ∃ c, s.pending.head? = some c
    ∧ (t.dev = .off → c.cutsPower = true ∧ t.run.stopped = true ∧ t.host.link = false)
    ∧ (t.dev = .boot → c.resets = true)
    ∧ (t.dev = .unconfigured → s.dev = .boot ∧ ∃ cyc, c = .bootComplete cyc)
    ∧ (t.dev = .negotiated → s.dev = .unconfigured ∧ c.configures = true)
    ∧ (t.dev = .running → (s.dev = .unconfigured ∨ s.dev = .negotiated) ∧ c.configures = true)
    ∧ (t.dev = .draining → s.dev = .running ∧ ∃ cyc n, c = .stop cyc n)
    ∧ (t.dev = .halted → (s.dev = .draining ∧ ∃ cyc, c = .drainToHalt cyc) ∨ c.handlesErrors = true ∨ c.resets = true ∨ c.boots = true)
    ∧ (s.dev = .halted → t.dev = .boot ∨ t.dev = .off)
    ∧ (s.dev = .off → ∃ cyc straps test, c = .powerOnReset cyc straps test)

/-- Whenever a step answers a next state from a state whose register file, byte stores, tag, count, touched and sync tables and
next routing tables are in canonical form, with every register word below 2^32 (and the fuses a reset copies into registers
within their words), the next state's are too; State.reset's are. Statements that read a store after a write take this as
their premise. -/
def Obligations.StoresStayCanonical : Prop :=
  (State.reset.canonical = true ∧ State.reset.wordsFit)
    ∧ ∀ s t : State, s.canonical = true → s.wordsFit → step s = .next t → t.canonical = true ∧ t.wordsFit
end

