-- ==== Sys2Proof/Laws/Keeps.lean ====
section
/-! SUPPORT. For every operation `f` of the machine one lemma `f_keeps`: it changes neither the queue of waiting commands
nor the fuses (those that raise the anti-rollback count: not the queue). For every command the same in the form `Answers`:
it answers a next state of which this holds. -/
namespace Sys2Proof.Machine
@[simp] theorem State.pending_ite (c : Prop) [Decidable c] (a b : State) : (if c then a else b).pending = if c then a.pending else b.pending := by split <;> rfl
@[simp] theorem State.fuses_ite (c : Prop) [Decidable c] (a b : State) : (if c then a else b).fuses = if c then a.fuses else b.fuses := by split <;> rfl
@[simp] theorem foldl_pending {α : Type} (g : State → α → State) (h : ∀ t x, (g t x).pending = t.pending) :
    ∀ (l : List α) (s : State), (l.foldl g s).pending = s.pending
  | [], _ => rfl
  | x :: l, s => by rw [List.foldl_cons, foldl_pending g h l, h]
@[simp] theorem foldl_fuses {α : Type} (g : State → α → State) (h : ∀ t x, (g t x).fuses = t.fuses) :
    ∀ (l : List α) (s : State), (l.foldl g s).fuses = s.fuses
  | [], _ => rfl
  | x :: l, s => by rw [List.foldl_cons, foldl_fuses g h l, h]
theorem foldl_keeps {α : Type} (g : State → α → State)
    (h : ∀ t x, (g t x).pending = t.pending ∧ (g t x).fuses = t.fuses) (l : List α) (s : State) :
    (l.foldl g s).pending = s.pending ∧ (l.foldl g s).fuses = s.fuses :=
  ⟨foldl_pending g (fun t x => (h t x).1) l s, foldl_fuses g (fun t x => (h t x).2) l s⟩
theorem foldl_keeps_fst {α β : Type} (g : State × β → α → State × β)
    (h : ∀ t x, (g t x).1.pending = t.1.pending ∧ (g t x).1.fuses = t.1.fuses) (l : List α) (s : State × β) :
    (l.foldl g s).1.pending = s.1.pending ∧ (l.foldl g s).1.fuses = s.1.fuses := by
  induction l generalizing s with
  | nil => exact ⟨rfl, rfl⟩
  | cons x l ih => exact ⟨(ih _).1.trans (h s x).1, (ih _).2.trans (h s x).2⟩
/-- The outcome is a next state, and it meets `P`. -/
def Answers (P : State → Prop) : Host.Outcome State Fault Refusal → Prop
  | .next t => P t
  | .fault _ => False
  | .refused _ => False
@[simp] theorem answers_next (P : State → Prop) (t : State) : Answers P (.next t) ↔ P t := Iff.rfl
@[simp] theorem answers_ite (P : State → Prop) (c : Prop) [Decidable c] (a b : Host.Outcome State Fault Refusal) :
    Answers P (if c then a else b) ↔ if c then Answers P a else Answers P b := by split <;> rfl

@[simp] theorem State.set_keeps (s : State) (f : Field) (v : Nat) :
    (State.set s f v).pending = s.pending ∧ (State.set s f v).fuses = s.fuses := by
  simp [State.set]

@[simp] theorem State.closeCut_keeps (s : State) :
    (State.closeCut s).pending = s.pending ∧ (State.closeCut s).fuses = s.fuses := by
  simp [State.closeCut]

@[simp] theorem State.count_keeps (s : State) (f : Field) (n : Nat) :
    (State.count s f n).pending = s.pending ∧ (State.count s f n).fuses = s.fuses := by
  simp [State.count]

@[simp] theorem State.hostPut_keeps (s : State) (addr : Nat) (n : Nat) (v : Nat) :
    (State.hostPut s addr n v).pending = s.pending ∧ (State.hostPut s addr n v).fuses = s.fuses := by
  simp [State.hostPut]

@[simp] theorem State.setGo_keeps (s : State) (g : GoLine) :
    (State.setGo s g).pending = s.pending ∧ (State.setGo s g).fuses = s.fuses := by
  simp [State.setGo]

@[simp] theorem State.recorded_keeps (s : State) (line : Nat) (vec : Option Nat) :
    (State.recorded s line vec).pending = s.pending ∧ (State.recorded s line vec).fuses = s.fuses := by
  simp [State.recorded]

@[simp] theorem State.putEvent_keeps (s : State) (e : EvtRec) :
    (State.putEvent s e).pending = s.pending ∧ (State.putEvent s e).fuses = s.fuses := by
  simp [State.putEvent]

@[simp] theorem State.writeEvent_keeps (s : State) (e : EvtRec) :
    (State.writeEvent s e).pending = s.pending ∧ (State.writeEvent s e).fuses = s.fuses := by
  simp [State.writeEvent]

@[simp] theorem State.emit_keeps (s : State) (kind : Nat) (die : Nat) (payload : Nat) :
    (State.emit s kind die payload).pending = s.pending ∧ (State.emit s kind die payload).fuses = s.fuses := by
  simp [State.emit]

@[simp] theorem State.abandonCut_keeps (s : State) (cause : Nat) :
    (State.abandonCut s cause).pending = s.pending ∧ (State.abandonCut s cause).fuses = s.fuses := by
  (unfold State.abandonCut; simp only []; repeat' split) <;> simp

@[simp] theorem State.clearCounters_keeps (s : State) :
    (State.clearCounters s).pending = s.pending ∧ (State.clearCounters s).fuses = s.fuses := by
  simp [State.clearCounters]

@[simp] theorem State.enter_keeps (s : State) (d : DevState) (h : Nat) :
    (State.enter s d h).pending = s.pending ∧ (State.enter s d h).fuses = s.fuses := by
  simp [State.enter]

@[simp] theorem State.formAlone_keeps (s : State) :
    (State.formAlone s).pending = s.pending ∧ (State.formAlone s).fuses = s.fuses := by
  simp [State.formAlone]

@[simp] theorem State.setMeas_keeps (s : State) (i : Nat) (v : Nat) :
    (State.setMeas s i v).pending = s.pending ∧ (State.setMeas s i v).fuses = s.fuses := by
  simp [State.setMeas]

@[simp] theorem State.accept_keeps (s : State) :
    (State.accept s).pending = s.pending ∧ (State.accept s).fuses = s.fuses := by
  simp [State.accept]

@[simp] theorem State.setRing_keeps (s : State) (n : Nat) (r : Ring) :
    (State.setRing s n r).pending = s.pending ∧ (State.setRing s n r).fuses = s.fuses := by
  simp [State.setRing]

@[simp] theorem State.activate_keeps (s : State) (n : Nat) (d : BitVec 512) (datum : Nat) :
    (State.activate s n d datum).pending = s.pending ∧ (State.activate s n d datum).fuses = s.fuses := by
  simp [State.activate]

@[simp] theorem State.setPart_keeps (s : State) (x : Factored) :
    (State.setPart s x).pending = s.pending ∧ (State.setPart s x).fuses = s.fuses := by
  simp [State.setPart]

@[simp] theorem State.addB_keeps (s : State) (q : Param) (gi : Nat) :
    (State.addB s q gi).pending = s.pending ∧ (State.addB s q gi).fuses = s.fuses := by
  simp [State.addB]

@[simp] theorem State.draw_keeps (s : State) :
    (State.draw s).2.pending = s.pending ∧ (State.draw s).2.fuses = s.fuses := by
  simp [State.draw]

@[simp] theorem State.setPort_keeps (s : State) (n : Nat) (p : Port) :
    (State.setPort s n p).pending = s.pending ∧ (State.setPort s n p).fuses = s.fuses := by
  simp [State.setPort]

@[simp] theorem State.sendFlit_keeps (s : State) (n : Nat) (f : Flit) :
    (State.sendFlit s n f).pending = s.pending ∧ (State.sendFlit s n f).fuses = s.fuses := by
  simp [State.sendFlit]

@[simp] theorem State.tellMembers_keeps (s : State) (op : Nat) :
    (State.tellMembers s op).pending = s.pending ∧ (State.tellMembers s op).fuses = s.fuses := by
  simp [State.tellMembers]

@[simp] theorem State.ownRoutes_keeps (s : State) :
    (State.ownRoutes s).pending = s.pending ∧ (State.ownRoutes s).fuses = s.fuses := by
  simp [State.ownRoutes]

@[simp] theorem State.setSeat_keeps (s : State) (seat : Nat) :
    (State.setSeat s seat).pending = s.pending ∧ (State.setSeat s seat).fuses = s.fuses := by
  simp [State.setSeat]

@[simp] theorem State.tryForm_keeps (s : State) :
    (State.tryForm s).pending = s.pending ∧ (State.tryForm s).fuses = s.fuses := by
  simp [State.tryForm]

@[simp] theorem State.addMember_keeps (s : State) (seat : Nat) (serial : Nat) :
    (State.addMember s seat serial).pending = s.pending ∧ (State.addMember s seat serial).fuses = s.fuses := by
  simp [State.addMember]

@[simp] theorem State.adopt_keeps (s : State) (peerSeat : Nat) (peerPort : Nat) (peerSerial : Nat) :
    (State.adopt s peerSeat peerPort peerSerial).pending = s.pending ∧ (State.adopt s peerSeat peerPort peerSerial).fuses = s.fuses := by
  simp [State.adopt]

@[simp] theorem State.bankEdge_keeps (s : State) :
    (State.bankEdge s).pending = s.pending ∧ (State.bankEdge s).fuses = s.fuses := by
  simp [State.bankEdge]

@[simp] theorem State.openEvents_keeps (s : State) (b : Nat) :
    (State.openEvents s b).pending = s.pending ∧ (State.openEvents s b).fuses = s.fuses := by
  simp [State.openEvents]

@[simp] theorem State.powerCheck_keeps (s : State) (uj : Nat) :
    (State.powerCheck s uj).pending = s.pending ∧ (State.powerCheck s uj).fuses = s.fuses := by
  simp [State.powerCheck]

@[simp] theorem State.settleWaits_keeps (s : State) (mu : Nat) :
    (State.settleWaits s mu).pending = s.pending ∧ (State.settleWaits s mu).fuses = s.fuses := by
  simp [State.settleWaits]

@[simp] theorem State.syncEdge_keeps (s : State) (len : Nat) :
    (State.syncEdge s len).pending = s.pending ∧ (State.syncEdge s len).fuses = s.fuses := by
  simp [State.syncEdge]

@[simp] theorem State.setStat_keeps (s : State) (x : FigStat) :
    (State.setStat s x).pending = s.pending ∧ (State.setStat s x).fuses = s.fuses := by
  simp [State.setStat]

@[simp] theorem State.issue_keeps (s : State) (f : Fig) (e : BitVec 128) (el : Nat) :
    (State.issue s f e el).pending = s.pending ∧ (State.issue s f e el).fuses = s.fuses := by
  simp [State.issue]

@[simp] theorem State.noteWrite_keeps (s : State) (fid : Nat) (space : Nat) (old : Mem) (new : Mem) (keys : List Nat) :
    (State.noteWrite s fid space old new keys).pending = s.pending ∧ (State.noteWrite s fid space old new keys).fuses = s.fuses := by
  simp [State.noteWrite]

@[simp] theorem State.vMark_keeps (s : State) (f : Fig) (key : Nat) :
    (State.vMark s f key).pending = s.pending ∧ (State.vMark s f key).fuses = s.fuses := by
  simp [State.vMark]

@[simp] theorem State.vPut_keeps (s : State) (f : Fig) (r : Nat) (w : Nat) (codes : List Nat) :
    (State.vPut s f r w codes).pending = s.pending ∧ (State.vPut s f r w codes).fuses = s.fuses := by
  simp [State.vPut]

@[simp] theorem State.vSticky_keeps (s : State) (f : Fig) (perm : Bool) :
    (State.vSticky s f perm).pending = s.pending ∧ (State.vSticky s f perm).fuses = s.fuses := by
  simp [State.vSticky]

@[simp] theorem State.poisonFid_keeps (s : State) (fid : Nat) :
    (State.poisonFid s fid).pending = s.pending ∧ (State.poisonFid s fid).fuses = s.fuses := by
  simp [State.poisonFid]

@[simp] theorem State.poisonFig_keeps (s : State) (f : Fig) :
    (State.poisonFig s f).pending = s.pending ∧ (State.poisonFig s f).fuses = s.fuses := by
  simp [State.poisonFig]

@[simp] theorem State.vTouch_keeps (s : State) (f : Fig) (rs : List Nat) :
    (State.vTouch s f rs).pending = s.pending ∧ (State.vTouch s f rs).fuses = s.fuses := by
  simp [State.vTouch]

@[simp] theorem State.vTouch2_keeps (s : State) (f : Fig) (v : VInst) (rs : List Nat) :
    (State.vTouch2 s f v rs).pending = s.pending ∧ (State.vTouch2 s f v rs).fuses = s.fuses := by
  simp [State.vTouch2]

@[simp] theorem State.vArg_keeps (s : State) (f : Fig) (v : VInst) :
    (State.vArg s f v).pending = s.pending ∧ (State.vArg s f v).fuses = s.fuses := by
  simp [State.vArg]

@[simp] theorem State.maskPut_keeps (s : State) (f : Fig) (m : Nat) (l : List Bool) :
    (State.maskPut s f m l).pending = s.pending ∧ (State.maskPut s f m l).fuses = s.fuses := by
  simp [State.maskPut]

@[simp] theorem State.vCompare_keeps (s : State) (f : Fig) (v : VInst) :
    (State.vCompare s f v).pending = s.pending ∧ (State.vCompare s f v).fuses = s.fuses := by
  simp [State.vCompare]

@[simp] theorem State.flag_keeps (s : State) (f : Flags → Flags) :
    (State.flag s f).pending = s.pending ∧ (State.flag s f).fuses = s.fuses := by
  simp [State.flag]

@[simp] theorem State.setNonfinite_keeps (s : State) (f : Fig) (unit : Nat) :
    (State.setNonfinite s f unit).pending = s.pending ∧ (State.setNonfinite s f unit).fuses = s.fuses := by
  simp [State.setNonfinite]

@[simp] theorem State.tally_keeps (s : State) (f : Fig) (unit : Nat) (t : Tally) :
    (State.tally s f unit t).pending = s.pending ∧ (State.tally s f unit t).fuses = s.fuses := by
  simp [State.tally]

@[simp] theorem State.vWrite_keeps (s : State) (f : Fig) (v : VInst) (w : Nat) (res : List Nat) :
    (State.vWrite s f v w res).pending = s.pending ∧ (State.vWrite s f v w res).fuses = s.fuses := by
  simp [State.vWrite]

@[simp] theorem State.vRound_keeps (s : State) (f : Fig) (v : VInst) (vals : List FVal) :
    (State.vRound s f v vals).pending = s.pending ∧ (State.vRound s f v vals).fuses = s.fuses := by
  (unfold State.vRound; simp only []; repeat' split) <;> simp

@[simp] theorem State.vDecode_keeps (s : State) (f : Fig) (v : VInst) :
    (State.vDecode s f v).pending = s.pending ∧ (State.vDecode s f v).fuses = s.fuses := by
  simp [State.vDecode]

@[simp] theorem State.vElem_keeps (s : State) (f : Fig) (v : VInst) :
    (State.vElem s f v).pending = s.pending ∧ (State.vElem s f v).fuses = s.fuses := by
  simp [State.vElem]

@[simp] theorem State.vEncode_keeps (s : State) (f : Fig) (v : VInst) :
    (State.vEncode s f v).pending = s.pending ∧ (State.vEncode s f v).fuses = s.fuses := by
  simp [State.vEncode]

@[simp] theorem State.vFma_keeps (s : State) (f : Fig) (v : VInst) :
    (State.vFma s f v).pending = s.pending ∧ (State.vFma s f v).fuses = s.fuses := by
  simp [State.vFma]

@[simp] theorem State.useT0_keeps (s : State) (f : Fig) (off : Nat) (n : Nat) :
    (State.useT0 s f off n).2.pending = s.pending ∧ (State.useT0 s f off n).2.fuses = s.fuses := by
  simp [State.useT0]

@[simp] theorem State.vLoad_keeps (s : State) (f : Fig) (v : VInst) :
    (State.vLoad s f v).pending = s.pending ∧ (State.vLoad s f v).fuses = s.fuses := by
  simp [State.vLoad]

@[simp] theorem State.vMLoad_keeps (s : State) (f : Fig) (v : VInst) :
    (State.vMLoad s f v).pending = s.pending ∧ (State.vMLoad s f v).fuses = s.fuses := by
  simp [State.vMLoad]

@[simp] theorem State.t0Mark_keeps (s : State) (die : Nat) (cl : Nat) (line : Nat) (n : Nat) (p : Bool) :
    (State.t0Mark s die cl line n p).pending = s.pending ∧ (State.t0Mark s die cl line n p).fuses = s.fuses := by
  simp [State.t0Mark]

@[simp] theorem State.putT0_keeps (s : State) (f : Fig) (off : Nat) (b : Bytes) :
    (State.putT0 s f off b).pending = s.pending ∧ (State.putT0 s f off b).fuses = s.fuses := by
  simp [State.putT0]

@[simp] theorem State.vMStore_keeps (s : State) (f : Fig) (v : VInst) :
    (State.vMStore s f v).pending = s.pending ∧ (State.vMStore s f v).fuses = s.fuses := by
  simp [State.vMStore]

@[simp] theorem State.vPerm_keeps (s : State) (f : Fig) (v : VInst) :
    (State.vPerm s f v).pending = s.pending ∧ (State.vPerm s f v).fuses = s.fuses := by
  simp [State.vPerm]

@[simp] theorem State.vReduce_keeps (s : State) (f : Fig) (v : VInst) :
    (State.vReduce s f v).pending = s.pending ∧ (State.vReduce s f v).fuses = s.fuses := by
  (unfold State.vReduce; simp only []; repeat' split) <;> simp

@[simp] theorem State.vPairs_keeps (s : State) (f : Fig) (v : VInst) (rows : List (Word32 × Word32 × Bool)) :
    (State.vPairs s f v rows).pending = s.pending ∧ (State.vPairs s f v rows).fuses = s.fuses := by
  (unfold State.vPairs; simp only []; repeat' split) <;> simp

@[simp] theorem State.vRowNorm_keeps (s : State) (f : Fig) (v : VInst) :
    (State.vRowNorm s f v).pending = s.pending ∧ (State.vRowNorm s f v).fuses = s.fuses := by
  simp [State.vRowNorm]

@[simp] theorem State.vRowSmax_keeps (s : State) (f : Fig) (v : VInst) :
    (State.vRowSmax s f v).pending = s.pending ∧ (State.vRowSmax s f v).fuses = s.fuses := by
  simp [State.vRowSmax]

@[simp] theorem State.vSelect_keeps (s : State) (f : Fig) (v : VInst) :
    (State.vSelect s f v).pending = s.pending ∧ (State.vSelect s f v).fuses = s.fuses := by
  simp [State.vSelect]

@[simp] theorem State.vSoftmax_keeps (s : State) (f : Fig) (v : VInst) :
    (State.vSoftmax s f v).pending = s.pending ∧ (State.vSoftmax s f v).fuses = s.fuses := by
  simp [State.vSoftmax]

@[simp] theorem State.vStore_keeps (s : State) (f : Fig) (v : VInst) :
    (State.vStore s f v).pending = s.pending ∧ (State.vStore s f v).fuses = s.fuses := by
  simp [State.vStore]

@[simp] theorem State.vTransc_keeps (s : State) (f : Fig) (v : VInst) :
    (State.vTransc s f v).pending = s.pending ∧ (State.vTransc s f v).fuses = s.fuses := by
  simp [State.vTransc]

@[simp] theorem State.vRun_keeps (s : State) (f : Fig) (v : VInst) :
    (State.vRun s f v).pending = s.pending ∧ (State.vRun s f v).fuses = s.fuses := by
  unfold State.vRun; (repeat' split) <;> simp

@[simp] theorem State.vBody_keeps (s : State) (f : Fig) (w el a1 : Nat) (a2 : List VStep) :
    (State.vBody s f w el a1 a2).1.pending = s.pending ∧ (State.vBody s f w el a1 a2).1.fuses = s.fuses := by
  induction a2 generalizing s a1 el with
  | nil => exact ⟨rfl, rfl⟩
  | cons x l ih =>
    unfold State.vBody
    split
    · simpa using ih (s.vRun f _) _ (a1 + 1)
    · simpa using ih (s.issue f _ el) el (a1 + 1)
    · split
      · exact ih _ _ _
      · exact ⟨rfl, rfl⟩

@[simp] theorem State.vecRun_keeps (s : State) (f : Fig) (prog : List (BitVec 128)) (w : Nat) :
    (State.vecRun s f prog w).pending = s.pending ∧ (State.vecRun s f prog w).fuses = s.fuses := by
  simp [State.vecRun]

@[simp] theorem State.resumeOne_keeps (s : State) (x : FigStat) :
    (State.resumeOne s x).pending = s.pending ∧ (State.resumeOne s x).fuses = s.fuses := by
  unfold State.resumeOne; (repeat' split) <;> simp

@[simp] theorem State.resume_keeps (s : State) :
    (State.resume s).pending = s.pending ∧ (State.resume s).fuses = s.fuses := by
  simp [State.resume]

@[simp] theorem State.armFire_keeps (s : State) (obj : Nat) :
    (State.armFire s obj).pending = s.pending ∧ (State.armFire s obj).fuses = s.fuses := by
  (unfold State.armFire; simp only []; repeat' split) <;> simp

@[simp] theorem State.chargeWhey_keeps (s : State) (direct : Nat) (dur : Nat) :
    (State.chargeWhey s direct dur).pending = s.pending ∧ (State.chargeWhey s direct dur).fuses = s.fuses := by
  simp [State.chargeWhey]

@[simp] theorem State.dropMb_keeps (s : State) (f : Fig) :
    (State.dropMb s f).pending = s.pending ∧ (State.dropMb s f).fuses = s.fuses := by
  simp [State.dropMb]

@[simp] theorem State.dropCost_keeps (s : State) (f : Fig) :
    (State.dropCost s f).pending = s.pending ∧ (State.dropCost s f).fuses = s.fuses := by
  simp [State.dropCost]

@[simp] theorem State.unsend_keeps (s : State) (fid : Nat) :
    (State.unsend s fid).pending = s.pending ∧ (State.unsend s fid).fuses = s.fuses := by
  simp [State.unsend]

@[simp] theorem State.keepWrites_keeps (s : State) (fid : Nat) :
    (State.keepWrites s fid).pending = s.pending ∧ (State.keepWrites s fid).fuses = s.fuses := by
  simp [State.keepWrites]

@[simp] theorem State.unqueue_keeps (s : State) (mu : Nat) (off : Nat) (n : Nat) :
    (State.unqueue s mu off n).pending = s.pending ∧ (State.unqueue s mu off n).fuses = s.fuses := by
  simp [State.unqueue]

@[simp] theorem State.t1Write_keeps (s : State) (mu : Nat) (off : Nat) (b : Bytes) :
    (State.t1Write s mu off b).pending = s.pending ∧ (State.t1Write s mu off b).fuses = s.fuses := by
  simp [State.t1Write]

@[simp] theorem State.unwriteOne_keeps (s : State) (u : Undo) :
    (State.unwriteOne s u).pending = s.pending ∧ (State.unwriteOne s u).fuses = s.fuses := by
  (unfold State.unwriteOne; simp only []; repeat' split) <;> simp

@[simp] theorem State.unwrite_keeps (s : State) (fid : Nat) :
    (State.unwrite s fid).pending = (s).pending ∧ (State.unwrite s fid).fuses = (s).fuses := by
  unfold State.unwrite
  simp only []
  split
  · simp
  · simp only [State.keepWrites_keeps]
    exact foldl_keeps State.unwriteOne (fun t u => by simp) _ _

@[simp] theorem State.resource_keeps (s : State) (f : Fig) :
    (State.resource s f).2.pending = s.pending ∧ (State.resource s f).2.fuses = s.fuses := by
  (unfold State.resource; simp only []; repeat' split) <;> simp

@[simp] theorem State.wheyEvent_keeps (s : State) (f : Fig) (cause : Nat) :
    (State.wheyEvent s f cause).pending = s.pending ∧ (State.wheyEvent s f cause).fuses = s.fuses := by
  simp [State.wheyEvent]

@[simp] theorem State.dropOne_keeps (s : State) (f : Fig) (k : DropKind) :
    (State.dropOne s f k).pending = s.pending ∧ (State.dropOne s f k).fuses = s.fuses := by
  (unfold State.dropOne; simp only []; repeat' split) <;> simp

@[simp] theorem State.dropFig_keeps (a1 : Nat) (a2 : State) (a3 : Fig) (a4 : DropKind) :
    (State.dropFig a1 a2 a3 a4).pending = a2.pending ∧ (State.dropFig a1 a2 a3 a4).fuses = a2.fuses := by
  induction a1 generalizing a2 a3 a4 with
  | zero => unfold State.dropFig; split <;> simp
  | succ n ih =>
    unfold State.dropFig
    split
    · exact ⟨rfl, rfl⟩
    · have h := foldl_keeps (fun t g => State.dropFig n t g .cascade) (fun t g => ih t g _) (a2.victims a3) (a2.dropOne a3 a4)
      simpa using h

@[simp] theorem State.drop_keeps (s : State) (f : Fig) (k : DropKind) :
    (State.drop s f k).pending = s.pending ∧ (State.drop s f k).fuses = s.fuses := by
  simp [State.drop]

@[simp] theorem State.stamp_keeps (s : State) :
    (State.stamp s).2.pending = s.pending ∧ (State.stamp s).2.fuses = s.fuses := by
  unfold State.stamp; (repeat' split) <;> simp

@[simp] theorem State.detect_keeps (s : State) (e : ErrIn) :
    (State.detect s e).pending = s.pending ∧ (State.detect s e).fuses = s.fuses := by
  (unfold State.detect; simp only []; repeat' split) <;> simp

@[simp] theorem State.detectAt_keeps (s : State) (code : Nat) (die : Nat) (unit : Nat) (index : Nat) (detail : Nat) :
    (State.detectAt s code die unit index detail).pending = s.pending ∧ (State.detectAt s code die unit index detail).fuses = s.fuses := by
  simp [State.detectAt]

@[simp] theorem State.syncPut_keeps (s : State) (key : Nat) (v : Nat) :
    (State.syncPut s key v).pending = s.pending ∧ (State.syncPut s key v).fuses = s.fuses := by
  simp [State.syncPut]

@[simp] theorem State.syncAdd_keeps (s : State) (key : Nat) (n : Nat) :
    (State.syncAdd s key n).pending = s.pending ∧ (State.syncAdd s key n).fuses = s.fuses := by
  simp [State.syncAdd]

@[simp] theorem State.syncCycle_keeps (s : State) (key : Nat) (due : Nat) :
    (State.syncCycle s key due).pending = s.pending ∧ (State.syncCycle s key due).fuses = s.fuses := by
  (unfold State.syncCycle; simp only []; repeat' split) <;> simp

@[simp] theorem State.syncUpTo_keeps (a1 : Nat) (a2 : Nat) (a3 : State) :
    (State.syncUpTo a1 a2 a3).pending = a3.pending ∧ (State.syncUpTo a1 a2 a3).fuses = a3.fuses := by
  induction a1 generalizing a3 with
  | zero => exact ⟨rfl, rfl⟩
  | succ n ih =>
    unfold State.syncUpTo
    split
    · exact ⟨rfl, rfl⟩
    · split
      · refine ⟨(ih _).1.trans ?_, (ih _).2.trans ?_⟩ <;> simp
      · exact ⟨rfl, rfl⟩

@[simp] theorem State.tick_keeps (s : State) (cyc : Nat) :
    (State.tick s cyc).pending = s.pending ∧ (State.tick s cyc).fuses = s.fuses := by
  simp [State.tick]

@[simp] theorem State.advance_keeps (s : State) (uj : Nat) :
    (State.advance s uj).pending = s.pending ∧ (State.advance s uj).fuses = s.fuses := by
  simp [State.advance]

@[simp] theorem State.copyBefore_keeps (s : State) (k : Nat) (loc : Nat) :
    (State.copyBefore s k loc).pending = s.pending ∧ (State.copyBefore s k loc).fuses = s.fuses := by
  (unfold State.copyBefore; simp only []; repeat' split) <;> simp

@[simp] theorem State.locWrite_keeps (s : State) (k : Nat) (loc : Nat) (off : Nat) (b : Bytes) :
    (State.locWrite s k loc off b).pending = s.pending ∧ (State.locWrite s k loc off b).fuses = s.fuses := by
  simp [State.locWrite]

@[simp] theorem State.markT1_keeps (s : State) (key : Nat) (p : Bool) :
    (State.markT1 s key p).pending = s.pending ∧ (State.markT1 s key p).fuses = s.fuses := by
  simp [State.markT1]

@[simp] theorem State.markLoc_keeps (s : State) (k loc : Nat) (p : Nat → Bool) :
    (State.markLoc s k loc p).pending = (s).pending ∧ (State.markLoc s k loc p).fuses = (s).fuses := by
  unfold State.markLoc
  exact foldl_keeps _ (fun t l => by simp) _ _

@[simp] theorem State.complete_keeps (s : State) (n : Nat) (tag : Nat) (irq : Bool) (status : Nat) (result : Nat) :
    (State.complete s n tag irq status result).pending = s.pending ∧ (State.complete s n tag irq status result).fuses = s.fuses := by
  simp [State.complete]

@[simp] theorem State.finish_keeps (s : State) (n : Nat) (d : BitVec 512) (status : Nat) (result : Nat) :
    (State.finish s n d status result).pending = s.pending ∧ (State.finish s n d status result).fuses = s.fuses := by
  simp [State.finish]

@[simp] theorem State.finishTag_keeps (s : State) (n : Nat) (op : Nat) (tag : Nat) (status : Nat) (result : Nat) :
    (State.finishTag s n op tag status result).pending = s.pending ∧ (State.finishTag s n op tag status result).fuses = s.fuses := by
  (unfold State.finishTag; simp only []; repeat' split) <;> simp

@[simp] theorem State.staleReads_keeps (s : State) (k : Nat) (loc : Nat) :
    (State.staleReads s k loc).pending = s.pending ∧ (State.staleReads s k loc).fuses = s.fuses := by
  simp [State.staleReads]

@[simp] theorem State.sumNonfinite_keeps (s : State) (mu : Nat) (fid : Nat) :
    (State.sumNonfinite s mu fid).pending = s.pending ∧ (State.sumNonfinite s mu fid).fuses = s.fuses := by
  simp [State.sumNonfinite]

@[simp] theorem State.touch_keeps (s : State) (k : Nat) :
    (State.touch s k).pending = s.pending ∧ (State.touch s k).fuses = s.fuses := by
  simp [State.touch]

@[simp] theorem State.applyAcc_keeps (s : State) (a1 : AccWrite) :
    (State.applyAcc s a1).pending = s.pending ∧ (State.applyAcc s a1).fuses = s.fuses := by
  unfold State.applyAcc; simp only []; (repeat' split) <;> simp_all

@[simp] theorem State.pairLost_keeps (s : State) (mu : Nat) (fid : Option Nat) : (s.pairLost mu fid).pending = s.pending ∧ (s.pairLost mu fid).fuses = s.fuses := by
  simp [State.pairLost]

@[simp] theorem State.setDirty_keeps (s : State) (k : Nat) :
    (State.setDirty s k).pending = s.pending ∧ (State.setDirty s k).fuses = s.fuses := by
  simp [State.setDirty]

@[simp] theorem State.setLocWord_keeps (s : State) (k : Nat) (loc : Nat) (i : Nat) (v : Nat) :
    (State.setLocWord s k loc i v).pending = s.pending ∧ (State.setLocWord s k loc i v).fuses = s.fuses := by
  simp [State.setLocWord]

@[simp] theorem State.hostWord_keeps (s : State) (k : Nat) (i : Nat) (v : Nat) :
    (State.hostWord s k i v).pending = s.pending ∧ (State.hostWord s k i v).fuses = s.fuses := by
  unfold State.hostWord; (repeat' split) <;> simp

@[simp] theorem State.wcPut_keeps (s : State) (mu : Nat) (base : Nat) (w : Nat) (idx : Nat) (code : Nat) :
    (State.wcPut s mu base w idx code).pending = s.pending ∧ (State.wcPut s mu base w idx code).fuses = s.fuses := by
  simp [State.wcPut]

@[simp] theorem State.applyStaged_keeps (s : State) (g : Staged) :
    (State.applyStaged s g).pending = s.pending ∧ (State.applyStaged s g).fuses = s.fuses := by
  unfold State.applyStaged
  rw [(State.finishTag_keeps ..).1, (State.finishTag_keeps ..).2]
  split
  · simp only []
    split
    · exact foldl_keeps _ (fun u i => by split <;> simp) _ _
    · exact foldl_keeps _ (fun u i => by split <;> simp) _ _
  · exact ⟨rfl, rfl⟩

@[simp] theorem State.applyAllStaged_keeps (s : State) :
    (State.applyAllStaged s).pending = s.pending ∧ (State.applyAllStaged s).fuses = s.fuses := by
  simp [State.applyAllStaged]

@[simp] theorem State.arrayCounts_keeps (s : State) (f : Fig) (env : FigEnv) :
    (State.arrayCounts s f env).pending = s.pending ∧ (State.arrayCounts s f env).fuses = s.fuses := by
  simp [State.arrayCounts]

@[simp] theorem State.beginExchange_keeps (s : State) :
    (State.beginExchange s).pending = s.pending ∧ (State.beginExchange s).fuses = s.fuses := by
  simp [State.beginExchange]

@[simp] theorem State.packDone_keeps (s : State) (mb : Nat) :
    (State.packDone s mb).pending = s.pending ∧ (State.packDone s mb).fuses = s.fuses := by
  (unfold State.packDone; simp only []; repeat' split) <;> simp

@[simp] theorem State.postProcess_keeps (s : State) (p : Pack) (first : Nat) (n : Nat) :
    (State.postProcess s p first n).pending = s.pending ∧ (State.postProcess s p first n).fuses = s.fuses := by
  simp [State.postProcess]

@[simp] theorem State.ingestPart_keeps (s : State) (part : Nat) (mb : Nat) (first : Nat) (n : Nat) :
    (State.ingestPart s part mb first n).pending = s.pending ∧ (State.ingestPart s part mb first n).fuses = s.fuses := by
  unfold State.ingestPart; (repeat' split) <;> simp

@[simp] theorem State.vatDone_keeps (s : State) (f : Fig) :
    (State.vatDone s f).pending = s.pending ∧ (State.vatDone s f).fuses = s.fuses := by
  (unfold State.vatDone; simp only []; repeat' split) <;> simp

@[simp] theorem State.bodyEnd_keeps (s : State) (f : Fig) :
    (State.bodyEnd s f).pending = s.pending ∧ (State.bodyEnd s f).fuses = s.fuses := by
  (unfold State.bodyEnd; simp only []; repeat' split) <;> simp

@[simp] theorem State.detectFor_keeps (s : State) (code : Nat) (die : Nat) (unit : Nat) (index : Nat) (fid : Nat) :
    (State.detectFor s code die unit index fid).pending = s.pending ∧ (State.detectFor s code die unit index fid).fuses = s.fuses := by
  simp [State.detectFor]

@[simp] theorem State.dmRead_keeps (s : State) (f : Fig) (d : BitVec 256) :
    (State.dmRead s f d).2.2.pending = s.pending ∧ (State.dmRead s f d).2.2.fuses = s.fuses := by
  (unfold State.dmRead; simp only []; repeat' split) <;> simp

@[simp] theorem State.t0Write_keeps (s : State) (die : Nat) (cl : Nat) (line : Nat) (b : Bytes) :
    (State.t0Write s die cl line b).pending = s.pending ∧ (State.t0Write s die cl line b).fuses = s.fuses := by
  simp [State.t0Write]

@[simp] theorem State.sliceWrite_keeps (s : State) (die : Nat) (cl : Nat) (line : Nat) (b : Bytes) (p : Bool) :
    (State.sliceWrite s die cl line b p).pending = s.pending ∧ (State.sliceWrite s die cl line b p).fuses = s.fuses := by
  simp [State.sliceWrite]

@[simp] theorem State.dmSlice_keeps (s : State) (f : Fig) (die : Nat) (cl : Nat) (line : Nat) (b : Bytes) (p : Bool) :
    (State.dmSlice s f die cl line b p).pending = s.pending ∧ (State.dmSlice s f die cl line b p).fuses = s.fuses := by
  simp [State.dmSlice]

@[simp] theorem State.dmT1_keeps (s : State) (f : Fig) (mu : Nat) (line : Nat) (b : Bytes) (p : Bool) :
    (State.dmT1 s f mu line b p).pending = s.pending ∧ (State.dmT1 s f mu line b p).fuses = s.fuses := by
  simp [State.dmT1]

@[simp] theorem State.sendAcc_keeps (s : State) (f : Fig) (mu : Nat) (gran : Nat) (vals : List Word32) (tokens : Nat) (nonfin : Bool) :
    (State.sendAcc s f mu gran vals tokens nonfin).pending = s.pending ∧ (State.sendAcc s f mu gran vals tokens nonfin).fuses = s.fuses := by
  simp [State.sendAcc]

@[simp] theorem State.vatPush_keeps (s : State) (f : Fig) (key : Nat) (b : Bytes) (p : Bool) :
    (State.vatPush s f key b p).pending = s.pending ∧ (State.vatPush s f key b p).fuses = s.fuses := by
  simp [State.vatPush]

@[simp] theorem State.dmWrite_keeps (s : State) (f : Fig) (d : BitVec 256) (b : Bytes) (p : Bool) :
    (State.dmWrite s f d b p).pending = s.pending ∧ (State.dmWrite s f d b p).fuses = s.fuses := by
  (unfold State.dmWrite; simp only []; repeat' split) <;> simp

@[simp] theorem State.dmMove_keeps (s : State) (f : Fig) (d : BitVec 256) :
    (State.dmMove s f d).pending = s.pending ∧ (State.dmMove s f d).fuses = s.fuses := by
  simp [State.dmMove]

@[simp] theorem State.dmaRun_keeps (s : State) (f : Fig) (d : BitVec 256) :
    (State.dmaRun s f d).pending = s.pending ∧ (State.dmaRun s f d).fuses = s.fuses := by
  (unfold State.dmaRun; simp only []; repeat' split) <;> simp

@[simp] theorem State.gmeLast_keeps (s : State) (f : Fig) (kind : Nat) :
    (State.gmeLast s f kind).pending = s.pending ∧ (State.gmeLast s f kind).fuses = s.fuses := by
  simp [State.gmeLast]

@[simp] theorem State.gmeCase_keeps (s : State) (f : Fig) (kind : Nat) :
    (State.gmeCase s f kind).pending = s.pending ∧ (State.gmeCase s f kind).fuses = s.fuses := by
  simp [State.gmeCase]

@[simp] theorem State.gmeCases_keeps (s : State) (f : Fig) (kinds : List Nat) :
    (State.gmeCases s f kinds).pending = s.pending ∧ (State.gmeCases s f kinds).fuses = s.fuses := by
  simp [State.gmeCases]

@[simp] theorem State.curdChecks_keeps (s : State) (f : Fig) (c : Curd) :
    (State.curdChecks s f c).pending = s.pending ∧ (State.curdChecks s f c).fuses = s.fuses := by
  simp [State.curdChecks]

@[simp] theorem State.putCode_keeps (s : State) (f : Fig) (base : Nat) (w : Nat) (idx : Nat) (code : Nat) :
    (State.putCode s f base w idx code).pending = s.pending ∧ (State.putCode s f base w idx code).fuses = s.fuses := by
  simp [State.putCode]

@[simp] theorem State.drainOut_keeps (s : State) (f : Fig) (fmt : Nat) (line : Nat) (sline : Nat) (cols : Nat) (i : Nat) (j0 : Nat) (codes : List Nat) (sc : Word32) :
    (State.drainOut s f fmt line sline cols i j0 codes sc).pending = s.pending ∧ (State.drainOut s f fmt line sline cols i j0 codes sc).fuses = s.fuses := by
  simp [State.drainOut]

@[simp] theorem State.gStore_keeps (s : State) (f : Fig) (d : BitVec 256) (m : Nat) (n : Nat) (val : Nat → Nat → Word32 × Nat) :
    (State.gStore s f d m n val).pending = s.pending ∧ (State.gStore s f d m n val).fuses = s.fuses := by
  simp [State.gStore]

@[simp] theorem State.setQuantity_keeps (s : State) (f : Fig) (n : List Nat) :
    (State.setQuantity s f n).pending = s.pending ∧ (State.setQuantity s f n).fuses = s.fuses := by
  simp [State.setQuantity]

@[simp] theorem State.useCurd_keeps (s : State) (f : Fig) (off : Nat) :
    (State.useCurd s f off).pending = s.pending ∧ (State.useCurd s f off).fuses = s.fuses := by
  simp [State.useCurd]

@[simp] theorem State.curdExpand_keeps (s : State) (f : Fig) (d : BitVec 256) :
    (State.curdExpand s f d).pending = s.pending ∧ (State.curdExpand s f d).fuses = s.fuses := by
  simp [State.curdExpand]

@[simp] theorem State.readOper_keeps (s : State) (f : Fig) (o : Oper) :
    (State.readOper s f o).pending = s.pending ∧ (State.readOper s f o).fuses = s.fuses := by
  simp [State.readOper]

@[simp] theorem State.curdMm_keeps (s : State) (f : Fig) (d : BitVec 256) :
    (State.curdMm s f d).pending = s.pending ∧ (State.curdMm s f d).fuses = s.fuses := by
  simp [State.curdMm]

@[simp] theorem State.maskBuild_keeps (s : State) (f : Fig) (d : BitVec 256) :
    (State.maskBuild s f d).pending = s.pending ∧ (State.maskBuild s f d).fuses = s.fuses := by
  simp [State.maskBuild]

@[simp] theorem State.raggedPack_keeps (s : State) (f : Fig) (d : BitVec 256) :
    (State.raggedPack s f d).pending = s.pending ∧ (State.raggedPack s f d).fuses = s.fuses := by
  unfold State.raggedPack
  simp only [State.setQuantity_keeps, State.gmeCases_keeps, State.putT0_keeps]
  exact foldl_keeps_fst _ (fun t e => by simp) _ _

@[simp] theorem State.raggedUnpack_keeps (s : State) (f : Fig) (d : BitVec 256) :
    (State.raggedUnpack s f d).pending = s.pending ∧ (State.raggedUnpack s f d).fuses = s.fuses := by
  unfold State.raggedUnpack
  simp only [State.setQuantity_keeps, State.gmeCases_keeps]
  exact foldl_keeps_fst _ (fun t e => by simp) _ _

@[simp] theorem State.routeGather_keeps (s : State) (f : Fig) (d : BitVec 256) :
    (State.routeGather s f d).pending = s.pending ∧ (State.routeGather s f d).fuses = s.fuses := by
  unfold State.routeGather
  extract_lets t k ne bRow cap expert slots kinds nf asked total s1 s2 s3
  have h1 : s1.pending = s.pending ∧ s1.fuses = s.fuses := by simp [s1]
  have h2 : s2.pending = s.pending ∧ s2.fuses = s.fuses := by
    rw [← h1.1, ← h1.2]
    exact foldl_keeps _ (fun u q => by split <;> simp) _ _
  have h3 : s3.pending = s.pending ∧ s3.fuses = s.fuses := by
    rw [← h2.1, ← h2.2]
    exact foldl_keeps _ (fun u q => by simp) _ _
  clear_value s3
  simpa using h3

@[simp] theorem State.routeMerge_keeps (s : State) (f : Fig) (d : BitVec 256) :
    (State.routeMerge s f d).pending = s.pending ∧ (State.routeMerge s f d).fuses = s.fuses := by
  simp [State.routeMerge]

@[simp] theorem State.spsp_keeps (s : State) (f : Fig) (d : BitVec 256) :
    (State.spsp s f d).pending = s.pending ∧ (State.spsp s f d).fuses = s.fuses := by
  simp [State.spsp]

@[simp] theorem State.gmeRun_keeps (s : State) (f : Fig) (d : BitVec 256) :
    (State.gmeRun s f d).pending = s.pending ∧ (State.gmeRun s f d).fuses = s.fuses := by
  unfold State.gmeRun; (repeat' split) <;> simp

@[simp] theorem State.chargeMeta_keeps (s : State) (f : Fig) (n : Nat) :
    (State.chargeMeta s f n).pending = s.pending ∧ (State.chargeMeta s f n).fuses = s.fuses := by
  simp [State.chargeMeta]

@[simp] theorem State.putZero_keeps (s : State) (f : Fig) (d : BitVec 256) (reg : Nat) (rows : List (List Nat)) :
    (State.putZero s f d reg rows).pending = s.pending ∧ (State.putZero s f d reg rows).fuses = s.fuses := by
  simp [State.putZero]

@[simp] theorem State.diagRun_keeps (s : State) (f : Fig) (d : BitVec 256) (unit : Nat) :
    (State.diagRun s f d unit).pending = s.pending ∧ (State.diagRun s f d unit).fuses = s.fuses := by
  simp [State.diagRun]

@[simp] theorem State.sendSg_keeps (s : State) (f : Fig) (x : BitVec 256) (tokens : Nat) (l : List (Nat × Word32)) :
    (State.sendSg s f x tokens l).pending = s.pending ∧ (State.sendSg s f x tokens l).fuses = s.fuses := by
  simp [State.sendSg]

@[simp] theorem State.matAcc_keeps (s : State) (f : Fig) (d : BitVec 256) (x : BitVec 256) (unit : Nat) :
    (State.matAcc s f d x unit).pending = s.pending ∧ (State.matAcc s f d x unit).fuses = s.fuses := by
  unfold State.matAcc
  simp only []
  have h : ∀ g : State × List (Nat × Word32) → Nat → State × List (Nat × Word32), (∀ t e, (g t e).1.pending = t.1.pending ∧ (g t e).1.fuses = t.1.fuses) →
     ∀ l : List Nat, (l.foldl g (s.tally f Unit.feeder (s.feedTally f d (s.prodOf f d)), [])).1.pending = s.pending ∧ (l.foldl g (s.tally f Unit.feeder (s.feedTally f d (s.prodOf f d)), [])).1.fuses = s.fuses :=
    fun g hg l => by simpa using foldl_keeps_fst g hg l (s.tally f Unit.feeder (s.feedTally f d (s.prodOf f d)), [])
  split
  · rw [(State.sendSg_keeps ..).1, (State.sendSg_keeps ..).2]
    exact h _ (fun t e => by split <;> simp) _
  · exact h _ (fun t e => by split <;> simp) _

@[simp] theorem State.matStore_keeps (s : State) (f : Fig) (d : BitVec 256) (unit : Nat) :
    (State.matStore s f d unit).pending = s.pending ∧ (State.matStore s f d unit).fuses = s.fuses := by
  simp [State.matStore]

@[simp] theorem State.thinRun_keeps (s : State) (f : Fig) (d : BitVec 256) :
    (State.thinRun s f d).pending = s.pending ∧ (State.thinRun s f d).fuses = s.fuses := by
  simp [State.thinRun]

@[simp] theorem State.matrixRun_keeps (s : State) (f : Fig) (d : BitVec 256) (ext : Option (BitVec 256)) (env : FigEnv) :
    (State.matrixRun s f d ext env).pending = s.pending ∧ (State.matrixRun s f d ext env).fuses = s.fuses := by
  (unfold State.matrixRun; simp only []; repeat' split) <;> simp

@[simp] theorem State.setColl_keeps (s : State) (c : Coll) :
    (State.setColl s c).pending = s.pending ∧ (State.setColl s c).fuses = s.fuses := by
  simp [State.setColl]

@[simp] theorem State.contribute_keeps (s : State) :
    (State.contribute s).pending = s.pending ∧ (State.contribute s).fuses = s.fuses := by
  simp [State.contribute]

@[simp] theorem State.migrateAt_keeps (s : State) (m : Migr) :
    (State.migrateAt s m).pending = s.pending ∧ (State.migrateAt s m).fuses = s.fuses := by
  simp [State.migrateAt]

@[simp] theorem State.migrateOne_keeps (s : State) (mu : Nat) :
    (State.migrateOne s mu).pending = s.pending ∧ (State.migrateOne s mu).fuses = s.fuses := by
  unfold State.migrateOne; (repeat' split) <;> simp

@[simp] theorem State.migrate_keeps (s : State) (mu : Nat) (a1 : Nat) :
    (State.migrate s mu a1).pending = s.pending ∧ (State.migrate s mu a1).fuses = s.fuses := by
  induction a1 generalizing s with
  | zero => exact ⟨rfl, rfl⟩
  | succ n ih =>
    unfold State.migrate
    exact ⟨(ih _).1.trans (State.migrateOne_keeps ..).1, (ih _).2.trans (State.migrateOne_keeps ..).2⟩

@[simp] theorem State.noteReady_keeps (s : State) :
    (State.noteReady s).pending = s.pending ∧ (State.noteReady s).fuses = s.fuses := by
  simp [State.noteReady]

@[simp] theorem State.readCutAt_keeps (s : State) (kind : Nat) (k : Nat) :
    (State.readCutAt s kind k).pending = s.pending ∧ (State.readCutAt s kind k).fuses = s.fuses := by
  (unfold State.readCutAt; simp only []; repeat' split) <;> simp

@[simp] theorem State.readCut_keeps (s : State) (mu : Nat) (kind : Nat) :
    (State.readCut s mu kind).pending = s.pending ∧ (State.readCut s mu kind).fuses = s.fuses := by
  unfold State.readCut; (repeat' split) <;> simp

@[simp] theorem State.stageFlit_keeps (s : State) (d : BitVec 128) (n : Nat) :
    (State.stageFlit s d n).2.pending = s.pending ∧ (State.stageFlit s d n).2.fuses = s.fuses := by
  simp [State.stageFlit]

@[simp] theorem State.sendStage_keeps (s : State) (f : Fig) (d : BitVec 128) :
    (State.sendStage s f d).pending = s.pending ∧ (State.sendStage s f d).fuses = s.fuses := by
  (unfold State.sendStage; simp only []; repeat' split) <;> simp

@[simp] theorem State.sendTwin_keeps (s : State) :
    (State.sendTwin s).pending = s.pending ∧ (State.sendTwin s).fuses = s.fuses := by
  simp [State.sendTwin]

@[simp] theorem State.shipCut_keeps (s : State) (mu : Nat) :
    (State.shipCut s mu).pending = s.pending ∧ (State.shipCut s mu).fuses = s.fuses := by
  simp [State.shipCut]

@[simp] theorem State.ownWork_keeps (s : State) (f : Fig) (d : BitVec 128) :
    (State.ownWork s f d).pending = s.pending ∧ (State.ownWork s f d).fuses = s.fuses := by
  (unfold State.ownWork; simp only []; repeat' split) <;> simp

@[simp] theorem State.redSink_keeps (s : State) (f : Fig) (q : Param) (d : BitVec 128) :
    (State.redSink s f q d).pending = s.pending ∧ (State.redSink s f q d).fuses = s.fuses := by
  unfold State.redSink
  refine foldl_keeps _ (fun t g => ?_) _ _
  dsimp only []
  cases (t.coll q.idx).data.find? (fun x => x.1 == g.1) with
  | none => simp
  | some x =>
    dsimp only []
    split <;> simp

@[simp] theorem State.redSource_keeps (s : State) (q : Param) (d : BitVec 128) :
    (State.redSource s q d).pending = s.pending ∧ (State.redSource s q d).fuses = s.fuses := by
  simp [State.redSource]

theorem State.granFault_keeps (s : State) (f : Fig) (mu : Nat) (k : Nat) :
    ∀ t, State.granFault s f mu k = .some t → t.pending = s.pending ∧ t.fuses = s.fuses := by
  intro t h
  unfold State.granFault at h
  split at h
  · cases h; simp
  · split at h
    · cases h; simp
    · split at h
      · cases h; simp
      · cases h

@[simp] theorem State.overGrans_keeps (s : State) (f : Fig) (q : Param) (step : State → Nat → State × Bool)
    (h : ∀ t x, (step t x).1.pending = t.pending ∧ (step t x).1.fuses = t.fuses) (l : List Nat) :
    (State.overGrans s f q step l).pending = s.pending ∧ (State.overGrans s f q step l).fuses = s.fuses := by
  induction l generalizing s with
  | nil => exact ⟨rfl, rfl⟩
  | cons gi l ih =>
    unfold State.overGrans
    simp only []
    split
    · exact ih s
    · split
      · simp
      · split
        · exact State.granFault_keeps _ _ _ _ _ ‹_›
        · split
          · exact ⟨(ih _).1.trans (h _ _).1, (ih _).2.trans (h _ _).2⟩
          · exact h _ _

@[simp] theorem State.setTag_keeps (s : State) (k : Nat) (loc : Nat) (v : Nat) :
    (State.setTag s k loc v).pending = s.pending ∧ (State.setTag s k loc v).fuses = s.fuses := by
  simp [State.setTag]

@[simp] theorem State.copySpare_keeps (s : State) (k : Nat) :
    (State.copySpare s k).pending = (s).pending ∧ (State.copySpare s k).fuses = (s).fuses := by
  unfold State.copySpare
  extract_lets l c s1
  have h1 : (s1).pending = (s).pending ∧ (s1).fuses = (s).fuses := by simp [s1]
  clear_value s1
  split <;> simp [h1]

@[simp] theorem State.putSpare_keeps (s : State) (k : Nat) (i : Nat) (v : Word32) :
    (State.putSpare s k i v).pending = s.pending ∧ (State.putSpare s k i v).fuses = s.fuses := by
  simp [State.putSpare]

theorem State.results_keeps (s : State) (f : Fig) (mu lane : Nat) (put : State → Nat → Word32 → State) (l : List (Nat × Nat × Word32))
    (h : ∀ t k x, (put t k x).pending = t.pending ∧ (put t k x).fuses = t.fuses) :
    (State.results s f mu lane put l).1.pending = s.pending ∧ (State.results s f mu lane put l).1.fuses = s.fuses := by
  have hf : ∀ (m : List (Nat × Nat × Word32)) (u : State), (m.foldl (fun t x => put t x.2.1 x.2.2) u).pending = u.pending ∧ (m.foldl (fun t x => put t x.2.1 x.2.2) u).fuses = u.fuses :=
    fun m u => foldl_keeps _ (fun t x => h t _ _) m u
  unfold State.results
  split
  · exact hf _ _
  · simp [hf]

@[simp] theorem State.writeStats_keeps (s : State) (f : Fig) (q : Param) (l : List (Nat × Word32)) :
    (State.writeStats s f q l).1.pending = s.pending ∧ (State.writeStats s f q l).1.fuses = s.fuses :=
  State.results_keeps s f q.p.mu 96 _ _ (fun t w v => by simp)

set_option maxRecDepth 20000 in

@[simp] theorem State.factor1_keeps (s : State) (f : Fig) (q : Param) (d : BitVec 128) :
    (State.factor1 s f q d).pending = s.pending ∧ (State.factor1 s f q d).fuses = s.fuses := by
  (unfold State.factor1; simp only []; repeat' split) <;> simp

@[simp] theorem State.formAcc_keeps (s : State) (f : Fig) (q : Param) :
    (State.formAcc s f q).1.pending = s.pending ∧ (State.formAcc s f q).1.fuses = s.fuses := by
  (unfold State.formAcc; simp only []; repeat' split) <;> simp

@[simp] theorem State.factor2_keeps (s : State) (f : Fig) (q : Param) (d : BitVec 128) :
    (State.factor2 s f q d).pending = s.pending ∧ (State.factor2 s f q d).fuses = s.fuses := by
  (unfold State.factor2; simp only []; repeat' split) <;> simp

@[simp] theorem State.countClip_keeps (s : State) (q : Param) (k : Word32) : (s.countClip q k).pending = s.pending ∧ (s.countClip q k).fuses = s.fuses := by
  unfold State.countClip; split <;> simp

@[simp] theorem State.formClip_keeps (s : State) (q : Param) :
    (State.formClip s q).pending = s.pending ∧ (State.formClip s q).fuses = s.fuses := by
  simp [State.formClip]

@[simp] theorem State.putScale_keeps (s : State) (q : Param) (g : Nat) (dir : Word32) : (s.putScale q g dir).pending = s.pending ∧ (s.putScale q g dir).fuses = s.fuses := by
  simp only [State.putScale]; split <;> simp

@[simp] theorem State.updateScales_keeps (s : State) (f : Fig) (q : Param) :
    (State.updateScales s f q).pending = s.pending ∧ (State.updateScales s f q).fuses = s.fuses := by
  simp [State.updateScales]

@[simp] theorem State.tagSpare_keeps (s : State) (k : Nat) :
    (State.tagSpare s k).pending = s.pending ∧ (State.tagSpare s k).fuses = s.fuses := by
  simp [State.tagSpare]

@[simp] theorem State.writeUpdate_keeps (s : State) (f : Fig) (mu k : Nat) (l : List (Nat × Word32)) :
    (State.writeUpdate s f mu k l).1.pending = s.pending ∧ (State.writeUpdate s f mu k l).1.fuses = s.fuses := by
  have h := State.results_keeps s f mu 4 (fun t e v => t.putSpare k e v) (l.map fun x => (x.1, x.1, x.2)) (fun t e v => by simp)
  unfold State.writeUpdate
  simp only []
  split
  · simpa using h
  · exact h

@[simp] theorem State.factor3_keeps (s : State) (f : Fig) (q : Param) (d : BitVec 128) :
    (State.factor3 s f q d).pending = s.pending ∧ (State.factor3 s f q d).fuses = s.fuses := by
  simp [State.factor3]

@[simp] theorem State.tieGran_keeps (s : State) (f : Fig) (mu : Nat) (k : Nat) (others : List Nat) :
    (State.tieGran s f mu k others).pending = s.pending ∧ (State.tieGran s f mu k others).fuses = s.fuses := by
  unfold State.tieGran; simp only []; (repeat' split) <;> simp_all

@[simp] theorem State.gatherAdd_keeps (s : State) (f : Fig) (q : Param) (d : BitVec 128) :
    (State.gatherAdd s f q d).pending = s.pending ∧ (State.gatherAdd s f q d).fuses = s.fuses := by
  simp [State.gatherAdd]

@[simp] theorem State.firstScales_keeps (s : State) (q : Param) :
    (State.firstScales s q).pending = s.pending ∧ (State.firstScales s q).fuses = s.fuses := by
  simp [State.firstScales]

@[simp] theorem State.setBlock_keeps (s : State) (q : Param) (i : Nat) (j : Nat) (n : Nat) :
    (State.setBlock s q i j n).pending = s.pending ∧ (State.setBlock s q i j n).fuses = s.fuses := by
  simp [State.setBlock]

@[simp] theorem State.choose_keeps (s : State) (q : Param) (src : Nat) (first : Bool) (i : Nat) (j : Nat) :
    (State.choose s q src first i j).pending = s.pending ∧ (State.choose s q src first i j).fuses = s.fuses := by
  (unfold State.choose; simp only []; repeat' split) <;> simp

@[simp] theorem State.reencode_keeps (s : State) (q : Param) (gi : Nat) (reprune : Bool) (first : Bool) :
    (State.reencode s q gi reprune first).pending = s.pending ∧ (State.reencode s q gi reprune first).fuses = s.fuses := by
  unfold State.reencode
  split
  · exact ⟨rfl, rfl⟩
  · extract_lets w mu src s1 mask r
    have h1 : s1.pending = s.pending ∧ s1.fuses = s.fuses := by
      simp only [s1]; split
      · exact foldl_keeps _ (fun t e => State.choose_keeps _ _ _ _ _ _) _ _
      · exact ⟨rfl, rfl⟩
    clear_value s1
    have h2 : r.1.pending = s1.pending ∧ r.1.fuses = s1.fuses := by
      simp only [r]
      refine foldl_keeps_fst _ (fun t e => ?_) _ _
      split
      · split
        · split
          · exact State.wcPut_keeps _ _ _ _ _ _
          · exact ⟨rfl, rfl⟩
        · exact ⟨rfl, rfl⟩
      · exact State.wcPut_keeps _ _ _ _ _ _
    exact ⟨(State.count_keeps ..).1.trans (h2.1.trans h1.1), (State.count_keeps ..).2.trans (h2.2.trans h1.2)⟩

@[simp] theorem State.encodeGran_keeps (s : State) (q : Param) (gi : Nat) (reprune : Bool) :
    (State.encodeGran s q gi reprune).pending = s.pending ∧ (State.encodeGran s q gi reprune).fuses = s.fuses := by
  simp only [State.encodeGran]; split <;> simp

@[simp] theorem State.prologueGran_keeps (s : State) (q : Param) (rp : Bool) (gi : Nat) :
    (s.prologueGran q rp gi).pending = s.pending ∧ (s.prologueGran q rp gi).fuses = s.fuses := by
  (unfold State.prologueGran; repeat' split) <;> simp

@[simp] theorem State.prologue_keeps (s : State) (q : Param) (d : BitVec 128) :
    (State.prologue s q d).pending = s.pending ∧ (State.prologue s q d).fuses = s.fuses := by
  simp [State.prologue]

@[simp] theorem State.signSlice_keeps (s : State) (f : Fig) (q : Param) (d : BitVec 128) :
    (State.signSlice s f q d).pending = s.pending ∧ (State.signSlice s f q d).fuses = s.fuses := by
  simp [State.signSlice]

@[simp] theorem State.updateRun_keeps (s : State) (f : Fig) (d : BitVec 128) :
    (State.updateRun s f d).pending = s.pending ∧ (State.updateRun s f d).fuses = s.fuses := by
  unfold State.updateRun; (repeat' split) <;> simp

@[simp] theorem State.tplRun_keeps (s : State) (f : Fig) (d : BitVec 128) :
    (State.tplRun s f d).pending = s.pending ∧ (State.tplRun s f d).fuses = s.fuses := by
  unfold State.tplRun; (repeat' split) <;> simp

@[simp] theorem State.bodyRun_keeps (s : State) (f : Fig) (env : FigEnv) :
    (State.bodyRun s f env).pending = s.pending ∧ (State.bodyRun s f env).fuses = s.fuses := by
  unfold State.bodyRun; (repeat' split) <;> simp

@[simp] theorem State.deriveAlias_keeps (s : State) :
    (State.deriveAlias s).pending = s.pending ∧ (State.deriveAlias s).fuses = s.fuses := by
  simp [State.deriveAlias]

@[simp] theorem State.haltQuiet_keeps (s : State) (cause : Nat) :
    (State.haltQuiet s cause).pending = s.pending ∧ (State.haltQuiet s cause).fuses = s.fuses := by
  simp [State.haltQuiet]

@[simp] theorem State.linkOff_keeps (s : State) :
    (State.linkOff s).pending = s.pending ∧ (State.linkOff s).fuses = s.fuses := by
  simp [State.linkOff]

@[simp] theorem State.portsDown_keeps (s : State) :
    (State.portsDown s).pending = s.pending ∧ (State.portsDown s).fuses = s.fuses := by
  simp [State.portsDown]

@[simp] theorem State.stopCallers_keeps (s : State) :
    (State.stopCallers s).pending = s.pending ∧ (State.stopCallers s).fuses = s.fuses := by
  simp [State.stopCallers]

@[simp] theorem State.doubleFault_keeps (s : State) :
    (State.doubleFault s).pending = s.pending ∧ (State.doubleFault s).fuses = s.fuses := by
  simp [State.doubleFault]

@[simp] theorem State.setSlot_keeps (s : State) (k : Nat) (l : LogEntry) :
    (State.setSlot s k l).pending = s.pending ∧ (State.setSlot s k l).fuses = s.fuses := by
  simp [State.setSlot]

@[simp] theorem State.placeEntry_keeps (s : State) (cls : Nat) (entry : LogEntry) :
    (State.placeEntry s cls entry).1.pending = s.pending ∧ (State.placeEntry s cls entry).1.fuses = s.fuses := by
  (unfold State.placeEntry; simp only []; repeat' split) <;> simp

@[simp] theorem State.toHandler_keeps (s : State) (h : Handling) :
    (State.toHandler s h).pending = s.pending ∧ (State.toHandler s h).fuses = s.fuses := by
  (unfold State.toHandler; simp only []; repeat' split) <;> simp

@[simp] theorem State.logError_keeps (s : State) (e : ErrRec) :
    (State.logError s e).pending = s.pending ∧ (State.logError s e).fuses = s.fuses := by
  (unfold State.logError; simp only []; repeat' split) <;> simp

@[simp] theorem State.bootDies_keeps (s : State) (b : Bytes) :
    (State.bootDies s b).pending = s.pending ∧ (State.bootDies s b).fuses = s.fuses := by
  (unfold State.bootDies; simp only []; repeat' split) <;> simp

@[simp] theorem State.bootFlash_keeps (s : State) :
    (State.bootFlash s).pending = s.pending ∧ (State.bootFlash s).fuses = s.fuses := by
  simp [State.bootFlash]

@[simp] theorem State.drawNonce_keeps (s : State) :
    (State.drawNonce s).pending = s.pending ∧ (State.drawNonce s).fuses = s.fuses := by
  simp [State.drawNonce]

@[simp] theorem State.bootSteps_keeps (s : State) :
    (State.bootSteps s).pending = s.pending ∧ (State.bootSteps s).fuses = s.fuses := by
  simp [State.bootSteps]

@[simp] theorem State.refuseCut_keeps (s : State) (measure : Nat) (cause : Nat) :
    (State.refuseCut s measure cause).pending = s.pending ∧ (State.refuseCut s measure cause).fuses = s.fuses := by
  simp [State.refuseCut]

@[simp] theorem State.openCut_keeps (s : State) (m : Nat) :
    (State.openCut s m).pending = s.pending ∧ (State.openCut s m).fuses = s.fuses := by
  (unfold State.openCut; simp only []; repeat' split) <;> simp

@[simp] theorem State.boundaryCut_keeps (s : State) (m : Nat) (commit : Bool) (limit : Bool) :
    (State.boundaryCut s m commit limit).pending = s.pending ∧ (State.boundaryCut s m commit limit).fuses = s.fuses := by
  simp [State.boundaryCut]

@[simp] theorem State.boundaryPos_keeps (s : State) (m : Nat) :
    (State.boundaryPos s m).pending = s.pending ∧ (State.boundaryPos s m).fuses = s.fuses := by
  simp [State.boundaryPos]

@[simp] theorem State.startBuild_keeps (s0 : State) :
    (State.startBuild s0).pending = s0.pending ∧ (State.startBuild s0).fuses = s0.fuses := by
  (unfold State.startBuild; simp only []; repeat' split) <;> simp

@[simp] theorem State.buildIfDue_keeps (s : State) :
    (State.buildIfDue s).pending = s.pending ∧ (State.buildIfDue s).fuses = s.fuses := by
  simp [State.buildIfDue]

@[simp] theorem State.commitSeal_keeps (s : State) :
    (State.commitSeal s).pending = s.pending ∧ (State.commitSeal s).fuses = s.fuses := by
  simp [State.commitSeal]

@[simp] theorem State.dropSeal_keeps (s : State) (cause : Nat) :
    (State.dropSeal s cause).pending = s.pending ∧ (State.dropSeal s cause).fuses = s.fuses := by
  (unfold State.dropSeal; simp only []; repeat' split) <;> simp

@[simp] theorem State.flipTouched_keeps (s : State) :
    (State.flipTouched s).pending = s.pending ∧ (State.flipTouched s).fuses = s.fuses := by
  simp [State.flipTouched]

@[simp] theorem State.freshMeasure_keeps (s : State) :
    (State.freshMeasure s).pending = s.pending ∧ (State.freshMeasure s).fuses = s.fuses := by
  simp [State.freshMeasure]

@[simp] theorem State.freshRecords_keeps (s : State) :
    (State.freshRecords s).pending = s.pending ∧ (State.freshRecords s).fuses = s.fuses := by
  simp [State.freshRecords]

@[simp] theorem State.freshRun_keeps (s : State) (m : Nat) (commit : Bool) (idle : Bool) :
    (State.freshRun s m commit idle).pending = s.pending ∧ (State.freshRun s m commit idle).fuses = s.fuses := by
  simp [State.freshRun]

@[simp] theorem State.lossEvent_keeps (s : State) (m : EdgeMeas) :
    (State.lossEvent s m).pending = s.pending ∧ (State.lossEvent s m).fuses = s.fuses := by
  unfold State.lossEvent
  split
  · exact ⟨rfl, rfl⟩
  · exact State.emit_keeps _ _ _ _

@[simp] theorem State.lossScale_keeps (s : State) (commit : Bool) (cause : Nat) :
    (State.lossScale s commit cause).pending = s.pending ∧ (State.lossScale s commit cause).fuses = s.fuses := by
  simp [State.lossScale]

@[simp] theorem State.noteEnergy_keeps (s : State) (mj : Nat) :
    (State.noteEnergy s mj).pending = s.pending ∧ (State.noteEnergy s mj).fuses = s.fuses := by
  simp [State.noteEnergy]

@[simp] theorem State.persistFault_keeps (s : State) :
    (State.persistFault s).pending = s.pending ∧ (State.persistFault s).fuses = s.fuses := by
  simp [State.persistFault]

@[simp] theorem State.phaseRecord_keeps (s : State) (m : EdgeMeas) (commit : Bool) :
    (State.phaseRecord s m commit).pending = s.pending ∧ (State.phaseRecord s m commit).fuses = s.fuses := by
  simp [State.phaseRecord]

@[simp] theorem State.replanLate_keeps (s : State) :
    (State.replanLate s).pending = s.pending ∧ (State.replanLate s).fuses = s.fuses := by
  simp [State.replanLate]

@[simp] theorem State.sendData_keeps (s : State) (dest : Nat) :
    (State.sendData s dest).pending = s.pending ∧ (State.sendData s dest).fuses = s.fuses := by
  simp [State.sendData]

@[simp] theorem State.sendClips_keeps (s : State) (before : Bool) :
    (State.sendClips s before).pending = s.pending ∧ (State.sendClips s before).fuses = s.fuses := by
  unfold State.sendClips; (repeat' split) <;> simp

@[simp] theorem State.starve_keeps (s : State) :
    (State.starve s).pending = s.pending ∧ (State.starve s).fuses = s.fuses := by
  simp [State.starve]

@[simp] theorem State.finishWhere_keeps (s : State) (p : ActiveCmd → Bool) (status : Nat) (result : ActiveCmd → Nat) :
    (State.finishWhere s p status result).pending = s.pending ∧ (State.finishWhere s p status result).fuses = s.fuses := by
  simp [State.finishWhere]

@[simp] theorem State.formSets_keeps (s : State) (g : Graph) :
    (State.formSets s g).pending = s.pending ∧ (State.formSets s g).fuses = s.fuses := by
  (unfold State.formSets; simp only []; repeat' split) <;> simp

@[simp] theorem State.setInterval_keeps (s : State) (measCycles : Nat) :
    (State.setInterval s measCycles).pending = s.pending ∧ (State.setInterval s measCycles).fuses = s.fuses := by
  simp [State.setInterval]

@[simp] theorem State.syncLoad_keeps (s : State) : (State.syncLoad s).pending = s.pending ∧ (State.syncLoad s).fuses = s.fuses := ⟨rfl, rfl⟩

@[simp] theorem State.writeCaps_keeps (s : State) (c : Card) :
    (State.writeCaps s c).pending = (s).pending ∧ (State.writeCaps s c).fuses = (s).fuses := by
  unfold State.writeCaps
  split
  · simp
  · exact foldl_keeps _ (fun t f => by split <;> (try split) <;> simp) _ _

@[simp] theorem State.swapCard_keeps (s : State) (c : Card) :
    (State.swapCard s c).pending = s.pending ∧ (State.swapCard s c).fuses = s.fuses := by
  (unfold State.swapCard; simp only []; repeat' split) <;> simp

@[simp] theorem State.phraseBoundary_keeps (s : State) :
    (State.phraseBoundary s).pending = s.pending ∧ (State.phraseBoundary s).fuses = s.fuses := by
  (unfold State.phraseBoundary; simp only []; repeat' split) <;> simp

@[simp] theorem State.syncRealign_keeps (s : State) :
    (State.syncRealign s).pending = s.pending ∧ (State.syncRealign s).fuses = s.fuses := by
  simp [State.syncRealign]

@[simp] theorem State.verdictEvent_keeps (s : State) (commit : Bool) (cause : Nat) :
    (State.verdictEvent s commit cause).pending = s.pending ∧ (State.verdictEvent s commit cause).fuses = s.fuses := by
  simp [State.verdictEvent]

@[simp] theorem State.boundary_keeps (s : State) (m : EdgeMeas) :
    (State.boundary s m).pending = s.pending ∧ (State.boundary s m).fuses = s.fuses := by
  simp [State.boundary]

@[simp] theorem State.starveEvent_keeps (s : State) (mu : Nat) (req : Nat) (ch : Nat) (wait : Nat) :
    (State.starveEvent s mu req ch wait).pending = s.pending ∧ (State.starveEvent s mu req ch wait).fuses = s.fuses := by
  simp [State.starveEvent]

@[simp] theorem State.w1c_keeps (s : State) (f : Field) (v : Nat) (setNow : Nat) :
    (State.w1c s f v setNow).1.pending = s.pending ∧ (State.w1c s f v setNow).1.fuses = s.fuses := by
  simp [State.w1c]

@[simp] theorem State.clearStarve_keeps (s : State) (k v setNow : Nat) :
    (State.clearStarve s k v setNow).pending = (s).pending ∧ (State.clearStarve s k v setNow).fuses = (s).fuses := by
  unfold State.clearStarve
  split
  · simp
  · extract_lets up
    have h := State.w1c_keeps s (F.MU_ARB_STARVE_FLAG.mu k) v up
    generalize s.w1c (F.MU_ARB_STARVE_FLAG.mu k) v up = w at h ⊢
    obtain ⟨s1, new⟩ := w
    simp only at h ⊢
    rw [← h.1, ← h.2]
    exact foldl_keeps _ (fun t r => by split <;> simp) _ _

@[simp] theorem State.clearSticky_keeps (s : State) (k : Nat) (v : Nat) (setNow : Nat) :
    (State.clearSticky s k v setNow).pending = s.pending ∧ (State.clearSticky s k v setNow).fuses = s.fuses := by
  simp [State.clearSticky]

@[simp] theorem State.foreignClip_keeps (s : State) (c : Clip) :
    (State.foreignClip s c).2.pending = s.pending ∧ (State.foreignClip s c).2.fuses = s.fuses := by
  simp [State.foreignClip]

@[simp] theorem repeatExchange_keeps (a1 : Nat) (a2 : List Nat) (a3 : State) :
    (repeatExchange a1 a2 a3).pending = a3.pending ∧ (repeatExchange a1 a2 a3).fuses = a3.fuses := by
  induction a2 generalizing a1 a3 with
  | nil => cases a1 <;> exact ⟨rfl, rfl⟩
  | cons j js ih =>
    cases a1 with
    | zero => exact ⟨rfl, rfl⟩
    | succ n =>
      unfold repeatExchange
      split
      · exact ih _ _
      · rename_i c _
        simp only []
        exact ⟨(ih _ _).1.trans (State.foreignClip_keeps a3 c).1, (ih _ _).2.trans (State.foreignClip_keeps a3 c).2⟩

@[simp] theorem State.refillClip_keeps (s : State) (j : Nat) :
    (State.refillClip s j).pending = s.pending ∧ (State.refillClip s j).fuses = s.fuses := by
  (unfold State.refillClip; simp only []; repeat' split) <;> simp

@[simp] theorem State.switchDeck_keeps (s : State) (drawn : Nat) :
    (State.switchDeck s drawn).pending = s.pending ∧ (State.switchDeck s drawn).fuses = s.fuses := by
  simp [State.switchDeck]

@[simp] theorem State.closeClip_keeps (s : State) (dur : Nat) :
    (State.closeClip s dur).pending = s.pending ∧ (State.closeClip s dur).fuses = s.fuses := by
  (unfold State.closeClip; simp only []; repeat' split) <;> simp

@[simp] theorem State.record_keeps (s : State) (f : Fig) (time : Nat) (quantity : List Nat) :
    (State.record s f time quantity).pending = s.pending ∧ (State.record s f time quantity).fuses = s.fuses := by
  simp [State.record]

@[simp] theorem State.dropLate_keeps (s : State) (f : Fig) :
    (State.dropLate s f).pending = s.pending ∧ (State.dropLate s f).fuses = s.fuses := by
  simp [State.dropLate]

@[simp] theorem State.skipFig_keeps (s : State) (f : Fig) :
    (State.skipFig s f).pending = s.pending ∧ (State.skipFig s f).fuses = s.fuses := by
  simp [State.skipFig]

@[simp] theorem State.closeFigs_keeps (s : State) :
    (State.closeFigs s).pending = s.pending ∧ (State.closeFigs s).fuses = s.fuses := by
  simp [State.closeFigs]

@[simp] theorem State.closePack_keeps (s : State) (pos : BitVec 1024) :
    (State.closePack s pos).pending = s.pending ∧ (State.closePack s pos).fuses = s.fuses := by
  simp [State.closePack]

@[simp] theorem State.commitArb_keeps (s : State) :
    (State.commitArb s).pending = s.pending := by
  simp [State.commitArb]

@[simp] theorem State.signalAt_keeps (s : State) (key : Nat) (n : Nat) (lat : Nat) (isSet : Bool) :
    (State.signalAt s key n lat isSet).pending = s.pending ∧ (State.signalAt s key n lat isSet).fuses = s.fuses := by
  simp [State.signalAt]

@[simp] theorem State.dmSignal_keeps (s : State) (f : Fig) :
    (State.dmSignal s f).pending = s.pending ∧ (State.dmSignal s f).fuses = s.fuses := by
  unfold State.dmSignal; (repeat' split) <;> simp

@[simp] theorem State.noteMb_keeps (s : State) (f : Fig) :
    (State.noteMb s f).pending = s.pending ∧ (State.noteMb s f).fuses = s.fuses := by
  (unfold State.noteMb; simp only []; repeat' split) <;> simp

@[simp] theorem State.completeFig_keeps (s : State) (f : Fig) :
    (State.completeFig s f).pending = s.pending ∧ (State.completeFig s f).fuses = s.fuses := by
  simp [State.completeFig]

@[simp] theorem State.copyOn_keeps (n : Nat) (s : State) (page : Nat) :
    (State.copyOn n s page).pending = (s).pending ∧ (State.copyOn n s page).fuses = (s).fuses := by
  induction n generalizing s with
  | zero => simp [State.copyOn]
  | succ n ih =>
    unfold State.copyOn
    split
    · simp
    · extract_lets k
      split
      · simp [ih]
      · simp

@[simp] theorem exchangeAt_keeps (margin : Nat) (a1 : List Nat) (a2 : Int) (a3 : State) :
    (exchangeAt margin a1 a2 a3).pending = a3.pending ∧ (exchangeAt margin a1 a2 a3).fuses = a3.fuses := by
  induction a1 generalizing a2 a3 with
  | nil => exact ⟨rfl, rfl⟩
  | cons j js ih =>
    unfold exchangeAt
    split
    · exact ih _ _
    · simp only []
      split <;> simp [ih]

@[simp] theorem State.endExchange_keeps (s : State) :
    (State.endExchange s).pending = s.pending ∧ (State.endExchange s).fuses = s.fuses := by
  simp [State.endExchange]

@[simp] theorem State.flitIndex_keeps (s : State) (port : Nat) (f : Flit) :
    (State.flitIndex s port f).2.pending = s.pending ∧ (State.flitIndex s port f).2.fuses = s.fuses := by
  (unfold State.flitIndex; simp only []; repeat' split) <;> simp

@[simp] theorem State.stale_keeps (s : State) (port : Nat) :
    (State.stale s port).pending = s.pending ∧ (State.stale s port).fuses = s.fuses := by
  simp [State.stale]

@[simp] theorem State.sendVoid_keeps (s : State) (f : Fig) :
    (State.sendVoid s f).pending = s.pending ∧ (State.sendVoid s f).fuses = s.fuses := by
  (unfold State.sendVoid; simp only []; repeat' split) <;> simp

@[simp] theorem State.stepSeen_keeps (s : State) (op : Nat) (seen : Nat) :
    (State.stepSeen s op seen).pending = s.pending ∧ (State.stepSeen s op seen).fuses = s.fuses := by
  simp [State.stepSeen]

@[simp] theorem State.takePlanned_keeps (s : State) (port : Nat) (f : Flit) (g : Fig) :
    (State.takePlanned s port f g).pending = s.pending ∧ (State.takePlanned s port f g).fuses = s.fuses := by
  simp [State.takePlanned]

@[simp] theorem State.wearBytes_keeps (s : State) (n : Nat) :
    (State.wearBytes s n).pending = s.pending ∧ (State.wearBytes s n).fuses = s.fuses := by
  simp [State.wearBytes]

@[simp] theorem State.deliver_keeps (s : State) (port : Nat) (f : Flit) :
    (State.deliver s port f).pending = s.pending ∧ (State.deliver s port f).fuses = s.fuses := by
  (unfold State.deliver; simp only []; repeat' split) <;> simp

@[simp] theorem State.demuxTo_keeps (s : State) (rest : Bytes) (sync : Bool) :
    (State.demuxTo s rest sync).pending = s.pending ∧ (State.demuxTo s rest sync).fuses = s.fuses := by
  simp [State.demuxTo]

@[simp] theorem State.syncLost_keeps (s : State) :
    (State.syncLost s).pending = s.pending ∧ (State.syncLost s).fuses = s.fuses := by
  simp [State.syncLost]

@[simp] theorem State.endClip_keeps (s : State) :
    (State.endClip s).pending = s.pending ∧ (State.endClip s).fuses = s.fuses := by
  unfold State.endClip; (repeat' split) <;> simp

@[simp] theorem State.overflowClip_keeps (s : State) (c : Clip) :
    (State.overflowClip s c).pending = s.pending ∧ (State.overflowClip s c).fuses = s.fuses := by
  simp [State.overflowClip]

@[simp] theorem State.takeAu_keeps (s : State) (st : Stream) (off : Nat) (pts : Nat) (au : Bytes) (bad : Bool) :
    (State.takeAu s st off pts au bad).pending = s.pending ∧ (State.takeAu s st off pts au bad).fuses = s.fuses := by
  (unfold State.takeAu; simp only []; repeat' split) <;> simp

@[simp] theorem State.endPes_keeps (s : State) (st : Stream) :
    (State.endPes s st).pending = s.pending ∧ (State.endPes s st).fuses = s.fuses := by
  (unfold State.endPes; simp only []; repeat' split) <;> simp

@[simp] theorem State.takePat_keeps (s : State) (st : Stream) (off : Nat) (b : Bytes) :
    (State.takePat s st off b).pending = s.pending ∧ (State.takePat s st off b).fuses = s.fuses := by
  simp [State.takePat]

@[simp] theorem State.takePmt_keeps (s : State) (st : Stream) (b : Bytes) :
    (State.takePmt s st b).pending = s.pending ∧ (State.takePmt s st b).fuses = s.fuses := by
  simp [State.takePmt]

@[simp] theorem State.takePacket_keeps (s : State) (st : Stream) (off : Nat) (p : Bytes) :
    (State.takePacket s st off p).pending = s.pending ∧ (State.takePacket s st off p).fuses = s.fuses := by
  simp [State.takePacket]

@[simp] theorem State.demuxOnce_keeps (s : State) (st : Stream) (off : Nat) :
    (State.demuxOnce s st off).2.1.pending = s.pending ∧ (State.demuxOnce s st off).2.1.fuses = s.fuses := by
  (unfold State.demuxOnce; simp only []; repeat' split) <;> simp

@[simp] theorem State.demux_keeps (st : Stream) (a1 : Nat) (a2 : Nat) (a3 : State) :
    (State.demux st a1 a2 a3).pending = a3.pending ∧ (State.demux st a1 a2 a3).fuses = a3.fuses := by
  induction a1 generalizing a2 a3 with
  | zero => exact ⟨rfl, rfl⟩
  | succ n ih =>
    unfold State.demux
    have h := State.demuxOnce_keeps a3 st a2
    simp only []
    split
    · exact ⟨(ih _ _).1.trans h.1, (ih _ _).2.trans h.2⟩
    · exact h

@[simp] theorem State.depart_keeps (s : State) (seat : Nat) :
    (State.depart s seat).pending = s.pending ∧ (State.depart s seat).fuses = s.fuses := by
  simp [State.depart]

@[simp] theorem State.drainPort_keeps (s : State) (n : Nat) :
    (State.drainPort s n).pending = s.pending ∧ (State.drainPort s n).fuses = s.fuses := by
  simp [State.drainPort]

@[simp] theorem State.killCommands_keeps (s : State) :
    (State.killCommands s).pending = s.pending ∧ (State.killCommands s).fuses = s.fuses := by
  simp [State.killCommands]

@[simp] theorem State.dropGraph_keeps (s : State) :
    (State.dropGraph s).pending = s.pending ∧ (State.dropGraph s).fuses = s.fuses := by
  simp [State.dropGraph]

@[simp] theorem State.dropStream_keeps (s : State) (ring : Nat) (tag : Nat) :
    (State.dropStream s ring tag).pending = s.pending ∧ (State.dropStream s ring tag).fuses = s.fuses := by
  (unfold State.dropStream; simp only []; repeat' split) <;> simp

@[simp] theorem State.formLocal_keeps (s : State) :
    (State.formLocal s).pending = s.pending ∧ (State.formLocal s).fuses = s.fuses := by
  (unfold State.formLocal; simp only []; repeat' split) <;> simp

@[simp] theorem State.idleEdge_keeps (s : State) :
    (State.idleEdge s).pending = s.pending ∧ (State.idleEdge s).fuses = s.fuses := by
  (unfold State.idleEdge; simp only []; repeat' split) <;> simp

@[simp] theorem State.nextPos_keeps (s : State) (m : EdgeMeas) :
    (State.nextPos s m).pending = s.pending ∧ (State.nextPos s m).fuses = s.fuses := by
  (unfold State.nextPos; simp only []; repeat' split) <;> simp

@[simp] theorem State.partition_keeps (s : State) :
    (State.partition s).pending = s.pending ∧ (State.partition s).fuses = s.fuses := by
  simp [State.partition]

@[simp] theorem State.endReader_keeps (s : State) (kind : Nat) :
    (State.endReader s kind).pending = s.pending ∧ (State.endReader s kind).fuses = s.fuses := by
  (unfold State.endReader; simp only []; repeat' split) <;> simp

@[simp] theorem State.linkEvent_keeps (s : State) (kind : Nat) (n : Nat) (cause : Nat) :
    (State.linkEvent s kind n cause).pending = s.pending ∧ (State.linkEvent s kind n cause).fuses = s.fuses := by
  simp [State.linkEvent]

@[simp] theorem State.noteLoss_keeps (s : State) (seat : Nat) (n : Nat) (peer : Nat) :
    (State.noteLoss s seat n peer).pending = s.pending ∧ (State.noteLoss s seat n peer).fuses = s.fuses := by
  simp [State.noteLoss]

@[simp] theorem State.reportLoss_keeps (s : State) (n : Nat) (peer : Nat) :
    (State.reportLoss s n peer).pending = s.pending ∧ (State.reportLoss s n peer).fuses = s.fuses := by
  unfold State.reportLoss; (repeat' split) <;> simp

@[simp] theorem State.linkDown_keeps (s : State) (n : Nat) :
    (State.linkDown s n).pending = s.pending ∧ (State.linkDown s n).fuses = s.fuses := by
  simp [State.linkDown]

@[simp] theorem State.portEdges_keeps (s : State) :
    (State.portEdges s).pending = s.pending ∧ (State.portEdges s).fuses = s.fuses := by
  simp [State.portEdges]

@[simp] theorem State.reroute_keeps (s : State) :
    (State.reroute s).pending = s.pending ∧ (State.reroute s).fuses = s.fuses := by
  simp [State.reroute]

@[simp] theorem State.sendHello_keeps (s : State) (n : Nat) :
    (State.sendHello s n).pending = s.pending ∧ (State.sendHello s n).fuses = s.fuses := by
  simp [State.sendHello]

@[simp] theorem State.sendHellos_keeps (s : State) :
    (State.sendHellos s).pending = s.pending ∧ (State.sendHellos s).fuses = s.fuses := by
  simp [State.sendHellos]

@[simp] theorem State.fabricEdge_keeps (s : State) (sealing : Bool) :
    (State.fabricEdge s sealing).pending = s.pending ∧ (State.fabricEdge s sealing).fuses = s.fuses := by
  simp [State.fabricEdge]

@[simp] theorem State.setSwap_keeps (s : State) :
    (State.setSwap s).pending = s.pending ∧ (State.setSwap s).fuses = s.fuses := by
  simp [State.setSwap]

@[simp] theorem State.stepLimit_keeps (s : State) :
    (State.stepLimit s).pending = s.pending ∧ (State.stepLimit s).fuses = s.fuses := by
  simp [State.stepLimit]

@[simp] theorem State.openBeat_keeps (s : State) :
    (State.openBeat s).pending = s.pending ∧ (State.openBeat s).fuses = s.fuses := by
  simp [State.openBeat]

@[simp] theorem State.edge_keeps (s : State) (m : EdgeMeas) :
    (State.edge s m).pending = s.pending ∧ (State.edge s m).fuses = s.fuses := by
  simp [State.edge]

@[simp] theorem State.emitStamped_keeps (s : State) (kind : Nat) (die : Nat) (beat : Nat) (cyc : Nat) (payload : Nat) :
    (State.emitStamped s kind die beat cyc payload).pending = s.pending ∧ (State.emitStamped s kind die beat cyc payload).fuses = s.fuses := by
  simp [State.emitStamped]

@[simp] theorem State.endStream_keeps (s : State) (st : Stream) :
    (State.endStream s st).pending = s.pending ∧ (State.endStream s st).fuses = s.fuses := by
  simp [State.endStream]

@[simp] theorem State.errorEvent_keeps (s : State) (l : LogEntry) :
    (State.errorEvent s l).pending = s.pending ∧ (State.errorEvent s l).fuses = s.fuses := by
  simp [State.errorEvent]

@[simp] theorem State.evalMasters_keeps (s : State) (q : Param) : (State.evalMasters s q).pending = s.pending ∧ (State.evalMasters s q).fuses = s.fuses := by
  unfold State.evalMasters
  exact foldl_keeps _ (fun t gi => foldl_keeps _ (fun u e => by split <;> simp) _ _) _ _

@[simp] theorem State.evalEncode_keeps (s : State) (q : Param) (m : Mem) :
    (State.evalEncode s q m).pending = s.pending ∧ (State.evalEncode s q m).fuses = s.fuses := by
  unfold State.evalEncode
  extract_lets t0 u w
  have h : w.pending = u.pending ∧ w.fuses = u.fuses := by
    simp only [w]; split
    · exact State.evalMasters_keeps ..
    · exact foldl_keeps _ (fun z gi => State.reencode_keeps ..) _ _
  exact h

@[simp] theorem State.evalScales_keeps (s : State) (x : Snap) (o : Placement) (p : Placement) :
    (State.evalScales s x o p).pending = s.pending ∧ (State.evalScales s x o p).fuses = s.fuses := by
  simp [State.evalScales]

@[simp] theorem State.evalParam_keeps (x : Snap) (y : Graph) (s : State) (p : Placement) :
    (State.evalParam x y s p).pending = s.pending ∧ (State.evalParam x y s p).fuses = s.fuses := by
  unfold State.evalParam
  split
  · split
    · exact ⟨rfl, rfl⟩
    · split
      · split <;> exact ⟨rfl, rfl⟩
      · simp
  · exact ⟨rfl, rfl⟩

@[simp] theorem State.evalStart_keeps (s : State) :
    (State.evalStart s).pending = s.pending ∧ (State.evalStart s).fuses = s.fuses := by
  simp [State.evalStart]

@[simp] theorem State.fatalStop_keeps (s : State) :
    (State.fatalStop s).pending = s.pending ∧ (State.fatalStop s).fuses = s.fuses := by
  simp [State.fatalStop]

@[simp] theorem State.firstTags_keeps (s : State) :
    (State.firstTags s).pending = s.pending ∧ (State.firstTags s).fuses = s.fuses := by
  simp [State.firstTags]

@[simp] theorem State.floodReset_keeps (s : State) :
    (State.floodReset s).pending = s.pending ∧ (State.floodReset s).fuses = s.fuses := by
  simp [State.floodReset]

@[simp] theorem State.flushEvents_keeps (s : State) :
    (State.flushEvents s).pending = s.pending ∧ (State.flushEvents s).fuses = s.fuses := by
  simp [State.flushEvents]

@[simp] theorem State.winEarly_keeps (s : State) (x : CxlReq) :
    (State.winEarly s x).pending = s.pending ∧ (State.winEarly s x).fuses = s.fuses := by
  simp [State.winEarly]

@[simp] theorem State.flushWin_keeps (s : State) :
    (State.flushWin s).pending = s.pending ∧ (State.flushWin s).fuses = s.fuses := by
  simp [State.flushWin]

@[simp] theorem State.movePiece_keeps (s : State) (req : Nat) (k : Nat) (places : List (Nat × Nat)) (i : Nat) :
    (State.movePiece s req k places i).1.pending = s.pending ∧ (State.movePiece s req k places i).1.fuses = s.fuses := by
  simp [State.movePiece]

@[simp] theorem State.serveCut_keeps (s : State) (mu : Nat) (ch : Nat) (kind : Nat) :
    (State.serveCut s mu ch kind).pending = s.pending ∧ (State.serveCut s mu ch kind).fuses = s.fuses := by
  (unfold State.serveCut; simp only []; repeat' split) <;> simp

@[simp] theorem State.readGran_keeps (s : State) (r : Reading) (p : Placement) (t : BitVec 512) (kl : Nat × Nat) :
    (State.readGran s r p t kl).pending = s.pending ∧ (State.readGran s r p t kl).fuses = s.fuses := by
  unfold State.readGran
  split
  · simp
  · exact foldl_keeps _ (fun u e => by simp only []; split <;> (try split) <;> simp) _ _

@[simp] theorem State.serveWin_keeps (s : State) (x : CxlReq) :
    (State.serveWin s x).pending = s.pending ∧ (State.serveWin s x).fuses = s.fuses := by
  simp [State.serveWin]

@[simp] theorem State.serveHost_keeps (s : State) (mu : Nat) (ch : Nat) :
    (State.serveHost s mu ch).pending = s.pending ∧ (State.serveHost s mu ch).fuses = s.fuses := by
  (unfold State.serveHost; simp only []; repeat' split) <;> simp

@[simp] theorem State.serveMigr_keeps (s : State) (mu : Nat) (ch : Nat) :
    (State.serveMigr s mu ch).pending = s.pending ∧ (State.serveMigr s mu ch).fuses = s.fuses := by
  (unfold State.serveMigr; simp only []; repeat' split) <;> simp

@[simp] theorem State.repairGran_keeps (s : State) (mu : Nat) (k : Nat) :
    (State.repairGran s mu k).pending = s.pending ∧ (State.repairGran s mu k).fuses = s.fuses := by
  (unfold State.repairGran; simp only []; repeat' split) <;> simp

@[simp] theorem State.serveRepair_keeps (s : State) (mu : Nat) (ch : Nat) :
    (State.serveRepair s mu ch).pending = s.pending ∧ (State.serveRepair s mu ch).fuses = s.fuses := by
  (unfold State.serveRepair; simp only []; repeat' split) <;> simp

@[simp] theorem State.serveScrub_keeps (s : State) (mu : Nat) (ch : Nat) :
    (State.serveScrub s mu ch).pending = s.pending ∧ (State.serveScrub s mu ch).fuses = s.fuses := by
  simp [State.serveScrub]

@[simp] theorem State.serve_keeps (s : State) (mu : Nat) (ch : Nat) (req : Nat) :
    (State.serve s mu ch req).pending = s.pending ∧ (State.serve s mu ch req).fuses = s.fuses := by
  unfold State.serve; (repeat' split) <;> simp

@[simp] theorem State.grant_keeps (s : State) (mu : Nat) (r : ArbReq) (counted : Bool) :
    (State.grant s mu r counted).pending = s.pending ∧ (State.grant s mu r counted).fuses = s.fuses := by
  simp [State.grant]

@[simp] theorem State.halted_keeps (s : State) (cause : Nat) :
    (State.halted s cause).pending = s.pending ∧ (State.halted s cause).fuses = s.fuses := by
  simp [State.halted]

@[simp] theorem State.handled_keeps (s : State) :
    (State.handled s).pending = s.pending ∧ (State.handled s).fuses = s.fuses := by
  (unfold State.handled; simp only []; repeat' split) <;> simp

@[simp] theorem State.lateSwap_keeps (s : State) (m : Marker) :
    (State.lateSwap s m).pending = s.pending ∧ (State.lateSwap s m).fuses = s.fuses := by
  (unfold State.lateSwap; simp only []; repeat' split) <;> simp

@[simp] theorem State.heedLeader_keeps (s : State) (m : Marker) :
    (State.heedLeader s m).pending = s.pending ∧ (State.heedLeader s m).fuses = s.fuses := by
  simp [State.heedLeader]

@[simp] theorem State.helloOnly_keeps (s : State) (n : Nat) :
    (State.helloOnly s n).pending = s.pending ∧ (State.helloOnly s n).fuses = s.fuses := by
  simp [State.helloOnly]

@[simp] theorem State.knowSerial_keeps (s : State) (seat : Nat) (serial : Nat) :
    (State.knowSerial s seat serial).pending = s.pending ∧ (State.knowSerial s seat serial).fuses = s.fuses := by
  simp [State.knowSerial]

@[simp] theorem State.leaderDigest_keeps (s : State) (g : Graph) :
    (State.leaderDigest s g).2.pending = s.pending ∧ (State.leaderDigest s g).2.fuses = s.fuses := by
  unfold State.leaderDigest; (repeat' split) <;> simp

@[simp] theorem State.loadEval_keeps (s : State) (src : Option Snap) : (State.loadEval s src).pending = s.pending ∧ (State.loadEval s src).fuses = s.fuses := by
  unfold State.loadEval
  split
  · exact ⟨rfl, rfl⟩
  · split
    · exact ⟨rfl, rfl⟩
    · exact foldl_keeps _ (fun t p => State.evalParam_keeps ..) _ _

@[simp] theorem State.logNext_keeps (s : State) :
    (State.logNext s).pending = s.pending ∧ (State.logNext s).fuses = s.fuses := by
  (unfold State.logNext; simp only []; repeat' split) <;> simp

@[simp] theorem State.miscable_keeps (s : State) (n : Nat) :
    (State.miscable s n).pending = s.pending ∧ (State.miscable s n).fuses = s.fuses := by
  simp [State.miscable]

@[simp] theorem State.occupy_keeps (s : State) (seat : Nat) (serial : Nat) :
    (State.occupy s seat serial).pending = s.pending ∧ (State.occupy s seat serial).fuses = s.fuses := by
  simp [State.occupy]

@[simp] theorem State.writeMasks_keeps (s : State) (g : Graph) :
    (State.writeMasks s g).pending = s.pending ∧ (State.writeMasks s g).fuses = s.fuses := by
  unfold State.writeMasks
  exact foldl_keeps _ (fun t x => by split <;> simp) _ _

@[simp] theorem State.placeGraph_keeps (s : State) (g : Graph) (measure : Nat) :
    (State.placeGraph s g measure).pending = s.pending ∧ (State.placeGraph s g measure).fuses = s.fuses := by
  (unfold State.placeGraph; simp only []; repeat' split) <;> simp

@[simp] theorem State.placePiece_keeps (s : State) (pos : BitVec 1024) (c : Clip) (r : Nat) :
    (State.placePiece s pos c r).pending = s.pending ∧ (State.placePiece s pos c r).fuses = s.fuses := by
  simp [State.placePiece]

@[simp] theorem State.popCmd_keeps (s : State) (n : Nat) :
    (State.popCmd s n).pending = s.pending ∧ (State.popCmd s n).fuses = s.fuses := by
  simp [State.popCmd]

@[simp] theorem State.start_keeps (s : State) (n op : Nat) (draining needGraph : Bool) (f : BitVec 512 → State → State)
    (h : ∀ d t, (f d t).pending = t.pending ∧ (f d t).fuses = t.fuses) :
    (State.start s n op draining needGraph f).pending = s.pending ∧ (State.start s n op draining needGraph f).fuses = s.fuses := by
  unfold State.start
  split
  · simp
  · split
    · simp
    · split
      · simp
      · simp [h]

@[simp] theorem State.planCommand_keeps (s : State) (ring : Nat) (op : Nat) (check : BitVec 512 → Nat) (put : BitVec 512 → PlanReq → PlanReq) :
    (State.planCommand s ring op check put).pending = s.pending ∧ (State.planCommand s ring op check put).fuses = s.fuses := by
  simp [State.planCommand]

@[simp] theorem State.poisonLine_keeps (s : State) (mu : Nat) (line : Nat) :
    (State.poisonLine s mu line).pending = s.pending ∧ (State.poisonLine s mu line).fuses = s.fuses := by
  (unfold State.poisonLine; simp only []; repeat' split) <;> simp

@[simp] theorem State.powerOff_keeps (s : State) :
    (State.powerOff s).pending = s.pending ∧ (State.powerOff s).fuses = s.fuses := by
  simp [State.powerOff]

@[simp] theorem State.putIf_keeps (s : State) (f : Field) (ok : Bool) (v : Nat) :
    (State.putIf s f ok v).pending = s.pending ∧ (State.putIf s f ok v).fuses = s.fuses := by
  simp [State.putIf]

@[simp] theorem State.quietEdge_keeps (s : State) :
    (State.quietEdge s).pending = s.pending ∧ (State.quietEdge s).fuses = s.fuses := by
  simp [State.quietEdge]

@[simp] theorem State.rateSwitch_keeps (s : State) :
    (State.rateSwitch s).pending = s.pending ∧ (State.rateSwitch s).fuses = s.fuses := by
  (unfold State.rateSwitch; simp only []; repeat' split) <;> simp

@[simp] theorem State.rawUnits_keeps (st : Stream) (a1 : Nat) (a2 : Nat) (a3 : State) :
    (State.rawUnits st a1 a2 a3).pending = a3.pending ∧ (State.rawUnits st a1 a2 a3).fuses = a3.fuses := by
  induction a1 generalizing a2 a3 with
  | zero => exact ⟨rfl, rfl⟩
  | succ n ih =>
    unfold State.rawUnits
    simp only []
    split
    · exact ⟨rfl, rfl⟩
    · split
      · exact ⟨rfl, rfl⟩
      · exact ⟨(ih _ _).1.trans (State.takeAu_keeps ..).1, (ih _ _).2.trans (State.takeAu_keeps ..).2⟩

@[simp] theorem State.realign_keeps (s : State) (shuffle : Nat) :
    (State.realign s shuffle).pending = s.pending ∧ (State.realign s shuffle).fuses = s.fuses := by
  simp [State.realign]

@[simp] theorem State.reencodeAll_keeps (s : State) :
    (State.reencodeAll s).pending = s.pending ∧ (State.reencodeAll s).fuses = s.fuses := by
  unfold State.reencodeAll
  split
  · exact ⟨rfl, rfl⟩
  · refine foldl_keeps _ (fun t i => ?_) _ _
    split
    · exact ⟨rfl, rfl⟩
    · split
      · exact ⟨rfl, rfl⟩
      · exact foldl_keeps _ (fun u g => State.encodeGran_keeps ..) _ _

@[simp] theorem State.refuseJoin_keeps (s : State) (n : Nat) (cause : Nat) :
    (State.refuseJoin s n cause).pending = s.pending ∧ (State.refuseJoin s n cause).fuses = s.fuses := by
  simp [State.refuseJoin]

@[simp] theorem State.refuseReg_keeps (s : State) (off : Nat) (status : Nat) :
    (State.refuseReg s off status).pending = s.pending ∧ (State.refuseReg s off status).fuses = s.fuses := by
  simp [State.refuseReg]

@[simp] theorem State.reply_keeps (s : State) (v : Nat) :
    (State.reply s v).pending = s.pending ∧ (State.reply s v).fuses = s.fuses := by
  simp [State.reply]

@[simp] theorem State.reset__keeps (s : State) (k : ResetKind) (straps : Nat) (test : BootTest) :
    (State.reset_ s k straps test).pending = s.pending ∧ (State.reset_ s k straps test).fuses = s.fuses := by
  simp [State.reset_]

@[simp] theorem State.resetKept_keeps (s : State) (k : ResetKind) (test : BootTest) :
    (State.resetKept s k test).pending = s.pending ∧ (State.resetKept s k test).fuses = s.fuses := by
  simp [State.resetKept]

@[simp] theorem State.restorePairs_keeps (s : State) (x : Snap) :
    (State.restorePairs s x).pending = s.pending ∧ (State.restorePairs s x).fuses = s.fuses := by
  simp [State.restorePairs]

@[simp] theorem State.restoreRoutes_keeps (s : State) (x : Snap) :
    (State.restoreRoutes s x).pending = s.pending ∧ (State.restoreRoutes s x).fuses = s.fuses := by
  simp [State.restoreRoutes]

@[simp] theorem State.scrub_keeps (s : State) :
    (State.scrub s).pending = s.pending ∧ (State.scrub s).fuses = s.fuses := by
  simp [State.scrub]

@[simp] theorem State.restoreFrom_keeps (s : State) (x : Snap) (own : Bool) :
    (State.restoreFrom s x own).pending = s.pending ∧ (State.restoreFrom s x own).fuses = s.fuses := by
  simp [State.restoreFrom]

@[simp] theorem State.setFlash_keeps (s : State) (k : Nat) (f : FlashSlot) :
    (State.setFlash s k f).pending = s.pending ∧ (State.setFlash s k f).fuses = s.fuses := by
  simp [State.setFlash]

@[simp] theorem State.signal_keeps (s : State) (v : Nat) :
    (State.signal s v).pending = s.pending ∧ (State.signal s v).fuses = s.fuses := by
  simp [State.signal]

@[simp] theorem State.signalAll_keeps (s : State) (vs : List Nat) :
    (State.signalAll s vs).pending = s.pending ∧ (State.signalAll s vs).fuses = s.fuses := by
  simp [State.signalAll]

@[simp] theorem State.startMove_keeps (s : State) (m : Nat × Nat × Nat × Nat × Nat) :
    (State.startMove s m).pending = s.pending ∧ (State.startMove s m).fuses = s.fuses := by
  simp [State.startMove]

@[simp] theorem State.stageCard_keeps (s : State) (c : Card) (free : List (Nat × Nat × Nat)) :
    (State.stageCard s c free).pending = s.pending ∧ (State.stageCard s c free).fuses = s.fuses := by
  simp [State.stageCard]

@[simp] theorem State.startFig_keeps (s : State) (f : Fig) (env : FigEnv) :
    (State.startFig s f env).pending = s.pending ∧ (State.startFig s f env).fuses = s.fuses := by
  simp [State.startFig]

@[simp] theorem State.steer_keeps (s : State) (port : Nat) (off : Int) :
    (State.steer s port off).pending = s.pending ∧ (State.steer s port off).fuses = s.fuses := by
  simp [State.steer]

@[simp] theorem State.stopRing_keeps (s : State) (n : Nat) :
    (State.stopRing s n).pending = s.pending ∧ (State.stopRing s n).fuses = s.fuses := by
  simp [State.stopRing]

@[simp] theorem State.storeWord_keeps (s : State) (a1 : BarAddr) (v : Nat) :
    (State.storeWord s a1 v).pending = s.pending ∧ (State.storeWord s a1 v).fuses = s.fuses := by
  (unfold State.storeWord; simp only []; repeat' split) <;> simp

@[simp] theorem State.submitToken_keeps (s : State) :
    (State.submitToken s).pending = s.pending ∧ (State.submitToken s).fuses = s.fuses := by
  simp [State.submitToken]

@[simp] theorem State.syncSetNow_keeps (s : State) (key : Nat) (v : Nat) :
    (State.syncSetNow s key v).pending = s.pending ∧ (State.syncSetNow s key v).fuses = s.fuses := by
  simp [State.syncSetNow]

@[simp] theorem State.takeDraw_keeps (s : State) :
    (State.takeDraw s).2.pending = s.pending ∧ (State.takeDraw s).2.fuses = s.fuses := by
  (unfold State.takeDraw; simp only []; repeat' split) <;> simp

@[simp] theorem State.takeHello_keeps (s : State) (n : Nat) (h : Nat) :
    (State.takeHello s n h).pending = s.pending ∧ (State.takeHello s n h).fuses = s.fuses := by
  (unfold State.takeHello; simp only []; repeat' split) <;> simp

@[simp] theorem State.takeLine_keeps (s : State) (l : HostLine) :
    (State.takeLine s l).pending = s.pending ∧ (State.takeLine s l).fuses = s.fuses := by
  (unfold State.takeLine; simp only []; repeat' split) <;> simp

@[simp] theorem State.takeUp_keeps (s : State) :
    (State.takeUp s).pending = s.pending ∧ (State.takeUp s).fuses = s.fuses := by
  (unfold State.takeUp; simp only []; repeat' split) <;> simp

@[simp] theorem State.trainLink_keeps (s : State) (cxl : Bool) (width : Nat) (speed : Nat) :
    (State.trainLink s cxl width speed).pending = s.pending ∧ (State.trainLink s cxl width speed).fuses = s.fuses := by
  simp [State.trainLink]

@[simp] theorem State.vatExpect_keeps (s : State) (key : Nat) (head : Nat) (tail : Nat) :
    (State.vatExpect s key head tail).pending = s.pending ∧ (State.vatExpect s key head tail).fuses = s.fuses := by
  simp [State.vatExpect]

@[simp] theorem State.vatSet_keeps (s : State) (key : Nat) (entry : Nat) :
    (State.vatSet s key entry).pending = s.pending ∧ (State.vatSet s key entry).fuses = s.fuses := by
  simp [State.vatSet]

@[simp] theorem State.vatEntry_keeps (s : State) (x : Nat × Nat × BitVec 128) :
    (State.vatEntry s x).pending = s.pending ∧ (State.vatEntry s x).fuses = s.fuses := by
  simp [State.vatEntry]

@[simp] theorem State.writeArbCfg_keeps (s : State) (k : Nat) (v : Nat) :
    (State.writeArbCfg s k v).pending = s.pending ∧ (State.writeArbCfg s k v).fuses = s.fuses := by
  simp [State.writeArbCfg]

@[simp] theorem State.writeArbRank_keeps (s : State) (w : Nat) (v : Nat) :
    (State.writeArbRank s w v).pending = s.pending ∧ (State.writeArbRank s w v).fuses = s.fuses := by
  simp [State.writeArbRank]

@[simp] theorem State.writeCelCfg_keeps (s : State) (v : Nat) :
    (State.writeCelCfg s v).pending = s.pending ∧ (State.writeCelCfg s v).fuses = s.fuses := by
  simp [State.writeCelCfg]

@[simp] theorem State.writeCelRing_keeps (s : State) (v : Nat) :
    (State.writeCelRing s v).pending = s.pending ∧ (State.writeCelRing s v).fuses = s.fuses := by
  simp [State.writeCelRing]

@[simp] theorem State.writeErrStatus_keeps (s : State) (v : Nat) :
    (State.writeErrStatus s v).pending = s.pending ∧ (State.writeErrStatus s v).fuses = s.fuses := by
  simp [State.writeErrStatus]

@[simp] theorem State.writeFeat_keeps (s : State) (k : Nat) (v : Nat) :
    (State.writeFeat s k v).pending = s.pending ∧ (State.writeFeat s k v).fuses = s.fuses := by
  simp [State.writeFeat]

@[simp] theorem State.writeLogHead_keeps (s : State) (v : Nat) :
    (State.writeLogHead s v).pending = s.pending ∧ (State.writeLogHead s v).fuses = s.fuses := by
  simp [State.writeLogHead]

@[simp] theorem State.writeLrMul_keeps (s : State) (v : Nat) :
    (State.writeLrMul s v).pending = s.pending ∧ (State.writeLrMul s v).fuses = s.fuses := by
  simp [State.writeLrMul]

@[simp] theorem State.writeMargin_keeps (s : State) (v : Nat) :
    (State.writeMargin s v).pending = s.pending ∧ (State.writeMargin s v).fuses = s.fuses := by
  simp [State.writeMargin]

@[simp] theorem State.writePlanCfg_keeps (s : State) (v : Nat) :
    (State.writePlanCfg s v).pending = s.pending ∧ (State.writePlanCfg s v).fuses = s.fuses := by
  simp [State.writePlanCfg]

@[simp] theorem State.writeScrubCfg_keeps (s : State) (k : Nat) (v : Nat) :
    (State.writeScrubCfg s k v).pending = s.pending ∧ (State.writeScrubCfg s k v).fuses = s.fuses := by
  simp [State.writeScrubCfg]

@[simp] theorem State.writeStart_keeps (s : State) (go : Bool) :
    (State.writeStart s go).pending = s.pending ∧ (State.writeStart s go).fuses = s.fuses := by
  simp [State.writeStart]

@[simp] theorem State.writeWord_keeps (s : State) (off : Nat) (v : Nat) :
    (State.writeWord s off v).pending = s.pending := by
  (unfold State.writeWord; simp only []; repeat' split) <;> simp

@[simp] theorem State.writeBar0_keeps (s : State) (off : Nat) (size : Nat) (v : Nat) :
    (State.writeBar0 s off size v).pending = s.pending := by
  simp [State.writeBar0]

@[simp] theorem State.writeStatus_keeps (s : State) (line : Nat) :
    (State.writeStatus s line).pending = s.pending ∧ (State.writeStatus s line).fuses = s.fuses := by
  simp [State.writeStatus]

theorem execAccumulateWrite_keeps (cyc : Nat) (src : Nat) (mu : Nat) (s : State) :
    Answers (fun t => t.pending = s.pending ∧ t.fuses = s.fuses) (execAccumulateWrite cyc src mu s) := by
  unfold execAccumulateWrite
  simp only []; (repeat' split) <;> simp

theorem execArbRankWrite_keeps (cyc : Nat) (mu : Nat) (v : Word32) (s : State) :
    Answers (fun t => t.pending = s.pending ∧ t.fuses = s.fuses) (execArbRankWrite cyc mu v s) := by
  unfold execArbRankWrite
  simp

theorem execArbStarve_keeps (cyc : Nat) (mu : Nat) (ch : Nat) (req : Nat) (s : State) :
    Answers (fun t => t.pending = s.pending ∧ t.fuses = s.fuses) (execArbStarve cyc mu ch req s) := by
  unfold execArbStarve
  simp only []; (repeat' split) <;> simp

theorem execBadOpcode_keeps (cyc : Nat) (ring : Nat) (s : State) :
    Answers (fun t => t.pending = s.pending ∧ t.fuses = s.fuses) (execBadOpcode cyc ring s) := by
  unfold execBadOpcode
  simp only []; (repeat' split) <;> simp

theorem execBankPowerDown_keeps (cyc : Nat) (bank : Nat) (writeFid : Option Nat) (a1 : Option Nat) (s : State) :
    Answers (fun t => t.pending = s.pending ∧ t.fuses = s.fuses) (execBankPowerDown cyc bank writeFid a1 s) := by
  unfold execBankPowerDown
  simp only []; (repeat' split) <;> simp

theorem execBeatEdge_keeps (m : EdgeMeas) (s : State) :
    Answers (fun t => t.pending = s.pending ∧ t.fuses = s.fuses) (execBeatEdge m s) := by
  unfold execBeatEdge
  simp

theorem execBeatOffsetLimit_keeps (cyc : Nat) (s : State) :
    Answers (fun t => t.pending = s.pending ∧ t.fuses = s.fuses) (execBeatOffsetLimit cyc s) := by
  unfold execBeatOffsetLimit
  simp

theorem execBootComplete_keeps (cyc : Nat) (s : State) :
    Answers (fun t => t.pending = s.pending ∧ t.fuses = s.fuses) (execBootComplete cyc s) := by
  unfold execBootComplete
  simp

theorem execCelRegWrite_keeps (cyc : Nat) (ring : Bool) (v : Word32) (s : State) :
    Answers (fun t => t.pending = s.pending ∧ t.fuses = s.fuses) (execCelRegWrite cyc ring v s) := by
  unfold execCelRegWrite
  simp

theorem execClipDraw_keeps (cyc : Nat) (s : State) :
    Answers (fun t => t.pending = s.pending ∧ t.fuses = s.fuses) (execClipDraw cyc s) := by
  unfold execClipDraw
  simp only []
  split
  · simp
  split
  · simp
  · split
    · simp
    · have h := State.takeDraw_keeps (s.tick cyc)
      split <;> rename_i h2 <;> rw [h2] at h <;> simpa using h

theorem execColdReset_keeps (cyc : Nat) (test : BootTest) (s : State) :
    Answers (fun t => t.pending = s.pending ∧ t.fuses = s.fuses) (execColdReset cyc test s) := by
  unfold execColdReset
  simp

theorem execCommitCheck_keeps (cyc : Nat) (s : State) :
    Answers (fun t => t.pending = s.pending ∧ t.fuses = s.fuses) (execCommitCheck cyc s) := by
  unfold execCommitCheck
  simp only []; (repeat' split) <;> simp

theorem execConfigurationRequest_keeps (cyc : Nat) (s : State) :
    Answers (fun t => t.pending = s.pending ∧ t.fuses = s.fuses) (execConfigurationRequest cyc s) := by
  unfold execConfigurationRequest
  simp

theorem execCxlMemAccess_keeps (cyc : Nat) (write : Bool) (line : Nat) (data : BitVec 512) (s : State) :
    Answers (fun t => t.pending = s.pending ∧ t.fuses = s.fuses) (execCxlMemAccess cyc write line data s) := by
  unfold execCxlMemAccess
  simp

theorem execDebugUnlock_keeps (cyc : Nat) (s : State) :
    Answers (fun t => t.pending = s.pending ∧ t.fuses = s.fuses) (execDebugUnlock cyc s) := by
  unfold execDebugUnlock
  simp

theorem execDelayMeasure_keeps (cyc : Nat) (port : Nat) (roundTripQns : Nat) (s : State) :
    Answers (fun t => t.pending = s.pending ∧ t.fuses = s.fuses) (execDelayMeasure cyc port roundTripQns s) := by
  unfold execDelayMeasure
  simp

theorem execDescriptorFetch_keeps (cyc : Nat) (ring : Nat) (desc : BitVec 512) (s : State) :
    Answers (fun t => t.pending = s.pending ∧ t.fuses = s.fuses) (execDescriptorFetch cyc ring desc s) := by
  unfold execDescriptorFetch
  simp

theorem execDieToDieRetry_keeps (cyc : Nat) (die : Nat) (port : Nat) (lanes : Nat) (retrained : Bool) (s : State) :
    Answers (fun t => t.pending = s.pending ∧ t.fuses = s.fuses) (execDieToDieRetry cyc die port lanes retrained s) := by
  unfold execDieToDieRetry
  simp

theorem execDomainReset_keeps (cyc : Nat) (test : BootTest) (s : State) :
    Answers (fun t => t.pending = s.pending ∧ t.fuses = s.fuses) (execDomainReset cyc test s) := by
  unfold execDomainReset
  simp

theorem execDrainToHalt_keeps (cyc : Nat) (s : State) :
    Answers (fun t => t.pending = s.pending ∧ t.fuses = s.fuses) (execDrainToHalt cyc s) := by
  unfold execDrainToHalt
  simp

theorem execErrLogHeadWrite_keeps (cyc : Nat) (v : Word32) (s : State) :
    Answers (fun t => t.pending = s.pending ∧ t.fuses = s.fuses) (execErrLogHeadWrite cyc v s) := by
  unfold execErrLogHeadWrite
  simp

theorem execErrStatusWrite_keeps (cyc : Nat) (v : Word32) (s : State) :
    Answers (fun t => t.pending = s.pending ∧ t.fuses = s.fuses) (execErrStatusWrite cyc v s) := by
  unfold execErrStatusWrite
  simp

theorem execErrorDetected_keeps (cyc : Nat) (e : ErrIn) (s : State) :
    Answers (fun t => t.pending = s.pending ∧ t.fuses = s.fuses) (execErrorDetected cyc e s) := by
  unfold execErrorDetected
  simp

theorem execErrorHandled_keeps (cyc : Nat) (s : State) :
    Answers (fun t => t.pending = s.pending ∧ t.fuses = s.fuses) (execErrorHandled cyc s) := by
  unfold execErrorHandled
  simp

theorem execErrorHandling_keeps (cyc : Nat) (s : State) :
    Answers (fun t => t.pending = s.pending ∧ t.fuses = s.fuses) (execErrorHandling cyc s) := by
  unfold execErrorHandling
  simp

theorem execErrorLogged_keeps (cyc : Nat) (s : State) :
    Answers (fun t => t.pending = s.pending ∧ t.fuses = s.fuses) (execErrorLogged cyc s) := by
  unfold execErrorLogged
  simp

theorem execEventBeatClose_keeps (cyc : Nat) (s : State) :
    Answers (fun t => t.pending = s.pending ∧ t.fuses = s.fuses) (execEventBeatClose cyc s) := by
  unfold execEventBeatClose
  simp

theorem execExtraRefresh_keeps (cyc : Nat) (mu : Nat) (ch : Nat) (a1 : Bool) (a2 : Option Nat) (s : State) :
    Answers (fun t => t.pending = s.pending ∧ t.fuses = s.fuses) (execExtraRefresh cyc mu ch a1 a2 s) := by
  unfold execExtraRefresh
  simp

theorem execFeatAcceptWrite_keeps (cyc : Nat) (k : Nat) (v : Word32) (s : State) :
    Answers (fun t => t.pending = s.pending ∧ t.fuses = s.fuses) (execFeatAcceptWrite cyc k v s) := by
  unfold execFeatAcceptWrite
  simp

theorem execFigureComplete_keeps (cyc : Nat) (fid : Nat) (s : State) :
    Answers (fun t => t.pending = s.pending ∧ t.fuses = s.fuses) (execFigureComplete cyc fid s) := by
  unfold execFigureComplete
  simp only []; (repeat' split) <;> simp

theorem execFigureStart_keeps (cyc : Nat) (fid : Nat) (env : FigEnv) (s : State) :
    Answers (fun t => t.pending = s.pending ∧ t.fuses = s.fuses) (execFigureStart cyc fid env s) := by
  unfold execFigureStart
  simp only []; (repeat' split) <;> simp

theorem execFlitCrcFail_keeps (cyc : Nat) (port : Nat) (s : State) :
    Answers (fun t => t.pending = s.pending ∧ t.fuses = s.fuses) (execFlitCrcFail cyc port s) := by
  unfold execFlitCrcFail
  simp

theorem execFlitReceived_keeps (cyc : Nat) (port : Nat) (flit : Flit) (trailer : Word32) (s : State) :
    Answers (fun t => t.pending = s.pending ∧ t.fuses = s.fuses) (execFlitReceived cyc port flit trailer s) := by
  unfold execFlitReceived
  simp

theorem execGoResponse_keeps (cyc : Nat) (line : Nat) (s : State) :
    Answers (fun t => t.pending = s.pending ∧ t.fuses = s.fuses) (execGoResponse cyc line s) := by
  unfold execGoResponse
  simp

theorem execHelloReceived_keeps (cyc : Nat) (port : Nat) (payload : BitVec 896) (s : State) :
    Answers (fun t => t.pending = s.pending ∧ t.fuses = s.fuses) (execHelloReceived cyc port payload s) := by
  unfold execHelloReceived
  simp

theorem execHostBootImage_keeps (cyc : Nat) (image : Bytes) (test : BootTest) (s : State) :
    Answers (fun t => t.pending = s.pending ∧ t.fuses = s.fuses) (execHostBootImage cyc image test s) := by
  unfold execHostBootImage
  simp

theorem execHostLinePoll_keeps (cyc : Nat) (lines : List HostLine) (s : State) :
    Answers (fun t => t.pending = s.pending ∧ t.fuses = s.fuses) (execHostLinePoll cyc lines s) := by
  unfold execHostLinePoll
  simp

theorem execHostLineWrite_keeps (cyc : Nat) (line : HostLine) (s : State) :
    Answers (fun t => t.pending = s.pending ∧ t.fuses = s.fuses) (execHostLineWrite cyc line s) := by
  unfold execHostLineWrite
  simp

theorem execHostLinkLost_keeps (cyc : Nat) (recovered : Bool) (s : State) :
    Answers (fun t => t.pending = s.pending ∧ t.fuses = s.fuses) (execHostLinkLost cyc recovered s) := by
  unfold execHostLinkLost
  simp

theorem execHostLinkRetrain_keeps (cyc : Nat) (width : Nat) (speed : Nat) (s : State) :
    Answers (fun t => t.pending = s.pending ∧ t.fuses = s.fuses) (execHostLinkRetrain cyc width speed s) := by
  unfold execHostLinkRetrain
  simp

theorem execHostReadError_keeps (cyc : Nat) (what : HostRead) (s : State) :
    Answers (fun t => t.pending = s.pending ∧ t.fuses = s.fuses) (execHostReadError cyc what s) := by
  unfold execHostReadError
  simp only []; (repeat' split) <;> simp

theorem execHubResetCold_keeps (cyc : Nat) (test : BootTest) (s : State) :
    Answers (fun t => t.pending = s.pending ∧ t.fuses = s.fuses) (execHubResetCold cyc test s) := by
  unfold execHubResetCold
  simp

theorem execHubResetWarm_keeps (cyc : Nat) (test : BootTest) (s : State) :
    Answers (fun t => t.pending = s.pending ∧ t.fuses = s.fuses) (execHubResetWarm cyc test s) := by
  unfold execHubResetWarm
  simp

theorem execIngPosRead_keeps (cyc : Nat) (ring : Nat) (s : State) :
    Answers (fun t => t.pending = s.pending ∧ t.fuses = s.fuses) (execIngPosRead cyc ring s) := by
  unfold execIngPosRead
  simp

theorem execIngestMb_keeps (cyc : Nat) (ring : Nat) (s : State) :
    Answers (fun t => t.pending = s.pending ∧ t.fuses = s.fuses) (execIngestMb cyc ring s) := by
  unfold execIngestMb
  simp

theorem execIngestStream_keeps (cyc : Nat) (ring : Nat) (sd : BitVec 512) (s : State) :
    Answers (fun t => t.pending = s.pending ∧ t.fuses = s.fuses) (execIngestStream cyc ring sd s) := by
  unfold execIngestStream
  simp

theorem execInputPowerOverTdp_keeps (cyc : Nat) (watts : Nat) (us : Nat) (s : State) :
    Answers (fun t => t.pending = s.pending ∧ t.fuses = s.fuses) (execInputPowerOverTdp cyc watts us s) := by
  unfold execInputPowerOverTdp
  simp

theorem execInputVoltageFault_keeps (cyc : Nat) (mv : Nat) (ns : Nat) (s : State) :
    Answers (fun t => t.pending = s.pending ∧ t.fuses = s.fuses) (execInputVoltageFault cyc mv ns s) := by
  unfold execInputVoltageFault
  simp

theorem execKill_keeps (cyc : Nat) (ring : Nat) (s : State) :
    Answers (fun t => t.pending = s.pending ∧ t.fuses = s.fuses) (execKill cyc ring s) := by
  unfold execKill
  simp

theorem execLeaderElected_keeps (cyc : Nat) (s : State) :
    Answers (fun t => t.pending = s.pending ∧ t.fuses = s.fuses) (execLeaderElected cyc s) := by
  unfold execLeaderElected
  simp

theorem execLeaderLost_keeps (cyc : Nat) (s : State) :
    Answers (fun t => t.pending = s.pending ∧ t.fuses = s.fuses) (execLeaderLost cyc s) := by
  unfold execLeaderLost
  simp only []; (repeat' split) <;> simp

theorem execLinkControlFlit_keeps (cyc : Nat) (port : Nat) (lastGood : Nat) (nak : Bool) (credits : List Nat) (s : State) :
    Answers (fun t => t.pending = s.pending ∧ t.fuses = s.fuses) (execLinkControlFlit cyc port lastGood nak credits s) := by
  unfold execLinkControlFlit
  simp

theorem execLinkControlSend_keeps (cyc : Nat) (port : Nat) (s : State) :
    Answers (fun t => t.pending = s.pending ∧ t.fuses = s.fuses) (execLinkControlSend cyc port s) := by
  unfold execLinkControlSend
  simp

theorem execLinkDown_keeps (cyc : Nat) (port : Nat) (s : State) :
    Answers (fun t => t.pending = s.pending ∧ t.fuses = s.fuses) (execLinkDown cyc port s) := by
  unfold execLinkDown
  simp

theorem execLinkRetrain_keeps (cyc : Nat) (port : Nat) (width : Nat) (s : State) :
    Answers (fun t => t.pending = s.pending ∧ t.fuses = s.fuses) (execLinkRetrain cyc port width s) := by
  unfold execLinkRetrain
  simp

theorem execLinkUp_keeps (cyc : Nat) (port : Nat) (width : Nat) (s : State) :
    Answers (fun t => t.pending = s.pending ∧ t.fuses = s.fuses) (execLinkUp cyc port width s) := by
  unfold execLinkUp
  simp

theorem execLoadCard_keeps (cyc : Nat) (ring : Nat) (card : CardImage) (side : CardSide) (s : State) :
    Answers (fun t => t.pending = s.pending ∧ t.fuses = s.fuses) (execLoadCard cyc ring card side s) := by
  unfold execLoadCard
  split
  · simp
  rw [answers_next, ← (State.tick_keeps s cyc).1, ← (State.tick_keeps s cyc).2]
  refine State.start_keeps _ _ _ _ _ _ (fun d t => ?_)
  split
  · simp
  · split <;> simp

theorem execLoadGraph_keeps (cyc : Nat) (ring : Nat) (image : Bytes) (mask : Bytes) (places : List Placement) (src : Option Snap) (s : State) :
    Answers (fun t => t.pending = s.pending ∧ t.fuses = s.fuses) (execLoadGraph cyc ring image mask places src s) := by
  unfold execLoadGraph
  simp

theorem execLrMulWrite_keeps (cyc : Nat) (v : Word32) (s : State) :
    Answers (fun t => t.pending = s.pending ∧ t.fuses = s.fuses) (execLrMulWrite cyc v s) := by
  unfold execLrMulWrite
  simp

theorem execMarkerReceived_keeps (cyc : Nat) (port : Nat) (mk : Marker) (offsetQns : Int) (s : State) :
    Answers (fun t => t.pending = s.pending ∧ t.fuses = s.fuses) (execMarkerReceived cyc port mk offsetQns s) := by
  unfold execMarkerReceived
  simp

theorem execMemberReceived_keeps (cyc : Nat) (msg : MemberMsg) (s : State) :
    Answers (fun t => t.pending = s.pending ∧ t.fuses = s.fuses) (execMemberReceived cyc msg s) := by
  unfold execMemberReceived
  (repeat' split) <;> simp

theorem execMirrorDone_keeps (cyc : Nat) (s : State) :
    Answers (fun t => t.pending = s.pending ∧ t.fuses = s.fuses) (execMirrorDone cyc s) := by
  unfold execMirrorDone
  simp only []; (repeat' split) <;> simp

theorem execMr4Report_keeps (cyc : Nat) (mu : Nat) (rate : Nat) (hot : Bool) (s : State) :
    Answers (fun t => t.pending = s.pending ∧ t.fuses = s.fuses) (execMr4Report cyc mu rate hot s) := by
  unfold execMr4Report
  simp

theorem execMsixModerationExpiry_keeps (cyc : Nat) (vec : Nat) (s : State) :
    Answers (fun t => t.pending = s.pending ∧ t.fuses = s.fuses) (execMsixModerationExpiry cyc vec s) := by
  unfold execMsixModerationExpiry
  simp

theorem execNandProgramFail_keeps (cyc : Nat) (s : State) :
    Answers (fun t => t.pending = s.pending ∧ t.fuses = s.fuses) (execNandProgramFail cyc s) := by
  unfold execNandProgramFail
  simp

theorem execNop_keeps (cyc : Nat) (ring : Nat) (s : State) :
    Answers (fun t => t.pending = s.pending ∧ t.fuses = s.fuses) (execNop cyc ring s) := by
  unfold execNop
  simp

theorem execParamRead_keeps (cyc : Nat) (ring : Nat) (s : State) :
    Answers (fun t => t.pending = s.pending ∧ t.fuses = s.fuses) (execParamRead cyc ring s) := by
  unfold execParamRead
  split
  · simp
  rw [answers_next, ← (State.tick_keeps s cyc).1, ← (State.tick_keeps s cyc).2]
  refine State.start_keeps _ _ _ _ _ _ (fun d u => ?_)
  split
  · simp
  · simp only []
    split <;> simp

theorem execParamWrite_keeps (cyc : Nat) (ring : Nat) (src : Bytes) (s : State) :
    Answers (fun t => t.pending = s.pending ∧ t.fuses = s.fuses) (execParamWrite cyc ring src s) := by
  unfold execParamWrite
  split
  · simp
  rw [answers_next, ← (State.tick_keeps s cyc).1, ← (State.tick_keeps s cyc).2]
  refine State.start_keeps _ _ _ _ _ _ (fun d u => ?_)
  split
  · simp
  · split <;> simp

theorem execPatrolScrub_keeps (cyc : Nat) (mu : Nat) (line : Nat) (corrected : Bool) (s : State) :
    Answers (fun t => t.pending = s.pending ∧ t.fuses = s.fuses) (execPatrolScrub cyc mu line corrected s) := by
  unfold execPatrolScrub
  simp

theorem execPerstRelease_keeps (cyc : Nat) (cxl : Bool) (width : Nat) (speed : Nat) (s : State) :
    Answers (fun t => t.pending = s.pending ∧ t.fuses = s.fuses) (execPerstRelease cyc cxl width speed s) := by
  unfold execPerstRelease
  simp

theorem execPlanCfgWrite_keeps (cyc : Nat) (margin : Bool) (v : Word32) (s : State) :
    Answers (fun t => t.pending = s.pending ∧ t.fuses = s.fuses) (execPlanCfgWrite cyc margin v s) := by
  unfold execPlanCfgWrite
  simp

theorem execPldmFirmwareUpdate_keeps (cyc : Nat) (op : PldmFw) (s : State) :
    Answers (fun t => t.pending = s.pending ∧ t.fuses = s.fuses) (execPldmFirmwareUpdate cyc op s) := by
  unfold execPldmFirmwareUpdate
  simp only []; (repeat' split) <;> simp

theorem execPldmRequest_keeps (cyc : Nat) (req : PldmReq) (s : State) :
    Answers (fun t => t.pending = s.pending) (execPldmRequest cyc req s) := by
  unfold execPldmRequest
  (repeat' split) <;> simp

theorem execPldmReset_keeps (cyc : Nat) (test : BootTest) (s : State) :
    Answers (fun t => t.pending = s.pending ∧ t.fuses = s.fuses) (execPldmReset cyc test s) := by
  unfold execPldmReset
  simp

theorem execPowerOnReset_keeps (a1 : Nat) (straps : BitVec 16) (test : BootTest) (s : State) :
    Answers (fun t => t.pending = s.pending ∧ t.fuses = s.fuses) (execPowerOnReset a1 straps test s) := by
  unfold execPowerOnReset
  simp

theorem execPwrgdFall_keeps (cyc : Nat) (s : State) :
    Answers (fun t => t.pending = s.pending ∧ t.fuses = s.fuses) (execPwrgdFall cyc s) := by
  unfold execPwrgdFall
  simp

theorem execRefclk156Loss_keeps (cyc : Nat) (s : State) :
    Answers (fun t => t.pending = s.pending ∧ t.fuses = s.fuses) (execRefclk156Loss cyc s) := by
  unfold execRefclk156Loss
  simp

theorem execRegisterWrite_keeps (cyc : Nat) (off : Nat) (size : Nat) (v : Word64) (s : State) :
    Answers (fun t => t.pending = s.pending) (execRegisterWrite cyc off size v s) := by
  unfold execRegisterWrite
  simp

theorem execReplan_keeps (cyc : Nat) (ring : Nat) (s : State) :
    Answers (fun t => t.pending = s.pending ∧ t.fuses = s.fuses) (execReplan cyc ring s) := by
  unfold execReplan
  simp

theorem execRestore_keeps (cyc : Nat) (ring : Nat) (others : List (Nat × Nat)) (twin : List Snap) (s : State) :
    Answers (fun t => t.pending = s.pending ∧ t.fuses = s.fuses) (execRestore cyc ring others twin s) := by
  unfold execRestore
  split
  · simp
  rw [answers_next, ← (State.tick_keeps s cyc).1, ← (State.tick_keeps s cyc).2]
  refine State.start_keeps _ _ _ _ _ _ (fun d t => ?_)
  split
  · simp
  · split
    · simp
    · simp only []
      split
      · simp
      · split <;> simp

theorem execRestoreDone_keeps (cyc : Nat) (s : State) :
    Answers (fun t => t.pending = s.pending ∧ t.fuses = s.fuses) (execRestoreDone cyc s) := by
  unfold execRestoreDone
  simp

theorem execRindStart_keeps (cyc : Nat) (inFlight : List Nat) (s : State) :
    Answers (fun t => t.pending = s.pending ∧ t.fuses = s.fuses) (execRindStart cyc inFlight s) := by
  unfold execRindStart
  simp

theorem execRouteReceived_keeps (cyc : Nat) (ld : Nat) (first : Nat) (entries : List Nat) (s : State) :
    Answers (fun t => t.pending = s.pending ∧ t.fuses = s.fuses) (execRouteReceived cyc ld first entries s) := by
  unfold execRouteReceived
  simp

theorem execScratchpadEcc_keeps (cyc : Nat) (die : Nat) (cluster : Nat) (line : Nat) (fatal : Bool) (fid : Option Nat) (s : State) :
    Answers (fun t => t.pending = s.pending ∧ t.fuses = s.fuses) (execScratchpadEcc cyc die cluster line fatal fid s) := by
  unfold execScratchpadEcc
  simp

theorem execScrubDone_keeps (cyc : Nat) (nonZero : Option Source) (s : State) :
    Answers (fun t => t.pending = s.pending ∧ t.fuses = s.fuses) (execScrubDone cyc nonZero s) := by
  unfold execScrubDone
  (repeat' split) <;> simp

theorem execSeatReady_keeps (cyc : Nat) (card : CardImage) (side : CardSide) (beatsNeeded : Nat) (s : State) :
    Answers (fun t => t.pending = s.pending ∧ t.fuses = s.fuses) (execSeatReady cyc card side beatsNeeded s) := by
  unfold execSeatReady
  simp only []; (repeat' split) <;> simp

theorem execSecArbCommit_keeps (cyc : Nat) (s : State) :
    Answers (fun t => t.pending = s.pending) (execSecArbCommit cyc s) := by
  unfold execSecArbCommit
  simp

theorem execSetBeat_keeps (cyc : Nat) (ring : Nat) (s : State) :
    Answers (fun t => t.pending = s.pending ∧ t.fuses = s.fuses) (execSetBeat cyc ring s) := by
  unfold execSetBeat
  simp

theorem execSetCap_keeps (cyc : Nat) (ring : Nat) (s : State) :
    Answers (fun t => t.pending = s.pending ∧ t.fuses = s.fuses) (execSetCap cyc ring s) := by
  unfold execSetCap
  simp

theorem execSetPhrase_keeps (cyc : Nat) (ring : Nat) (s : State) :
    Answers (fun t => t.pending = s.pending ∧ t.fuses = s.fuses) (execSetPhrase cyc ring s) := by
  unfold execSetPhrase
  simp

theorem execShip_keeps (cyc : Nat) (ring : Nat) (s : State) :
    Answers (fun t => t.pending = s.pending ∧ t.fuses = s.fuses) (execShip cyc ring s) := by
  unfold execShip
  simp

theorem execShipDone_keeps (cyc : Nat) (measure : Nat) (s : State) :
    Answers (fun t => t.pending = s.pending ∧ t.fuses = s.fuses) (execShipDone cyc measure s) := by
  unfold execShipDone
  simp

theorem execSlotArbitration_keeps (cyc : Nat) (mu : Nat) (ch : Nat) (requests : List Nat) (slot : SlotUse) (s : State) :
    Answers (fun t => t.pending = s.pending ∧ t.fuses = s.fuses) (execSlotArbitration cyc mu ch requests slot s) := by
  unfold execSlotArbitration
  simp only []; (repeat' split) <;> simp

theorem execSlotSel_keeps (cyc : Nat) (die : Nat) (cluster : Nat) (s : State) :
    Answers (fun t => t.pending = s.pending ∧ t.fuses = s.fuses) (execSlotSel cyc die cluster s) := by
  unfold execSlotSel
  simp only []; (repeat' split) <;> simp

theorem execSnapDomain_keeps (cyc : Nat) (s : State) :
    Answers (fun t => t.pending = s.pending ∧ t.fuses = s.fuses) (execSnapDomain cyc s) := by
  unfold execSnapDomain
  simp only []; (repeat' split) <;> simp

theorem execSnapDone_keeps (cyc : Nat) (s : State) :
    Answers (fun t => t.pending = s.pending ∧ t.fuses = s.fuses) (execSnapDone cyc s) := by
  unfold execSnapDone
  simp only []; (repeat' split) <;> simp

theorem execSpdmRequest_keeps (cyc : Nat) (req : SpdmReq) (s : State) :
    Answers (fun t => t.pending = s.pending ∧ t.fuses = s.fuses) (execSpdmRequest cyc req s) := by
  unfold execSpdmRequest
  (repeat' split) <;> simp

theorem execStart_keeps (cyc : Nat) (go : Bool) (s : State) :
    Answers (fun t => t.pending = s.pending ∧ t.fuses = s.fuses) (execStart cyc go s) := by
  unfold execStart
  simp

theorem execStarveFlagClear_keeps (cyc : Nat) (mu : Nat) (v : Word32) (setNow : Nat) (s : State) :
    Answers (fun t => t.pending = s.pending ∧ t.fuses = s.fuses) (execStarveFlagClear cyc mu v setNow s) := by
  unfold execStarveFlagClear
  simp

theorem execStop_keeps (cyc : Nat) (ring : Nat) (s : State) :
    Answers (fun t => t.pending = s.pending ∧ t.fuses = s.fuses) (execStop cyc ring s) := by
  unfold execStop
  simp

theorem execSyncArm_keeps (cyc : Nat) (ring : Nat) (s : State) :
    Answers (fun t => t.pending = s.pending ∧ t.fuses = s.fuses) (execSyncArm cyc ring s) := by
  unfold execSyncArm
  simp

theorem execSyncRead_keeps (cyc : Nat) (ring : Nat) (s : State) :
    Answers (fun t => t.pending = s.pending ∧ t.fuses = s.fuses) (execSyncRead cyc ring s) := by
  unfold execSyncRead
  simp

theorem execSyncSetAt_keeps (cyc : Nat) (die : Nat) (obj : Nat) (s : State) :
    Answers (fun t => t.pending = s.pending ∧ t.fuses = s.fuses) (execSyncSetAt cyc die obj s) := by
  unfold execSyncSetAt
  simp only []; (repeat' split) <;> simp

theorem execSyncSignal_keeps (cyc : Nat) (ring : Nat) (s : State) :
    Answers (fun t => t.pending = s.pending ∧ t.fuses = s.fuses) (execSyncSignal cyc ring s) := by
  unfold execSyncSignal
  simp

theorem execT1ClearDone_keeps (cyc : Nat) (s : State) :
    Answers (fun t => t.pending = s.pending ∧ t.fuses = s.fuses) (execT1ClearDone cyc s) := by
  unfold execT1ClearDone
  simp

theorem execT1InlineEcc_keeps (cyc : Nat) (mu : Nat) (ch : Nat) (line : Nat) (check : T1Check) (fid : Option Nat) (s : State) :
    Answers (fun t => t.pending = s.pending ∧ t.fuses = s.fuses) (execT1InlineEcc cyc mu ch line check fid s) := by
  unfold execT1InlineEcc
  (repeat' split) <;> simp

theorem execThermalShutdown_keeps (cyc : Nat) (tempC : Nat) (s : State) :
    Answers (fun t => t.pending = s.pending ∧ t.fuses = s.fuses) (execThermalShutdown cyc tempC s) := by
  unfold execThermalShutdown
  simp

theorem execTsPacket_keeps (cyc : Nat) (pkt : Bytes) (s : State) :
    Answers (fun t => t.pending = s.pending ∧ t.fuses = s.fuses) (execTsPacket cyc pkt s) := by
  unfold execTsPacket
  simp only []; (repeat' split) <;> simp

theorem execVatExpectLoad_keeps (cyc : Nat) (s : State) :
    Answers (fun t => t.pending = s.pending ∧ t.fuses = s.fuses) (execVatExpectLoad cyc s) := by
  unfold execVatExpectLoad
  simp

theorem execVatWaitResume_keeps (cyc : Nat) (die : Nat) (cluster : Nat) (vat : Nat) (s : State) :
    Answers (fun t => t.pending = s.pending ∧ t.fuses = s.fuses) (execVatWaitResume cyc die cluster vat s) := by
  unfold execVatWaitResume
  simp only []; (repeat' split) <;> simp

theorem execVecStickyClear_keeps (cyc : Nat) (cd : Nat) (v : Word32) (setNow : Nat) (s : State) :
    Answers (fun t => t.pending = s.pending ∧ t.fuses = s.fuses) (execVecStickyClear cyc cd v setNow s) := by
  unfold execVecStickyClear
  simp

end Sys2Proof.Machine
end

