-- ==== Sys2Proof/Laws/Dev.lean ====
section
/-! SUPPORT. For every operation `f` that changes no device state one lemma `f_dev` that says so, and the same for every
command that changes none. -/
namespace Sys2Proof.Machine
@[simp] theorem State.dev_ite (c : Prop) [Decidable c] (a b : State) : (if c then a else b).dev = if c then a.dev else b.dev := by split <;> rfl
@[simp] theorem foldl_dev {α : Type} (g : State → α → State) (h : ∀ t x, (g t x).dev = t.dev) :
    ∀ (l : List α) (s : State), (l.foldl g s).dev = s.dev
  | [], _ => rfl
  | x :: l, s => by rw [List.foldl_cons, foldl_dev g h l, h]
theorem foldl_dev_fst {α β : Type} (g : State × β → α → State × β)
    (h : ∀ t x, (g t x).1.dev = t.1.dev) (l : List α) (s : State × β) : (l.foldl g s).1.dev = s.1.dev := by
  induction l generalizing s with
  | nil => rfl
  | cons x l ih => exact (ih _).trans (h s x)

@[simp] theorem State.set_dev (s : State) (f : Field) (v : Nat) :
    (State.set s f v).dev = s.dev := by
  simp [State.set]

@[simp] theorem State.closeCut_dev (s : State) :
    (State.closeCut s).dev = s.dev := by
  simp [State.closeCut]

@[simp] theorem State.count_dev (s : State) (f : Field) (n : Nat) :
    (State.count s f n).dev = s.dev := by
  simp [State.count]

@[simp] theorem State.hostPut_dev (s : State) (addr : Nat) (n : Nat) (v : Nat) :
    (State.hostPut s addr n v).dev = s.dev := by
  simp [State.hostPut]

@[simp] theorem State.setGo_dev (s : State) (g : GoLine) :
    (State.setGo s g).dev = s.dev := by
  simp [State.setGo]

@[simp] theorem State.recorded_dev (s : State) (line : Nat) (vec : Option Nat) :
    (State.recorded s line vec).dev = s.dev := by
  simp [State.recorded]

@[simp] theorem State.putEvent_dev (s : State) (e : EvtRec) :
    (State.putEvent s e).dev = s.dev := by
  simp [State.putEvent]

@[simp] theorem State.writeEvent_dev (s : State) (e : EvtRec) :
    (State.writeEvent s e).dev = s.dev := by
  simp [State.writeEvent]

@[simp] theorem State.emit_dev (s : State) (kind : Nat) (die : Nat) (payload : Nat) :
    (State.emit s kind die payload).dev = s.dev := by
  simp [State.emit]

@[simp] theorem State.abandonCut_dev (s : State) (cause : Nat) :
    (State.abandonCut s cause).dev = s.dev := by
  (unfold State.abandonCut; simp only []; repeat' split) <;> simp

@[simp] theorem State.clearCounters_dev (s : State) :
    (State.clearCounters s).dev = s.dev := by
  simp [State.clearCounters]

@[simp] theorem State.formAlone_dev (s : State) :
    (State.formAlone s).dev = s.dev := by
  simp [State.formAlone]

@[simp] theorem State.setMeas_dev (s : State) (i : Nat) (v : Nat) :
    (State.setMeas s i v).dev = s.dev := by
  simp [State.setMeas]

@[simp] theorem State.setRing_dev (s : State) (n : Nat) (r : Ring) :
    (State.setRing s n r).dev = s.dev := by
  simp [State.setRing]

@[simp] theorem State.activate_dev (s : State) (n : Nat) (d : BitVec 512) (datum : Nat) :
    (State.activate s n d datum).dev = s.dev := by
  simp [State.activate]

@[simp] theorem State.setPart_dev (s : State) (x : Factored) :
    (State.setPart s x).dev = s.dev := by
  simp [State.setPart]

@[simp] theorem State.addB_dev (s : State) (q : Param) (gi : Nat) :
    (State.addB s q gi).dev = s.dev := by
  simp [State.addB]

@[simp] theorem State.draw_dev (s : State) :
    (State.draw s).2.dev = s.dev := by
  simp [State.draw]

@[simp] theorem State.setPort_dev (s : State) (n : Nat) (p : Port) :
    (State.setPort s n p).dev = s.dev := by
  simp [State.setPort]

@[simp] theorem State.sendFlit_dev (s : State) (n : Nat) (f : Flit) :
    (State.sendFlit s n f).dev = s.dev := by
  simp [State.sendFlit]

@[simp] theorem State.tellMembers_dev (s : State) (op : Nat) :
    (State.tellMembers s op).dev = s.dev := by
  simp [State.tellMembers]

@[simp] theorem State.ownRoutes_dev (s : State) :
    (State.ownRoutes s).dev = s.dev := by
  simp [State.ownRoutes]

@[simp] theorem State.setSeat_dev (s : State) (seat : Nat) :
    (State.setSeat s seat).dev = s.dev := by
  simp [State.setSeat]

@[simp] theorem State.tryForm_dev (s : State) :
    (State.tryForm s).dev = s.dev := by
  simp [State.tryForm]

@[simp] theorem State.addMember_dev (s : State) (seat : Nat) (serial : Nat) :
    (State.addMember s seat serial).dev = s.dev := by
  simp [State.addMember]

@[simp] theorem State.adopt_dev (s : State) (peerSeat : Nat) (peerPort : Nat) (peerSerial : Nat) :
    (State.adopt s peerSeat peerPort peerSerial).dev = s.dev := by
  simp [State.adopt]

@[simp] theorem State.bankEdge_dev (s : State) :
    (State.bankEdge s).dev = s.dev := by
  simp [State.bankEdge]

@[simp] theorem State.openEvents_dev (s : State) (b : Nat) :
    (State.openEvents s b).dev = s.dev := by
  simp [State.openEvents]

@[simp] theorem State.powerCheck_dev (s : State) (uj : Nat) :
    (State.powerCheck s uj).dev = s.dev := by
  simp [State.powerCheck]

@[simp] theorem State.settleWaits_dev (s : State) (mu : Nat) :
    (State.settleWaits s mu).dev = s.dev := by
  simp [State.settleWaits]

@[simp] theorem State.syncEdge_dev (s : State) (len : Nat) :
    (State.syncEdge s len).dev = s.dev := by
  simp [State.syncEdge]

@[simp] theorem State.setStat_dev (s : State) (x : FigStat) :
    (State.setStat s x).dev = s.dev := by
  simp [State.setStat]

@[simp] theorem State.issue_dev (s : State) (f : Fig) (e : BitVec 128) (el : Nat) :
    (State.issue s f e el).dev = s.dev := by
  simp [State.issue]

@[simp] theorem State.noteWrite_dev (s : State) (fid : Nat) (space : Nat) (old : Mem) (new : Mem) (keys : List Nat) :
    (State.noteWrite s fid space old new keys).dev = s.dev := by
  simp [State.noteWrite]

@[simp] theorem State.vMark_dev (s : State) (f : Fig) (key : Nat) :
    (State.vMark s f key).dev = s.dev := by
  simp [State.vMark]

@[simp] theorem State.vPut_dev (s : State) (f : Fig) (r : Nat) (w : Nat) (codes : List Nat) :
    (State.vPut s f r w codes).dev = s.dev := by
  simp [State.vPut]

@[simp] theorem State.vSticky_dev (s : State) (f : Fig) (perm : Bool) :
    (State.vSticky s f perm).dev = s.dev := by
  simp [State.vSticky]

@[simp] theorem State.poisonFid_dev (s : State) (fid : Nat) :
    (State.poisonFid s fid).dev = s.dev := by
  simp [State.poisonFid]

@[simp] theorem State.poisonFig_dev (s : State) (f : Fig) :
    (State.poisonFig s f).dev = s.dev := by
  simp [State.poisonFig]

@[simp] theorem State.vTouch_dev (s : State) (f : Fig) (rs : List Nat) :
    (State.vTouch s f rs).dev = s.dev := by
  simp [State.vTouch]

@[simp] theorem State.vTouch2_dev (s : State) (f : Fig) (v : VInst) (rs : List Nat) :
    (State.vTouch2 s f v rs).dev = s.dev := by
  simp [State.vTouch2]

@[simp] theorem State.vArg_dev (s : State) (f : Fig) (v : VInst) :
    (State.vArg s f v).dev = s.dev := by
  simp [State.vArg]

@[simp] theorem State.maskPut_dev (s : State) (f : Fig) (m : Nat) (l : List Bool) :
    (State.maskPut s f m l).dev = s.dev := by
  simp [State.maskPut]

@[simp] theorem State.vCompare_dev (s : State) (f : Fig) (v : VInst) :
    (State.vCompare s f v).dev = s.dev := by
  simp [State.vCompare]

@[simp] theorem State.flag_dev (s : State) (f : Flags → Flags) :
    (State.flag s f).dev = s.dev := by
  simp [State.flag]

@[simp] theorem State.setNonfinite_dev (s : State) (f : Fig) (unit : Nat) :
    (State.setNonfinite s f unit).dev = s.dev := by
  simp [State.setNonfinite]

@[simp] theorem State.tally_dev (s : State) (f : Fig) (unit : Nat) (t : Tally) :
    (State.tally s f unit t).dev = s.dev := by
  simp [State.tally]

@[simp] theorem State.vWrite_dev (s : State) (f : Fig) (v : VInst) (w : Nat) (res : List Nat) :
    (State.vWrite s f v w res).dev = s.dev := by
  simp [State.vWrite]

@[simp] theorem State.vRound_dev (s : State) (f : Fig) (v : VInst) (vals : List FVal) :
    (State.vRound s f v vals).dev = s.dev := by
  (unfold State.vRound; simp only []; repeat' split) <;> simp

@[simp] theorem State.vDecode_dev (s : State) (f : Fig) (v : VInst) :
    (State.vDecode s f v).dev = s.dev := by
  simp [State.vDecode]

@[simp] theorem State.vElem_dev (s : State) (f : Fig) (v : VInst) :
    (State.vElem s f v).dev = s.dev := by
  simp [State.vElem]

@[simp] theorem State.vEncode_dev (s : State) (f : Fig) (v : VInst) :
    (State.vEncode s f v).dev = s.dev := by
  simp [State.vEncode]

@[simp] theorem State.vFma_dev (s : State) (f : Fig) (v : VInst) :
    (State.vFma s f v).dev = s.dev := by
  simp [State.vFma]

@[simp] theorem State.useT0_dev (s : State) (f : Fig) (off : Nat) (n : Nat) :
    (State.useT0 s f off n).2.dev = s.dev := by
  simp [State.useT0]

@[simp] theorem State.vLoad_dev (s : State) (f : Fig) (v : VInst) :
    (State.vLoad s f v).dev = s.dev := by
  simp [State.vLoad]

@[simp] theorem State.vMLoad_dev (s : State) (f : Fig) (v : VInst) :
    (State.vMLoad s f v).dev = s.dev := by
  simp [State.vMLoad]

@[simp] theorem State.t0Mark_dev (s : State) (die : Nat) (cl : Nat) (line : Nat) (n : Nat) (p : Bool) :
    (State.t0Mark s die cl line n p).dev = s.dev := by
  simp [State.t0Mark]

@[simp] theorem State.putT0_dev (s : State) (f : Fig) (off : Nat) (b : Bytes) :
    (State.putT0 s f off b).dev = s.dev := by
  simp [State.putT0]

@[simp] theorem State.vMStore_dev (s : State) (f : Fig) (v : VInst) :
    (State.vMStore s f v).dev = s.dev := by
  simp [State.vMStore]

@[simp] theorem State.vPerm_dev (s : State) (f : Fig) (v : VInst) :
    (State.vPerm s f v).dev = s.dev := by
  simp [State.vPerm]

@[simp] theorem State.vReduce_dev (s : State) (f : Fig) (v : VInst) :
    (State.vReduce s f v).dev = s.dev := by
  (unfold State.vReduce; simp only []; repeat' split) <;> simp

@[simp] theorem State.vPairs_dev (s : State) (f : Fig) (v : VInst) (rows : List (Word32 × Word32 × Bool)) :
    (State.vPairs s f v rows).dev = s.dev := by
  (unfold State.vPairs; simp only []; repeat' split) <;> simp

@[simp] theorem State.vRowNorm_dev (s : State) (f : Fig) (v : VInst) :
    (State.vRowNorm s f v).dev = s.dev := by
  simp [State.vRowNorm]

@[simp] theorem State.vRowSmax_dev (s : State) (f : Fig) (v : VInst) :
    (State.vRowSmax s f v).dev = s.dev := by
  simp [State.vRowSmax]

@[simp] theorem State.vSelect_dev (s : State) (f : Fig) (v : VInst) :
    (State.vSelect s f v).dev = s.dev := by
  simp [State.vSelect]

@[simp] theorem State.vSoftmax_dev (s : State) (f : Fig) (v : VInst) :
    (State.vSoftmax s f v).dev = s.dev := by
  simp [State.vSoftmax]

@[simp] theorem State.vStore_dev (s : State) (f : Fig) (v : VInst) :
    (State.vStore s f v).dev = s.dev := by
  simp [State.vStore]

@[simp] theorem State.vTransc_dev (s : State) (f : Fig) (v : VInst) :
    (State.vTransc s f v).dev = s.dev := by
  simp [State.vTransc]

@[simp] theorem State.vRun_dev (s : State) (f : Fig) (v : VInst) :
    (State.vRun s f v).dev = s.dev := by
  unfold State.vRun; (repeat' split) <;> simp

@[simp] theorem State.vBody_dev (s : State) (f : Fig) (w el a1 : Nat) (a2 : List VStep) :
    (State.vBody s f w el a1 a2).1.dev = s.dev := by
  induction a2 generalizing s a1 el with
  | nil => exact rfl
  | cons x l ih =>
    unfold State.vBody
    split
    · simpa using ih (s.vRun f _) _ (a1 + 1)
    · simpa using ih (s.issue f _ el) el (a1 + 1)
    · split
      · exact ih _ _ _
      · exact rfl

@[simp] theorem State.vecRun_dev (s : State) (f : Fig) (prog : List (BitVec 128)) (w : Nat) :
    (State.vecRun s f prog w).dev = s.dev := by
  simp [State.vecRun]

@[simp] theorem State.resumeOne_dev (s : State) (x : FigStat) :
    (State.resumeOne s x).dev = s.dev := by
  unfold State.resumeOne; (repeat' split) <;> simp

@[simp] theorem State.resume_dev (s : State) :
    (State.resume s).dev = s.dev := by
  simp [State.resume]

@[simp] theorem State.armFire_dev (s : State) (obj : Nat) :
    (State.armFire s obj).dev = s.dev := by
  (unfold State.armFire; simp only []; repeat' split) <;> simp

@[simp] theorem State.chargeWhey_dev (s : State) (direct : Nat) (dur : Nat) :
    (State.chargeWhey s direct dur).dev = s.dev := by
  simp [State.chargeWhey]

@[simp] theorem State.dropMb_dev (s : State) (f : Fig) :
    (State.dropMb s f).dev = s.dev := by
  simp [State.dropMb]

@[simp] theorem State.dropCost_dev (s : State) (f : Fig) :
    (State.dropCost s f).dev = s.dev := by
  simp [State.dropCost]

@[simp] theorem State.unsend_dev (s : State) (fid : Nat) :
    (State.unsend s fid).dev = s.dev := by
  simp [State.unsend]

@[simp] theorem State.keepWrites_dev (s : State) (fid : Nat) :
    (State.keepWrites s fid).dev = s.dev := by
  simp [State.keepWrites]

@[simp] theorem State.unqueue_dev (s : State) (mu : Nat) (off : Nat) (n : Nat) :
    (State.unqueue s mu off n).dev = s.dev := by
  simp [State.unqueue]

@[simp] theorem State.t1Write_dev (s : State) (mu : Nat) (off : Nat) (b : Bytes) :
    (State.t1Write s mu off b).dev = s.dev := by
  simp [State.t1Write]

@[simp] theorem State.unwriteOne_dev (s : State) (u : Undo) :
    (State.unwriteOne s u).dev = s.dev := by
  (unfold State.unwriteOne; simp only []; repeat' split) <;> simp

@[simp] theorem State.unwrite_dev (s : State) (fid : Nat) :
    (State.unwrite s fid).dev = (s).dev := by
  unfold State.unwrite
  simp only []
  split
  · simp
  · simp only [State.keepWrites_dev]
    exact foldl_dev State.unwriteOne (fun t u => by simp) _ _

@[simp] theorem State.resource_dev (s : State) (f : Fig) :
    (State.resource s f).2.dev = s.dev := by
  (unfold State.resource; simp only []; repeat' split) <;> simp

@[simp] theorem State.wheyEvent_dev (s : State) (f : Fig) (cause : Nat) :
    (State.wheyEvent s f cause).dev = s.dev := by
  simp [State.wheyEvent]

@[simp] theorem State.dropOne_dev (s : State) (f : Fig) (k : DropKind) :
    (State.dropOne s f k).dev = s.dev := by
  (unfold State.dropOne; simp only []; repeat' split) <;> simp

@[simp] theorem State.dropFig_dev (a1 : Nat) (a2 : State) (a3 : Fig) (a4 : DropKind) :
    (State.dropFig a1 a2 a3 a4).dev = a2.dev := by
  induction a1 generalizing a2 a3 a4 with
  | zero => unfold State.dropFig; split <;> simp
  | succ n ih =>
    unfold State.dropFig
    split
    · exact rfl
    · have h := foldl_dev (fun t g => State.dropFig n t g .cascade) (fun t g => ih t g _) (a2.victims a3) (a2.dropOne a3 a4)
      simpa using h

@[simp] theorem State.drop_dev (s : State) (f : Fig) (k : DropKind) :
    (State.drop s f k).dev = s.dev := by
  simp [State.drop]

@[simp] theorem State.stamp_dev (s : State) :
    (State.stamp s).2.dev = s.dev := by
  unfold State.stamp; (repeat' split) <;> simp

@[simp] theorem State.detect_dev (s : State) (e : ErrIn) :
    (State.detect s e).dev = s.dev := by
  (unfold State.detect; simp only []; repeat' split) <;> simp

@[simp] theorem State.detectAt_dev (s : State) (code : Nat) (die : Nat) (unit : Nat) (index : Nat) (detail : Nat) :
    (State.detectAt s code die unit index detail).dev = s.dev := by
  simp [State.detectAt]

@[simp] theorem State.syncPut_dev (s : State) (key : Nat) (v : Nat) :
    (State.syncPut s key v).dev = s.dev := by
  simp [State.syncPut]

@[simp] theorem State.syncAdd_dev (s : State) (key : Nat) (n : Nat) :
    (State.syncAdd s key n).dev = s.dev := by
  simp [State.syncAdd]

@[simp] theorem State.syncCycle_dev (s : State) (key : Nat) (due : Nat) :
    (State.syncCycle s key due).dev = s.dev := by
  (unfold State.syncCycle; simp only []; repeat' split) <;> simp

@[simp] theorem State.syncUpTo_dev (a1 : Nat) (a2 : Nat) (a3 : State) :
    (State.syncUpTo a1 a2 a3).dev = a3.dev := by
  induction a1 generalizing a3 with
  | zero => exact rfl
  | succ n ih =>
    unfold State.syncUpTo
    split
    · exact rfl
    · split
      · exact (ih _).trans (by simp)
      · exact rfl

@[simp] theorem State.tick_dev (s : State) (cyc : Nat) :
    (State.tick s cyc).dev = s.dev := by
  simp [State.tick]

@[simp] theorem State.advance_dev (s : State) (uj : Nat) :
    (State.advance s uj).dev = s.dev := by
  simp [State.advance]

@[simp] theorem State.copyBefore_dev (s : State) (k : Nat) (loc : Nat) :
    (State.copyBefore s k loc).dev = s.dev := by
  (unfold State.copyBefore; simp only []; repeat' split) <;> simp

@[simp] theorem State.locWrite_dev (s : State) (k : Nat) (loc : Nat) (off : Nat) (b : Bytes) :
    (State.locWrite s k loc off b).dev = s.dev := by
  simp [State.locWrite]

@[simp] theorem State.markT1_dev (s : State) (key : Nat) (p : Bool) :
    (State.markT1 s key p).dev = s.dev := by
  simp [State.markT1]

@[simp] theorem State.markLoc_dev (s : State) (k loc : Nat) (p : Nat → Bool) :
    (State.markLoc s k loc p).dev = (s).dev := by
  unfold State.markLoc
  exact foldl_dev _ (fun t l => by simp) _ _

@[simp] theorem State.complete_dev (s : State) (n : Nat) (tag : Nat) (irq : Bool) (status : Nat) (result : Nat) :
    (State.complete s n tag irq status result).dev = s.dev := by
  simp [State.complete]

@[simp] theorem State.finish_dev (s : State) (n : Nat) (d : BitVec 512) (status : Nat) (result : Nat) :
    (State.finish s n d status result).dev = s.dev := by
  simp [State.finish]

@[simp] theorem State.finishTag_dev (s : State) (n : Nat) (op : Nat) (tag : Nat) (status : Nat) (result : Nat) :
    (State.finishTag s n op tag status result).dev = s.dev := by
  (unfold State.finishTag; simp only []; repeat' split) <;> simp

@[simp] theorem State.staleReads_dev (s : State) (k : Nat) (loc : Nat) :
    (State.staleReads s k loc).dev = s.dev := by
  simp [State.staleReads]

@[simp] theorem State.sumNonfinite_dev (s : State) (mu : Nat) (fid : Nat) :
    (State.sumNonfinite s mu fid).dev = s.dev := by
  simp [State.sumNonfinite]

@[simp] theorem State.touch_dev (s : State) (k : Nat) :
    (State.touch s k).dev = s.dev := by
  simp [State.touch]

@[simp] theorem State.applyAcc_dev (s : State) (a1 : AccWrite) :
    (State.applyAcc s a1).dev = s.dev := by
  (unfold State.applyAcc; simp only []; repeat' split) <;> simp

@[simp] theorem State.pairLost_dev (s : State) (mu : Nat) (fid : Option Nat) : (s.pairLost mu fid).dev = s.dev := by
  simp [State.pairLost]

@[simp] theorem State.setDirty_dev (s : State) (k : Nat) :
    (State.setDirty s k).dev = s.dev := by
  simp [State.setDirty]

@[simp] theorem State.setLocWord_dev (s : State) (k : Nat) (loc : Nat) (i : Nat) (v : Nat) :
    (State.setLocWord s k loc i v).dev = s.dev := by
  simp [State.setLocWord]

@[simp] theorem State.hostWord_dev (s : State) (k : Nat) (i : Nat) (v : Nat) :
    (State.hostWord s k i v).dev = s.dev := by
  unfold State.hostWord; (repeat' split) <;> simp

@[simp] theorem State.wcPut_dev (s : State) (mu : Nat) (base : Nat) (w : Nat) (idx : Nat) (code : Nat) :
    (State.wcPut s mu base w idx code).dev = s.dev := by
  simp [State.wcPut]

@[simp] theorem State.applyStaged_dev (s : State) (g : Staged) :
    (State.applyStaged s g).dev = s.dev := by
  unfold State.applyStaged
  rw [State.finishTag_dev]
  split
  · simp only []
    split
    · exact foldl_dev _ (fun u i => by split <;> simp) _ _
    · exact foldl_dev _ (fun u i => by split <;> simp) _ _
  · exact rfl

@[simp] theorem State.applyAllStaged_dev (s : State) :
    (State.applyAllStaged s).dev = s.dev := by
  simp [State.applyAllStaged]

@[simp] theorem State.arrayCounts_dev (s : State) (f : Fig) (env : FigEnv) :
    (State.arrayCounts s f env).dev = s.dev := by
  simp [State.arrayCounts]

@[simp] theorem State.beginExchange_dev (s : State) :
    (State.beginExchange s).dev = s.dev := by
  simp [State.beginExchange]

@[simp] theorem State.packDone_dev (s : State) (mb : Nat) :
    (State.packDone s mb).dev = s.dev := by
  (unfold State.packDone; simp only []; repeat' split) <;> simp

@[simp] theorem State.postProcess_dev (s : State) (p : Pack) (first : Nat) (n : Nat) :
    (State.postProcess s p first n).dev = s.dev := by
  simp [State.postProcess]

@[simp] theorem State.ingestPart_dev (s : State) (part : Nat) (mb : Nat) (first : Nat) (n : Nat) :
    (State.ingestPart s part mb first n).dev = s.dev := by
  unfold State.ingestPart; (repeat' split) <;> simp

@[simp] theorem State.vatDone_dev (s : State) (f : Fig) :
    (State.vatDone s f).dev = s.dev := by
  (unfold State.vatDone; simp only []; repeat' split) <;> simp

@[simp] theorem State.bodyEnd_dev (s : State) (f : Fig) :
    (State.bodyEnd s f).dev = s.dev := by
  (unfold State.bodyEnd; simp only []; repeat' split) <;> simp

@[simp] theorem State.detectFor_dev (s : State) (code : Nat) (die : Nat) (unit : Nat) (index : Nat) (fid : Nat) :
    (State.detectFor s code die unit index fid).dev = s.dev := by
  simp [State.detectFor]

@[simp] theorem State.dmRead_dev (s : State) (f : Fig) (d : BitVec 256) :
    (State.dmRead s f d).2.2.dev = s.dev := by
  (unfold State.dmRead; simp only []; repeat' split) <;> simp

@[simp] theorem State.t0Write_dev (s : State) (die : Nat) (cl : Nat) (line : Nat) (b : Bytes) :
    (State.t0Write s die cl line b).dev = s.dev := by
  simp [State.t0Write]

@[simp] theorem State.sliceWrite_dev (s : State) (die : Nat) (cl : Nat) (line : Nat) (b : Bytes) (p : Bool) :
    (State.sliceWrite s die cl line b p).dev = s.dev := by
  simp [State.sliceWrite]

@[simp] theorem State.dmSlice_dev (s : State) (f : Fig) (die : Nat) (cl : Nat) (line : Nat) (b : Bytes) (p : Bool) :
    (State.dmSlice s f die cl line b p).dev = s.dev := by
  simp [State.dmSlice]

@[simp] theorem State.dmT1_dev (s : State) (f : Fig) (mu : Nat) (line : Nat) (b : Bytes) (p : Bool) :
    (State.dmT1 s f mu line b p).dev = s.dev := by
  simp [State.dmT1]

@[simp] theorem State.sendAcc_dev (s : State) (f : Fig) (mu : Nat) (gran : Nat) (vals : List Word32) (tokens : Nat) (nonfin : Bool) :
    (State.sendAcc s f mu gran vals tokens nonfin).dev = s.dev := by
  simp [State.sendAcc]

@[simp] theorem State.vatPush_dev (s : State) (f : Fig) (key : Nat) (b : Bytes) (p : Bool) :
    (State.vatPush s f key b p).dev = s.dev := by
  simp [State.vatPush]

@[simp] theorem State.dmWrite_dev (s : State) (f : Fig) (d : BitVec 256) (b : Bytes) (p : Bool) :
    (State.dmWrite s f d b p).dev = s.dev := by
  (unfold State.dmWrite; simp only []; repeat' split) <;> simp

@[simp] theorem State.dmMove_dev (s : State) (f : Fig) (d : BitVec 256) :
    (State.dmMove s f d).dev = s.dev := by
  simp [State.dmMove]

@[simp] theorem State.dmaRun_dev (s : State) (f : Fig) (d : BitVec 256) :
    (State.dmaRun s f d).dev = s.dev := by
  (unfold State.dmaRun; simp only []; repeat' split) <;> simp

@[simp] theorem State.gmeLast_dev (s : State) (f : Fig) (kind : Nat) :
    (State.gmeLast s f kind).dev = s.dev := by
  simp [State.gmeLast]

@[simp] theorem State.gmeCase_dev (s : State) (f : Fig) (kind : Nat) :
    (State.gmeCase s f kind).dev = s.dev := by
  simp [State.gmeCase]

@[simp] theorem State.gmeCases_dev (s : State) (f : Fig) (kinds : List Nat) :
    (State.gmeCases s f kinds).dev = s.dev := by
  simp [State.gmeCases]

@[simp] theorem State.curdChecks_dev (s : State) (f : Fig) (c : Curd) :
    (State.curdChecks s f c).dev = s.dev := by
  simp [State.curdChecks]

@[simp] theorem State.putCode_dev (s : State) (f : Fig) (base : Nat) (w : Nat) (idx : Nat) (code : Nat) :
    (State.putCode s f base w idx code).dev = s.dev := by
  simp [State.putCode]

@[simp] theorem State.drainOut_dev (s : State) (f : Fig) (fmt : Nat) (line : Nat) (sline : Nat) (cols : Nat) (i : Nat) (j0 : Nat) (codes : List Nat) (sc : Word32) :
    (State.drainOut s f fmt line sline cols i j0 codes sc).dev = s.dev := by
  simp [State.drainOut]

@[simp] theorem State.gStore_dev (s : State) (f : Fig) (d : BitVec 256) (m : Nat) (n : Nat) (val : Nat → Nat → Word32 × Nat) :
    (State.gStore s f d m n val).dev = s.dev := by
  simp [State.gStore]

@[simp] theorem State.setQuantity_dev (s : State) (f : Fig) (n : List Nat) :
    (State.setQuantity s f n).dev = s.dev := by
  simp [State.setQuantity]

@[simp] theorem State.useCurd_dev (s : State) (f : Fig) (off : Nat) :
    (State.useCurd s f off).dev = s.dev := by
  simp [State.useCurd]

@[simp] theorem State.curdExpand_dev (s : State) (f : Fig) (d : BitVec 256) :
    (State.curdExpand s f d).dev = s.dev := by
  simp [State.curdExpand]

@[simp] theorem State.readOper_dev (s : State) (f : Fig) (o : Oper) :
    (State.readOper s f o).dev = s.dev := by
  simp [State.readOper]

@[simp] theorem State.curdMm_dev (s : State) (f : Fig) (d : BitVec 256) :
    (State.curdMm s f d).dev = s.dev := by
  simp [State.curdMm]

@[simp] theorem State.maskBuild_dev (s : State) (f : Fig) (d : BitVec 256) :
    (State.maskBuild s f d).dev = s.dev := by
  simp [State.maskBuild]

@[simp] theorem State.raggedPack_dev (s : State) (f : Fig) (d : BitVec 256) :
    (State.raggedPack s f d).dev = s.dev := by
  unfold State.raggedPack
  simp only [State.setQuantity_dev, State.gmeCases_dev, State.putT0_dev]
  exact foldl_dev_fst _ (fun t e => by simp) _ _

@[simp] theorem State.raggedUnpack_dev (s : State) (f : Fig) (d : BitVec 256) :
    (State.raggedUnpack s f d).dev = s.dev := by
  unfold State.raggedUnpack
  simp only [State.setQuantity_dev, State.gmeCases_dev]
  exact foldl_dev_fst _ (fun t e => by simp) _ _

@[simp] theorem State.routeGather_dev (s : State) (f : Fig) (d : BitVec 256) :
    (State.routeGather s f d).dev = s.dev := by
  unfold State.routeGather
  extract_lets t k ne bRow cap expert slots kinds nf asked total s1 s2 s3
  have h1 : s1.dev = s.dev := by simp [s1]
  have h2 : s2.dev = s.dev := by
    rw [← h1]
    exact foldl_dev _ (fun u q => by split <;> simp) _ _
  have h3 : s3.dev = s.dev := by
    rw [← h2]
    exact foldl_dev _ (fun u q => by simp) _ _
  clear_value s3
  simpa using h3

@[simp] theorem State.routeMerge_dev (s : State) (f : Fig) (d : BitVec 256) :
    (State.routeMerge s f d).dev = s.dev := by
  simp [State.routeMerge]

@[simp] theorem State.spsp_dev (s : State) (f : Fig) (d : BitVec 256) :
    (State.spsp s f d).dev = s.dev := by
  simp [State.spsp]

@[simp] theorem State.gmeRun_dev (s : State) (f : Fig) (d : BitVec 256) :
    (State.gmeRun s f d).dev = s.dev := by
  unfold State.gmeRun; (repeat' split) <;> simp

@[simp] theorem State.chargeMeta_dev (s : State) (f : Fig) (n : Nat) :
    (State.chargeMeta s f n).dev = s.dev := by
  simp [State.chargeMeta]

@[simp] theorem State.putZero_dev (s : State) (f : Fig) (d : BitVec 256) (reg : Nat) (rows : List (List Nat)) :
    (State.putZero s f d reg rows).dev = s.dev := by
  simp [State.putZero]

@[simp] theorem State.diagRun_dev (s : State) (f : Fig) (d : BitVec 256) (unit : Nat) :
    (State.diagRun s f d unit).dev = s.dev := by
  simp [State.diagRun]

@[simp] theorem State.sendSg_dev (s : State) (f : Fig) (x : BitVec 256) (tokens : Nat) (l : List (Nat × Word32)) :
    (State.sendSg s f x tokens l).dev = s.dev := by
  simp [State.sendSg]

@[simp] theorem State.matAcc_dev (s : State) (f : Fig) (d : BitVec 256) (x : BitVec 256) (unit : Nat) :
    (State.matAcc s f d x unit).dev = s.dev := by
  unfold State.matAcc
  simp only []
  have h : ∀ g : State × List (Nat × Word32) → Nat → State × List (Nat × Word32), (∀ t e, (g t e).1.dev = t.1.dev) →
     ∀ l : List Nat, (l.foldl g (s.tally f Unit.feeder (s.feedTally f d (s.prodOf f d)), [])).1.dev = s.dev :=
    fun g hg l => by simpa using foldl_dev_fst g hg l (s.tally f Unit.feeder (s.feedTally f d (s.prodOf f d)), [])
  split
  · rw [State.sendSg_dev]
    exact h _ (fun t e => by split <;> simp) _
  · exact h _ (fun t e => by split <;> simp) _

@[simp] theorem State.matStore_dev (s : State) (f : Fig) (d : BitVec 256) (unit : Nat) :
    (State.matStore s f d unit).dev = s.dev := by
  simp [State.matStore]

@[simp] theorem State.thinRun_dev (s : State) (f : Fig) (d : BitVec 256) :
    (State.thinRun s f d).dev = s.dev := by
  simp [State.thinRun]

@[simp] theorem State.matrixRun_dev (s : State) (f : Fig) (d : BitVec 256) (ext : Option (BitVec 256)) (env : FigEnv) :
    (State.matrixRun s f d ext env).dev = s.dev := by
  (unfold State.matrixRun; simp only []; repeat' split) <;> simp

@[simp] theorem State.setColl_dev (s : State) (c : Coll) :
    (State.setColl s c).dev = s.dev := by
  simp [State.setColl]

@[simp] theorem State.contribute_dev (s : State) :
    (State.contribute s).dev = s.dev := by
  simp [State.contribute]

@[simp] theorem State.migrateAt_dev (s : State) (m : Migr) :
    (State.migrateAt s m).dev = s.dev := by
  simp [State.migrateAt]

@[simp] theorem State.migrateOne_dev (s : State) (mu : Nat) :
    (State.migrateOne s mu).dev = s.dev := by
  unfold State.migrateOne; (repeat' split) <;> simp

@[simp] theorem State.migrate_dev (s : State) (mu : Nat) (a1 : Nat) :
    (State.migrate s mu a1).dev = s.dev := by
  induction a1 generalizing s with
  | zero => exact rfl
  | succ n ih =>
    unfold State.migrate
    exact (ih _).trans (State.migrateOne_dev ..)

@[simp] theorem State.noteReady_dev (s : State) :
    (State.noteReady s).dev = s.dev := by
  simp [State.noteReady]

@[simp] theorem State.readCutAt_dev (s : State) (kind : Nat) (k : Nat) :
    (State.readCutAt s kind k).dev = s.dev := by
  (unfold State.readCutAt; simp only []; repeat' split) <;> simp

@[simp] theorem State.readCut_dev (s : State) (mu : Nat) (kind : Nat) :
    (State.readCut s mu kind).dev = s.dev := by
  unfold State.readCut; (repeat' split) <;> simp

@[simp] theorem State.stageFlit_dev (s : State) (d : BitVec 128) (n : Nat) :
    (State.stageFlit s d n).2.dev = s.dev := by
  simp [State.stageFlit]

@[simp] theorem State.sendStage_dev (s : State) (f : Fig) (d : BitVec 128) :
    (State.sendStage s f d).dev = s.dev := by
  (unfold State.sendStage; simp only []; repeat' split) <;> simp

@[simp] theorem State.sendTwin_dev (s : State) :
    (State.sendTwin s).dev = s.dev := by
  simp [State.sendTwin]

@[simp] theorem State.shipCut_dev (s : State) (mu : Nat) :
    (State.shipCut s mu).dev = s.dev := by
  simp [State.shipCut]

@[simp] theorem State.ownWork_dev (s : State) (f : Fig) (d : BitVec 128) :
    (State.ownWork s f d).dev = s.dev := by
  (unfold State.ownWork; simp only []; repeat' split) <;> simp

@[simp] theorem State.redSink_dev (s : State) (f : Fig) (q : Param) (d : BitVec 128) :
    (State.redSink s f q d).dev = s.dev := by
  unfold State.redSink
  refine foldl_dev _ (fun t g => ?_) _ _
  dsimp only []
  cases (t.coll q.idx).data.find? (fun x => x.1 == g.1) with
  | none => simp
  | some x =>
    dsimp only []
    split <;> simp

@[simp] theorem State.redSource_dev (s : State) (q : Param) (d : BitVec 128) :
    (State.redSource s q d).dev = s.dev := by
  simp [State.redSource]

theorem State.granFault_dev (s : State) (f : Fig) (mu : Nat) (k : Nat) :
    ∀ t, State.granFault s f mu k = .some t → t.dev = s.dev := by
  intro t h
  unfold State.granFault at h
  split at h
  · cases h; simp
  · split at h
    · cases h; simp
    · split at h
      · cases h; simp
      · cases h

@[simp] theorem State.overGrans_dev (s : State) (f : Fig) (q : Param) (step : State → Nat → State × Bool)
    (h : ∀ t x, (step t x).1.dev = t.dev) (l : List Nat) :
    (State.overGrans s f q step l).dev = s.dev := by
  induction l generalizing s with
  | nil => exact rfl
  | cons gi l ih =>
    unfold State.overGrans
    simp only []
    split
    · exact ih s
    · split
      · simp
      · split
        · exact State.granFault_dev _ _ _ _ _ ‹_›
        · split
          · exact (ih _).trans (h _ _)
          · exact h _ _

@[simp] theorem State.setTag_dev (s : State) (k : Nat) (loc : Nat) (v : Nat) :
    (State.setTag s k loc v).dev = s.dev := by
  simp [State.setTag]

@[simp] theorem State.copySpare_dev (s : State) (k : Nat) :
    (State.copySpare s k).dev = (s).dev := by
  unfold State.copySpare
  extract_lets l c s1
  have h1 : (s1).dev = (s).dev := by simp [s1]
  clear_value s1
  split <;> simp [h1]

@[simp] theorem State.putSpare_dev (s : State) (k : Nat) (i : Nat) (v : Word32) :
    (State.putSpare s k i v).dev = s.dev := by
  simp [State.putSpare]

theorem State.results_dev (s : State) (f : Fig) (mu lane : Nat) (put : State → Nat → Word32 → State) (l : List (Nat × Nat × Word32))
    (h : ∀ t k x, (put t k x).dev = t.dev) :
    (State.results s f mu lane put l).1.dev = s.dev := by
  have hf : ∀ (m : List (Nat × Nat × Word32)) (u : State), (m.foldl (fun t x => put t x.2.1 x.2.2) u).dev = u.dev :=
    fun m u => foldl_dev _ (fun t x => h t _ _) m u
  unfold State.results
  split
  · exact hf _ _
  · simp [hf]

@[simp] theorem State.writeStats_dev (s : State) (f : Fig) (q : Param) (l : List (Nat × Word32)) :
    (State.writeStats s f q l).1.dev = s.dev :=
  State.results_dev s f q.p.mu 96 _ _ (fun t w v => by simp)

set_option maxRecDepth 20000 in

@[simp] theorem State.factor1_dev (s : State) (f : Fig) (q : Param) (d : BitVec 128) :
    (State.factor1 s f q d).dev = s.dev := by
  (unfold State.factor1; simp only []; repeat' split) <;> simp

@[simp] theorem State.formAcc_dev (s : State) (f : Fig) (q : Param) :
    (State.formAcc s f q).1.dev = s.dev := by
  (unfold State.formAcc; simp only []; repeat' split) <;> simp

@[simp] theorem State.factor2_dev (s : State) (f : Fig) (q : Param) (d : BitVec 128) :
    (State.factor2 s f q d).dev = s.dev := by
  (unfold State.factor2; simp only []; repeat' split) <;> simp

@[simp] theorem State.countClip_dev (s : State) (q : Param) (k : Word32) : (s.countClip q k).dev = s.dev := by
  unfold State.countClip; split <;> simp

@[simp] theorem State.formClip_dev (s : State) (q : Param) :
    (State.formClip s q).dev = s.dev := by
  simp [State.formClip]

@[simp] theorem State.putScale_dev (s : State) (q : Param) (g : Nat) (dir : Word32) : (s.putScale q g dir).dev = s.dev := by
  simp only [State.putScale]; split <;> simp

@[simp] theorem State.updateScales_dev (s : State) (f : Fig) (q : Param) :
    (State.updateScales s f q).dev = s.dev := by
  simp [State.updateScales]

@[simp] theorem State.tagSpare_dev (s : State) (k : Nat) :
    (State.tagSpare s k).dev = s.dev := by
  simp [State.tagSpare]

@[simp] theorem State.writeUpdate_dev (s : State) (f : Fig) (mu k : Nat) (l : List (Nat × Word32)) :
    (State.writeUpdate s f mu k l).1.dev = s.dev := by
  have h := State.results_dev s f mu 4 (fun t e v => t.putSpare k e v) (l.map fun x => (x.1, x.1, x.2)) (fun t e v => by simp)
  unfold State.writeUpdate
  simp only []
  split
  · simpa using h
  · exact h

@[simp] theorem State.factor3_dev (s : State) (f : Fig) (q : Param) (d : BitVec 128) :
    (State.factor3 s f q d).dev = s.dev := by
  simp [State.factor3]

@[simp] theorem State.tieGran_dev (s : State) (f : Fig) (mu : Nat) (k : Nat) (others : List Nat) :
    (State.tieGran s f mu k others).dev = s.dev := by
  simp [State.tieGran]

@[simp] theorem State.gatherAdd_dev (s : State) (f : Fig) (q : Param) (d : BitVec 128) :
    (State.gatherAdd s f q d).dev = s.dev := by
  simp [State.gatherAdd]

@[simp] theorem State.firstScales_dev (s : State) (q : Param) :
    (State.firstScales s q).dev = s.dev := by
  simp [State.firstScales]

@[simp] theorem State.setBlock_dev (s : State) (q : Param) (i : Nat) (j : Nat) (n : Nat) :
    (State.setBlock s q i j n).dev = s.dev := by
  simp [State.setBlock]

@[simp] theorem State.choose_dev (s : State) (q : Param) (src : Nat) (first : Bool) (i : Nat) (j : Nat) :
    (State.choose s q src first i j).dev = s.dev := by
  (unfold State.choose; simp only []; repeat' split) <;> simp

@[simp] theorem State.reencode_dev (s : State) (q : Param) (gi : Nat) (reprune : Bool) (first : Bool) :
    (State.reencode s q gi reprune first).dev = s.dev := by
  unfold State.reencode
  split
  · exact rfl
  · extract_lets w mu src s1 mask r
    have h1 : s1.dev = s.dev := by
      simp only [s1]; split
      · exact foldl_dev _ (fun t e => State.choose_dev _ _ _ _ _ _) _ _
      · exact rfl
    clear_value s1
    have h2 : r.1.dev = s1.dev := by
      simp only [r]
      refine foldl_dev_fst _ (fun t e => ?_) _ _
      split
      · split
        · split
          · exact State.wcPut_dev _ _ _ _ _ _
          · exact rfl
        · exact rfl
      · exact State.wcPut_dev _ _ _ _ _ _
    exact (State.count_dev ..).trans (h2.trans h1)

@[simp] theorem State.encodeGran_dev (s : State) (q : Param) (gi : Nat) (reprune : Bool) : (State.encodeGran s q gi reprune).dev = s.dev := by
  simp only [State.encodeGran]; split <;> simp

@[simp] theorem State.prologueGran_dev (s : State) (q : Param) (rp : Bool) (gi : Nat) : (s.prologueGran q rp gi).dev = s.dev := by
  (unfold State.prologueGran; repeat' split) <;> simp

@[simp] theorem State.prologue_dev (s : State) (q : Param) (d : BitVec 128) :
    (State.prologue s q d).dev = s.dev := by
  simp [State.prologue]

@[simp] theorem State.signSlice_dev (s : State) (f : Fig) (q : Param) (d : BitVec 128) :
    (State.signSlice s f q d).dev = s.dev := by
  simp [State.signSlice]

@[simp] theorem State.updateRun_dev (s : State) (f : Fig) (d : BitVec 128) :
    (State.updateRun s f d).dev = s.dev := by
  unfold State.updateRun; (repeat' split) <;> simp

@[simp] theorem State.tplRun_dev (s : State) (f : Fig) (d : BitVec 128) :
    (State.tplRun s f d).dev = s.dev := by
  unfold State.tplRun; (repeat' split) <;> simp

@[simp] theorem State.bodyRun_dev (s : State) (f : Fig) (env : FigEnv) :
    (State.bodyRun s f env).dev = s.dev := by
  unfold State.bodyRun; (repeat' split) <;> simp

@[simp] theorem State.deriveAlias_dev (s : State) :
    (State.deriveAlias s).dev = s.dev := by
  simp [State.deriveAlias]

@[simp] theorem State.linkOff_dev (s : State) :
    (State.linkOff s).dev = s.dev := by
  simp [State.linkOff]

@[simp] theorem State.portsDown_dev (s : State) :
    (State.portsDown s).dev = s.dev := by
  simp [State.portsDown]

@[simp] theorem State.stopCallers_dev (s : State) :
    (State.stopCallers s).dev = s.dev := by
  simp [State.stopCallers]

@[simp] theorem State.setSlot_dev (s : State) (k : Nat) (l : LogEntry) :
    (State.setSlot s k l).dev = s.dev := by
  simp [State.setSlot]

@[simp] theorem State.placeEntry_dev (s : State) (cls : Nat) (entry : LogEntry) :
    (State.placeEntry s cls entry).1.dev = s.dev := by
  (unfold State.placeEntry; simp only []; repeat' split) <;> simp

@[simp] theorem State.toHandler_dev (s : State) (h : Handling) :
    (State.toHandler s h).dev = s.dev := by
  (unfold State.toHandler; simp only []; repeat' split) <;> simp

@[simp] theorem State.drawNonce_dev (s : State) :
    (State.drawNonce s).dev = s.dev := by
  simp [State.drawNonce]

@[simp] theorem State.refuseCut_dev (s : State) (measure : Nat) (cause : Nat) :
    (State.refuseCut s measure cause).dev = s.dev := by
  simp [State.refuseCut]

@[simp] theorem State.openCut_dev (s : State) (m : Nat) :
    (State.openCut s m).dev = s.dev := by
  (unfold State.openCut; simp only []; repeat' split) <;> simp

@[simp] theorem State.boundaryCut_dev (s : State) (m : Nat) (commit : Bool) (limit : Bool) :
    (State.boundaryCut s m commit limit).dev = s.dev := by
  simp [State.boundaryCut]

@[simp] theorem State.boundaryPos_dev (s : State) (m : Nat) :
    (State.boundaryPos s m).dev = s.dev := by
  simp [State.boundaryPos]

@[simp] theorem State.startBuild_dev (s0 : State) :
    (State.startBuild s0).dev = s0.dev := by
  (unfold State.startBuild; simp only []; repeat' split) <;> simp

@[simp] theorem State.buildIfDue_dev (s : State) :
    (State.buildIfDue s).dev = s.dev := by
  simp [State.buildIfDue]

@[simp] theorem State.commitSeal_dev (s : State) :
    (State.commitSeal s).dev = s.dev := by
  simp [State.commitSeal]

@[simp] theorem State.dropSeal_dev (s : State) (cause : Nat) :
    (State.dropSeal s cause).dev = s.dev := by
  (unfold State.dropSeal; simp only []; repeat' split) <;> simp

@[simp] theorem State.flipTouched_dev (s : State) :
    (State.flipTouched s).dev = s.dev := by
  simp [State.flipTouched]

@[simp] theorem State.freshMeasure_dev (s : State) :
    (State.freshMeasure s).dev = s.dev := by
  simp [State.freshMeasure]

@[simp] theorem State.freshRecords_dev (s : State) :
    (State.freshRecords s).dev = s.dev := by
  simp [State.freshRecords]

@[simp] theorem State.freshRun_dev (s : State) (m : Nat) (commit : Bool) (idle : Bool) :
    (State.freshRun s m commit idle).dev = s.dev := by
  simp [State.freshRun]

@[simp] theorem State.lossEvent_dev (s : State) (m : EdgeMeas) :
    (State.lossEvent s m).dev = s.dev := by
  unfold State.lossEvent
  split
  · exact rfl
  · exact State.emit_dev _ _ _ _

@[simp] theorem State.lossScale_dev (s : State) (commit : Bool) (cause : Nat) :
    (State.lossScale s commit cause).dev = s.dev := by
  simp [State.lossScale]

@[simp] theorem State.noteEnergy_dev (s : State) (mj : Nat) :
    (State.noteEnergy s mj).dev = s.dev := by
  simp [State.noteEnergy]

@[simp] theorem State.persistFault_dev (s : State) :
    (State.persistFault s).dev = s.dev := by
  simp [State.persistFault]

@[simp] theorem State.phaseRecord_dev (s : State) (m : EdgeMeas) (commit : Bool) :
    (State.phaseRecord s m commit).dev = s.dev := by
  simp [State.phaseRecord]

@[simp] theorem State.replanLate_dev (s : State) :
    (State.replanLate s).dev = s.dev := by
  simp [State.replanLate]

@[simp] theorem State.sendData_dev (s : State) (dest : Nat) :
    (State.sendData s dest).dev = s.dev := by
  simp [State.sendData]

@[simp] theorem State.sendClips_dev (s : State) (before : Bool) :
    (State.sendClips s before).dev = s.dev := by
  unfold State.sendClips; (repeat' split) <;> simp

@[simp] theorem State.starve_dev (s : State) :
    (State.starve s).dev = s.dev := by
  simp [State.starve]

@[simp] theorem State.finishWhere_dev (s : State) (p : ActiveCmd → Bool) (status : Nat) (result : ActiveCmd → Nat) :
    (State.finishWhere s p status result).dev = s.dev := by
  simp [State.finishWhere]

@[simp] theorem State.formSets_dev (s : State) (g : Graph) :
    (State.formSets s g).dev = s.dev := by
  (unfold State.formSets; simp only []; repeat' split) <;> simp

@[simp] theorem State.setInterval_dev (s : State) (measCycles : Nat) :
    (State.setInterval s measCycles).dev = s.dev := by
  simp [State.setInterval]

@[simp] theorem State.syncLoad_dev (s : State) : (State.syncLoad s).dev = s.dev := rfl

@[simp] theorem State.writeCaps_dev (s : State) (c : Card) :
    (State.writeCaps s c).dev = (s).dev := by
  unfold State.writeCaps
  split
  · simp
  · exact foldl_dev _ (fun t f => by split <;> (try split) <;> simp) _ _

@[simp] theorem State.swapCard_dev (s : State) (c : Card) :
    (State.swapCard s c).dev = s.dev := by
  (unfold State.swapCard; simp only []; repeat' split) <;> simp

@[simp] theorem State.phraseBoundary_dev (s : State) :
    (State.phraseBoundary s).dev = s.dev := by
  (unfold State.phraseBoundary; simp only []; repeat' split) <;> simp

@[simp] theorem State.syncRealign_dev (s : State) :
    (State.syncRealign s).dev = s.dev := by
  simp [State.syncRealign]

@[simp] theorem State.verdictEvent_dev (s : State) (commit : Bool) (cause : Nat) :
    (State.verdictEvent s commit cause).dev = s.dev := by
  simp [State.verdictEvent]

@[simp] theorem State.boundary_dev (s : State) (m : EdgeMeas) :
    (State.boundary s m).dev = s.dev := by
  simp [State.boundary]

@[simp] theorem State.starveEvent_dev (s : State) (mu : Nat) (req : Nat) (ch : Nat) (wait : Nat) :
    (State.starveEvent s mu req ch wait).dev = s.dev := by
  simp [State.starveEvent]

@[simp] theorem State.w1c_dev (s : State) (f : Field) (v : Nat) (setNow : Nat) :
    (State.w1c s f v setNow).1.dev = s.dev := by
  simp [State.w1c]

@[simp] theorem State.clearStarve_dev (s : State) (k v setNow : Nat) :
    (State.clearStarve s k v setNow).dev = (s).dev := by
  unfold State.clearStarve
  split
  · simp
  · extract_lets up
    have h := State.w1c_dev s (F.MU_ARB_STARVE_FLAG.mu k) v up
    generalize s.w1c (F.MU_ARB_STARVE_FLAG.mu k) v up = w at h ⊢
    obtain ⟨s1, new⟩ := w
    simp only at h ⊢
    rw [← h]
    exact foldl_dev _ (fun t r => by split <;> simp) _ _

@[simp] theorem State.clearSticky_dev (s : State) (k : Nat) (v : Nat) (setNow : Nat) :
    (State.clearSticky s k v setNow).dev = s.dev := by
  simp [State.clearSticky]

@[simp] theorem State.foreignClip_dev (s : State) (c : Clip) :
    (State.foreignClip s c).2.dev = s.dev := by
  simp [State.foreignClip]

@[simp] theorem repeatExchange_dev (a1 : Nat) (a2 : List Nat) (a3 : State) :
    (repeatExchange a1 a2 a3).dev = a3.dev := by
  induction a2 generalizing a1 a3 with
  | nil => cases a1 <;> exact rfl
  | cons j js ih =>
    cases a1 with
    | zero => exact rfl
    | succ n =>
      unfold repeatExchange
      split
      · exact ih _ _
      · rename_i c _
        simp only []
        exact (ih _ _).trans (State.foreignClip_dev a3 c)

@[simp] theorem State.refillClip_dev (s : State) (j : Nat) :
    (State.refillClip s j).dev = s.dev := by
  (unfold State.refillClip; simp only []; repeat' split) <;> simp

@[simp] theorem State.switchDeck_dev (s : State) (drawn : Nat) :
    (State.switchDeck s drawn).dev = s.dev := by
  simp [State.switchDeck]

@[simp] theorem State.closeClip_dev (s : State) (dur : Nat) :
    (State.closeClip s dur).dev = s.dev := by
  (unfold State.closeClip; simp only []; repeat' split) <;> simp

@[simp] theorem State.record_dev (s : State) (f : Fig) (time : Nat) (quantity : List Nat) :
    (State.record s f time quantity).dev = s.dev := by
  simp [State.record]

@[simp] theorem State.dropLate_dev (s : State) (f : Fig) :
    (State.dropLate s f).dev = s.dev := by
  simp [State.dropLate]

@[simp] theorem State.skipFig_dev (s : State) (f : Fig) :
    (State.skipFig s f).dev = s.dev := by
  simp [State.skipFig]

@[simp] theorem State.closeFigs_dev (s : State) :
    (State.closeFigs s).dev = s.dev := by
  simp [State.closeFigs]

@[simp] theorem State.closePack_dev (s : State) (pos : BitVec 1024) :
    (State.closePack s pos).dev = s.dev := by
  simp [State.closePack]

@[simp] theorem State.commitArb_dev (s : State) :
    (State.commitArb s).dev = s.dev := by
  simp [State.commitArb]

@[simp] theorem State.signalAt_dev (s : State) (key : Nat) (n : Nat) (lat : Nat) (isSet : Bool) :
    (State.signalAt s key n lat isSet).dev = s.dev := by
  simp [State.signalAt]

@[simp] theorem State.dmSignal_dev (s : State) (f : Fig) :
    (State.dmSignal s f).dev = s.dev := by
  unfold State.dmSignal; (repeat' split) <;> simp

@[simp] theorem State.noteMb_dev (s : State) (f : Fig) :
    (State.noteMb s f).dev = s.dev := by
  (unfold State.noteMb; simp only []; repeat' split) <;> simp

@[simp] theorem State.completeFig_dev (s : State) (f : Fig) :
    (State.completeFig s f).dev = s.dev := by
  simp [State.completeFig]

@[simp] theorem State.copyOn_dev (n : Nat) (s : State) (page : Nat) :
    (State.copyOn n s page).dev = (s).dev := by
  induction n generalizing s with
  | zero => simp [State.copyOn]
  | succ n ih =>
    unfold State.copyOn
    split
    · simp
    · extract_lets k
      split
      · simp [ih]
      · simp

@[simp] theorem exchangeAt_dev (margin : Nat) (a1 : List Nat) (a2 : Int) (a3 : State) :
    (exchangeAt margin a1 a2 a3).dev = a3.dev := by
  induction a1 generalizing a2 a3 with
  | nil => exact rfl
  | cons j js ih =>
    unfold exchangeAt
    split
    · exact ih _ _
    · simp only []
      split <;> simp [ih]

@[simp] theorem State.endExchange_dev (s : State) :
    (State.endExchange s).dev = s.dev := by
  simp [State.endExchange]

@[simp] theorem State.flitIndex_dev (s : State) (port : Nat) (f : Flit) :
    (State.flitIndex s port f).2.dev = s.dev := by
  (unfold State.flitIndex; simp only []; repeat' split) <;> simp

@[simp] theorem State.stale_dev (s : State) (port : Nat) :
    (State.stale s port).dev = s.dev := by
  simp [State.stale]

@[simp] theorem State.sendVoid_dev (s : State) (f : Fig) :
    (State.sendVoid s f).dev = s.dev := by
  (unfold State.sendVoid; simp only []; repeat' split) <;> simp

@[simp] theorem State.stepSeen_dev (s : State) (op : Nat) (seen : Nat) :
    (State.stepSeen s op seen).dev = s.dev := by
  simp [State.stepSeen]

@[simp] theorem State.takePlanned_dev (s : State) (port : Nat) (f : Flit) (g : Fig) :
    (State.takePlanned s port f g).dev = s.dev := by
  simp [State.takePlanned]

@[simp] theorem State.wearBytes_dev (s : State) (n : Nat) :
    (State.wearBytes s n).dev = s.dev := by
  simp [State.wearBytes]

@[simp] theorem State.deliver_dev (s : State) (port : Nat) (f : Flit) :
    (State.deliver s port f).dev = s.dev := by
  (unfold State.deliver; simp only []; repeat' split) <;> simp

@[simp] theorem State.demuxTo_dev (s : State) (rest : Bytes) (sync : Bool) :
    (State.demuxTo s rest sync).dev = s.dev := by
  simp [State.demuxTo]

@[simp] theorem State.syncLost_dev (s : State) :
    (State.syncLost s).dev = s.dev := by
  simp [State.syncLost]

@[simp] theorem State.endClip_dev (s : State) :
    (State.endClip s).dev = s.dev := by
  unfold State.endClip; (repeat' split) <;> simp

@[simp] theorem State.overflowClip_dev (s : State) (c : Clip) :
    (State.overflowClip s c).dev = s.dev := by
  simp [State.overflowClip]

@[simp] theorem State.takeAu_dev (s : State) (st : Stream) (off : Nat) (pts : Nat) (au : Bytes) (bad : Bool) :
    (State.takeAu s st off pts au bad).dev = s.dev := by
  (unfold State.takeAu; simp only []; repeat' split) <;> simp

@[simp] theorem State.endPes_dev (s : State) (st : Stream) :
    (State.endPes s st).dev = s.dev := by
  (unfold State.endPes; simp only []; repeat' split) <;> simp

@[simp] theorem State.takePat_dev (s : State) (st : Stream) (off : Nat) (b : Bytes) :
    (State.takePat s st off b).dev = s.dev := by
  simp [State.takePat]

@[simp] theorem State.takePmt_dev (s : State) (st : Stream) (b : Bytes) :
    (State.takePmt s st b).dev = s.dev := by
  simp [State.takePmt]

@[simp] theorem State.takePacket_dev (s : State) (st : Stream) (off : Nat) (p : Bytes) :
    (State.takePacket s st off p).dev = s.dev := by
  simp [State.takePacket]

@[simp] theorem State.demuxOnce_dev (s : State) (st : Stream) (off : Nat) :
    (State.demuxOnce s st off).2.1.dev = s.dev := by
  (unfold State.demuxOnce; simp only []; repeat' split) <;> simp

@[simp] theorem State.demux_dev (st : Stream) (a1 : Nat) (a2 : Nat) (a3 : State) :
    (State.demux st a1 a2 a3).dev = a3.dev := by
  induction a1 generalizing a2 a3 with
  | zero => exact rfl
  | succ n ih =>
    unfold State.demux
    have h := State.demuxOnce_dev a3 st a2
    simp only []
    split
    · exact (ih _ _).trans h
    · exact h

@[simp] theorem State.depart_dev (s : State) (seat : Nat) :
    (State.depart s seat).dev = s.dev := by
  simp [State.depart]

@[simp] theorem State.drainPort_dev (s : State) (n : Nat) :
    (State.drainPort s n).dev = s.dev := by
  simp [State.drainPort]

@[simp] theorem State.killCommands_dev (s : State) :
    (State.killCommands s).dev = s.dev := by
  simp [State.killCommands]

@[simp] theorem State.dropGraph_dev (s : State) :
    (State.dropGraph s).dev = s.dev := by
  simp [State.dropGraph]

@[simp] theorem State.dropStream_dev (s : State) (ring : Nat) (tag : Nat) :
    (State.dropStream s ring tag).dev = s.dev := by
  (unfold State.dropStream; simp only []; repeat' split) <;> simp

@[simp] theorem State.formLocal_dev (s : State) :
    (State.formLocal s).dev = s.dev := by
  (unfold State.formLocal; simp only []; repeat' split) <;> simp

@[simp] theorem State.idleEdge_dev (s : State) :
    (State.idleEdge s).dev = s.dev := by
  (unfold State.idleEdge; simp only []; repeat' split) <;> simp

@[simp] theorem State.nextPos_dev (s : State) (m : EdgeMeas) :
    (State.nextPos s m).dev = s.dev := by
  (unfold State.nextPos; simp only []; repeat' split) <;> simp

@[simp] theorem State.partition_dev (s : State) :
    (State.partition s).dev = s.dev := by
  simp [State.partition]

@[simp] theorem State.endReader_dev (s : State) (kind : Nat) :
    (State.endReader s kind).dev = s.dev := by
  (unfold State.endReader; simp only []; repeat' split) <;> simp

@[simp] theorem State.linkEvent_dev (s : State) (kind : Nat) (n : Nat) (cause : Nat) :
    (State.linkEvent s kind n cause).dev = s.dev := by
  simp [State.linkEvent]

@[simp] theorem State.noteLoss_dev (s : State) (seat : Nat) (n : Nat) (peer : Nat) :
    (State.noteLoss s seat n peer).dev = s.dev := by
  simp [State.noteLoss]

@[simp] theorem State.reportLoss_dev (s : State) (n : Nat) (peer : Nat) :
    (State.reportLoss s n peer).dev = s.dev := by
  unfold State.reportLoss; (repeat' split) <;> simp

@[simp] theorem State.linkDown_dev (s : State) (n : Nat) :
    (State.linkDown s n).dev = s.dev := by
  simp [State.linkDown]

@[simp] theorem State.portEdges_dev (s : State) :
    (State.portEdges s).dev = s.dev := by
  simp [State.portEdges]

@[simp] theorem State.reroute_dev (s : State) :
    (State.reroute s).dev = s.dev := by
  simp [State.reroute]

@[simp] theorem State.sendHello_dev (s : State) (n : Nat) :
    (State.sendHello s n).dev = s.dev := by
  simp [State.sendHello]

@[simp] theorem State.sendHellos_dev (s : State) :
    (State.sendHellos s).dev = s.dev := by
  simp [State.sendHellos]

@[simp] theorem State.fabricEdge_dev (s : State) (sealing : Bool) :
    (State.fabricEdge s sealing).dev = s.dev := by
  simp [State.fabricEdge]

@[simp] theorem State.setSwap_dev (s : State) :
    (State.setSwap s).dev = s.dev := by
  simp [State.setSwap]

@[simp] theorem State.stepLimit_dev (s : State) :
    (State.stepLimit s).dev = s.dev := by
  simp [State.stepLimit]

@[simp] theorem State.openBeat_dev (s : State) :
    (State.openBeat s).dev = s.dev := by
  simp [State.openBeat]

@[simp] theorem State.edge_dev (s : State) (m : EdgeMeas) :
    (State.edge s m).dev = s.dev := by
  simp [State.edge]

@[simp] theorem State.emitStamped_dev (s : State) (kind : Nat) (die : Nat) (beat : Nat) (cyc : Nat) (payload : Nat) :
    (State.emitStamped s kind die beat cyc payload).dev = s.dev := by
  simp [State.emitStamped]

@[simp] theorem State.endStream_dev (s : State) (st : Stream) :
    (State.endStream s st).dev = s.dev := by
  simp [State.endStream]

@[simp] theorem State.errorEvent_dev (s : State) (l : LogEntry) :
    (State.errorEvent s l).dev = s.dev := by
  simp [State.errorEvent]

@[simp] theorem State.evalMasters_dev (s : State) (q : Param) : (State.evalMasters s q).dev = s.dev := by
  unfold State.evalMasters
  exact foldl_dev _ (fun t gi => foldl_dev _ (fun u e => by split <;> simp) _ _) _ _

@[simp] theorem State.evalEncode_dev (s : State) (q : Param) (m : Mem) : (State.evalEncode s q m).dev = s.dev := by
  unfold State.evalEncode
  extract_lets t0 u w
  have h : w.dev = u.dev := by
    simp only [w]; split
    · exact State.evalMasters_dev ..
    · exact foldl_dev _ (fun z gi => State.reencode_dev ..) _ _
  exact h

@[simp] theorem State.evalScales_dev (s : State) (x : Snap) (o : Placement) (p : Placement) :
    (State.evalScales s x o p).dev = s.dev := by
  simp [State.evalScales]

@[simp] theorem State.evalParam_dev (x : Snap) (y : Graph) (s : State) (p : Placement) : (State.evalParam x y s p).dev = s.dev := by
  unfold State.evalParam
  split
  · split
    · rfl
    · split
      · split <;> rfl
      · simp
  · rfl

@[simp] theorem State.fatalStop_dev (s : State) :
    (State.fatalStop s).dev = s.dev := by
  simp [State.fatalStop]

@[simp] theorem State.firstTags_dev (s : State) :
    (State.firstTags s).dev = s.dev := by
  simp [State.firstTags]

@[simp] theorem State.floodReset_dev (s : State) :
    (State.floodReset s).dev = s.dev := by
  simp [State.floodReset]

@[simp] theorem State.flushEvents_dev (s : State) :
    (State.flushEvents s).dev = s.dev := by
  simp [State.flushEvents]

@[simp] theorem State.winEarly_dev (s : State) (x : CxlReq) :
    (State.winEarly s x).dev = s.dev := by
  simp [State.winEarly]

@[simp] theorem State.flushWin_dev (s : State) :
    (State.flushWin s).dev = s.dev := by
  simp [State.flushWin]

@[simp] theorem State.movePiece_dev (s : State) (req : Nat) (k : Nat) (places : List (Nat × Nat)) (i : Nat) :
    (State.movePiece s req k places i).1.dev = s.dev := by
  simp [State.movePiece]

@[simp] theorem State.serveCut_dev (s : State) (mu : Nat) (ch : Nat) (kind : Nat) :
    (State.serveCut s mu ch kind).dev = s.dev := by
  (unfold State.serveCut; simp only []; repeat' split) <;> simp

@[simp] theorem State.readGran_dev (s : State) (r : Reading) (p : Placement) (t : BitVec 512) (kl : Nat × Nat) :
    (State.readGran s r p t kl).dev = s.dev := by
  unfold State.readGran
  split
  · simp
  · exact foldl_dev _ (fun u e => by simp only []; split <;> (try split) <;> simp) _ _

@[simp] theorem State.serveWin_dev (s : State) (x : CxlReq) :
    (State.serveWin s x).dev = s.dev := by
  simp [State.serveWin]

@[simp] theorem State.serveHost_dev (s : State) (mu : Nat) (ch : Nat) :
    (State.serveHost s mu ch).dev = s.dev := by
  (unfold State.serveHost; simp only []; repeat' split) <;> simp

@[simp] theorem State.serveMigr_dev (s : State) (mu : Nat) (ch : Nat) :
    (State.serveMigr s mu ch).dev = s.dev := by
  (unfold State.serveMigr; simp only []; repeat' split) <;> simp

@[simp] theorem State.repairGran_dev (s : State) (mu : Nat) (k : Nat) :
    (State.repairGran s mu k).dev = s.dev := by
  (unfold State.repairGran; simp only []; repeat' split) <;> simp

@[simp] theorem State.serveRepair_dev (s : State) (mu : Nat) (ch : Nat) :
    (State.serveRepair s mu ch).dev = s.dev := by
  (unfold State.serveRepair; simp only []; repeat' split) <;> simp

@[simp] theorem State.serveScrub_dev (s : State) (mu : Nat) (ch : Nat) :
    (State.serveScrub s mu ch).dev = s.dev := by
  simp [State.serveScrub]

@[simp] theorem State.serve_dev (s : State) (mu : Nat) (ch : Nat) (req : Nat) :
    (State.serve s mu ch req).dev = s.dev := by
  unfold State.serve; (repeat' split) <;> simp

@[simp] theorem State.grant_dev (s : State) (mu : Nat) (r : ArbReq) (counted : Bool) :
    (State.grant s mu r counted).dev = s.dev := by
  simp [State.grant]

@[simp] theorem State.lateSwap_dev (s : State) (m : Marker) :
    (State.lateSwap s m).dev = s.dev := by
  (unfold State.lateSwap; simp only []; repeat' split) <;> simp

@[simp] theorem State.heedLeader_dev (s : State) (m : Marker) :
    (State.heedLeader s m).dev = s.dev := by
  simp [State.heedLeader]

@[simp] theorem State.helloOnly_dev (s : State) (n : Nat) :
    (State.helloOnly s n).dev = s.dev := by
  simp [State.helloOnly]

@[simp] theorem State.knowSerial_dev (s : State) (seat : Nat) (serial : Nat) :
    (State.knowSerial s seat serial).dev = s.dev := by
  simp [State.knowSerial]

@[simp] theorem State.leaderDigest_dev (s : State) (g : Graph) :
    (State.leaderDigest s g).2.dev = s.dev := by
  unfold State.leaderDigest; (repeat' split) <;> simp

@[simp] theorem State.loadEval_dev (s : State) (src : Option Snap) : (State.loadEval s src).dev = s.dev := by
  unfold State.loadEval
  split
  · exact rfl
  · split
    · exact rfl
    · exact foldl_dev _ (fun t p => State.evalParam_dev ..) _ _

@[simp] theorem State.miscable_dev (s : State) (n : Nat) :
    (State.miscable s n).dev = s.dev := by
  simp [State.miscable]

@[simp] theorem State.occupy_dev (s : State) (seat : Nat) (serial : Nat) :
    (State.occupy s seat serial).dev = s.dev := by
  simp [State.occupy]

@[simp] theorem State.writeMasks_dev (s : State) (g : Graph) :
    (State.writeMasks s g).dev = s.dev := by
  unfold State.writeMasks
  exact foldl_dev _ (fun t x => by split <;> simp) _ _

@[simp] theorem State.placeGraph_dev (s : State) (g : Graph) (measure : Nat) :
    (State.placeGraph s g measure).dev = s.dev := by
  (unfold State.placeGraph; simp only []; repeat' split) <;> simp

@[simp] theorem State.placePiece_dev (s : State) (pos : BitVec 1024) (c : Clip) (r : Nat) :
    (State.placePiece s pos c r).dev = s.dev := by
  simp [State.placePiece]

@[simp] theorem State.popCmd_dev (s : State) (n : Nat) :
    (State.popCmd s n).dev = s.dev := by
  simp [State.popCmd]

@[simp] theorem State.start_dev (s : State) (n op : Nat) (draining needGraph : Bool) (f : BitVec 512 → State → State)
    (h : ∀ d t, (f d t).dev = t.dev) :
    (State.start s n op draining needGraph f).dev = s.dev := by
  unfold State.start
  split
  · simp
  · split
    · simp
    · split
      · simp
      · simp [h]

@[simp] theorem State.planCommand_dev (s : State) (ring : Nat) (op : Nat) (check : BitVec 512 → Nat) (put : BitVec 512 → PlanReq → PlanReq) :
    (State.planCommand s ring op check put).dev = s.dev := by
  simp [State.planCommand]

@[simp] theorem State.poisonLine_dev (s : State) (mu : Nat) (line : Nat) :
    (State.poisonLine s mu line).dev = s.dev := by
  (unfold State.poisonLine; simp only []; repeat' split) <;> simp

@[simp] theorem State.putIf_dev (s : State) (f : Field) (ok : Bool) (v : Nat) :
    (State.putIf s f ok v).dev = s.dev := by
  simp [State.putIf]

@[simp] theorem State.quietEdge_dev (s : State) :
    (State.quietEdge s).dev = s.dev := by
  simp [State.quietEdge]

@[simp] theorem State.rateSwitch_dev (s : State) :
    (State.rateSwitch s).dev = s.dev := by
  (unfold State.rateSwitch; simp only []; repeat' split) <;> simp

@[simp] theorem State.rawUnits_dev (st : Stream) (a1 : Nat) (a2 : Nat) (a3 : State) :
    (State.rawUnits st a1 a2 a3).dev = a3.dev := by
  induction a1 generalizing a2 a3 with
  | zero => exact rfl
  | succ n ih =>
    unfold State.rawUnits
    simp only []
    split
    · exact rfl
    · split
      · exact rfl
      · exact (ih _ _).trans (State.takeAu_dev ..)

@[simp] theorem State.realign_dev (s : State) (shuffle : Nat) :
    (State.realign s shuffle).dev = s.dev := by
  simp [State.realign]

@[simp] theorem State.reencodeAll_dev (s : State) :
    (State.reencodeAll s).dev = s.dev := by
  unfold State.reencodeAll
  split
  · exact rfl
  · refine foldl_dev _ (fun t i => ?_) _ _
    split
    · exact rfl
    · split
      · exact rfl
      · exact foldl_dev _ (fun u g => State.encodeGran_dev ..) _ _

@[simp] theorem State.refuseJoin_dev (s : State) (n : Nat) (cause : Nat) :
    (State.refuseJoin s n cause).dev = s.dev := by
  simp [State.refuseJoin]

@[simp] theorem State.refuseReg_dev (s : State) (off : Nat) (status : Nat) :
    (State.refuseReg s off status).dev = s.dev := by
  simp [State.refuseReg]

@[simp] theorem State.reply_dev (s : State) (v : Nat) :
    (State.reply s v).dev = s.dev := by
  simp [State.reply]

@[simp] theorem State.restorePairs_dev (s : State) (x : Snap) :
    (State.restorePairs s x).dev = s.dev := by
  simp [State.restorePairs]

@[simp] theorem State.restoreRoutes_dev (s : State) (x : Snap) :
    (State.restoreRoutes s x).dev = s.dev := by
  simp [State.restoreRoutes]

@[simp] theorem State.scrub_dev (s : State) :
    (State.scrub s).dev = s.dev := by
  simp [State.scrub]

@[simp] theorem State.restoreFrom_dev (s : State) (x : Snap) (own : Bool) :
    (State.restoreFrom s x own).dev = s.dev := by
  simp [State.restoreFrom]

@[simp] theorem State.setFlash_dev (s : State) (k : Nat) (f : FlashSlot) :
    (State.setFlash s k f).dev = s.dev := by
  simp [State.setFlash]

@[simp] theorem State.signal_dev (s : State) (v : Nat) :
    (State.signal s v).dev = s.dev := by
  simp [State.signal]

@[simp] theorem State.signalAll_dev (s : State) (vs : List Nat) :
    (State.signalAll s vs).dev = s.dev := by
  simp [State.signalAll]

@[simp] theorem State.startMove_dev (s : State) (m : Nat × Nat × Nat × Nat × Nat) :
    (State.startMove s m).dev = s.dev := by
  simp [State.startMove]

@[simp] theorem State.stageCard_dev (s : State) (c : Card) (free : List (Nat × Nat × Nat)) :
    (State.stageCard s c free).dev = s.dev := by
  simp [State.stageCard]

@[simp] theorem State.startFig_dev (s : State) (f : Fig) (env : FigEnv) :
    (State.startFig s f env).dev = s.dev := by
  simp [State.startFig]

@[simp] theorem State.steer_dev (s : State) (port : Nat) (off : Int) :
    (State.steer s port off).dev = s.dev := by
  simp [State.steer]

@[simp] theorem State.stopRing_dev (s : State) (n : Nat) :
    (State.stopRing s n).dev = s.dev := by
  simp [State.stopRing]

@[simp] theorem State.storeWord_dev (s : State) (a1 : BarAddr) (v : Nat) :
    (State.storeWord s a1 v).dev = s.dev := by
  (unfold State.storeWord; simp only []; repeat' split) <;> simp

@[simp] theorem State.submitToken_dev (s : State) :
    (State.submitToken s).dev = s.dev := by
  simp [State.submitToken]

@[simp] theorem State.syncSetNow_dev (s : State) (key : Nat) (v : Nat) :
    (State.syncSetNow s key v).dev = s.dev := by
  simp [State.syncSetNow]

@[simp] theorem State.takeDraw_dev (s : State) :
    (State.takeDraw s).2.dev = s.dev := by
  (unfold State.takeDraw; simp only []; repeat' split) <;> simp

@[simp] theorem State.takeHello_dev (s : State) (n : Nat) (h : Nat) :
    (State.takeHello s n h).dev = s.dev := by
  (unfold State.takeHello; simp only []; repeat' split) <;> simp

@[simp] theorem State.takeLine_dev (s : State) (l : HostLine) :
    (State.takeLine s l).dev = s.dev := by
  (unfold State.takeLine; simp only []; repeat' split) <;> simp

@[simp] theorem State.takeUp_dev (s : State) :
    (State.takeUp s).dev = s.dev := by
  (unfold State.takeUp; simp only []; repeat' split) <;> simp

@[simp] theorem State.trainLink_dev (s : State) (cxl : Bool) (width : Nat) (speed : Nat) :
    (State.trainLink s cxl width speed).dev = s.dev := by
  simp [State.trainLink]

@[simp] theorem State.vatExpect_dev (s : State) (key : Nat) (head : Nat) (tail : Nat) :
    (State.vatExpect s key head tail).dev = s.dev := by
  simp [State.vatExpect]

@[simp] theorem State.vatSet_dev (s : State) (key : Nat) (entry : Nat) :
    (State.vatSet s key entry).dev = s.dev := by
  simp [State.vatSet]

@[simp] theorem State.vatEntry_dev (s : State) (x : Nat × Nat × BitVec 128) :
    (State.vatEntry s x).dev = s.dev := by
  simp [State.vatEntry]

@[simp] theorem State.writeArbCfg_dev (s : State) (k : Nat) (v : Nat) :
    (State.writeArbCfg s k v).dev = s.dev := by
  simp [State.writeArbCfg]

@[simp] theorem State.writeArbRank_dev (s : State) (w : Nat) (v : Nat) :
    (State.writeArbRank s w v).dev = s.dev := by
  simp [State.writeArbRank]

@[simp] theorem State.writeCelCfg_dev (s : State) (v : Nat) :
    (State.writeCelCfg s v).dev = s.dev := by
  simp [State.writeCelCfg]

@[simp] theorem State.writeCelRing_dev (s : State) (v : Nat) :
    (State.writeCelRing s v).dev = s.dev := by
  simp [State.writeCelRing]

@[simp] theorem State.writeErrStatus_dev (s : State) (v : Nat) :
    (State.writeErrStatus s v).dev = s.dev := by
  simp [State.writeErrStatus]

@[simp] theorem State.writeLogHead_dev (s : State) (v : Nat) :
    (State.writeLogHead s v).dev = s.dev := by
  simp [State.writeLogHead]

@[simp] theorem State.writeLrMul_dev (s : State) (v : Nat) :
    (State.writeLrMul s v).dev = s.dev := by
  simp [State.writeLrMul]

@[simp] theorem State.writeMargin_dev (s : State) (v : Nat) :
    (State.writeMargin s v).dev = s.dev := by
  simp [State.writeMargin]

@[simp] theorem State.writePlanCfg_dev (s : State) (v : Nat) :
    (State.writePlanCfg s v).dev = s.dev := by
  simp [State.writePlanCfg]

@[simp] theorem State.writeScrubCfg_dev (s : State) (k : Nat) (v : Nat) :
    (State.writeScrubCfg s k v).dev = s.dev := by
  simp [State.writeScrubCfg]

@[simp] theorem State.writeStatus_dev (s : State) (line : Nat) :
    (State.writeStatus s line).dev = s.dev := by
  simp [State.writeStatus]

theorem execAccumulateWrite_dev (cyc : Nat) (src : Nat) (mu : Nat) (s : State) :
    Answers (fun t => t.dev = s.dev) (execAccumulateWrite cyc src mu s) := by
  unfold execAccumulateWrite
  simp only []; (repeat' split) <;> simp

theorem execArbRankWrite_dev (cyc : Nat) (mu : Nat) (v : Word32) (s : State) :
    Answers (fun t => t.dev = s.dev) (execArbRankWrite cyc mu v s) := by
  unfold execArbRankWrite
  simp

theorem execArbStarve_dev (cyc : Nat) (mu : Nat) (ch : Nat) (req : Nat) (s : State) :
    Answers (fun t => t.dev = s.dev) (execArbStarve cyc mu ch req s) := by
  unfold execArbStarve
  simp only []; (repeat' split) <;> simp

theorem execBadOpcode_dev (cyc : Nat) (ring : Nat) (s : State) :
    Answers (fun t => t.dev = s.dev) (execBadOpcode cyc ring s) := by
  unfold execBadOpcode
  simp only []; (repeat' split) <;> simp

theorem execBankPowerDown_dev (cyc : Nat) (bank : Nat) (writeFid : Option Nat) (a1 : Option Nat) (s : State) :
    Answers (fun t => t.dev = s.dev) (execBankPowerDown cyc bank writeFid a1 s) := by
  unfold execBankPowerDown
  simp only []; (repeat' split) <;> simp

theorem execBeatEdge_dev (m : EdgeMeas) (s : State) :
    Answers (fun t => t.dev = s.dev) (execBeatEdge m s) := by
  unfold execBeatEdge
  simp

theorem execBeatOffsetLimit_dev (cyc : Nat) (s : State) :
    Answers (fun t => t.dev = s.dev) (execBeatOffsetLimit cyc s) := by
  unfold execBeatOffsetLimit
  simp

theorem execCelRegWrite_dev (cyc : Nat) (ring : Bool) (v : Word32) (s : State) :
    Answers (fun t => t.dev = s.dev) (execCelRegWrite cyc ring v s) := by
  unfold execCelRegWrite
  simp

theorem execClipDraw_dev (cyc : Nat) (s : State) :
    Answers (fun t => t.dev = s.dev) (execClipDraw cyc s) := by
  unfold execClipDraw
  simp only []
  split
  · simp
  split
  · simp
  · split
    · simp
    · have h := State.takeDraw_dev (s.tick cyc)
      split <;> rename_i h2 <;> rw [h2] at h <;> simpa using h

theorem execCommitCheck_dev (cyc : Nat) (s : State) :
    Answers (fun t => t.dev = s.dev) (execCommitCheck cyc s) := by
  unfold execCommitCheck
  simp only []; (repeat' split) <;> simp

theorem execConfigurationRequest_dev (cyc : Nat) (s : State) :
    Answers (fun t => t.dev = s.dev) (execConfigurationRequest cyc s) := by
  unfold execConfigurationRequest
  simp

theorem execCxlMemAccess_dev (cyc : Nat) (write : Bool) (line : Nat) (data : BitVec 512) (s : State) :
    Answers (fun t => t.dev = s.dev) (execCxlMemAccess cyc write line data s) := by
  unfold execCxlMemAccess
  simp

theorem execDebugUnlock_dev (cyc : Nat) (s : State) :
    Answers (fun t => t.dev = s.dev) (execDebugUnlock cyc s) := by
  unfold execDebugUnlock
  simp

theorem execDelayMeasure_dev (cyc : Nat) (port : Nat) (roundTripQns : Nat) (s : State) :
    Answers (fun t => t.dev = s.dev) (execDelayMeasure cyc port roundTripQns s) := by
  unfold execDelayMeasure
  simp

theorem execDescriptorFetch_dev (cyc : Nat) (ring : Nat) (desc : BitVec 512) (s : State) :
    Answers (fun t => t.dev = s.dev) (execDescriptorFetch cyc ring desc s) := by
  unfold execDescriptorFetch
  simp

theorem execDieToDieRetry_dev (cyc : Nat) (die : Nat) (port : Nat) (lanes : Nat) (retrained : Bool) (s : State) :
    Answers (fun t => t.dev = s.dev) (execDieToDieRetry cyc die port lanes retrained s) := by
  unfold execDieToDieRetry
  simp

theorem execErrLogHeadWrite_dev (cyc : Nat) (v : Word32) (s : State) :
    Answers (fun t => t.dev = s.dev) (execErrLogHeadWrite cyc v s) := by
  unfold execErrLogHeadWrite
  simp

theorem execErrStatusWrite_dev (cyc : Nat) (v : Word32) (s : State) :
    Answers (fun t => t.dev = s.dev) (execErrStatusWrite cyc v s) := by
  unfold execErrStatusWrite
  simp

theorem execErrorDetected_dev (cyc : Nat) (e : ErrIn) (s : State) :
    Answers (fun t => t.dev = s.dev) (execErrorDetected cyc e s) := by
  unfold execErrorDetected
  simp

theorem execErrorHandling_dev (cyc : Nat) (s : State) :
    Answers (fun t => t.dev = s.dev) (execErrorHandling cyc s) := by
  unfold execErrorHandling
  simp

theorem execEventBeatClose_dev (cyc : Nat) (s : State) :
    Answers (fun t => t.dev = s.dev) (execEventBeatClose cyc s) := by
  unfold execEventBeatClose
  simp

theorem execExtraRefresh_dev (cyc : Nat) (mu : Nat) (ch : Nat) (a1 : Bool) (a2 : Option Nat) (s : State) :
    Answers (fun t => t.dev = s.dev) (execExtraRefresh cyc mu ch a1 a2 s) := by
  unfold execExtraRefresh
  simp

theorem execFigureComplete_dev (cyc : Nat) (fid : Nat) (s : State) :
    Answers (fun t => t.dev = s.dev) (execFigureComplete cyc fid s) := by
  unfold execFigureComplete
  simp only []; (repeat' split) <;> simp

theorem execFigureStart_dev (cyc : Nat) (fid : Nat) (env : FigEnv) (s : State) :
    Answers (fun t => t.dev = s.dev) (execFigureStart cyc fid env s) := by
  unfold execFigureStart
  simp only []; (repeat' split) <;> simp

theorem execFlitCrcFail_dev (cyc : Nat) (port : Nat) (s : State) :
    Answers (fun t => t.dev = s.dev) (execFlitCrcFail cyc port s) := by
  unfold execFlitCrcFail
  simp

theorem execFlitReceived_dev (cyc : Nat) (port : Nat) (flit : Flit) (trailer : Word32) (s : State) :
    Answers (fun t => t.dev = s.dev) (execFlitReceived cyc port flit trailer s) := by
  unfold execFlitReceived
  simp

theorem execGoResponse_dev (cyc : Nat) (line : Nat) (s : State) :
    Answers (fun t => t.dev = s.dev) (execGoResponse cyc line s) := by
  unfold execGoResponse
  simp

theorem execHelloReceived_dev (cyc : Nat) (port : Nat) (payload : BitVec 896) (s : State) :
    Answers (fun t => t.dev = s.dev) (execHelloReceived cyc port payload s) := by
  unfold execHelloReceived
  simp

theorem execHostLinePoll_dev (cyc : Nat) (lines : List HostLine) (s : State) :
    Answers (fun t => t.dev = s.dev) (execHostLinePoll cyc lines s) := by
  unfold execHostLinePoll
  simp

theorem execHostLineWrite_dev (cyc : Nat) (line : HostLine) (s : State) :
    Answers (fun t => t.dev = s.dev) (execHostLineWrite cyc line s) := by
  unfold execHostLineWrite
  simp

theorem execHostLinkLost_dev (cyc : Nat) (recovered : Bool) (s : State) :
    Answers (fun t => t.dev = s.dev) (execHostLinkLost cyc recovered s) := by
  unfold execHostLinkLost
  simp

theorem execHostLinkRetrain_dev (cyc : Nat) (width : Nat) (speed : Nat) (s : State) :
    Answers (fun t => t.dev = s.dev) (execHostLinkRetrain cyc width speed s) := by
  unfold execHostLinkRetrain
  simp

theorem execHostReadError_dev (cyc : Nat) (what : HostRead) (s : State) :
    Answers (fun t => t.dev = s.dev) (execHostReadError cyc what s) := by
  unfold execHostReadError
  simp only []; (repeat' split) <;> simp

theorem execIngPosRead_dev (cyc : Nat) (ring : Nat) (s : State) :
    Answers (fun t => t.dev = s.dev) (execIngPosRead cyc ring s) := by
  unfold execIngPosRead
  simp

theorem execIngestMb_dev (cyc : Nat) (ring : Nat) (s : State) :
    Answers (fun t => t.dev = s.dev) (execIngestMb cyc ring s) := by
  unfold execIngestMb
  simp

theorem execIngestStream_dev (cyc : Nat) (ring : Nat) (sd : BitVec 512) (s : State) :
    Answers (fun t => t.dev = s.dev) (execIngestStream cyc ring sd s) := by
  unfold execIngestStream
  simp

theorem execInputPowerOverTdp_dev (cyc : Nat) (watts : Nat) (us : Nat) (s : State) :
    Answers (fun t => t.dev = s.dev) (execInputPowerOverTdp cyc watts us s) := by
  unfold execInputPowerOverTdp
  simp

theorem execKill_dev (cyc : Nat) (ring : Nat) (s : State) :
    Answers (fun t => t.dev = s.dev) (execKill cyc ring s) := by
  unfold execKill
  simp

theorem execLeaderElected_dev (cyc : Nat) (s : State) :
    Answers (fun t => t.dev = s.dev) (execLeaderElected cyc s) := by
  unfold execLeaderElected
  simp

theorem execLeaderLost_dev (cyc : Nat) (s : State) :
    Answers (fun t => t.dev = s.dev) (execLeaderLost cyc s) := by
  unfold execLeaderLost
  simp only []; (repeat' split) <;> simp

theorem execLinkControlFlit_dev (cyc : Nat) (port : Nat) (lastGood : Nat) (nak : Bool) (credits : List Nat) (s : State) :
    Answers (fun t => t.dev = s.dev) (execLinkControlFlit cyc port lastGood nak credits s) := by
  unfold execLinkControlFlit
  simp

theorem execLinkControlSend_dev (cyc : Nat) (port : Nat) (s : State) :
    Answers (fun t => t.dev = s.dev) (execLinkControlSend cyc port s) := by
  unfold execLinkControlSend
  simp

theorem execLinkDown_dev (cyc : Nat) (port : Nat) (s : State) :
    Answers (fun t => t.dev = s.dev) (execLinkDown cyc port s) := by
  unfold execLinkDown
  simp

theorem execLinkRetrain_dev (cyc : Nat) (port : Nat) (width : Nat) (s : State) :
    Answers (fun t => t.dev = s.dev) (execLinkRetrain cyc port width s) := by
  unfold execLinkRetrain
  simp

theorem execLinkUp_dev (cyc : Nat) (port : Nat) (width : Nat) (s : State) :
    Answers (fun t => t.dev = s.dev) (execLinkUp cyc port width s) := by
  unfold execLinkUp
  simp

theorem execLoadCard_dev (cyc : Nat) (ring : Nat) (card : CardImage) (side : CardSide) (s : State) :
    Answers (fun t => t.dev = s.dev) (execLoadCard cyc ring card side s) := by
  unfold execLoadCard
  split
  · simp
  rw [answers_next, ← State.tick_dev s cyc]
  refine State.start_dev _ _ _ _ _ _ (fun d t => ?_)
  split
  · simp
  · split <;> simp

theorem execLoadGraph_dev (cyc : Nat) (ring : Nat) (image : Bytes) (mask : Bytes) (places : List Placement) (src : Option Snap) (s : State) :
    Answers (fun t => t.dev = s.dev) (execLoadGraph cyc ring image mask places src s) := by
  unfold execLoadGraph
  simp

theorem execLrMulWrite_dev (cyc : Nat) (v : Word32) (s : State) :
    Answers (fun t => t.dev = s.dev) (execLrMulWrite cyc v s) := by
  unfold execLrMulWrite
  simp

theorem execMarkerReceived_dev (cyc : Nat) (port : Nat) (mk : Marker) (offsetQns : Int) (s : State) :
    Answers (fun t => t.dev = s.dev) (execMarkerReceived cyc port mk offsetQns s) := by
  unfold execMarkerReceived
  simp

theorem execMemberReceived_dev (cyc : Nat) (msg : MemberMsg) (s : State) :
    Answers (fun t => t.dev = s.dev) (execMemberReceived cyc msg s) := by
  unfold execMemberReceived
  (repeat' split) <;> simp

theorem execMirrorDone_dev (cyc : Nat) (s : State) :
    Answers (fun t => t.dev = s.dev) (execMirrorDone cyc s) := by
  unfold execMirrorDone
  simp only []; (repeat' split) <;> simp

theorem execMr4Report_dev (cyc : Nat) (mu : Nat) (rate : Nat) (hot : Bool) (s : State) :
    Answers (fun t => t.dev = s.dev) (execMr4Report cyc mu rate hot s) := by
  unfold execMr4Report
  simp

theorem execMsixModerationExpiry_dev (cyc : Nat) (vec : Nat) (s : State) :
    Answers (fun t => t.dev = s.dev) (execMsixModerationExpiry cyc vec s) := by
  unfold execMsixModerationExpiry
  simp

theorem execNandProgramFail_dev (cyc : Nat) (s : State) :
    Answers (fun t => t.dev = s.dev) (execNandProgramFail cyc s) := by
  unfold execNandProgramFail
  simp

theorem execNop_dev (cyc : Nat) (ring : Nat) (s : State) :
    Answers (fun t => t.dev = s.dev) (execNop cyc ring s) := by
  unfold execNop
  simp

theorem execParamRead_dev (cyc : Nat) (ring : Nat) (s : State) :
    Answers (fun t => t.dev = s.dev) (execParamRead cyc ring s) := by
  unfold execParamRead
  split
  · simp
  rw [answers_next, ← State.tick_dev s cyc]
  refine State.start_dev _ _ _ _ _ _ (fun d u => ?_)
  split
  · simp
  · simp only []
    split <;> simp

theorem execParamWrite_dev (cyc : Nat) (ring : Nat) (src : Bytes) (s : State) :
    Answers (fun t => t.dev = s.dev) (execParamWrite cyc ring src s) := by
  unfold execParamWrite
  split
  · simp
  rw [answers_next, ← State.tick_dev s cyc]
  refine State.start_dev _ _ _ _ _ _ (fun d u => ?_)
  split
  · simp
  · split <;> simp

theorem execPatrolScrub_dev (cyc : Nat) (mu : Nat) (line : Nat) (corrected : Bool) (s : State) :
    Answers (fun t => t.dev = s.dev) (execPatrolScrub cyc mu line corrected s) := by
  unfold execPatrolScrub
  simp

theorem execPerstRelease_dev (cyc : Nat) (cxl : Bool) (width : Nat) (speed : Nat) (s : State) :
    Answers (fun t => t.dev = s.dev) (execPerstRelease cyc cxl width speed s) := by
  unfold execPerstRelease
  simp

theorem execPlanCfgWrite_dev (cyc : Nat) (margin : Bool) (v : Word32) (s : State) :
    Answers (fun t => t.dev = s.dev) (execPlanCfgWrite cyc margin v s) := by
  unfold execPlanCfgWrite
  simp

theorem execPldmRequest_dev (cyc : Nat) (req : PldmReq) (s : State) :
    Answers (fun t => t.dev = s.dev) (execPldmRequest cyc req s) := by
  unfold execPldmRequest
  (repeat' split) <;> simp

theorem execRefclk156Loss_dev (cyc : Nat) (s : State) :
    Answers (fun t => t.dev = s.dev) (execRefclk156Loss cyc s) := by
  unfold execRefclk156Loss
  simp

theorem execReplan_dev (cyc : Nat) (ring : Nat) (s : State) :
    Answers (fun t => t.dev = s.dev) (execReplan cyc ring s) := by
  unfold execReplan
  simp

theorem execRestore_dev (cyc : Nat) (ring : Nat) (others : List (Nat × Nat)) (twin : List Snap) (s : State) :
    Answers (fun t => t.dev = s.dev) (execRestore cyc ring others twin s) := by
  unfold execRestore
  split
  · simp
  rw [answers_next, ← State.tick_dev s cyc]
  refine State.start_dev _ _ _ _ _ _ (fun d t => ?_)
  split
  · simp
  · split
    · simp
    · simp only []
      split
      · simp
      · split <;> simp

theorem execRestoreDone_dev (cyc : Nat) (s : State) :
    Answers (fun t => t.dev = s.dev) (execRestoreDone cyc s) := by
  unfold execRestoreDone
  simp

theorem execRindStart_dev (cyc : Nat) (inFlight : List Nat) (s : State) :
    Answers (fun t => t.dev = s.dev) (execRindStart cyc inFlight s) := by
  unfold execRindStart
  simp

theorem execRouteReceived_dev (cyc : Nat) (ld : Nat) (first : Nat) (entries : List Nat) (s : State) :
    Answers (fun t => t.dev = s.dev) (execRouteReceived cyc ld first entries s) := by
  unfold execRouteReceived
  simp

theorem execScratchpadEcc_dev (cyc : Nat) (die : Nat) (cluster : Nat) (line : Nat) (fatal : Bool) (fid : Option Nat) (s : State) :
    Answers (fun t => t.dev = s.dev) (execScratchpadEcc cyc die cluster line fatal fid s) := by
  unfold execScratchpadEcc
  simp

theorem execScrubDone_dev (cyc : Nat) (nonZero : Option Source) (s : State) :
    Answers (fun t => t.dev = s.dev) (execScrubDone cyc nonZero s) := by
  unfold execScrubDone
  (repeat' split) <;> simp

theorem execSeatReady_dev (cyc : Nat) (card : CardImage) (side : CardSide) (beatsNeeded : Nat) (s : State) :
    Answers (fun t => t.dev = s.dev) (execSeatReady cyc card side beatsNeeded s) := by
  unfold execSeatReady
  simp only []; (repeat' split) <;> simp

theorem execSecArbCommit_dev (cyc : Nat) (s : State) :
    Answers (fun t => t.dev = s.dev) (execSecArbCommit cyc s) := by
  unfold execSecArbCommit
  simp

theorem execSetBeat_dev (cyc : Nat) (ring : Nat) (s : State) :
    Answers (fun t => t.dev = s.dev) (execSetBeat cyc ring s) := by
  unfold execSetBeat
  simp

theorem execSetCap_dev (cyc : Nat) (ring : Nat) (s : State) :
    Answers (fun t => t.dev = s.dev) (execSetCap cyc ring s) := by
  unfold execSetCap
  simp

theorem execSetPhrase_dev (cyc : Nat) (ring : Nat) (s : State) :
    Answers (fun t => t.dev = s.dev) (execSetPhrase cyc ring s) := by
  unfold execSetPhrase
  simp

theorem execShip_dev (cyc : Nat) (ring : Nat) (s : State) :
    Answers (fun t => t.dev = s.dev) (execShip cyc ring s) := by
  unfold execShip
  simp

theorem execShipDone_dev (cyc : Nat) (measure : Nat) (s : State) :
    Answers (fun t => t.dev = s.dev) (execShipDone cyc measure s) := by
  unfold execShipDone
  simp

theorem execSlotArbitration_dev (cyc : Nat) (mu : Nat) (ch : Nat) (requests : List Nat) (slot : SlotUse) (s : State) :
    Answers (fun t => t.dev = s.dev) (execSlotArbitration cyc mu ch requests slot s) := by
  unfold execSlotArbitration
  simp only []; (repeat' split) <;> simp

theorem execSlotSel_dev (cyc : Nat) (die : Nat) (cluster : Nat) (s : State) :
    Answers (fun t => t.dev = s.dev) (execSlotSel cyc die cluster s) := by
  unfold execSlotSel
  simp only []; (repeat' split) <;> simp

theorem execSnapDomain_dev (cyc : Nat) (s : State) :
    Answers (fun t => t.dev = s.dev) (execSnapDomain cyc s) := by
  unfold execSnapDomain
  simp only []; (repeat' split) <;> simp

theorem execSnapDone_dev (cyc : Nat) (s : State) :
    Answers (fun t => t.dev = s.dev) (execSnapDone cyc s) := by
  unfold execSnapDone
  simp only []; (repeat' split) <;> simp

theorem execSpdmRequest_dev (cyc : Nat) (req : SpdmReq) (s : State) :
    Answers (fun t => t.dev = s.dev) (execSpdmRequest cyc req s) := by
  unfold execSpdmRequest
  (repeat' split) <;> simp

theorem execStarveFlagClear_dev (cyc : Nat) (mu : Nat) (v : Word32) (setNow : Nat) (s : State) :
    Answers (fun t => t.dev = s.dev) (execStarveFlagClear cyc mu v setNow s) := by
  unfold execStarveFlagClear
  simp

theorem execSyncArm_dev (cyc : Nat) (ring : Nat) (s : State) :
    Answers (fun t => t.dev = s.dev) (execSyncArm cyc ring s) := by
  unfold execSyncArm
  simp

theorem execSyncRead_dev (cyc : Nat) (ring : Nat) (s : State) :
    Answers (fun t => t.dev = s.dev) (execSyncRead cyc ring s) := by
  unfold execSyncRead
  simp

theorem execSyncSetAt_dev (cyc : Nat) (die : Nat) (obj : Nat) (s : State) :
    Answers (fun t => t.dev = s.dev) (execSyncSetAt cyc die obj s) := by
  unfold execSyncSetAt
  simp only []; (repeat' split) <;> simp

theorem execSyncSignal_dev (cyc : Nat) (ring : Nat) (s : State) :
    Answers (fun t => t.dev = s.dev) (execSyncSignal cyc ring s) := by
  unfold execSyncSignal
  simp

theorem execT1InlineEcc_dev (cyc : Nat) (mu : Nat) (ch : Nat) (line : Nat) (check : T1Check) (fid : Option Nat) (s : State) :
    Answers (fun t => t.dev = s.dev) (execT1InlineEcc cyc mu ch line check fid s) := by
  unfold execT1InlineEcc
  (repeat' split) <;> simp

theorem execTsPacket_dev (cyc : Nat) (pkt : Bytes) (s : State) :
    Answers (fun t => t.dev = s.dev) (execTsPacket cyc pkt s) := by
  unfold execTsPacket
  simp only []; (repeat' split) <;> simp

theorem execVatExpectLoad_dev (cyc : Nat) (s : State) :
    Answers (fun t => t.dev = s.dev) (execVatExpectLoad cyc s) := by
  unfold execVatExpectLoad
  simp

theorem execVatWaitResume_dev (cyc : Nat) (die : Nat) (cluster : Nat) (vat : Nat) (s : State) :
    Answers (fun t => t.dev = s.dev) (execVatWaitResume cyc die cluster vat s) := by
  unfold execVatWaitResume
  simp only []; (repeat' split) <;> simp

theorem execVecStickyClear_dev (cyc : Nat) (cd : Nat) (v : Word32) (setNow : Nat) (s : State) :
    Answers (fun t => t.dev = s.dev) (execVecStickyClear cyc cd v setNow s) := by
  unfold execVecStickyClear
  simp

end Sys2Proof.Machine
end

