-- ==== Sys2Proof/Laws/Sparse.lean ====
section
/-! SUPPORT. The sparse stores: every write keeps the canonical form, and a read after a write gives what was written,
every other key what it gave before. -/
namespace Sys2Proof.Machine
variable {β : Type} [DecidableEq β]

theorem sWfFrom_mono (d : β) {lo lo' : Nat} (h : lo' ≤ lo) : ∀ m : List (Nat × β), sWfFrom d lo m = true → sWfFrom d lo' m = true
  | [], _ => rfl
  | (k, v) :: m, hm => by simp [sWfFrom] at hm ⊢; exact ⟨⟨by omega, hm.1.2⟩, hm.2⟩

theorem sPut_wf (d : β) (k : Nat) (v : β) (hv : v ≠ d) :
    ∀ (m : List (Nat × β)) (lo : Nat), lo ≤ k → sWfFrom d lo m = true → sWfFrom d lo (sPut k v m) = true
  | [], lo, hl, _ => by simp [sPut, sWfFrom, hl, hv]
  | (k', v') :: m, lo, hl, hm => by
    simp [sWfFrom] at hm
    simp only [sPut]
    split
    · rename_i h; simp [sWfFrom, hl, hv]; exact ⟨⟨by omega, hm.1.2⟩, hm.2⟩
    · split
      · rename_i h; subst h; simp [sWfFrom, hl, hv]; exact hm.2
      · simp [sWfFrom]; exact ⟨⟨hm.1.1, hm.1.2⟩, sPut_wf d k v hv m _ (by omega) hm.2⟩

theorem sDel_wf (d : β) (k : Nat) : ∀ (m : List (Nat × β)) (lo : Nat), sWfFrom d lo m = true → sWfFrom d lo (sDel k m) = true
  | [], _, _ => rfl
  | (k', v') :: m, lo, hm => by
    simp [sWfFrom] at hm
    simp only [sDel]
    split
    · exact sWfFrom_mono d (by omega) m hm.2
    · simp [sWfFrom]; exact ⟨⟨hm.1.1, hm.1.2⟩, sDel_wf d k m _ hm.2⟩

theorem sSet_wf (d : β) (m : List (Nat × β)) (k : Nat) (v : β) (h : sWf d m = true) : sWf d (sSet d m k v) = true := by
  unfold sSet; split
  · exact sDel_wf d k m 0 h
  · exact sPut_wf d k v ‹_› m 0 (Nat.zero_le _) h

theorem filter_wf (d : β) (p : Nat × β → Bool) : ∀ (m : List (Nat × β)) (lo : Nat), sWfFrom d lo m = true → sWfFrom d lo (m.filter p) = true
  | [], _, _ => rfl
  | (k, v) :: m, lo, hm => by
    simp [sWfFrom] at hm
    rw [List.filter_cons]
    split
    · simp [sWfFrom]; exact ⟨⟨hm.1.1, hm.1.2⟩, filter_wf d p m _ hm.2⟩
    · exact sWfFrom_mono d (by omega) _ (filter_wf d p m _ hm.2)

theorem sGet_sPut (d : β) (k j : Nat) (v : β) : ∀ m : List (Nat × β), ∀ lo, sWfFrom d lo m = true →
    sGet d (sPut k v m) j = if j = k then v else sGet d m j
  | [], _, _ => by simp [sPut, sGet]
  | (k', v') :: m, lo, hm => by
    simp [sWfFrom] at hm
    simp only [sPut]
    split
    · simp [sGet]
    · split
      · rename_i h1 h; subst h; simp only [sGet]; split <;> simp
      · rename_i h1 h2
        simp only [sGet, sGet_sPut d k j v m _ hm.2]
        by_cases h : j = k' <;> simp [h]
        intro h3; omega

theorem sGet_low (d : β) (k : Nat) : ∀ (m : List (Nat × β)) (lo : Nat), k < lo → sWfFrom d lo m = true → sGet d m k = d
  | [], _, _, _ => rfl
  | (k', v') :: m, lo, hl, hm => by
    simp [sWfFrom] at hm
    simp only [sGet]
    rw [if_neg (by omega)]
    exact sGet_low d k m _ (by omega) hm.2

theorem sGet_sDel (d : β) (k j : Nat) : ∀ m : List (Nat × β), ∀ lo, sWfFrom d lo m = true →
    sGet d (sDel k m) j = if j = k then d else sGet d m j
  | [], _, _ => by simp [sDel, sGet]
  | (k', v') :: m, lo, hm => by
    simp [sWfFrom] at hm
    simp only [sDel]
    split
    · rename_i h; subst h
      simp only [sGet]
      by_cases h : j = k
      · subst h; simp [sGet_low d j m _ (Nat.lt_succ_self j) hm.2]
      · simp [h]
    · rename_i h1
      simp only [sGet, sGet_sDel d k j m _ hm.2]
      by_cases h : j = k' <;> simp [h]
      intro h3; omega

/-- A canonical store reads back what was written, and every other key as before. -/
theorem sGet_sSet (d : β) (m : List (Nat × β)) (h : sWf d m = true) (k j : Nat) (v : β) :
    sGet d (sSet d m k v) j = if j = k then v else sGet d m j := by
  unfold sSet; split
  · rename_i hv; rw [sGet_sDel d k j m 0 h, hv]
  · exact sGet_sPut d k j v m 0 h

theorem tSet_wf (m : Tab) (k v : Nat) (h : tabWf m = true) : tabWf (tSet m k v) = true := sSet_wf 0 m k v h
theorem mSet_wf (m : Mem) (a : Nat) (v : Byte) (h : memWf m = true) : memWf (mSet m a v) = true := sSet_wf 0#8 m a v h
theorem mWrite_wf (b : Bytes) : ∀ (m : Mem) (a : Nat), memWf m = true → memWf (mWrite m a b) = true := by
  induction b with
  | nil => exact fun m a h => h
  | cons x b ih => exact fun m a h => ih _ _ (mSet_wf m a x h)
theorem tab_filter_wf (m : Tab) (p : Nat × Nat → Bool) (h : tabWf m = true) : tabWf (m.filter p) = true := filter_wf 0 p m 0 h
theorem mem_filter_wf (m : Mem) (p : Nat × Byte → Bool) (h : memWf m = true) : memWf (m.filter p) = true := filter_wf 0#8 p m 0 h

theorem tGet_tSet (m : Tab) (h : tabWf m = true) (k j v : Nat) : tGet (tSet m k v) j = if j = k then v else tGet m j :=
  sGet_sSet 0 m h k j v
theorem mGet_mSet (m : Mem) (h : memWf m = true) (a b : Nat) (v : Byte) : mGet (mSet m a v) b = if b = a then v else mGet m b :=
  sGet_sSet 0#8 m h a b v

/-- A write of bytes: inside, the written bytes; outside, what was there. -/
theorem mGet_mWrite (b : Bytes) : ∀ (m : Mem) (a c : Nat), memWf m = true →
    mGet (mWrite m a b) c = if a ≤ c ∧ c < a + b.length then b.getD (c - a) 0#8 else mGet m c := by
  induction b with
  | nil => intro m a c h; rw [if_neg (by simp)]; rfl
  | cons x b ih =>
    intro m a c h
    simp only [mWrite, ih _ _ _ (mSet_wf m a x h), mGet_mSet m h, List.length_cons]
    by_cases h1 : a + 1 ≤ c ∧ c < a + 1 + b.length
    · rw [if_pos h1, if_pos (by omega)]
      have : c - a = (c - (a + 1)) + 1 := by omega
      rw [this, List.getD_cons_succ]
    · rw [if_neg h1]
      by_cases h2 : c = a
      · subst h2; simp
      · rw [if_neg h2, if_neg (by omega)]
end Sys2Proof.Machine
end

