-- ==== Sys2Proof/Laws/State.lean ====
section
/-! SUPPORT. For each named update of the state, one lemma per field it leaves alone, so that no proof unfolds the record
update; those of `dev` stand in Dev. -/
namespace Sys2Proof.Machine

@[simp] theorem State.set_pending (s : State) (f : Field) (v : Nat) : (s.set f v).pending = s.pending := rfl
@[simp] theorem State.set_halt (s : State) (f : Field) (v : Nat) : (s.set f v).halt = s.halt := rfl
@[simp] theorem State.set_free (s : State) (f : Field) (v : Nat) : (s.set f v).free = s.free := rfl
@[simp] theorem State.set_pins (s : State) (f : Field) (v : Nat) : (s.set f v).pins = s.pins := rfl
@[simp] theorem State.set_fuses (s : State) (f : Field) (v : Nat) : (s.set f v).fuses = s.fuses := rfl
@[simp] theorem State.set_flash (s : State) (f : Field) (v : Nat) : (s.set f v).flash = s.flash := rfl
@[simp] theorem State.set_boot (s : State) (f : Field) (v : Nat) : (s.set f v).boot = s.boot := rfl
@[simp] theorem State.set_clk (s : State) (f : Field) (v : Nat) : (s.set f v).clk = s.clk := rfl
@[simp] theorem State.set_host (s : State) (f : Field) (v : Nat) : (s.set f v).host = s.host := rfl
@[simp] theorem State.set_err (s : State) (f : Field) (v : Nat) : (s.set f v).err = s.err := rfl
@[simp] theorem State.set_sec (s : State) (f : Field) (v : Nat) : (s.set f v).sec = s.sec := rfl
@[simp] theorem State.set_plan (s : State) (f : Field) (v : Nat) : (s.set f v).plan = s.plan := rfl
@[simp] theorem State.set_run (s : State) (f : Field) (v : Nat) : (s.set f v).run = s.run := rfl
@[simp] theorem State.set_t0 (s : State) (f : Field) (v : Nat) : (s.set f v).t0 = s.t0 := rfl
@[simp] theorem State.set_t1 (s : State) (f : Field) (v : Nat) : (s.set f v).t1 = s.t1 := rfl
@[simp] theorem State.set_ing (s : State) (f : Field) (v : Nat) : (s.set f v).ing = s.ing := rfl
@[simp] theorem State.set_fab (s : State) (f : Field) (v : Nat) : (s.set f v).fab = s.fab := rfl
@[simp] theorem State.set_cel (s : State) (f : Field) (v : Nat) : (s.set f v).cel = s.cel := rfl

@[simp] theorem State.count_pending (s : State) (f : Field) (n : Nat) : (s.count f n).pending = s.pending := rfl
@[simp] theorem State.count_halt (s : State) (f : Field) (n : Nat) : (s.count f n).halt = s.halt := rfl
@[simp] theorem State.count_free (s : State) (f : Field) (n : Nat) : (s.count f n).free = s.free := rfl
@[simp] theorem State.count_pins (s : State) (f : Field) (n : Nat) : (s.count f n).pins = s.pins := rfl
@[simp] theorem State.count_fuses (s : State) (f : Field) (n : Nat) : (s.count f n).fuses = s.fuses := rfl
@[simp] theorem State.count_flash (s : State) (f : Field) (n : Nat) : (s.count f n).flash = s.flash := rfl
@[simp] theorem State.count_boot (s : State) (f : Field) (n : Nat) : (s.count f n).boot = s.boot := rfl
@[simp] theorem State.count_clk (s : State) (f : Field) (n : Nat) : (s.count f n).clk = s.clk := rfl
@[simp] theorem State.count_host (s : State) (f : Field) (n : Nat) : (s.count f n).host = s.host := rfl
@[simp] theorem State.count_err (s : State) (f : Field) (n : Nat) : (s.count f n).err = s.err := rfl
@[simp] theorem State.count_sec (s : State) (f : Field) (n : Nat) : (s.count f n).sec = s.sec := rfl
@[simp] theorem State.count_plan (s : State) (f : Field) (n : Nat) : (s.count f n).plan = s.plan := rfl
@[simp] theorem State.count_run (s : State) (f : Field) (n : Nat) : (s.count f n).run = s.run := rfl
@[simp] theorem State.count_t0 (s : State) (f : Field) (n : Nat) : (s.count f n).t0 = s.t0 := rfl
@[simp] theorem State.count_t1 (s : State) (f : Field) (n : Nat) : (s.count f n).t1 = s.t1 := rfl
@[simp] theorem State.count_ing (s : State) (f : Field) (n : Nat) : (s.count f n).ing = s.ing := rfl
@[simp] theorem State.count_fab (s : State) (f : Field) (n : Nat) : (s.count f n).fab = s.fab := rfl
@[simp] theorem State.count_cel (s : State) (f : Field) (n : Nat) : (s.count f n).cel = s.cel := rfl

@[simp] theorem State.hostPut_pending (s : State) (addr n v : Nat) : (s.hostPut addr n v).pending = s.pending := rfl
@[simp] theorem State.hostPut_halt (s : State) (addr n v : Nat) : (s.hostPut addr n v).halt = s.halt := rfl
@[simp] theorem State.hostPut_free (s : State) (addr n v : Nat) : (s.hostPut addr n v).free = s.free := rfl
@[simp] theorem State.hostPut_pins (s : State) (addr n v : Nat) : (s.hostPut addr n v).pins = s.pins := rfl
@[simp] theorem State.hostPut_fuses (s : State) (addr n v : Nat) : (s.hostPut addr n v).fuses = s.fuses := rfl
@[simp] theorem State.hostPut_flash (s : State) (addr n v : Nat) : (s.hostPut addr n v).flash = s.flash := rfl
@[simp] theorem State.hostPut_boot (s : State) (addr n v : Nat) : (s.hostPut addr n v).boot = s.boot := rfl
@[simp] theorem State.hostPut_regs (s : State) (addr n v : Nat) : (s.hostPut addr n v).regs = s.regs := rfl
@[simp] theorem State.hostPut_clk (s : State) (addr n v : Nat) : (s.hostPut addr n v).clk = s.clk := rfl
@[simp] theorem State.hostPut_err (s : State) (addr n v : Nat) : (s.hostPut addr n v).err = s.err := rfl
@[simp] theorem State.hostPut_sec (s : State) (addr n v : Nat) : (s.hostPut addr n v).sec = s.sec := rfl
@[simp] theorem State.hostPut_plan (s : State) (addr n v : Nat) : (s.hostPut addr n v).plan = s.plan := rfl
@[simp] theorem State.hostPut_run (s : State) (addr n v : Nat) : (s.hostPut addr n v).run = s.run := rfl
@[simp] theorem State.hostPut_t0 (s : State) (addr n v : Nat) : (s.hostPut addr n v).t0 = s.t0 := rfl
@[simp] theorem State.hostPut_t1 (s : State) (addr n v : Nat) : (s.hostPut addr n v).t1 = s.t1 := rfl
@[simp] theorem State.hostPut_ing (s : State) (addr n v : Nat) : (s.hostPut addr n v).ing = s.ing := rfl
@[simp] theorem State.hostPut_fab (s : State) (addr n v : Nat) : (s.hostPut addr n v).fab = s.fab := rfl
@[simp] theorem State.hostPut_cel (s : State) (addr n v : Nat) : (s.hostPut addr n v).cel = s.cel := rfl

@[simp] theorem State.setRing_pending (s : State) (n : Nat) (r : Ring) : (s.setRing n r).pending = s.pending := rfl
@[simp] theorem State.setRing_halt (s : State) (n : Nat) (r : Ring) : (s.setRing n r).halt = s.halt := rfl
@[simp] theorem State.setRing_free (s : State) (n : Nat) (r : Ring) : (s.setRing n r).free = s.free := rfl
@[simp] theorem State.setRing_pins (s : State) (n : Nat) (r : Ring) : (s.setRing n r).pins = s.pins := rfl
@[simp] theorem State.setRing_fuses (s : State) (n : Nat) (r : Ring) : (s.setRing n r).fuses = s.fuses := rfl
@[simp] theorem State.setRing_flash (s : State) (n : Nat) (r : Ring) : (s.setRing n r).flash = s.flash := rfl
@[simp] theorem State.setRing_boot (s : State) (n : Nat) (r : Ring) : (s.setRing n r).boot = s.boot := rfl
@[simp] theorem State.setRing_regs (s : State) (n : Nat) (r : Ring) : (s.setRing n r).regs = s.regs := rfl
@[simp] theorem State.setRing_clk (s : State) (n : Nat) (r : Ring) : (s.setRing n r).clk = s.clk := rfl
@[simp] theorem State.setRing_err (s : State) (n : Nat) (r : Ring) : (s.setRing n r).err = s.err := rfl
@[simp] theorem State.setRing_sec (s : State) (n : Nat) (r : Ring) : (s.setRing n r).sec = s.sec := rfl
@[simp] theorem State.setRing_plan (s : State) (n : Nat) (r : Ring) : (s.setRing n r).plan = s.plan := rfl
@[simp] theorem State.setRing_run (s : State) (n : Nat) (r : Ring) : (s.setRing n r).run = s.run := rfl
@[simp] theorem State.setRing_t0 (s : State) (n : Nat) (r : Ring) : (s.setRing n r).t0 = s.t0 := rfl
@[simp] theorem State.setRing_t1 (s : State) (n : Nat) (r : Ring) : (s.setRing n r).t1 = s.t1 := rfl
@[simp] theorem State.setRing_ing (s : State) (n : Nat) (r : Ring) : (s.setRing n r).ing = s.ing := rfl
@[simp] theorem State.setRing_fab (s : State) (n : Nat) (r : Ring) : (s.setRing n r).fab = s.fab := rfl
@[simp] theorem State.setRing_cel (s : State) (n : Nat) (r : Ring) : (s.setRing n r).cel = s.cel := rfl

@[simp] theorem State.setGo_pending (s : State) (g : GoLine) : (s.setGo g).pending = s.pending := rfl
@[simp] theorem State.setGo_halt (s : State) (g : GoLine) : (s.setGo g).halt = s.halt := rfl
@[simp] theorem State.setGo_free (s : State) (g : GoLine) : (s.setGo g).free = s.free := rfl
@[simp] theorem State.setGo_pins (s : State) (g : GoLine) : (s.setGo g).pins = s.pins := rfl
@[simp] theorem State.setGo_fuses (s : State) (g : GoLine) : (s.setGo g).fuses = s.fuses := rfl
@[simp] theorem State.setGo_flash (s : State) (g : GoLine) : (s.setGo g).flash = s.flash := rfl
@[simp] theorem State.setGo_boot (s : State) (g : GoLine) : (s.setGo g).boot = s.boot := rfl
@[simp] theorem State.setGo_regs (s : State) (g : GoLine) : (s.setGo g).regs = s.regs := rfl
@[simp] theorem State.setGo_clk (s : State) (g : GoLine) : (s.setGo g).clk = s.clk := rfl
@[simp] theorem State.setGo_err (s : State) (g : GoLine) : (s.setGo g).err = s.err := rfl
@[simp] theorem State.setGo_sec (s : State) (g : GoLine) : (s.setGo g).sec = s.sec := rfl
@[simp] theorem State.setGo_plan (s : State) (g : GoLine) : (s.setGo g).plan = s.plan := rfl
@[simp] theorem State.setGo_run (s : State) (g : GoLine) : (s.setGo g).run = s.run := rfl
@[simp] theorem State.setGo_t0 (s : State) (g : GoLine) : (s.setGo g).t0 = s.t0 := rfl
@[simp] theorem State.setGo_t1 (s : State) (g : GoLine) : (s.setGo g).t1 = s.t1 := rfl
@[simp] theorem State.setGo_ing (s : State) (g : GoLine) : (s.setGo g).ing = s.ing := rfl
@[simp] theorem State.setGo_fab (s : State) (g : GoLine) : (s.setGo g).fab = s.fab := rfl
@[simp] theorem State.setGo_cel (s : State) (g : GoLine) : (s.setGo g).cel = s.cel := rfl

@[simp] theorem State.popCmd_pending (s : State) (n : Nat) : (s.popCmd n).pending = s.pending := rfl
@[simp] theorem State.popCmd_halt (s : State) (n : Nat) : (s.popCmd n).halt = s.halt := rfl
@[simp] theorem State.popCmd_free (s : State) (n : Nat) : (s.popCmd n).free = s.free := rfl
@[simp] theorem State.popCmd_pins (s : State) (n : Nat) : (s.popCmd n).pins = s.pins := rfl
@[simp] theorem State.popCmd_fuses (s : State) (n : Nat) : (s.popCmd n).fuses = s.fuses := rfl
@[simp] theorem State.popCmd_flash (s : State) (n : Nat) : (s.popCmd n).flash = s.flash := rfl
@[simp] theorem State.popCmd_boot (s : State) (n : Nat) : (s.popCmd n).boot = s.boot := rfl
@[simp] theorem State.popCmd_regs (s : State) (n : Nat) : (s.popCmd n).regs = s.regs := rfl
@[simp] theorem State.popCmd_clk (s : State) (n : Nat) : (s.popCmd n).clk = s.clk := rfl
@[simp] theorem State.popCmd_err (s : State) (n : Nat) : (s.popCmd n).err = s.err := rfl
@[simp] theorem State.popCmd_sec (s : State) (n : Nat) : (s.popCmd n).sec = s.sec := rfl
@[simp] theorem State.popCmd_plan (s : State) (n : Nat) : (s.popCmd n).plan = s.plan := rfl
@[simp] theorem State.popCmd_run (s : State) (n : Nat) : (s.popCmd n).run = s.run := rfl
@[simp] theorem State.popCmd_t0 (s : State) (n : Nat) : (s.popCmd n).t0 = s.t0 := rfl
@[simp] theorem State.popCmd_t1 (s : State) (n : Nat) : (s.popCmd n).t1 = s.t1 := rfl
@[simp] theorem State.popCmd_ing (s : State) (n : Nat) : (s.popCmd n).ing = s.ing := rfl
@[simp] theorem State.popCmd_fab (s : State) (n : Nat) : (s.popCmd n).fab = s.fab := rfl
@[simp] theorem State.popCmd_cel (s : State) (n : Nat) : (s.popCmd n).cel = s.cel := rfl

@[simp] theorem State.activate_pending (s : State) (n : Nat) (d : BitVec 512) (datum : Nat) : (s.activate n d datum).pending = s.pending := rfl
@[simp] theorem State.activate_halt (s : State) (n : Nat) (d : BitVec 512) (datum : Nat) : (s.activate n d datum).halt = s.halt := rfl
@[simp] theorem State.activate_free (s : State) (n : Nat) (d : BitVec 512) (datum : Nat) : (s.activate n d datum).free = s.free := rfl
@[simp] theorem State.activate_pins (s : State) (n : Nat) (d : BitVec 512) (datum : Nat) : (s.activate n d datum).pins = s.pins := rfl
@[simp] theorem State.activate_fuses (s : State) (n : Nat) (d : BitVec 512) (datum : Nat) : (s.activate n d datum).fuses = s.fuses := rfl
@[simp] theorem State.activate_flash (s : State) (n : Nat) (d : BitVec 512) (datum : Nat) : (s.activate n d datum).flash = s.flash := rfl
@[simp] theorem State.activate_boot (s : State) (n : Nat) (d : BitVec 512) (datum : Nat) : (s.activate n d datum).boot = s.boot := rfl
@[simp] theorem State.activate_regs (s : State) (n : Nat) (d : BitVec 512) (datum : Nat) : (s.activate n d datum).regs = s.regs := rfl
@[simp] theorem State.activate_clk (s : State) (n : Nat) (d : BitVec 512) (datum : Nat) : (s.activate n d datum).clk = s.clk := rfl
@[simp] theorem State.activate_err (s : State) (n : Nat) (d : BitVec 512) (datum : Nat) : (s.activate n d datum).err = s.err := rfl
@[simp] theorem State.activate_sec (s : State) (n : Nat) (d : BitVec 512) (datum : Nat) : (s.activate n d datum).sec = s.sec := rfl
@[simp] theorem State.activate_plan (s : State) (n : Nat) (d : BitVec 512) (datum : Nat) : (s.activate n d datum).plan = s.plan := rfl
@[simp] theorem State.activate_run (s : State) (n : Nat) (d : BitVec 512) (datum : Nat) : (s.activate n d datum).run = s.run := rfl
@[simp] theorem State.activate_t0 (s : State) (n : Nat) (d : BitVec 512) (datum : Nat) : (s.activate n d datum).t0 = s.t0 := rfl
@[simp] theorem State.activate_t1 (s : State) (n : Nat) (d : BitVec 512) (datum : Nat) : (s.activate n d datum).t1 = s.t1 := rfl
@[simp] theorem State.activate_ing (s : State) (n : Nat) (d : BitVec 512) (datum : Nat) : (s.activate n d datum).ing = s.ing := rfl
@[simp] theorem State.activate_fab (s : State) (n : Nat) (d : BitVec 512) (datum : Nat) : (s.activate n d datum).fab = s.fab := rfl
@[simp] theorem State.activate_cel (s : State) (n : Nat) (d : BitVec 512) (datum : Nat) : (s.activate n d datum).cel = s.cel := rfl

@[simp] theorem State.setMeas_pending (s : State) (i v : Nat) : (s.setMeas i v).pending = s.pending := rfl
@[simp] theorem State.setMeas_halt (s : State) (i v : Nat) : (s.setMeas i v).halt = s.halt := rfl
@[simp] theorem State.setMeas_free (s : State) (i v : Nat) : (s.setMeas i v).free = s.free := rfl
@[simp] theorem State.setMeas_pins (s : State) (i v : Nat) : (s.setMeas i v).pins = s.pins := rfl
@[simp] theorem State.setMeas_fuses (s : State) (i v : Nat) : (s.setMeas i v).fuses = s.fuses := rfl
@[simp] theorem State.setMeas_flash (s : State) (i v : Nat) : (s.setMeas i v).flash = s.flash := rfl
@[simp] theorem State.setMeas_boot (s : State) (i v : Nat) : (s.setMeas i v).boot = s.boot := rfl
@[simp] theorem State.setMeas_regs (s : State) (i v : Nat) : (s.setMeas i v).regs = s.regs := rfl
@[simp] theorem State.setMeas_clk (s : State) (i v : Nat) : (s.setMeas i v).clk = s.clk := rfl
@[simp] theorem State.setMeas_host (s : State) (i v : Nat) : (s.setMeas i v).host = s.host := rfl
@[simp] theorem State.setMeas_err (s : State) (i v : Nat) : (s.setMeas i v).err = s.err := rfl
@[simp] theorem State.setMeas_plan (s : State) (i v : Nat) : (s.setMeas i v).plan = s.plan := rfl
@[simp] theorem State.setMeas_run (s : State) (i v : Nat) : (s.setMeas i v).run = s.run := rfl
@[simp] theorem State.setMeas_t0 (s : State) (i v : Nat) : (s.setMeas i v).t0 = s.t0 := rfl
@[simp] theorem State.setMeas_t1 (s : State) (i v : Nat) : (s.setMeas i v).t1 = s.t1 := rfl
@[simp] theorem State.setMeas_ing (s : State) (i v : Nat) : (s.setMeas i v).ing = s.ing := rfl
@[simp] theorem State.setMeas_fab (s : State) (i v : Nat) : (s.setMeas i v).fab = s.fab := rfl
@[simp] theorem State.setMeas_cel (s : State) (i v : Nat) : (s.setMeas i v).cel = s.cel := rfl

@[simp] theorem State.setStat_pending (s : State) (x : FigStat) : (s.setStat x).pending = s.pending := rfl
@[simp] theorem State.setStat_halt (s : State) (x : FigStat) : (s.setStat x).halt = s.halt := rfl
@[simp] theorem State.setStat_free (s : State) (x : FigStat) : (s.setStat x).free = s.free := rfl
@[simp] theorem State.setStat_pins (s : State) (x : FigStat) : (s.setStat x).pins = s.pins := rfl
@[simp] theorem State.setStat_fuses (s : State) (x : FigStat) : (s.setStat x).fuses = s.fuses := rfl
@[simp] theorem State.setStat_flash (s : State) (x : FigStat) : (s.setStat x).flash = s.flash := rfl
@[simp] theorem State.setStat_boot (s : State) (x : FigStat) : (s.setStat x).boot = s.boot := rfl
@[simp] theorem State.setStat_regs (s : State) (x : FigStat) : (s.setStat x).regs = s.regs := rfl
@[simp] theorem State.setStat_clk (s : State) (x : FigStat) : (s.setStat x).clk = s.clk := rfl
@[simp] theorem State.setStat_host (s : State) (x : FigStat) : (s.setStat x).host = s.host := rfl
@[simp] theorem State.setStat_err (s : State) (x : FigStat) : (s.setStat x).err = s.err := rfl
@[simp] theorem State.setStat_sec (s : State) (x : FigStat) : (s.setStat x).sec = s.sec := rfl
@[simp] theorem State.setStat_plan (s : State) (x : FigStat) : (s.setStat x).plan = s.plan := rfl
@[simp] theorem State.setStat_t0 (s : State) (x : FigStat) : (s.setStat x).t0 = s.t0 := rfl
@[simp] theorem State.setStat_t1 (s : State) (x : FigStat) : (s.setStat x).t1 = s.t1 := rfl
@[simp] theorem State.setStat_ing (s : State) (x : FigStat) : (s.setStat x).ing = s.ing := rfl
@[simp] theorem State.setStat_fab (s : State) (x : FigStat) : (s.setStat x).fab = s.fab := rfl
@[simp] theorem State.setStat_cel (s : State) (x : FigStat) : (s.setStat x).cel = s.cel := rfl

@[simp] theorem State.setSlot_pending (s : State) (k : Nat) (l : LogEntry) : (s.setSlot k l).pending = s.pending := rfl
@[simp] theorem State.setSlot_halt (s : State) (k : Nat) (l : LogEntry) : (s.setSlot k l).halt = s.halt := rfl
@[simp] theorem State.setSlot_free (s : State) (k : Nat) (l : LogEntry) : (s.setSlot k l).free = s.free := rfl
@[simp] theorem State.setSlot_pins (s : State) (k : Nat) (l : LogEntry) : (s.setSlot k l).pins = s.pins := rfl
@[simp] theorem State.setSlot_fuses (s : State) (k : Nat) (l : LogEntry) : (s.setSlot k l).fuses = s.fuses := rfl
@[simp] theorem State.setSlot_flash (s : State) (k : Nat) (l : LogEntry) : (s.setSlot k l).flash = s.flash := rfl
@[simp] theorem State.setSlot_boot (s : State) (k : Nat) (l : LogEntry) : (s.setSlot k l).boot = s.boot := rfl
@[simp] theorem State.setSlot_regs (s : State) (k : Nat) (l : LogEntry) : (s.setSlot k l).regs = s.regs := rfl
@[simp] theorem State.setSlot_clk (s : State) (k : Nat) (l : LogEntry) : (s.setSlot k l).clk = s.clk := rfl
@[simp] theorem State.setSlot_host (s : State) (k : Nat) (l : LogEntry) : (s.setSlot k l).host = s.host := rfl
@[simp] theorem State.setSlot_sec (s : State) (k : Nat) (l : LogEntry) : (s.setSlot k l).sec = s.sec := rfl
@[simp] theorem State.setSlot_plan (s : State) (k : Nat) (l : LogEntry) : (s.setSlot k l).plan = s.plan := rfl
@[simp] theorem State.setSlot_run (s : State) (k : Nat) (l : LogEntry) : (s.setSlot k l).run = s.run := rfl
@[simp] theorem State.setSlot_t0 (s : State) (k : Nat) (l : LogEntry) : (s.setSlot k l).t0 = s.t0 := rfl
@[simp] theorem State.setSlot_t1 (s : State) (k : Nat) (l : LogEntry) : (s.setSlot k l).t1 = s.t1 := rfl
@[simp] theorem State.setSlot_ing (s : State) (k : Nat) (l : LogEntry) : (s.setSlot k l).ing = s.ing := rfl
@[simp] theorem State.setSlot_fab (s : State) (k : Nat) (l : LogEntry) : (s.setSlot k l).fab = s.fab := rfl
@[simp] theorem State.setSlot_cel (s : State) (k : Nat) (l : LogEntry) : (s.setSlot k l).cel = s.cel := rfl

@[simp] theorem State.setPort_pending (s : State) (n : Nat) (p : Port) : (s.setPort n p).pending = s.pending := rfl
@[simp] theorem State.setPort_halt (s : State) (n : Nat) (p : Port) : (s.setPort n p).halt = s.halt := rfl
@[simp] theorem State.setPort_free (s : State) (n : Nat) (p : Port) : (s.setPort n p).free = s.free := rfl
@[simp] theorem State.setPort_pins (s : State) (n : Nat) (p : Port) : (s.setPort n p).pins = s.pins := rfl
@[simp] theorem State.setPort_fuses (s : State) (n : Nat) (p : Port) : (s.setPort n p).fuses = s.fuses := rfl
@[simp] theorem State.setPort_flash (s : State) (n : Nat) (p : Port) : (s.setPort n p).flash = s.flash := rfl
@[simp] theorem State.setPort_boot (s : State) (n : Nat) (p : Port) : (s.setPort n p).boot = s.boot := rfl
@[simp] theorem State.setPort_regs (s : State) (n : Nat) (p : Port) : (s.setPort n p).regs = s.regs := rfl
@[simp] theorem State.setPort_clk (s : State) (n : Nat) (p : Port) : (s.setPort n p).clk = s.clk := rfl
@[simp] theorem State.setPort_host (s : State) (n : Nat) (p : Port) : (s.setPort n p).host = s.host := rfl
@[simp] theorem State.setPort_err (s : State) (n : Nat) (p : Port) : (s.setPort n p).err = s.err := rfl
@[simp] theorem State.setPort_sec (s : State) (n : Nat) (p : Port) : (s.setPort n p).sec = s.sec := rfl
@[simp] theorem State.setPort_plan (s : State) (n : Nat) (p : Port) : (s.setPort n p).plan = s.plan := rfl
@[simp] theorem State.setPort_run (s : State) (n : Nat) (p : Port) : (s.setPort n p).run = s.run := rfl
@[simp] theorem State.setPort_t0 (s : State) (n : Nat) (p : Port) : (s.setPort n p).t0 = s.t0 := rfl
@[simp] theorem State.setPort_t1 (s : State) (n : Nat) (p : Port) : (s.setPort n p).t1 = s.t1 := rfl
@[simp] theorem State.setPort_ing (s : State) (n : Nat) (p : Port) : (s.setPort n p).ing = s.ing := rfl
@[simp] theorem State.setPort_cel (s : State) (n : Nat) (p : Port) : (s.setPort n p).cel = s.cel := rfl

@[simp] theorem State.setTag_pending (s : State) (k loc v : Nat) : (s.setTag k loc v).pending = s.pending := rfl
@[simp] theorem State.setTag_halt (s : State) (k loc v : Nat) : (s.setTag k loc v).halt = s.halt := rfl
@[simp] theorem State.setTag_free (s : State) (k loc v : Nat) : (s.setTag k loc v).free = s.free := rfl
@[simp] theorem State.setTag_pins (s : State) (k loc v : Nat) : (s.setTag k loc v).pins = s.pins := rfl
@[simp] theorem State.setTag_fuses (s : State) (k loc v : Nat) : (s.setTag k loc v).fuses = s.fuses := rfl
@[simp] theorem State.setTag_flash (s : State) (k loc v : Nat) : (s.setTag k loc v).flash = s.flash := rfl
@[simp] theorem State.setTag_boot (s : State) (k loc v : Nat) : (s.setTag k loc v).boot = s.boot := rfl
@[simp] theorem State.setTag_regs (s : State) (k loc v : Nat) : (s.setTag k loc v).regs = s.regs := rfl
@[simp] theorem State.setTag_clk (s : State) (k loc v : Nat) : (s.setTag k loc v).clk = s.clk := rfl
@[simp] theorem State.setTag_host (s : State) (k loc v : Nat) : (s.setTag k loc v).host = s.host := rfl
@[simp] theorem State.setTag_err (s : State) (k loc v : Nat) : (s.setTag k loc v).err = s.err := rfl
@[simp] theorem State.setTag_sec (s : State) (k loc v : Nat) : (s.setTag k loc v).sec = s.sec := rfl
@[simp] theorem State.setTag_plan (s : State) (k loc v : Nat) : (s.setTag k loc v).plan = s.plan := rfl
@[simp] theorem State.setTag_run (s : State) (k loc v : Nat) : (s.setTag k loc v).run = s.run := rfl
@[simp] theorem State.setTag_t0 (s : State) (k loc v : Nat) : (s.setTag k loc v).t0 = s.t0 := rfl
@[simp] theorem State.setTag_ing (s : State) (k loc v : Nat) : (s.setTag k loc v).ing = s.ing := rfl
@[simp] theorem State.setTag_fab (s : State) (k loc v : Nat) : (s.setTag k loc v).fab = s.fab := rfl
@[simp] theorem State.setTag_cel (s : State) (k loc v : Nat) : (s.setTag k loc v).cel = s.cel := rfl

@[simp] theorem State.setColl_pending (s : State) (c : Coll) : (s.setColl c).pending = s.pending := rfl
@[simp] theorem State.setColl_halt (s : State) (c : Coll) : (s.setColl c).halt = s.halt := rfl
@[simp] theorem State.setColl_free (s : State) (c : Coll) : (s.setColl c).free = s.free := rfl
@[simp] theorem State.setColl_pins (s : State) (c : Coll) : (s.setColl c).pins = s.pins := rfl
@[simp] theorem State.setColl_fuses (s : State) (c : Coll) : (s.setColl c).fuses = s.fuses := rfl
@[simp] theorem State.setColl_flash (s : State) (c : Coll) : (s.setColl c).flash = s.flash := rfl
@[simp] theorem State.setColl_boot (s : State) (c : Coll) : (s.setColl c).boot = s.boot := rfl
@[simp] theorem State.setColl_regs (s : State) (c : Coll) : (s.setColl c).regs = s.regs := rfl
@[simp] theorem State.setColl_clk (s : State) (c : Coll) : (s.setColl c).clk = s.clk := rfl
@[simp] theorem State.setColl_host (s : State) (c : Coll) : (s.setColl c).host = s.host := rfl
@[simp] theorem State.setColl_err (s : State) (c : Coll) : (s.setColl c).err = s.err := rfl
@[simp] theorem State.setColl_sec (s : State) (c : Coll) : (s.setColl c).sec = s.sec := rfl
@[simp] theorem State.setColl_plan (s : State) (c : Coll) : (s.setColl c).plan = s.plan := rfl
@[simp] theorem State.setColl_run (s : State) (c : Coll) : (s.setColl c).run = s.run := rfl
@[simp] theorem State.setColl_t0 (s : State) (c : Coll) : (s.setColl c).t0 = s.t0 := rfl
@[simp] theorem State.setColl_t1 (s : State) (c : Coll) : (s.setColl c).t1 = s.t1 := rfl
@[simp] theorem State.setColl_ing (s : State) (c : Coll) : (s.setColl c).ing = s.ing := rfl
@[simp] theorem State.setColl_cel (s : State) (c : Coll) : (s.setColl c).cel = s.cel := rfl

@[simp] theorem State.locWrite_pending (s : State) (k loc off : Nat) (b : Bytes) : (s.locWrite k loc off b).pending = s.pending := rfl
@[simp] theorem State.locWrite_halt (s : State) (k loc off : Nat) (b : Bytes) : (s.locWrite k loc off b).halt = s.halt := rfl
@[simp] theorem State.locWrite_free (s : State) (k loc off : Nat) (b : Bytes) : (s.locWrite k loc off b).free = s.free := rfl
@[simp] theorem State.locWrite_pins (s : State) (k loc off : Nat) (b : Bytes) : (s.locWrite k loc off b).pins = s.pins := rfl
@[simp] theorem State.locWrite_fuses (s : State) (k loc off : Nat) (b : Bytes) : (s.locWrite k loc off b).fuses = s.fuses := rfl
@[simp] theorem State.locWrite_flash (s : State) (k loc off : Nat) (b : Bytes) : (s.locWrite k loc off b).flash = s.flash := rfl
@[simp] theorem State.locWrite_boot (s : State) (k loc off : Nat) (b : Bytes) : (s.locWrite k loc off b).boot = s.boot := rfl
@[simp] theorem State.locWrite_regs (s : State) (k loc off : Nat) (b : Bytes) : (s.locWrite k loc off b).regs = s.regs := rfl
@[simp] theorem State.locWrite_clk (s : State) (k loc off : Nat) (b : Bytes) : (s.locWrite k loc off b).clk = s.clk := rfl
@[simp] theorem State.locWrite_host (s : State) (k loc off : Nat) (b : Bytes) : (s.locWrite k loc off b).host = s.host := rfl
@[simp] theorem State.locWrite_err (s : State) (k loc off : Nat) (b : Bytes) : (s.locWrite k loc off b).err = s.err := rfl
@[simp] theorem State.locWrite_sec (s : State) (k loc off : Nat) (b : Bytes) : (s.locWrite k loc off b).sec = s.sec := rfl
@[simp] theorem State.locWrite_plan (s : State) (k loc off : Nat) (b : Bytes) : (s.locWrite k loc off b).plan = s.plan := rfl
@[simp] theorem State.locWrite_run (s : State) (k loc off : Nat) (b : Bytes) : (s.locWrite k loc off b).run = s.run := rfl
@[simp] theorem State.locWrite_t0 (s : State) (k loc off : Nat) (b : Bytes) : (s.locWrite k loc off b).t0 = s.t0 := rfl
@[simp] theorem State.locWrite_ing (s : State) (k loc off : Nat) (b : Bytes) : (s.locWrite k loc off b).ing = s.ing := rfl
@[simp] theorem State.locWrite_fab (s : State) (k loc off : Nat) (b : Bytes) : (s.locWrite k loc off b).fab = s.fab := rfl
@[simp] theorem State.locWrite_cel (s : State) (k loc off : Nat) (b : Bytes) : (s.locWrite k loc off b).cel = s.cel := rfl

@[simp] theorem State.setLocWord_pending (s : State) (k loc i v : Nat) : (s.setLocWord k loc i v).pending = s.pending := rfl
@[simp] theorem State.setLocWord_halt (s : State) (k loc i v : Nat) : (s.setLocWord k loc i v).halt = s.halt := rfl
@[simp] theorem State.setLocWord_free (s : State) (k loc i v : Nat) : (s.setLocWord k loc i v).free = s.free := rfl
@[simp] theorem State.setLocWord_pins (s : State) (k loc i v : Nat) : (s.setLocWord k loc i v).pins = s.pins := rfl
@[simp] theorem State.setLocWord_fuses (s : State) (k loc i v : Nat) : (s.setLocWord k loc i v).fuses = s.fuses := rfl
@[simp] theorem State.setLocWord_flash (s : State) (k loc i v : Nat) : (s.setLocWord k loc i v).flash = s.flash := rfl
@[simp] theorem State.setLocWord_boot (s : State) (k loc i v : Nat) : (s.setLocWord k loc i v).boot = s.boot := rfl
@[simp] theorem State.setLocWord_regs (s : State) (k loc i v : Nat) : (s.setLocWord k loc i v).regs = s.regs := rfl
@[simp] theorem State.setLocWord_clk (s : State) (k loc i v : Nat) : (s.setLocWord k loc i v).clk = s.clk := rfl
@[simp] theorem State.setLocWord_host (s : State) (k loc i v : Nat) : (s.setLocWord k loc i v).host = s.host := rfl
@[simp] theorem State.setLocWord_err (s : State) (k loc i v : Nat) : (s.setLocWord k loc i v).err = s.err := rfl
@[simp] theorem State.setLocWord_sec (s : State) (k loc i v : Nat) : (s.setLocWord k loc i v).sec = s.sec := rfl
@[simp] theorem State.setLocWord_plan (s : State) (k loc i v : Nat) : (s.setLocWord k loc i v).plan = s.plan := rfl
@[simp] theorem State.setLocWord_run (s : State) (k loc i v : Nat) : (s.setLocWord k loc i v).run = s.run := rfl
@[simp] theorem State.setLocWord_t0 (s : State) (k loc i v : Nat) : (s.setLocWord k loc i v).t0 = s.t0 := rfl
@[simp] theorem State.setLocWord_ing (s : State) (k loc i v : Nat) : (s.setLocWord k loc i v).ing = s.ing := rfl
@[simp] theorem State.setLocWord_fab (s : State) (k loc i v : Nat) : (s.setLocWord k loc i v).fab = s.fab := rfl
@[simp] theorem State.setLocWord_cel (s : State) (k loc i v : Nat) : (s.setLocWord k loc i v).cel = s.cel := rfl

@[simp] theorem State.markT1_pending (s : State) (key : Nat) (p : Bool) : (s.markT1 key p).pending = s.pending := rfl
@[simp] theorem State.markT1_halt (s : State) (key : Nat) (p : Bool) : (s.markT1 key p).halt = s.halt := rfl
@[simp] theorem State.markT1_free (s : State) (key : Nat) (p : Bool) : (s.markT1 key p).free = s.free := rfl
@[simp] theorem State.markT1_pins (s : State) (key : Nat) (p : Bool) : (s.markT1 key p).pins = s.pins := rfl
@[simp] theorem State.markT1_fuses (s : State) (key : Nat) (p : Bool) : (s.markT1 key p).fuses = s.fuses := rfl
@[simp] theorem State.markT1_flash (s : State) (key : Nat) (p : Bool) : (s.markT1 key p).flash = s.flash := rfl
@[simp] theorem State.markT1_boot (s : State) (key : Nat) (p : Bool) : (s.markT1 key p).boot = s.boot := rfl
@[simp] theorem State.markT1_regs (s : State) (key : Nat) (p : Bool) : (s.markT1 key p).regs = s.regs := rfl
@[simp] theorem State.markT1_clk (s : State) (key : Nat) (p : Bool) : (s.markT1 key p).clk = s.clk := rfl
@[simp] theorem State.markT1_host (s : State) (key : Nat) (p : Bool) : (s.markT1 key p).host = s.host := rfl
@[simp] theorem State.markT1_err (s : State) (key : Nat) (p : Bool) : (s.markT1 key p).err = s.err := rfl
@[simp] theorem State.markT1_sec (s : State) (key : Nat) (p : Bool) : (s.markT1 key p).sec = s.sec := rfl
@[simp] theorem State.markT1_plan (s : State) (key : Nat) (p : Bool) : (s.markT1 key p).plan = s.plan := rfl
@[simp] theorem State.markT1_run (s : State) (key : Nat) (p : Bool) : (s.markT1 key p).run = s.run := rfl
@[simp] theorem State.markT1_t0 (s : State) (key : Nat) (p : Bool) : (s.markT1 key p).t0 = s.t0 := rfl
@[simp] theorem State.markT1_ing (s : State) (key : Nat) (p : Bool) : (s.markT1 key p).ing = s.ing := rfl
@[simp] theorem State.markT1_fab (s : State) (key : Nat) (p : Bool) : (s.markT1 key p).fab = s.fab := rfl
@[simp] theorem State.markT1_cel (s : State) (key : Nat) (p : Bool) : (s.markT1 key p).cel = s.cel := rfl

@[simp] theorem State.t0Write_pending (s : State) (die cl line : Nat) (b : Bytes) : (s.t0Write die cl line b).pending = s.pending := rfl
@[simp] theorem State.t0Write_halt (s : State) (die cl line : Nat) (b : Bytes) : (s.t0Write die cl line b).halt = s.halt := rfl
@[simp] theorem State.t0Write_free (s : State) (die cl line : Nat) (b : Bytes) : (s.t0Write die cl line b).free = s.free := rfl
@[simp] theorem State.t0Write_pins (s : State) (die cl line : Nat) (b : Bytes) : (s.t0Write die cl line b).pins = s.pins := rfl
@[simp] theorem State.t0Write_fuses (s : State) (die cl line : Nat) (b : Bytes) : (s.t0Write die cl line b).fuses = s.fuses := rfl
@[simp] theorem State.t0Write_flash (s : State) (die cl line : Nat) (b : Bytes) : (s.t0Write die cl line b).flash = s.flash := rfl
@[simp] theorem State.t0Write_boot (s : State) (die cl line : Nat) (b : Bytes) : (s.t0Write die cl line b).boot = s.boot := rfl
@[simp] theorem State.t0Write_regs (s : State) (die cl line : Nat) (b : Bytes) : (s.t0Write die cl line b).regs = s.regs := rfl
@[simp] theorem State.t0Write_clk (s : State) (die cl line : Nat) (b : Bytes) : (s.t0Write die cl line b).clk = s.clk := rfl
@[simp] theorem State.t0Write_host (s : State) (die cl line : Nat) (b : Bytes) : (s.t0Write die cl line b).host = s.host := rfl
@[simp] theorem State.t0Write_err (s : State) (die cl line : Nat) (b : Bytes) : (s.t0Write die cl line b).err = s.err := rfl
@[simp] theorem State.t0Write_sec (s : State) (die cl line : Nat) (b : Bytes) : (s.t0Write die cl line b).sec = s.sec := rfl
@[simp] theorem State.t0Write_plan (s : State) (die cl line : Nat) (b : Bytes) : (s.t0Write die cl line b).plan = s.plan := rfl
@[simp] theorem State.t0Write_run (s : State) (die cl line : Nat) (b : Bytes) : (s.t0Write die cl line b).run = s.run := rfl
@[simp] theorem State.t0Write_t1 (s : State) (die cl line : Nat) (b : Bytes) : (s.t0Write die cl line b).t1 = s.t1 := rfl
@[simp] theorem State.t0Write_ing (s : State) (die cl line : Nat) (b : Bytes) : (s.t0Write die cl line b).ing = s.ing := rfl
@[simp] theorem State.t0Write_fab (s : State) (die cl line : Nat) (b : Bytes) : (s.t0Write die cl line b).fab = s.fab := rfl
@[simp] theorem State.t0Write_cel (s : State) (die cl line : Nat) (b : Bytes) : (s.t0Write die cl line b).cel = s.cel := rfl

@[simp] theorem State.t0Mark_pending (s : State) (die cl line n : Nat) (p : Bool) : (s.t0Mark die cl line n p).pending = s.pending := rfl
@[simp] theorem State.t0Mark_halt (s : State) (die cl line n : Nat) (p : Bool) : (s.t0Mark die cl line n p).halt = s.halt := rfl
@[simp] theorem State.t0Mark_free (s : State) (die cl line n : Nat) (p : Bool) : (s.t0Mark die cl line n p).free = s.free := rfl
@[simp] theorem State.t0Mark_pins (s : State) (die cl line n : Nat) (p : Bool) : (s.t0Mark die cl line n p).pins = s.pins := rfl
@[simp] theorem State.t0Mark_fuses (s : State) (die cl line n : Nat) (p : Bool) : (s.t0Mark die cl line n p).fuses = s.fuses := rfl
@[simp] theorem State.t0Mark_flash (s : State) (die cl line n : Nat) (p : Bool) : (s.t0Mark die cl line n p).flash = s.flash := rfl
@[simp] theorem State.t0Mark_boot (s : State) (die cl line n : Nat) (p : Bool) : (s.t0Mark die cl line n p).boot = s.boot := rfl
@[simp] theorem State.t0Mark_regs (s : State) (die cl line n : Nat) (p : Bool) : (s.t0Mark die cl line n p).regs = s.regs := rfl
@[simp] theorem State.t0Mark_clk (s : State) (die cl line n : Nat) (p : Bool) : (s.t0Mark die cl line n p).clk = s.clk := rfl
@[simp] theorem State.t0Mark_host (s : State) (die cl line n : Nat) (p : Bool) : (s.t0Mark die cl line n p).host = s.host := rfl
@[simp] theorem State.t0Mark_err (s : State) (die cl line n : Nat) (p : Bool) : (s.t0Mark die cl line n p).err = s.err := rfl
@[simp] theorem State.t0Mark_sec (s : State) (die cl line n : Nat) (p : Bool) : (s.t0Mark die cl line n p).sec = s.sec := rfl
@[simp] theorem State.t0Mark_plan (s : State) (die cl line n : Nat) (p : Bool) : (s.t0Mark die cl line n p).plan = s.plan := rfl
@[simp] theorem State.t0Mark_run (s : State) (die cl line n : Nat) (p : Bool) : (s.t0Mark die cl line n p).run = s.run := rfl
@[simp] theorem State.t0Mark_t1 (s : State) (die cl line n : Nat) (p : Bool) : (s.t0Mark die cl line n p).t1 = s.t1 := rfl
@[simp] theorem State.t0Mark_ing (s : State) (die cl line n : Nat) (p : Bool) : (s.t0Mark die cl line n p).ing = s.ing := rfl
@[simp] theorem State.t0Mark_fab (s : State) (die cl line n : Nat) (p : Bool) : (s.t0Mark die cl line n p).fab = s.fab := rfl
@[simp] theorem State.t0Mark_cel (s : State) (die cl line n : Nat) (p : Bool) : (s.t0Mark die cl line n p).cel = s.cel := rfl

@[simp] theorem State.haltQuiet_pending (s : State) (cause : Nat) : (s.haltQuiet cause).pending = s.pending := rfl
@[simp] theorem State.haltQuiet_free (s : State) (cause : Nat) : (s.haltQuiet cause).free = s.free := rfl
@[simp] theorem State.haltQuiet_pins (s : State) (cause : Nat) : (s.haltQuiet cause).pins = s.pins := rfl
@[simp] theorem State.haltQuiet_fuses (s : State) (cause : Nat) : (s.haltQuiet cause).fuses = s.fuses := rfl
@[simp] theorem State.haltQuiet_flash (s : State) (cause : Nat) : (s.haltQuiet cause).flash = s.flash := rfl
@[simp] theorem State.haltQuiet_boot (s : State) (cause : Nat) : (s.haltQuiet cause).boot = s.boot := rfl
@[simp] theorem State.haltQuiet_regs (s : State) (cause : Nat) : (s.haltQuiet cause).regs = s.regs := rfl
@[simp] theorem State.haltQuiet_clk (s : State) (cause : Nat) : (s.haltQuiet cause).clk = s.clk := rfl
@[simp] theorem State.haltQuiet_host (s : State) (cause : Nat) : (s.haltQuiet cause).host = s.host := rfl
@[simp] theorem State.haltQuiet_err (s : State) (cause : Nat) : (s.haltQuiet cause).err = s.err := rfl
@[simp] theorem State.haltQuiet_sec (s : State) (cause : Nat) : (s.haltQuiet cause).sec = s.sec := rfl
@[simp] theorem State.haltQuiet_plan (s : State) (cause : Nat) : (s.haltQuiet cause).plan = s.plan := rfl
@[simp] theorem State.haltQuiet_run (s : State) (cause : Nat) : (s.haltQuiet cause).run = s.run := rfl
@[simp] theorem State.haltQuiet_t0 (s : State) (cause : Nat) : (s.haltQuiet cause).t0 = s.t0 := rfl
@[simp] theorem State.haltQuiet_t1 (s : State) (cause : Nat) : (s.haltQuiet cause).t1 = s.t1 := rfl
@[simp] theorem State.haltQuiet_ing (s : State) (cause : Nat) : (s.haltQuiet cause).ing = s.ing := rfl
@[simp] theorem State.haltQuiet_fab (s : State) (cause : Nat) : (s.haltQuiet cause).fab = s.fab := rfl
@[simp] theorem State.haltQuiet_cel (s : State) (cause : Nat) : (s.haltQuiet cause).cel = s.cel := rfl

@[simp] theorem State.stopCallers_pending (s : State) : (s.stopCallers ).pending = s.pending := rfl
@[simp] theorem State.stopCallers_halt (s : State) : (s.stopCallers ).halt = s.halt := rfl
@[simp] theorem State.stopCallers_free (s : State) : (s.stopCallers ).free = s.free := rfl
@[simp] theorem State.stopCallers_pins (s : State) : (s.stopCallers ).pins = s.pins := rfl
@[simp] theorem State.stopCallers_fuses (s : State) : (s.stopCallers ).fuses = s.fuses := rfl
@[simp] theorem State.stopCallers_flash (s : State) : (s.stopCallers ).flash = s.flash := rfl
@[simp] theorem State.stopCallers_boot (s : State) : (s.stopCallers ).boot = s.boot := rfl
@[simp] theorem State.stopCallers_regs (s : State) : (s.stopCallers ).regs = s.regs := rfl
@[simp] theorem State.stopCallers_clk (s : State) : (s.stopCallers ).clk = s.clk := rfl
@[simp] theorem State.stopCallers_host (s : State) : (s.stopCallers ).host = s.host := rfl
@[simp] theorem State.stopCallers_err (s : State) : (s.stopCallers ).err = s.err := rfl
@[simp] theorem State.stopCallers_sec (s : State) : (s.stopCallers ).sec = s.sec := rfl
@[simp] theorem State.stopCallers_plan (s : State) : (s.stopCallers ).plan = s.plan := rfl
@[simp] theorem State.stopCallers_t0 (s : State) : (s.stopCallers ).t0 = s.t0 := rfl
@[simp] theorem State.stopCallers_t1 (s : State) : (s.stopCallers ).t1 = s.t1 := rfl
@[simp] theorem State.stopCallers_ing (s : State) : (s.stopCallers ).ing = s.ing := rfl
@[simp] theorem State.stopCallers_fab (s : State) : (s.stopCallers ).fab = s.fab := rfl
@[simp] theorem State.stopCallers_cel (s : State) : (s.stopCallers ).cel = s.cel := rfl

@[simp] theorem State.linkOff_pending (s : State) : (s.linkOff ).pending = s.pending := rfl
@[simp] theorem State.linkOff_halt (s : State) : (s.linkOff ).halt = s.halt := rfl
@[simp] theorem State.linkOff_free (s : State) : (s.linkOff ).free = s.free := rfl
@[simp] theorem State.linkOff_pins (s : State) : (s.linkOff ).pins = s.pins := rfl
@[simp] theorem State.linkOff_fuses (s : State) : (s.linkOff ).fuses = s.fuses := rfl
@[simp] theorem State.linkOff_flash (s : State) : (s.linkOff ).flash = s.flash := rfl
@[simp] theorem State.linkOff_boot (s : State) : (s.linkOff ).boot = s.boot := rfl
@[simp] theorem State.linkOff_regs (s : State) : (s.linkOff ).regs = s.regs := rfl
@[simp] theorem State.linkOff_clk (s : State) : (s.linkOff ).clk = s.clk := rfl
@[simp] theorem State.linkOff_err (s : State) : (s.linkOff ).err = s.err := rfl
@[simp] theorem State.linkOff_sec (s : State) : (s.linkOff ).sec = s.sec := rfl
@[simp] theorem State.linkOff_plan (s : State) : (s.linkOff ).plan = s.plan := rfl
@[simp] theorem State.linkOff_run (s : State) : (s.linkOff ).run = s.run := rfl
@[simp] theorem State.linkOff_t0 (s : State) : (s.linkOff ).t0 = s.t0 := rfl
@[simp] theorem State.linkOff_t1 (s : State) : (s.linkOff ).t1 = s.t1 := rfl
@[simp] theorem State.linkOff_ing (s : State) : (s.linkOff ).ing = s.ing := rfl
@[simp] theorem State.linkOff_fab (s : State) : (s.linkOff ).fab = s.fab := rfl
@[simp] theorem State.linkOff_cel (s : State) : (s.linkOff ).cel = s.cel := rfl

@[simp] theorem State.powerOff_pending (s : State) : (s.powerOff ).pending = s.pending := rfl
@[simp] theorem State.powerOff_halt (s : State) : (s.powerOff ).halt = s.halt := rfl
@[simp] theorem State.powerOff_free (s : State) : (s.powerOff ).free = s.free := rfl
@[simp] theorem State.powerOff_pins (s : State) : (s.powerOff ).pins = s.pins := rfl
@[simp] theorem State.powerOff_fuses (s : State) : (s.powerOff ).fuses = s.fuses := rfl
@[simp] theorem State.powerOff_flash (s : State) : (s.powerOff ).flash = s.flash := rfl
@[simp] theorem State.powerOff_boot (s : State) : (s.powerOff ).boot = s.boot := rfl
@[simp] theorem State.powerOff_regs (s : State) : (s.powerOff ).regs = s.regs := rfl
@[simp] theorem State.powerOff_clk (s : State) : (s.powerOff ).clk = s.clk := rfl
@[simp] theorem State.powerOff_err (s : State) : (s.powerOff ).err = s.err := rfl
@[simp] theorem State.powerOff_sec (s : State) : (s.powerOff ).sec = s.sec := rfl
@[simp] theorem State.powerOff_plan (s : State) : (s.powerOff ).plan = s.plan := rfl
@[simp] theorem State.powerOff_t0 (s : State) : (s.powerOff ).t0 = s.t0 := rfl
@[simp] theorem State.powerOff_t1 (s : State) : (s.powerOff ).t1 = s.t1 := rfl
@[simp] theorem State.powerOff_ing (s : State) : (s.powerOff ).ing = s.ing := rfl
@[simp] theorem State.powerOff_fab (s : State) : (s.powerOff ).fab = s.fab := rfl
@[simp] theorem State.powerOff_cel (s : State) : (s.powerOff ).cel = s.cel := rfl

@[simp] theorem State.setQuantity_pending (s : State) (f : Fig) (n : List Nat) : (s.setQuantity f n).pending = s.pending := rfl
@[simp] theorem State.setQuantity_halt (s : State) (f : Fig) (n : List Nat) : (s.setQuantity f n).halt = s.halt := rfl
@[simp] theorem State.setQuantity_free (s : State) (f : Fig) (n : List Nat) : (s.setQuantity f n).free = s.free := rfl
@[simp] theorem State.setQuantity_pins (s : State) (f : Fig) (n : List Nat) : (s.setQuantity f n).pins = s.pins := rfl
@[simp] theorem State.setQuantity_fuses (s : State) (f : Fig) (n : List Nat) : (s.setQuantity f n).fuses = s.fuses := rfl
@[simp] theorem State.setQuantity_flash (s : State) (f : Fig) (n : List Nat) : (s.setQuantity f n).flash = s.flash := rfl
@[simp] theorem State.setQuantity_boot (s : State) (f : Fig) (n : List Nat) : (s.setQuantity f n).boot = s.boot := rfl
@[simp] theorem State.setQuantity_regs (s : State) (f : Fig) (n : List Nat) : (s.setQuantity f n).regs = s.regs := rfl
@[simp] theorem State.setQuantity_clk (s : State) (f : Fig) (n : List Nat) : (s.setQuantity f n).clk = s.clk := rfl
@[simp] theorem State.setQuantity_host (s : State) (f : Fig) (n : List Nat) : (s.setQuantity f n).host = s.host := rfl
@[simp] theorem State.setQuantity_err (s : State) (f : Fig) (n : List Nat) : (s.setQuantity f n).err = s.err := rfl
@[simp] theorem State.setQuantity_sec (s : State) (f : Fig) (n : List Nat) : (s.setQuantity f n).sec = s.sec := rfl
@[simp] theorem State.setQuantity_plan (s : State) (f : Fig) (n : List Nat) : (s.setQuantity f n).plan = s.plan := rfl
@[simp] theorem State.setQuantity_t0 (s : State) (f : Fig) (n : List Nat) : (s.setQuantity f n).t0 = s.t0 := rfl
@[simp] theorem State.setQuantity_t1 (s : State) (f : Fig) (n : List Nat) : (s.setQuantity f n).t1 = s.t1 := rfl
@[simp] theorem State.setQuantity_ing (s : State) (f : Fig) (n : List Nat) : (s.setQuantity f n).ing = s.ing := rfl
@[simp] theorem State.setQuantity_fab (s : State) (f : Fig) (n : List Nat) : (s.setQuantity f n).fab = s.fab := rfl
@[simp] theorem State.setQuantity_cel (s : State) (f : Fig) (n : List Nat) : (s.setQuantity f n).cel = s.cel := rfl

@[simp] theorem State.setDirty_pending (s : State) (k : Nat) : (s.setDirty k).pending = s.pending := rfl
@[simp] theorem State.setDirty_halt (s : State) (k : Nat) : (s.setDirty k).halt = s.halt := rfl
@[simp] theorem State.setDirty_free (s : State) (k : Nat) : (s.setDirty k).free = s.free := rfl
@[simp] theorem State.setDirty_pins (s : State) (k : Nat) : (s.setDirty k).pins = s.pins := rfl
@[simp] theorem State.setDirty_fuses (s : State) (k : Nat) : (s.setDirty k).fuses = s.fuses := rfl
@[simp] theorem State.setDirty_flash (s : State) (k : Nat) : (s.setDirty k).flash = s.flash := rfl
@[simp] theorem State.setDirty_boot (s : State) (k : Nat) : (s.setDirty k).boot = s.boot := rfl
@[simp] theorem State.setDirty_regs (s : State) (k : Nat) : (s.setDirty k).regs = s.regs := rfl
@[simp] theorem State.setDirty_clk (s : State) (k : Nat) : (s.setDirty k).clk = s.clk := rfl
@[simp] theorem State.setDirty_host (s : State) (k : Nat) : (s.setDirty k).host = s.host := rfl
@[simp] theorem State.setDirty_err (s : State) (k : Nat) : (s.setDirty k).err = s.err := rfl
@[simp] theorem State.setDirty_sec (s : State) (k : Nat) : (s.setDirty k).sec = s.sec := rfl
@[simp] theorem State.setDirty_plan (s : State) (k : Nat) : (s.setDirty k).plan = s.plan := rfl
@[simp] theorem State.setDirty_run (s : State) (k : Nat) : (s.setDirty k).run = s.run := rfl
@[simp] theorem State.setDirty_t0 (s : State) (k : Nat) : (s.setDirty k).t0 = s.t0 := rfl
@[simp] theorem State.setDirty_ing (s : State) (k : Nat) : (s.setDirty k).ing = s.ing := rfl
@[simp] theorem State.setDirty_fab (s : State) (k : Nat) : (s.setDirty k).fab = s.fab := rfl
@[simp] theorem State.setDirty_cel (s : State) (k : Nat) : (s.setDirty k).cel = s.cel := rfl

@[simp] theorem State.flipTouched_pending (s : State) : (s.flipTouched ).pending = s.pending := rfl
@[simp] theorem State.flipTouched_halt (s : State) : (s.flipTouched ).halt = s.halt := rfl
@[simp] theorem State.flipTouched_free (s : State) : (s.flipTouched ).free = s.free := rfl
@[simp] theorem State.flipTouched_pins (s : State) : (s.flipTouched ).pins = s.pins := rfl
@[simp] theorem State.flipTouched_fuses (s : State) : (s.flipTouched ).fuses = s.fuses := rfl
@[simp] theorem State.flipTouched_flash (s : State) : (s.flipTouched ).flash = s.flash := rfl
@[simp] theorem State.flipTouched_boot (s : State) : (s.flipTouched ).boot = s.boot := rfl
@[simp] theorem State.flipTouched_regs (s : State) : (s.flipTouched ).regs = s.regs := rfl
@[simp] theorem State.flipTouched_clk (s : State) : (s.flipTouched ).clk = s.clk := rfl
@[simp] theorem State.flipTouched_host (s : State) : (s.flipTouched ).host = s.host := rfl
@[simp] theorem State.flipTouched_err (s : State) : (s.flipTouched ).err = s.err := rfl
@[simp] theorem State.flipTouched_sec (s : State) : (s.flipTouched ).sec = s.sec := rfl
@[simp] theorem State.flipTouched_plan (s : State) : (s.flipTouched ).plan = s.plan := rfl
@[simp] theorem State.flipTouched_run (s : State) : (s.flipTouched ).run = s.run := rfl
@[simp] theorem State.flipTouched_t0 (s : State) : (s.flipTouched ).t0 = s.t0 := rfl
@[simp] theorem State.flipTouched_ing (s : State) : (s.flipTouched ).ing = s.ing := rfl
@[simp] theorem State.flipTouched_fab (s : State) : (s.flipTouched ).fab = s.fab := rfl
@[simp] theorem State.flipTouched_cel (s : State) : (s.flipTouched ).cel = s.cel := rfl

@[simp] theorem State.flag_pending (s : State) (g : Flags → Flags) : (s.flag g).pending = s.pending := by unfold State.flag; split <;> rfl
@[simp] theorem State.flag_halt (s : State) (g : Flags → Flags) : (s.flag g).halt = s.halt := by unfold State.flag; split <;> rfl
@[simp] theorem State.flag_free (s : State) (g : Flags → Flags) : (s.flag g).free = s.free := by unfold State.flag; split <;> rfl
@[simp] theorem State.flag_pins (s : State) (g : Flags → Flags) : (s.flag g).pins = s.pins := by unfold State.flag; split <;> rfl
@[simp] theorem State.flag_fuses (s : State) (g : Flags → Flags) : (s.flag g).fuses = s.fuses := by unfold State.flag; split <;> rfl
@[simp] theorem State.flag_flash (s : State) (g : Flags → Flags) : (s.flag g).flash = s.flash := by unfold State.flag; split <;> rfl
@[simp] theorem State.flag_boot (s : State) (g : Flags → Flags) : (s.flag g).boot = s.boot := by unfold State.flag; split <;> rfl
@[simp] theorem State.flag_regs (s : State) (g : Flags → Flags) : (s.flag g).regs = s.regs := by unfold State.flag; split <;> rfl
@[simp] theorem State.flag_clk (s : State) (g : Flags → Flags) : (s.flag g).clk = s.clk := by unfold State.flag; split <;> rfl
@[simp] theorem State.flag_host (s : State) (g : Flags → Flags) : (s.flag g).host = s.host := by unfold State.flag; split <;> rfl
@[simp] theorem State.flag_err (s : State) (g : Flags → Flags) : (s.flag g).err = s.err := by unfold State.flag; split <;> rfl
@[simp] theorem State.flag_sec (s : State) (g : Flags → Flags) : (s.flag g).sec = s.sec := by unfold State.flag; split <;> rfl
@[simp] theorem State.flag_plan (s : State) (g : Flags → Flags) : (s.flag g).plan = s.plan := by unfold State.flag; split <;> rfl
@[simp] theorem State.flag_t0 (s : State) (g : Flags → Flags) : (s.flag g).t0 = s.t0 := by unfold State.flag; split <;> rfl
@[simp] theorem State.flag_t1 (s : State) (g : Flags → Flags) : (s.flag g).t1 = s.t1 := by unfold State.flag; split <;> rfl
@[simp] theorem State.flag_ing (s : State) (g : Flags → Flags) : (s.flag g).ing = s.ing := by unfold State.flag; split <;> rfl
@[simp] theorem State.flag_fab (s : State) (g : Flags → Flags) : (s.flag g).fab = s.fab := by unfold State.flag; split <;> rfl
@[simp] theorem State.flag_cel (s : State) (g : Flags → Flags) : (s.flag g).cel = s.cel := by unfold State.flag; split <;> rfl

@[simp] theorem State.touch_pending (s : State) (k : Nat) : (s.touch k).pending = s.pending := by unfold State.touch; split <;> rfl
@[simp] theorem State.touch_halt (s : State) (k : Nat) : (s.touch k).halt = s.halt := by unfold State.touch; split <;> rfl
@[simp] theorem State.touch_free (s : State) (k : Nat) : (s.touch k).free = s.free := by unfold State.touch; split <;> rfl
@[simp] theorem State.touch_pins (s : State) (k : Nat) : (s.touch k).pins = s.pins := by unfold State.touch; split <;> rfl
@[simp] theorem State.touch_fuses (s : State) (k : Nat) : (s.touch k).fuses = s.fuses := by unfold State.touch; split <;> rfl
@[simp] theorem State.touch_flash (s : State) (k : Nat) : (s.touch k).flash = s.flash := by unfold State.touch; split <;> rfl
@[simp] theorem State.touch_boot (s : State) (k : Nat) : (s.touch k).boot = s.boot := by unfold State.touch; split <;> rfl
@[simp] theorem State.touch_regs (s : State) (k : Nat) : (s.touch k).regs = s.regs := by unfold State.touch; split <;> rfl
@[simp] theorem State.touch_clk (s : State) (k : Nat) : (s.touch k).clk = s.clk := by unfold State.touch; split <;> rfl
@[simp] theorem State.touch_host (s : State) (k : Nat) : (s.touch k).host = s.host := by unfold State.touch; split <;> rfl
@[simp] theorem State.touch_err (s : State) (k : Nat) : (s.touch k).err = s.err := by unfold State.touch; split <;> rfl
@[simp] theorem State.touch_sec (s : State) (k : Nat) : (s.touch k).sec = s.sec := by unfold State.touch; split <;> rfl
@[simp] theorem State.touch_plan (s : State) (k : Nat) : (s.touch k).plan = s.plan := by unfold State.touch; split <;> rfl
@[simp] theorem State.touch_run (s : State) (k : Nat) : (s.touch k).run = s.run := by unfold State.touch; split <;> rfl
@[simp] theorem State.touch_t0 (s : State) (k : Nat) : (s.touch k).t0 = s.t0 := by unfold State.touch; split <;> rfl
@[simp] theorem State.touch_ing (s : State) (k : Nat) : (s.touch k).ing = s.ing := by unfold State.touch; split <;> rfl
@[simp] theorem State.touch_fab (s : State) (k : Nat) : (s.touch k).fab = s.fab := by unfold State.touch; split <;> rfl
@[simp] theorem State.touch_cel (s : State) (k : Nat) : (s.touch k).cel = s.cel := by unfold State.touch; split <;> rfl

@[simp] theorem State.keepWrites_pending (s : State) (fid : Nat) : (s.keepWrites fid).pending = s.pending := rfl
@[simp] theorem State.keepWrites_halt (s : State) (fid : Nat) : (s.keepWrites fid).halt = s.halt := rfl
@[simp] theorem State.keepWrites_free (s : State) (fid : Nat) : (s.keepWrites fid).free = s.free := rfl
@[simp] theorem State.keepWrites_pins (s : State) (fid : Nat) : (s.keepWrites fid).pins = s.pins := rfl
@[simp] theorem State.keepWrites_fuses (s : State) (fid : Nat) : (s.keepWrites fid).fuses = s.fuses := rfl
@[simp] theorem State.keepWrites_flash (s : State) (fid : Nat) : (s.keepWrites fid).flash = s.flash := rfl
@[simp] theorem State.keepWrites_boot (s : State) (fid : Nat) : (s.keepWrites fid).boot = s.boot := rfl
@[simp] theorem State.keepWrites_regs (s : State) (fid : Nat) : (s.keepWrites fid).regs = s.regs := rfl
@[simp] theorem State.keepWrites_clk (s : State) (fid : Nat) : (s.keepWrites fid).clk = s.clk := rfl
@[simp] theorem State.keepWrites_host (s : State) (fid : Nat) : (s.keepWrites fid).host = s.host := rfl
@[simp] theorem State.keepWrites_err (s : State) (fid : Nat) : (s.keepWrites fid).err = s.err := rfl
@[simp] theorem State.keepWrites_sec (s : State) (fid : Nat) : (s.keepWrites fid).sec = s.sec := rfl
@[simp] theorem State.keepWrites_plan (s : State) (fid : Nat) : (s.keepWrites fid).plan = s.plan := rfl
@[simp] theorem State.keepWrites_t0 (s : State) (fid : Nat) : (s.keepWrites fid).t0 = s.t0 := rfl
@[simp] theorem State.keepWrites_t1 (s : State) (fid : Nat) : (s.keepWrites fid).t1 = s.t1 := rfl
@[simp] theorem State.keepWrites_ing (s : State) (fid : Nat) : (s.keepWrites fid).ing = s.ing := rfl
@[simp] theorem State.keepWrites_fab (s : State) (fid : Nat) : (s.keepWrites fid).fab = s.fab := rfl
@[simp] theorem State.keepWrites_cel (s : State) (fid : Nat) : (s.keepWrites fid).cel = s.cel := rfl

@[simp] theorem State.noteWrite_pending (s : State) (fid space : Nat) (old new : Mem) (keys : List Nat) : (s.noteWrite fid space old new keys).pending = s.pending := rfl
@[simp] theorem State.noteWrite_halt (s : State) (fid space : Nat) (old new : Mem) (keys : List Nat) : (s.noteWrite fid space old new keys).halt = s.halt := rfl
@[simp] theorem State.noteWrite_free (s : State) (fid space : Nat) (old new : Mem) (keys : List Nat) : (s.noteWrite fid space old new keys).free = s.free := rfl
@[simp] theorem State.noteWrite_pins (s : State) (fid space : Nat) (old new : Mem) (keys : List Nat) : (s.noteWrite fid space old new keys).pins = s.pins := rfl
@[simp] theorem State.noteWrite_fuses (s : State) (fid space : Nat) (old new : Mem) (keys : List Nat) : (s.noteWrite fid space old new keys).fuses = s.fuses := rfl
@[simp] theorem State.noteWrite_flash (s : State) (fid space : Nat) (old new : Mem) (keys : List Nat) : (s.noteWrite fid space old new keys).flash = s.flash := rfl
@[simp] theorem State.noteWrite_boot (s : State) (fid space : Nat) (old new : Mem) (keys : List Nat) : (s.noteWrite fid space old new keys).boot = s.boot := rfl
@[simp] theorem State.noteWrite_regs (s : State) (fid space : Nat) (old new : Mem) (keys : List Nat) : (s.noteWrite fid space old new keys).regs = s.regs := rfl
@[simp] theorem State.noteWrite_clk (s : State) (fid space : Nat) (old new : Mem) (keys : List Nat) : (s.noteWrite fid space old new keys).clk = s.clk := rfl
@[simp] theorem State.noteWrite_host (s : State) (fid space : Nat) (old new : Mem) (keys : List Nat) : (s.noteWrite fid space old new keys).host = s.host := rfl
@[simp] theorem State.noteWrite_err (s : State) (fid space : Nat) (old new : Mem) (keys : List Nat) : (s.noteWrite fid space old new keys).err = s.err := rfl
@[simp] theorem State.noteWrite_sec (s : State) (fid space : Nat) (old new : Mem) (keys : List Nat) : (s.noteWrite fid space old new keys).sec = s.sec := rfl
@[simp] theorem State.noteWrite_plan (s : State) (fid space : Nat) (old new : Mem) (keys : List Nat) : (s.noteWrite fid space old new keys).plan = s.plan := rfl
@[simp] theorem State.noteWrite_t0 (s : State) (fid space : Nat) (old new : Mem) (keys : List Nat) : (s.noteWrite fid space old new keys).t0 = s.t0 := rfl
@[simp] theorem State.noteWrite_t1 (s : State) (fid space : Nat) (old new : Mem) (keys : List Nat) : (s.noteWrite fid space old new keys).t1 = s.t1 := rfl
@[simp] theorem State.noteWrite_ing (s : State) (fid space : Nat) (old new : Mem) (keys : List Nat) : (s.noteWrite fid space old new keys).ing = s.ing := rfl
@[simp] theorem State.noteWrite_fab (s : State) (fid space : Nat) (old new : Mem) (keys : List Nat) : (s.noteWrite fid space old new keys).fab = s.fab := rfl
@[simp] theorem State.noteWrite_cel (s : State) (fid space : Nat) (old new : Mem) (keys : List Nat) : (s.noteWrite fid space old new keys).cel = s.cel := rfl

@[simp] theorem State.unqueue_pending (s : State) (mu off n : Nat) : (s.unqueue mu off n).pending = s.pending := rfl
@[simp] theorem State.unqueue_halt (s : State) (mu off n : Nat) : (s.unqueue mu off n).halt = s.halt := rfl
@[simp] theorem State.unqueue_free (s : State) (mu off n : Nat) : (s.unqueue mu off n).free = s.free := rfl
@[simp] theorem State.unqueue_pins (s : State) (mu off n : Nat) : (s.unqueue mu off n).pins = s.pins := rfl
@[simp] theorem State.unqueue_fuses (s : State) (mu off n : Nat) : (s.unqueue mu off n).fuses = s.fuses := rfl
@[simp] theorem State.unqueue_flash (s : State) (mu off n : Nat) : (s.unqueue mu off n).flash = s.flash := rfl
@[simp] theorem State.unqueue_boot (s : State) (mu off n : Nat) : (s.unqueue mu off n).boot = s.boot := rfl
@[simp] theorem State.unqueue_regs (s : State) (mu off n : Nat) : (s.unqueue mu off n).regs = s.regs := rfl
@[simp] theorem State.unqueue_clk (s : State) (mu off n : Nat) : (s.unqueue mu off n).clk = s.clk := rfl
@[simp] theorem State.unqueue_host (s : State) (mu off n : Nat) : (s.unqueue mu off n).host = s.host := rfl
@[simp] theorem State.unqueue_err (s : State) (mu off n : Nat) : (s.unqueue mu off n).err = s.err := rfl
@[simp] theorem State.unqueue_sec (s : State) (mu off n : Nat) : (s.unqueue mu off n).sec = s.sec := rfl
@[simp] theorem State.unqueue_plan (s : State) (mu off n : Nat) : (s.unqueue mu off n).plan = s.plan := rfl
@[simp] theorem State.unqueue_run (s : State) (mu off n : Nat) : (s.unqueue mu off n).run = s.run := rfl
@[simp] theorem State.unqueue_t0 (s : State) (mu off n : Nat) : (s.unqueue mu off n).t0 = s.t0 := rfl
@[simp] theorem State.unqueue_ing (s : State) (mu off n : Nat) : (s.unqueue mu off n).ing = s.ing := rfl
@[simp] theorem State.unqueue_fab (s : State) (mu off n : Nat) : (s.unqueue mu off n).fab = s.fab := rfl
@[simp] theorem State.unqueue_cel (s : State) (mu off n : Nat) : (s.unqueue mu off n).cel = s.cel := rfl

@[simp] theorem State.t1Write_pending (s : State) (mu off : Nat) (b : Bytes) : (s.t1Write mu off b).pending = s.pending := rfl
@[simp] theorem State.t1Write_halt (s : State) (mu off : Nat) (b : Bytes) : (s.t1Write mu off b).halt = s.halt := rfl
@[simp] theorem State.t1Write_free (s : State) (mu off : Nat) (b : Bytes) : (s.t1Write mu off b).free = s.free := rfl
@[simp] theorem State.t1Write_pins (s : State) (mu off : Nat) (b : Bytes) : (s.t1Write mu off b).pins = s.pins := rfl
@[simp] theorem State.t1Write_fuses (s : State) (mu off : Nat) (b : Bytes) : (s.t1Write mu off b).fuses = s.fuses := rfl
@[simp] theorem State.t1Write_flash (s : State) (mu off : Nat) (b : Bytes) : (s.t1Write mu off b).flash = s.flash := rfl
@[simp] theorem State.t1Write_boot (s : State) (mu off : Nat) (b : Bytes) : (s.t1Write mu off b).boot = s.boot := rfl
@[simp] theorem State.t1Write_regs (s : State) (mu off : Nat) (b : Bytes) : (s.t1Write mu off b).regs = s.regs := rfl
@[simp] theorem State.t1Write_clk (s : State) (mu off : Nat) (b : Bytes) : (s.t1Write mu off b).clk = s.clk := rfl
@[simp] theorem State.t1Write_host (s : State) (mu off : Nat) (b : Bytes) : (s.t1Write mu off b).host = s.host := rfl
@[simp] theorem State.t1Write_err (s : State) (mu off : Nat) (b : Bytes) : (s.t1Write mu off b).err = s.err := rfl
@[simp] theorem State.t1Write_sec (s : State) (mu off : Nat) (b : Bytes) : (s.t1Write mu off b).sec = s.sec := rfl
@[simp] theorem State.t1Write_plan (s : State) (mu off : Nat) (b : Bytes) : (s.t1Write mu off b).plan = s.plan := rfl
@[simp] theorem State.t1Write_run (s : State) (mu off : Nat) (b : Bytes) : (s.t1Write mu off b).run = s.run := rfl
@[simp] theorem State.t1Write_t0 (s : State) (mu off : Nat) (b : Bytes) : (s.t1Write mu off b).t0 = s.t0 := rfl
@[simp] theorem State.t1Write_ing (s : State) (mu off : Nat) (b : Bytes) : (s.t1Write mu off b).ing = s.ing := rfl
@[simp] theorem State.t1Write_fab (s : State) (mu off : Nat) (b : Bytes) : (s.t1Write mu off b).fab = s.fab := rfl
@[simp] theorem State.t1Write_cel (s : State) (mu off : Nat) (b : Bytes) : (s.t1Write mu off b).cel = s.cel := rfl

@[simp] theorem State.tagSpare_pending (s : State) (k : Nat) : (s.tagSpare k).pending = s.pending := rfl
@[simp] theorem State.tagSpare_halt (s : State) (k : Nat) : (s.tagSpare k).halt = s.halt := rfl
@[simp] theorem State.tagSpare_free (s : State) (k : Nat) : (s.tagSpare k).free = s.free := rfl
@[simp] theorem State.tagSpare_pins (s : State) (k : Nat) : (s.tagSpare k).pins = s.pins := rfl
@[simp] theorem State.tagSpare_fuses (s : State) (k : Nat) : (s.tagSpare k).fuses = s.fuses := rfl
@[simp] theorem State.tagSpare_flash (s : State) (k : Nat) : (s.tagSpare k).flash = s.flash := rfl
@[simp] theorem State.tagSpare_boot (s : State) (k : Nat) : (s.tagSpare k).boot = s.boot := rfl
@[simp] theorem State.tagSpare_regs (s : State) (k : Nat) : (s.tagSpare k).regs = s.regs := rfl
@[simp] theorem State.tagSpare_clk (s : State) (k : Nat) : (s.tagSpare k).clk = s.clk := rfl
@[simp] theorem State.tagSpare_host (s : State) (k : Nat) : (s.tagSpare k).host = s.host := rfl
@[simp] theorem State.tagSpare_err (s : State) (k : Nat) : (s.tagSpare k).err = s.err := rfl
@[simp] theorem State.tagSpare_sec (s : State) (k : Nat) : (s.tagSpare k).sec = s.sec := rfl
@[simp] theorem State.tagSpare_plan (s : State) (k : Nat) : (s.tagSpare k).plan = s.plan := rfl
@[simp] theorem State.tagSpare_run (s : State) (k : Nat) : (s.tagSpare k).run = s.run := rfl
@[simp] theorem State.tagSpare_t0 (s : State) (k : Nat) : (s.tagSpare k).t0 = s.t0 := rfl
@[simp] theorem State.tagSpare_ing (s : State) (k : Nat) : (s.tagSpare k).ing = s.ing := rfl
@[simp] theorem State.tagSpare_fab (s : State) (k : Nat) : (s.tagSpare k).fab = s.fab := rfl
@[simp] theorem State.tagSpare_cel (s : State) (k : Nat) : (s.tagSpare k).cel = s.cel := rfl

end Sys2Proof.Machine
end

