-- ==== Sys2Proof/Laws/Ops.lean ====
section
/-! SUPPORT. For each shared operation of the machine one lemma that says once what it can change, stated as an equation of
states; and the words of the register file under a write. -/
namespace Sys2Proof.Machine

/-! ## Words of the register file -/

theorem sGet_sPut_ne {β : Type} (d : β) (k j : Nat) (v : β) (h : j ≠ k) : ∀ m : List (Nat × β), sGet d (sPut k v m) j = sGet d m j
  | [] => by simp [sPut, sGet, h]
  | (k', v') :: m => by
    unfold sPut
    split
    · simp [sGet, h]
    · split
      · subst ‹k = k'›; simp [sGet, h]
      · simp only [sGet, sGet_sPut_ne d k j v h m]

theorem sGet_sDel_ne {β : Type} (d : β) (k j : Nat) (h : j ≠ k) : ∀ m : List (Nat × β), sGet d (sDel k m) j = sGet d m j
  | [] => rfl
  | (k', v') :: m => by
    unfold sDel
    split
    · subst ‹k = k'›; simp [sGet, h]
    · simp only [sGet, sGet_sDel_ne d k j h m]

/-- A write of one key leaves every other key as it reads, canonical or not. -/
theorem tGet_tSet_ne (m : Tab) (k j v : Nat) (h : j ≠ k) : tGet (tSet m k v) j = tGet m j := by
  unfold tGet tSet sSet
  split
  · exact sGet_sDel_ne 0 k j h m
  · exact sGet_sPut_ne 0 k j v h m

theorem wrWords_other (k : Nat) : ∀ (n : Nat) (t : Tab) (off v : Nat), (∀ i, i < n → k ≠ off + 4 * i) → tGet (wrWords t off n v) k = tGet t k
  | 0, _, _, _, _ => rfl
  | n + 1, t, off, v, h => by
    rw [wrWords, wrWords_other k n _ _ _ (fun i hi => by have := h (i + 1) (by omega); omega)]
    exact tGet_tSet_ne _ _ _ _ (h 0 (by omega))

theorem wrWords_wf : ∀ (n : Nat) (t : Tab) (off v : Nat), tabWf t = true → tabWf (wrWords t off n v) = true
  | 0, _, _, _, h => h
  | n + 1, t, off, _, h => wrWords_wf n _ _ _ (tSet_wf t off _ h)

/-- Words written read back, little end first. -/
theorem rdWords_wrWords : ∀ (n : Nat) (t : Tab) (off v : Nat), tabWf t = true → rdWords (wrWords t off n v) off n = v % 2 ^ (32 * n)
  | 0, _, _, v, _ => by simp [rdWords, Nat.mod_one]
  | n + 1, t, off, v, h => by
    have h1 : tGet (wrWords (tSet t off (v % 2 ^ 32)) (off + 4) n (v / 2 ^ 32)) off = v % 2 ^ 32 := by
      rw [wrWords_other off n _ _ _ (fun i _ => by omega), tGet_tSet t h]; simp
    rw [wrWords, rdWords, h1, rdWords_wrWords n _ _ _ (tSet_wf t off _ h)]
    rw [show 32 * (n + 1) = 32 + 32 * n by omega, Nat.pow_add, Nat.mod_mul]

/-- A field write touches the words of its field alone. -/
theorem fset_other (t : Tab) (f : Field) (v k : Nat) (h : ∀ i, i < f.words → k ≠ f.off + 4 * i) : tGet (fset t f v) k = tGet t k :=
  wrWords_other k _ _ _ _ h

theorem fset_wf (t : Tab) (f : Field) (v : Nat) (h : tabWf t = true) : tabWf (fset t f v) = true := wrWords_wf _ _ _ _ h

theorem rdWords_congr (t u : Tab) : ∀ (n off : Nat), (∀ i, i < n → tGet t (off + 4 * i) = tGet u (off + 4 * i)) → rdWords t off n = rdWords u off n
  | 0, _, _ => rfl
  | n + 1, off, h => by
    rw [rdWords, rdWords, show tGet t off = tGet u off from h 0 (by omega),
      rdWords_congr t u n (off + 4) (fun i hi => by have := h (i + 1) (by omega); rwa [show off + 4 * (i + 1) = off + 4 + 4 * i by omega] at this)]

/-- A field is read from its own words. -/
theorem fget_congr (t u : Tab) (f : Field) (h : ∀ i, i < f.words → tGet t (f.off + 4 * i) = tGet u (f.off + 4 * i)) : fget t f = fget u f := by
  unfold fget; rw [rdWords_congr t u _ _ h]

/-! ## Cluster stores and what a stop takes back -/

theorem t0Put_wf (die cl : Nat) (b : Bytes) : ∀ (m : Mem) (off : Nat), memWf m = true → memWf (t0Put m die cl off b) = true := by
  induction b with
  | nil => exact fun m off h => h
  | cons x b ih => exact fun m off h => ih _ _ (mSet_wf m _ x h)
theorem vrPut_wf (die cl r : Nat) (b : Bytes) : ∀ (m : Mem) (o : Nat), memWf m = true → memWf (vrPut m die cl r o b) = true := by
  induction b with
  | nil => exact fun m o h => h
  | cons x b ih => exact fun m o h => ih _ _ (mSet_wf m _ x h)
/-- Taking cells back keeps the canonical form of their store. -/
theorem unwrite_wf : ∀ (l : List (Nat × Byte × Byte)) (m : Mem), memWf m = true → memWf (l.foldl unwriteCell m) = true
  | [], _, h => h
  | c :: l, m, h => by
    refine unwrite_wf l _ ?_
    unfold unwriteCell
    split
    · exact mSet_wf m _ _ h
    · exact h
/-- A cell taken back is the only one that changes. -/
theorem mGet_unwriteCell (m : Mem) (c : Nat × Byte × Byte) (a : Nat) (hm : memWf m = true) (h : a ≠ c.1) : mGet (unwriteCell m c) a = mGet m a := by
  unfold unwriteCell
  split
  · rw [mGet_mSet m hm, if_neg h]
  · rfl

/-! ## Lines, vectors, events -/

/-- `s` with another part that faces the host: registers and host interface. -/
def State.facing (s t : State) : Prop := t = { s with regs := t.regs, host := t.host }

theorem State.facing_refl (s : State) : s.facing s := rfl
theorem State.facing_trans {s t u : State} (h : s.facing t) (k : t.facing u) : s.facing u := by
  unfold State.facing at *; rw [k, h]
theorem State.facing_ite {s t u : State} (c : Prop) [Decidable c] (h : s.facing t) (k : s.facing u) : s.facing (if c then t else u) := by
  split <;> assumption
theorem State.facing_foldl {α : Type} (g : State → α → State) (h : ∀ t x, State.facing t (g t x)) : ∀ (l : List α) (s : State), s.facing (l.foldl g s)
  | [], s => s.facing_refl
  | x :: l, s => State.facing_trans (h s x) (State.facing_foldl g h l _)
/-- What faces the host changes to anything else that does. -/
theorem State.facing_host (s : State) (r : Tab) (h : HostIf) : s.facing { s with regs := r, host := h } := rfl

theorem State.set_facing (s : State) (f : Field) (v : Nat) : s.facing (s.set f v) := rfl
theorem State.count_facing (s : State) (f : Field) (n : Nat) : s.facing (s.count f n) := rfl
theorem State.hostPut_facing (s : State) (a n v : Nat) : s.facing (s.hostPut a n v) := rfl
theorem State.setRing_facing (s : State) (n : Nat) (r : Ring) : s.facing (s.setRing n r) := rfl
theorem State.recorded_facing (s : State) (l : Nat) (v : Option Nat) : s.facing (s.recorded l v) := rfl
/-- Signalling a vector changes what the host sees alone (R417). -/
theorem State.signal_facing (s : State) (v : Nat) : s.facing (s.signal v) := by
  unfold State.signal; repeat' split
  all_goals rfl
theorem State.signalAll_facing (s : State) (vs : List Nat) : s.facing (s.signalAll vs) := State.facing_foldl _ State.signal_facing vs s
theorem State.putEvent_facing (s : State) (e : EvtRec) : s.facing (s.putEvent e) := by
  unfold State.putEvent
  extract_lets s1 s2
  have h : s.facing s1 := s.hostPut_facing ..
  clear_value s1
  exact State.facing_trans h (State.facing_trans (s1.facing_host s1.regs _) (State.recorded_facing _ _ _))
/-- A record that is written, or lost, changes the host interface and its counter alone (R436). -/
theorem State.writeEvent_facing (s : State) (e : EvtRec) : s.facing (s.writeEvent e) := by
  unfold State.writeEvent
  extract_lets a b s1 c d
  have ha : s.facing a := s.putEvent_facing _
  have hs : s.facing s1 := by
    simp only [s1]
    split
    · rfl
    · exact State.facing_trans ha (a.facing_host a.regs _)
  have hc : s1.facing c := s1.count_facing ..
  clear_value s1 c
  split
  · exact State.facing_trans hs (State.facing_trans hc (c.facing_host c.regs _))
  · exact State.facing_trans hs (s1.putEvent_facing e)
/-- An event changes the host interface and its counter alone (R458). -/
theorem State.emit_facing (s : State) (k d p : Nat) : s.facing (s.emit k d p) := by
  unfold State.emit
  split
  · rfl
  · extract_lets e
    split
    · exact s.writeEvent_facing e
    · rfl
theorem State.openEvents_facing (s : State) (b : Nat) : s.facing (s.openEvents b) := by
  unfold State.openEvents
  extract_lets now later
  exact State.facing_trans (t := { s with host := { s.host with evOpen := max b s.host.evOpen, evHeld := later } }) rfl
    (State.facing_foldl _ State.writeEvent_facing now _)
theorem State.flushEvents_facing (s : State) : s.facing s.flushEvents := by
  unfold State.flushEvents
  exact State.facing_trans (t := { s with host := { s.host with evOpen := max s.clk.beat s.host.evOpen, evHeld := [] } }) rfl
    (State.facing_foldl _ State.writeEvent_facing _ _)

/-- Entering a device state changes it, the HALT cause and what the host sees (R441). -/
theorem State.enter_eq (s : State) (d : DevState) (h : Nat) :
    s.enter d h = { s with dev := d, halt := h, regs := (s.enter d h).regs, host := (s.enter d h).host } := by
  unfold State.enter
  extract_lets ev p s1
  split
  · have e := State.facing_trans (s1.emit_facing Ev.state 14 p) (State.recorded_facing _ 64 none)
    rw [State.facing] at e
    rw [e]
  · rfl

/-! ## Completions -/

/-- A completion changes what the host sees alone (R434, R435). -/
theorem State.complete_facing (s : State) (n tag : Nat) (irq : Bool) (st r : Nat) : s.facing (s.complete n tag irq st r) := by
  unfold State.complete
  extract_lets q s1 s2 s3
  have h1 : s.facing s1 := s.hostPut_facing ..
  have h2 : s1.facing s2 := s1.setRing_facing ..
  have h3 : s2.facing s3 := s2.recorded_facing ..
  clear_value s1 s2 s3
  have h := State.facing_trans (State.facing_trans h1 h2) h3
  split
  · exact h
  · exact State.facing_trans h (s3.count_facing ..)
theorem State.finish_facing (s : State) (n : Nat) (d : BitVec 512) (st r : Nat) : s.facing (s.finish n d st r) := s.complete_facing ..
theorem State.finishWhere_facing (s : State) (p : ActiveCmd → Bool) (st : Nat) (r : ActiveCmd → Nat) : s.facing (s.finishWhere p st r) := by
  unfold State.finishWhere
  refine State.facing_foldl _ (fun t n => ?_) _ _
  extract_lets q gone t1
  have h : t.facing t1 := by simp only [t1]; split <;> rfl
  clear_value t1
  exact State.facing_trans h (State.facing_foldl _ (fun u c => u.finish_facing ..) _ _)

/-- Everything the start of a ring's front command can be: nothing; a refusal; or the command's own effect (R425, R426). -/
theorem State.start_cases (s : State) (n op : Nat) (dr ng : Bool) (f : BitVec 512 → State → State) :
    (s.startable n (fun o => o == op) = none ∧ s.start n op dr ng f = s)
      ∨ ∃ d, s.startable n (fun o => o == op) = some d ∧
        ((s.dev ≠ .running ∧ ¬ (dr = true ∧ s.dev = .draining) ∧ s.start n op dr ng f = (s.popCmd n).finish n d St.state 0)
          ∨ (ng = true ∧ s.plan.graph = none ∧ s.start n op dr ng f = (s.popCmd n).finish n d St.noGraph 0)
          ∨ ((s.dev = .running ∨ (dr = true ∧ s.dev = .draining)) ∧ (ng = true → s.plan.graph ≠ none) ∧ s.start n op dr ng f = f d (s.popCmd n))) := by
  unfold State.start
  cases h : s.startable n (fun o => o == op) with
  | none => exact .inl ⟨rfl, rfl⟩
  | some d =>
    refine .inr ⟨d, rfl, ?_⟩
    simp only []
    split
    · rename_i h1
      simp at h1
      refine .inl ⟨h1.1, fun h2 => ?_, rfl⟩
      rcases h1.2 with h3 | h3
      · rw [h3] at h2; cases h2.1
      · exact h3 h2.2
    · rename_i h1
      simp at h1
      split
      · rename_i h2
        simp at h2
        exact .inr (.inl ⟨h2.1, h2.2, rfl⟩)
      · rename_i h2
        simp at h2
        refine .inr (.inr ⟨?_, fun hn => ?_, rfl⟩)
        · by_cases hr : s.dev = .running
          · exact .inl hr
          · exact .inr (h1 hr)
        · have := h2 hn
          intro hg; rw [hg] at this; simp at this

/-! ## Working copies: the encoder changes memory and counters alone -/

theorem foldl_memRegs {α : Type} (g : State → α → State)
    (h : ∀ t x, ∃ r m wl, g t x = { t with regs := r, t1 := { t.t1 with mem := m, wb := wl } }) : ∀ (l : List α) (s : State),
    ∃ r m wl, l.foldl g s = { s with regs := r, t1 := { s.t1 with mem := m, wb := wl } }
  | [], s => ⟨s.regs, s.t1.mem, s.t1.wb, rfl⟩
  | x :: l, s => by
    obtain ⟨r, m, b, e⟩ := h s x
    obtain ⟨r2, m2, b2, e2⟩ := foldl_memRegs g h l (g s x)
    exact ⟨r2, m2, b2, by rw [List.foldl_cons, e2, e]⟩

theorem State.wcPut_eq (s : State) (mu base w idx code : Nat) :
    ∃ r m wl, s.wcPut mu base w idx code = { s with regs := r, t1 := { s.t1 with mem := m, wb := wl } } := by
  unfold State.wcPut; split <;> exact ⟨_, _, _, rfl⟩

theorem State.choose_eq (s : State) (q : Param) (src : Nat) (first : Bool) (i j : Nat) :
    ∃ r m wl, s.choose q src first i j = { s with regs := r, t1 := { s.t1 with mem := m, wb := wl } } := by
  unfold State.choose; simp only []
  split
  · split <;> exact ⟨_, _, _, rfl⟩
  · split
    · split <;> exact ⟨_, _, _, rfl⟩
    · exact ⟨_, _, _, rfl⟩

theorem State.evalMasters_eq (s : State) (q : Param) :
    ∃ r m wl, s.evalMasters q = { s with regs := r, t1 := { s.t1 with mem := m, wb := wl } } :=
  foldl_memRegs _ (fun t _ => foldl_memRegs _ (fun u e => by
    split
    · exact State.wcPut_eq ..
    · exact ⟨_, _, _, rfl⟩) _ t) _ s

theorem foldl_memRegs_fst {α β : Type} (g : State × β → α → State × β)
    (h : ∀ t x, ∃ r m wl, (g t x).1 = { t.1 with regs := r, t1 := { t.1.t1 with mem := m, wb := wl } }) : ∀ (l : List α) (s : State × β),
    ∃ r m wl, (l.foldl g s).1 = { s.1 with regs := r, t1 := { s.1.t1 with mem := m, wb := wl } }
  | [], s => ⟨s.1.regs, s.1.t1.mem, s.1.t1.wb, rfl⟩
  | x :: l, s => by
    obtain ⟨r, m, b, e⟩ := h s x
    obtain ⟨r2, m2, b2, e2⟩ := foldl_memRegs_fst g h l (g s x)
    exact ⟨r2, m2, b2, by rw [List.foldl_cons, e2, e]⟩

/-- A re-encode (R309) writes working copies and counters: no pair, no tag. -/
theorem State.reencode_eq (s : State) (q : Param) (gi : Nat) (reprune first : Bool) :
    ∃ r m wl, s.reencode q gi reprune first = { s with regs := r, t1 := { s.t1 with mem := m, wb := wl } } := by
  unfold State.reencode
  split
  · exact ⟨_, _, _, rfl⟩
  · extract_lets w mu src s1 mask r
    have h1 : ∃ r m wl, s1 = { s with regs := r, t1 := { s.t1 with mem := m, wb := wl } } := by
      simp only [s1]; split
      · exact foldl_memRegs _ (fun t e => State.choose_eq _ _ _ _ _ _) _ _
      · exact ⟨_, _, _, rfl⟩
    clear_value s1
    have h2 : ∃ x m wl, r.1 = { s1 with regs := x, t1 := { s1.t1 with mem := m, wb := wl } } := by
      simp only [r]
      refine foldl_memRegs_fst _ (fun t e => ?_) _ _
      split
      · split
        · split
          · exact State.wcPut_eq _ _ _ _ _ _
          · exact ⟨_, _, _, rfl⟩
        · exact ⟨_, _, _, rfl⟩
      · exact State.wcPut_eq _ _ _ _ _ _
    obtain ⟨a, b, f1, e1⟩ := h1
    obtain ⟨c, d, f2, e2⟩ := h2
    exact ⟨_, d, f2, by rw [e2, e1]; rfl⟩

theorem State.evalEncode_eq (s : State) (q : Param) (p : Mem) :
    ∃ r m wl, s.evalEncode q p = { s with regs := r, t1 := { s.t1 with mem := m, wb := wl } } := by
  unfold State.evalEncode
  extract_lets t0 u w
  have h : ∃ r m wl, w = { u with regs := r, t1 := { u.t1 with mem := m, wb := wl } } := by
    simp only [w]; split
    · exact State.evalMasters_eq ..
    · exact foldl_memRegs _ (fun z gi => State.reencode_eq ..) _ _
  obtain ⟨r, m, b, e⟩ := h
  clear_value w
  subst e
  exact ⟨r, m, b, rfl⟩

theorem State.locWrite_eq (s : State) (k loc off : Nat) (b : Bytes) :
    ∃ m wl, s.locWrite k loc off b = { s with t1 := { s.t1 with pair := m, wb := wl } } := ⟨_, _, rfl⟩

theorem foldl_pair {α : Type} (g : State → α → State) (h : ∀ t x, ∃ m wl, g t x = { t with t1 := { t.t1 with pair := m, wb := wl } }) :
    ∀ (l : List α) (s : State), ∃ m wl, l.foldl g s = { s with t1 := { s.t1 with pair := m, wb := wl } }
  | [], s => ⟨s.t1.pair, s.t1.wb, rfl⟩
  | x :: l, s => by
    obtain ⟨m, b, e⟩ := h s x
    obtain ⟨m2, b2, e2⟩ := foldl_pair g h l (g s x)
    exact ⟨m2, b2, by rw [List.foldl_cons, e2, e]⟩

theorem State.evalScales_eq (s : State) (x : Snap) (o p : Placement) :
    ∃ m wl, s.evalScales x o p = { s with t1 := { s.t1 with pair := m, wb := wl } } :=
  foldl_pair _ (fun _ _ => State.locWrite_eq ..) _ s

theorem State.evalParam_eq (x : Snap) (y : Graph) (s : State) (p : Placement) :
    ∃ r m wl c, State.evalParam x y s p = { s with regs := r, t1 := { s.t1 with mem := m, wb := wl, pair := c } } := by
  unfold State.evalParam
  split
  · split
    · exact ⟨_, _, _, _, rfl⟩
    · split
      · split <;> exact ⟨_, _, _, _, rfl⟩
      · simp only []
        obtain ⟨c, b1, e⟩ := State.evalScales_eq (s.evalEncode _ _) x _ p
        rw [e]
        obtain ⟨r, m, b2, e2⟩ := State.evalEncode_eq s _ _
        rw [e2]
        exact ⟨_, _, _, _, rfl⟩
  · exact ⟨_, _, _, _, rfl⟩

/-- What an evaluation graph takes from its source (R262): codebooks, working copies, scales; counters may count. -/
theorem State.loadEval_eq (s : State) (src : Option Snap) :
    ∃ r m wl c g, s.loadEval src = { s with regs := r, t1 := { s.t1 with mem := m, wb := wl, pair := c }, plan := { s.plan with graph := g } } := by
  unfold State.loadEval
  split
  · exact ⟨_, _, _, _, _, rfl⟩
  · split
    · exact ⟨_, _, _, _, _, rfl⟩
    · rename_i x _ g h
      suffices ∀ (l : List Placement) (t : State), ∃ r m wl c, l.foldl (State.evalParam x (readGraph x.graph x.maskImg x.places)) t
          = { t with regs := r, t1 := { t.t1 with mem := m, wb := wl, pair := c } } by
        obtain ⟨r, m, b, c, e⟩ := this (g.takeBooks _).places { s with plan := { s.plan with graph := some (g.takeBooks _) } }
        exact ⟨r, m, b, c, _, e⟩
      intro l
      induction l with
      | nil => intro t; exact ⟨_, _, _, _, rfl⟩
      | cons p l ih =>
        intro t
        obtain ⟨r, m, b, c, e⟩ := State.evalParam_eq x (readGraph x.graph x.maskImg x.places) t p
        obtain ⟨r2, m2, b2, c2, e2⟩ := ih (State.evalParam x (readGraph x.graph x.maskImg x.places) t p)
        exact ⟨r2, m2, b2, c2, by rw [List.foldl_cons, e2, e]⟩

end Sys2Proof.Machine
end

