-- ==== Sys2Proof/WellFormed.lean ====
section
/-! DEFINITION. Commands whose operands the module can meet: rings, ports, dies, channels and lines that exist by number,
packets of 188 bytes, aligned registers accesses, fields that fit. The meanings are total: an ill-formed command is one
that cannot happen, and says so here. -/
namespace Sys2Proof

/-- A die code of Table 16.3. -/
def dieOk (d : Nat) : Bool := decide (d < 15)
/-- A source of Table 16.3: die, unit, index. -/
def srcOk (s : Source) : Bool := dieOk s.die && decide (s.unit < 11) && decide (s.index < 1024)
/-- An error of Table 16.2: class in the upper byte, 1 to 4. -/
def errOk (e : ErrIn) : Bool := srcOk e.src && decide (1 ≤ e.code / 256) && decide (e.code / 256 ≤ 4) && decide (e.detail < 2 ^ 32)
def testOk (t : BootTest) : Bool := t.fail.all errOk
def ringOk (r : Nat) : Bool := decide (r < 64)
def portOk (p : Nat) : Bool := decide (p < 18)
def muOk (m : Nat) : Bool := decide (m < 8)
def chOk (c : Nat) : Bool := decide (c < 24)
def reqOk (r : Nat) : Bool := decide (r < 7)
def lineOk : HostLine → Bool
  | .doorbell r t c => ringOk r && decide (t < 2 ^ 32) && decide (c < 2 ^ 32)
  | .consumer e p => decide (e < 2 ^ 32) && decide (p < 2 ^ 32)
def markOk (m : Marker) : Bool :=
  decide (m.beat < 2 ^ 48) && decide (m.cause < 256) && decide (m.step < 2 ^ 32) && decide (m.exp < 256) && decide (m.clean < 65536)

/-- The operands of a command are ones the module can meet. -/
def Instr.wf : Instr → Bool
  | .powerOnReset _ _ t => testOk t
  | .bootComplete _ => true
  | .t1ClearDone _ => true
  | .pwrgdFall _ => true
  | .coldReset _ t => testOk t
  | .perstRelease _ _ w sp => decide (w < 3) && decide (sp < 2)
  | .hubResetCold _ t => testOk t
  | .hubResetWarm _ t => testOk t
  | .pldmReset _ t => testOk t
  | .domainReset _ t => testOk t
  | .hostBootImage _ _ t => testOk t
  | .inputVoltageFault _ _ _ => true
  | .thermalShutdown _ _ => true
  | .inputPowerOverTdp _ _ _ => true
  | .refclk156Loss _ => true
  | .hostLinkLost _ _ => true
  | .hostLinkRetrain _ w sp => decide (w < 3) && decide (sp < 2)
  | .featAcceptWrite _ k _ => decide (k < 8)
  | .start _ _ => true
  | .secArbCommit _ => true
  | .debugUnlock _ => true
  | .starveFlagClear _ mu _ n => decide (mu ≤ 8) && decide (n < 128)
  | .vecStickyClear _ cd _ n => decide (cd ≤ 4) && decide (n < 4)
  | .errStatusWrite _ _ => true
  | .errLogHeadWrite _ _ => true
  | .planCfgWrite _ _ _ => true
  | .lrMulWrite _ _ => true
  | .arbRankWrite _ mu _ => decide (mu ≤ 8)
  | .celRegWrite _ _ _ => true
  | .registerWrite _ off size _ => decide (off < 0x4000000) && decide (size ≤ 64)
  | .hostLineWrite _ l => lineOk l
  | .hostLinePoll _ ls => ls.all lineOk
  | .descriptorFetch _ r _ => ringOk r
  | .badOpcode _ r => ringOk r
  | .nop _ r => ringOk r
  | .loadGraph _ r _ _ _ _ => ringOk r
  | .loadCard _ r _ _ => ringOk r
  | .kill _ r => ringOk r
  | .scrubDone _ z => z.all srcOk
  | .restore _ r o _ => ringOk r && o.all fun m => decide (m.1 < 2 ^ 48) && decide (m.2 < 256)
  | .restoreDone _ => true
  | .ship _ r => ringOk r
  | .stop _ r => ringOk r
  | .drainToHalt _ => true
  | .setBeat _ r => ringOk r
  | .setCap _ r => ringOk r
  | .setPhrase _ r => ringOk r
  | .replan _ r => ringOk r
  | .syncSignal _ r => ringOk r
  | .syncRead _ r => ringOk r
  | .syncArm _ r => ringOk r
  | .ingestStream _ r _ => ringOk r
  | .ingestMb _ r => ringOk r
  | .ingPosRead _ r => ringOk r
  | .paramWrite _ r _ => ringOk r
  | .paramRead _ r => ringOk r
  | .goResponse _ l => decide (l < 65)
  | .msixModerationExpiry _ v => decide (v < 2048)
  | .cxlMemAccess _ _ l _ => decide (l < 2 ^ 46)
  | .hostReadError _ w => match w with
    | .command r t => ringOk r && decide (t < 2 ^ 32)
    | .t2Figure f => decide (f < 2 ^ 32)
  | .spdmRequest _ _ => true
  | .pldmRequest _ _ => true
  | .pldmFirmwareUpdate _ _ => true
  | .beatEdge m => decide (m.phaseUs.length = 8)
  | .seatReady _ c _ _ => decide (4 ≤ c.length)
  | .figureStart _ f _ => decide (f < 2 ^ 32)
  | .figureComplete _ f => decide (f < 2 ^ 32)
  | .vatWaitResume _ d c v => decide (d < 4) && decide (c < 1024) && decide (v < 64)
  | .vatExpectLoad _ => true
  | .slotSel _ d c => decide (d < 4) && decide (c < 1024)
  | .syncSetAt _ d o => decide (d < 4) && decide (o < 8192)
  | .rindStart _ _ => true
  | .bankPowerDown _ _ w r => w.all (fun f => decide (f < 2 ^ 32)) && r.all fun f => decide (f < 2 ^ 32)
  | .commitCheck _ => true
  | .eventBeatClose _ => true
  | .errorDetected _ e => errOk e
  | .errorLogged _ => true
  | .errorHandling _ => true
  | .errorHandled _ => true
  | .tsPacket _ p => decide (p.length = 188)
  | .clipDraw _ => true
  | .linkUp _ p w => portOk p && decide (w < 3)
  | .helloReceived _ p _ => portOk p
  | .leaderElected _ => true
  | .linkRetrain _ p w => portOk p && decide (w < 3)
  | .linkDown _ p => portOk p
  | .memberReceived _ m => match m with
    | .present a n => decide (a < 4096) && decide (n < 2 ^ 64)
    | .linkLoss a p b => decide (a < 4096) && portOk p && decide (b < 4096)
    | .departed a => decide (a < 4096)
  | .leaderLost _ => true
  | .routeReceived _ l f es => decide (l < 2) && decide (f + es.length ≤ 4096) && es.all fun e => decide (e < 256)
  | .delayMeasure _ p _ => portOk p
  | .markerReceived _ p m _ => portOk p && markOk m
  | .beatOffsetLimit _ => true
  | .flitReceived _ p _ _ => portOk p
  | .flitCrcFail _ p => portOk p
  | .linkControlFlit _ p _ _ cs => portOk p && decide (cs.length = 4)
  | .linkControlSend _ p => portOk p
  | .accumulateWrite _ d mu => dieOk d && muOk mu
  | .slotArbitration _ mu c rs u => muOk mu && chOk c && rs.all reqOk && (match u with
    | .catchUp f => decide (f < 2 ^ 32)
    | .earmark r => reqOk r
    | .open_ => true)
  | .arbStarve _ mu c r => muOk mu && chOk c && reqOk r
  | .mr4Report _ mu _ _ => muOk mu
  | .extraRefresh _ mu c _ _ => muOk mu && chOk c
  | .t1InlineEcc _ mu c l _ _ => muOk mu && decide (l < 2 ^ 40) && decide ((if l < 2 ^ 32 then l else l - 2 ^ 32) / 16 % 24 = c)
  | .patrolScrub _ mu l _ => muOk mu && decide (l < 2 ^ 40)
  | .scratchpadEcc _ d c l _ _ => decide (d < 4) && decide (c < 1024) && decide (l < 32768)
  | .snapDone _ => true
  | .snapDomain _ => true
  | .nandProgramFail _ => true
  | .mirrorDone _ => true
  | .dieToDieRetry _ d _ l _ => dieOk d && decide (l < 2 ^ 32)
  | .shipDone _ m => decide (m < 2 ^ 48)
  | .configurationRequest _ => true

end Sys2Proof
end

