-- ==== Sys2Proof/Laws/PerInstr.lean ====
section
/-! SUPPORT. The family of laws made per command: a well-formed command names only rings and ports that exist (R420, R352). -/
namespace Sys2Proof

/-- The command ring a command names. -/
def Instr.ring? : Instr → Option Nat
  | .descriptorFetch _ n _ => some n
  | .badOpcode _ n => some n
  | .nop _ n => some n
  | .loadGraph _ n _ _ _ _ => some n
  | .loadCard _ n _ _ => some n
  | .kill _ n => some n
  | .restore _ n _ _ => some n
  | .ship _ n => some n
  | .stop _ n => some n
  | .setBeat _ n => some n
  | .setCap _ n => some n
  | .setPhrase _ n => some n
  | .replan _ n => some n
  | .syncSignal _ n => some n
  | .syncRead _ n => some n
  | .syncArm _ n => some n
  | .ingestStream _ n _ => some n
  | .ingestMb _ n => some n
  | .ingPosRead _ n => some n
  | .paramWrite _ n _ => some n
  | .paramRead _ n => some n
  | .powerOnReset _ _ _ | .bootComplete _ | .t1ClearDone _ | .pwrgdFall _ | .coldReset _ _ | .perstRelease _ _ _ _
  | .hubResetCold _ _ | .hubResetWarm _ _ | .pldmReset _ _ | .domainReset _ _ | .hostBootImage _ _ _
  | .inputVoltageFault _ _ _ | .thermalShutdown _ _ | .inputPowerOverTdp _ _ _ | .refclk156Loss _ | .hostLinkLost _ _
  | .hostLinkRetrain _ _ _ | .featAcceptWrite _ _ _ | .start _ _ | .secArbCommit _ | .debugUnlock _
  | .starveFlagClear _ _ _ _ | .vecStickyClear _ _ _ _ | .errStatusWrite _ _ | .errLogHeadWrite _ _
  | .planCfgWrite _ _ _ | .lrMulWrite _ _ | .arbRankWrite _ _ _ | .celRegWrite _ _ _ | .registerWrite _ _ _ _
  | .hostLineWrite _ _ | .hostLinePoll _ _ | .scrubDone _ _ | .restoreDone _ | .drainToHalt _ | .goResponse _ _
  | .msixModerationExpiry _ _ | .cxlMemAccess _ _ _ _ | .hostReadError _ _ | .spdmRequest _ _ | .pldmRequest _ _
  | .pldmFirmwareUpdate _ _ | .beatEdge _ | .seatReady _ _ _ _ | .figureStart _ _ _ | .figureComplete _ _
  | .vatWaitResume _ _ _ _ | .vatExpectLoad _ | .slotSel _ _ _ | .syncSetAt _ _ _ | .rindStart _ _
  | .bankPowerDown _ _ _ _ | .commitCheck _ | .eventBeatClose _ | .errorDetected _ _ | .errorLogged _
  | .errorHandling _ | .errorHandled _ | .tsPacket _ _ | .clipDraw _ | .linkUp _ _ _ | .helloReceived _ _ _
  | .leaderElected _ | .linkRetrain _ _ _ | .linkDown _ _ | .memberReceived _ _ | .leaderLost _
  | .routeReceived _ _ _ _ | .delayMeasure _ _ _ | .markerReceived _ _ _ _ | .beatOffsetLimit _
  | .flitReceived _ _ _ _ | .flitCrcFail _ _ | .linkControlFlit _ _ _ _ _ | .linkControlSend _ _
  | .accumulateWrite _ _ _ | .slotArbitration _ _ _ _ _ | .arbStarve _ _ _ _ | .mr4Report _ _ _ _
  | .extraRefresh _ _ _ _ _ | .t1InlineEcc _ _ _ _ _ _ | .patrolScrub _ _ _ _ | .scratchpadEcc _ _ _ _ _ _
  | .snapDone _ | .snapDomain _ | .nandProgramFail _ | .mirrorDone _ | .dieToDieRetry _ _ _ _ _ | .shipDone _ _
  | .configurationRequest _ => none

/-- The fabric or twin port a command names (dies have ports of their own for die-to-die links, Table 16.3). -/
def Instr.port? : Instr → Option Nat
  | .linkUp _ n _ => some n
  | .helloReceived _ n _ => some n
  | .linkRetrain _ n _ => some n
  | .linkDown _ n => some n
  | .delayMeasure _ n _ => some n
  | .markerReceived _ n _ _ => some n
  | .flitReceived _ n _ _ => some n
  | .flitCrcFail _ n => some n
  | .linkControlFlit _ n _ _ _ => some n
  | .linkControlSend _ n => some n
  | .powerOnReset _ _ _ | .bootComplete _ | .t1ClearDone _ | .pwrgdFall _ | .coldReset _ _ | .perstRelease _ _ _ _
  | .hubResetCold _ _ | .hubResetWarm _ _ | .pldmReset _ _ | .domainReset _ _ | .hostBootImage _ _ _
  | .inputVoltageFault _ _ _ | .thermalShutdown _ _ | .inputPowerOverTdp _ _ _ | .refclk156Loss _ | .hostLinkLost _ _
  | .hostLinkRetrain _ _ _ | .featAcceptWrite _ _ _ | .start _ _ | .secArbCommit _ | .debugUnlock _
  | .starveFlagClear _ _ _ _ | .vecStickyClear _ _ _ _ | .errStatusWrite _ _ | .errLogHeadWrite _ _
  | .planCfgWrite _ _ _ | .lrMulWrite _ _ | .arbRankWrite _ _ _ | .celRegWrite _ _ _ | .registerWrite _ _ _ _
  | .hostLineWrite _ _ | .hostLinePoll _ _ | .descriptorFetch _ _ _ | .badOpcode _ _ | .nop _ _
  | .loadGraph _ _ _ _ _ _ | .loadCard _ _ _ _ | .kill _ _ | .scrubDone _ _ | .restore _ _ _ _ | .restoreDone _
  | .ship _ _ | .stop _ _ | .drainToHalt _ | .setBeat _ _ | .setCap _ _ | .setPhrase _ _ | .replan _ _
  | .syncSignal _ _ | .syncRead _ _ | .syncArm _ _ | .ingestStream _ _ _ | .ingestMb _ _ | .ingPosRead _ _
  | .paramWrite _ _ _ | .paramRead _ _ | .goResponse _ _ | .msixModerationExpiry _ _ | .cxlMemAccess _ _ _ _
  | .hostReadError _ _ | .spdmRequest _ _ | .pldmRequest _ _ | .pldmFirmwareUpdate _ _ | .beatEdge _
  | .seatReady _ _ _ _ | .figureStart _ _ _ | .figureComplete _ _ | .vatWaitResume _ _ _ _ | .vatExpectLoad _
  | .slotSel _ _ _ | .syncSetAt _ _ _ | .rindStart _ _ | .bankPowerDown _ _ _ _ | .commitCheck _ | .eventBeatClose _
  | .errorDetected _ _ | .errorLogged _ | .errorHandling _ | .errorHandled _ | .tsPacket _ _ | .clipDraw _
  | .leaderElected _ | .memberReceived _ _ | .leaderLost _ | .routeReceived _ _ _ _ | .beatOffsetLimit _
  | .accumulateWrite _ _ _ | .slotArbitration _ _ _ _ _ | .arbStarve _ _ _ _ | .mr4Report _ _ _ _
  | .extraRefresh _ _ _ _ _ | .t1InlineEcc _ _ _ _ _ _ | .patrolScrub _ _ _ _ | .scratchpadEcc _ _ _ _ _ _
  | .snapDone _ | .snapDomain _ | .nandProgramFail _ | .mirrorDone _ | .dieToDieRetry _ _ _ _ _ | .shipDone _ _
  | .configurationRequest _ => none

end Sys2Proof

namespace Sys2Proof.Laws.Wf

/-- A well-formed command names a ring below 64 and a port below 18, if it names one at all. -/
def Statement (i : Instr) : Prop :=
  i.wf = true → (∀ n, i.ring? = some n → n < 64) ∧ (∀ p, i.port? = some p → p < 18)

/-- A command that names neither. -/
theorem of_none {i : Instr} (h1 : i.ring? = none) (h2 : i.port? = none) : Statement i :=
  fun _ => ⟨fun n h => (by rw [h1] at h; cases h), fun p h => (by rw [h2] at h; cases h)⟩
/-- A command whose well-formedness says that its ring exists. -/
theorem of_ring {i : Instr} (r : Nat) (h1 : i.ring? = some r) (h2 : i.port? = none) (h : i.wf = true → ringOk r = true) : Statement i :=
  fun w => ⟨fun n e => by rw [h1] at e; cases e; exact of_decide_eq_true (h w), fun p e => (by rw [h2] at e; cases e)⟩
/-- A command whose well-formedness says that its port exists. -/
theorem of_port {i : Instr} (q : Nat) (h1 : i.ring? = none) (h2 : i.port? = some q) (h : i.wf = true → portOk q = true) : Statement i :=
  fun w => ⟨fun n e => (by rw [h1] at e; cases e), fun p e => by rw [h2] at e; cases e; exact of_decide_eq_true (h w)⟩
/-- The left of two checks holds. -/
theorem left {a b : Bool} (h : (a && b) = true) : a = true := ((Bool.and_eq_true a b).mp h).1

theorem powerOnReset (cyc : Nat) (straps : BitVec 16) (test : BootTest) : Statement (.powerOnReset cyc straps test) := of_none rfl rfl
theorem bootComplete (cyc : Nat) : Statement (.bootComplete cyc) := of_none rfl rfl
theorem t1ClearDone (cyc : Nat) : Statement (.t1ClearDone cyc) := of_none rfl rfl
theorem pwrgdFall (cyc : Nat) : Statement (.pwrgdFall cyc) := of_none rfl rfl
theorem coldReset (cyc : Nat) (test : BootTest) : Statement (.coldReset cyc test) := of_none rfl rfl
theorem perstRelease (cyc : Nat) (cxl : Bool) (width speed : Nat) : Statement (.perstRelease cyc cxl width speed) := of_none rfl rfl
theorem hubResetCold (cyc : Nat) (test : BootTest) : Statement (.hubResetCold cyc test) := of_none rfl rfl
theorem hubResetWarm (cyc : Nat) (test : BootTest) : Statement (.hubResetWarm cyc test) := of_none rfl rfl
theorem pldmReset (cyc : Nat) (test : BootTest) : Statement (.pldmReset cyc test) := of_none rfl rfl
theorem domainReset (cyc : Nat) (test : BootTest) : Statement (.domainReset cyc test) := of_none rfl rfl
theorem hostBootImage (cyc : Nat) (image : Bytes) (test : BootTest) : Statement (.hostBootImage cyc image test) := of_none rfl rfl
theorem inputVoltageFault (cyc : Nat) (mv ns : Nat) : Statement (.inputVoltageFault cyc mv ns) := of_none rfl rfl
theorem thermalShutdown (cyc : Nat) (tempC : Nat) : Statement (.thermalShutdown cyc tempC) := of_none rfl rfl
theorem inputPowerOverTdp (cyc : Nat) (watts us : Nat) : Statement (.inputPowerOverTdp cyc watts us) := of_none rfl rfl
theorem refclk156Loss (cyc : Nat) : Statement (.refclk156Loss cyc) := of_none rfl rfl
theorem hostLinkLost (cyc : Nat) (recovered : Bool) : Statement (.hostLinkLost cyc recovered) := of_none rfl rfl
theorem hostLinkRetrain (cyc : Nat) (width speed : Nat) : Statement (.hostLinkRetrain cyc width speed) := of_none rfl rfl
theorem featAcceptWrite (cyc : Nat) (k : Nat) (v : Word32) : Statement (.featAcceptWrite cyc k v) := of_none rfl rfl
theorem start (cyc : Nat) (go : Bool) : Statement (.start cyc go) := of_none rfl rfl
theorem secArbCommit (cyc : Nat) : Statement (.secArbCommit cyc) := of_none rfl rfl
theorem debugUnlock (cyc : Nat) : Statement (.debugUnlock cyc) := of_none rfl rfl
theorem starveFlagClear (cyc : Nat) (mu : Nat) (v : Word32) (setNow : Nat) : Statement (.starveFlagClear cyc mu v setNow) := of_none rfl rfl
theorem vecStickyClear (cyc : Nat) (cd : Nat) (v : Word32) (setNow : Nat) : Statement (.vecStickyClear cyc cd v setNow) := of_none rfl rfl
theorem errStatusWrite (cyc : Nat) (v : Word32) : Statement (.errStatusWrite cyc v) := of_none rfl rfl
theorem errLogHeadWrite (cyc : Nat) (v : Word32) : Statement (.errLogHeadWrite cyc v) := of_none rfl rfl
theorem planCfgWrite (cyc : Nat) (margin : Bool) (v : Word32) : Statement (.planCfgWrite cyc margin v) := of_none rfl rfl
theorem lrMulWrite (cyc : Nat) (v : Word32) : Statement (.lrMulWrite cyc v) := of_none rfl rfl
theorem arbRankWrite (cyc : Nat) (mu : Nat) (v : Word32) : Statement (.arbRankWrite cyc mu v) := of_none rfl rfl
theorem celRegWrite (cyc : Nat) (ring : Bool) (v : Word32) : Statement (.celRegWrite cyc ring v) := of_none rfl rfl
theorem registerWrite (cyc : Nat) (off size : Nat) (v : Word64) : Statement (.registerWrite cyc off size v) := of_none rfl rfl
theorem hostLineWrite (cyc : Nat) (line : HostLine) : Statement (.hostLineWrite cyc line) := of_none rfl rfl
theorem hostLinePoll (cyc : Nat) (lines : List HostLine) : Statement (.hostLinePoll cyc lines) := of_none rfl rfl
theorem descriptorFetch (cyc : Nat) (ring : Nat) (desc : BitVec 512) : Statement (.descriptorFetch cyc ring desc) :=
  of_ring ring rfl rfl id
theorem badOpcode (cyc : Nat) (ring : Nat) : Statement (.badOpcode cyc ring) :=
  of_ring ring rfl rfl id
theorem nop (cyc : Nat) (ring : Nat) : Statement (.nop cyc ring) :=
  of_ring ring rfl rfl id
theorem loadGraph (cyc : Nat) (ring : Nat) (image mask : Bytes) (places : List Placement) (src : Option Snap) : Statement (.loadGraph cyc ring image mask places src) :=
  of_ring ring rfl rfl id
theorem loadCard (cyc : Nat) (ring : Nat) (card : CardImage) (side : CardSide) : Statement (.loadCard cyc ring card side) :=
  of_ring ring rfl rfl id
theorem kill (cyc : Nat) (ring : Nat) : Statement (.kill cyc ring) :=
  of_ring ring rfl rfl id
theorem scrubDone (cyc : Nat) (nonZero : Option Source) : Statement (.scrubDone cyc nonZero) := of_none rfl rfl
theorem restore (cyc : Nat) (ring : Nat) (others : List (Nat × Nat)) (twin : List Snap) : Statement (.restore cyc ring others twin) :=
  of_ring ring rfl rfl left
theorem restoreDone (cyc : Nat) : Statement (.restoreDone cyc) := of_none rfl rfl
theorem ship (cyc : Nat) (ring : Nat) : Statement (.ship cyc ring) :=
  of_ring ring rfl rfl id
theorem stop (cyc : Nat) (ring : Nat) : Statement (.stop cyc ring) :=
  of_ring ring rfl rfl id
theorem drainToHalt (cyc : Nat) : Statement (.drainToHalt cyc) := of_none rfl rfl
theorem setBeat (cyc : Nat) (ring : Nat) : Statement (.setBeat cyc ring) :=
  of_ring ring rfl rfl id
theorem setCap (cyc : Nat) (ring : Nat) : Statement (.setCap cyc ring) :=
  of_ring ring rfl rfl id
theorem setPhrase (cyc : Nat) (ring : Nat) : Statement (.setPhrase cyc ring) :=
  of_ring ring rfl rfl id
theorem replan (cyc : Nat) (ring : Nat) : Statement (.replan cyc ring) :=
  of_ring ring rfl rfl id
theorem syncSignal (cyc : Nat) (ring : Nat) : Statement (.syncSignal cyc ring) :=
  of_ring ring rfl rfl id
theorem syncRead (cyc : Nat) (ring : Nat) : Statement (.syncRead cyc ring) :=
  of_ring ring rfl rfl id
theorem syncArm (cyc : Nat) (ring : Nat) : Statement (.syncArm cyc ring) :=
  of_ring ring rfl rfl id
theorem ingestStream (cyc : Nat) (ring : Nat) (sd : BitVec 512) : Statement (.ingestStream cyc ring sd) :=
  of_ring ring rfl rfl id
theorem ingestMb (cyc : Nat) (ring : Nat) : Statement (.ingestMb cyc ring) :=
  of_ring ring rfl rfl id
theorem ingPosRead (cyc : Nat) (ring : Nat) : Statement (.ingPosRead cyc ring) :=
  of_ring ring rfl rfl id
theorem paramWrite (cyc : Nat) (ring : Nat) (src : Bytes) : Statement (.paramWrite cyc ring src) :=
  of_ring ring rfl rfl id
theorem paramRead (cyc : Nat) (ring : Nat) : Statement (.paramRead cyc ring) :=
  of_ring ring rfl rfl id
theorem goResponse (cyc : Nat) (line : Nat) : Statement (.goResponse cyc line) := of_none rfl rfl
theorem msixModerationExpiry (cyc : Nat) (vec : Nat) : Statement (.msixModerationExpiry cyc vec) := of_none rfl rfl
theorem cxlMemAccess (cyc : Nat) (write : Bool) (line : Nat) (data : BitVec 512) : Statement (.cxlMemAccess cyc write line data) := of_none rfl rfl
theorem hostReadError (cyc : Nat) (what : HostRead) : Statement (.hostReadError cyc what) := of_none rfl rfl
theorem spdmRequest (cyc : Nat) (req : SpdmReq) : Statement (.spdmRequest cyc req) := of_none rfl rfl
theorem pldmRequest (cyc : Nat) (req : PldmReq) : Statement (.pldmRequest cyc req) := of_none rfl rfl
theorem pldmFirmwareUpdate (cyc : Nat) (op : PldmFw) : Statement (.pldmFirmwareUpdate cyc op) := of_none rfl rfl
theorem beatEdge (m : EdgeMeas) : Statement (.beatEdge m) := of_none rfl rfl
theorem seatReady (cyc : Nat) (card : CardImage) (side : CardSide) (beatsNeeded : Nat) : Statement (.seatReady cyc card side beatsNeeded) := of_none rfl rfl
theorem figureStart (cyc : Nat) (fid : Nat) (env : FigEnv) : Statement (.figureStart cyc fid env) := of_none rfl rfl
theorem figureComplete (cyc : Nat) (fid : Nat) : Statement (.figureComplete cyc fid) := of_none rfl rfl
theorem vatWaitResume (cyc : Nat) (die cluster vat : Nat) : Statement (.vatWaitResume cyc die cluster vat) := of_none rfl rfl
theorem vatExpectLoad (cyc : Nat) : Statement (.vatExpectLoad cyc) := of_none rfl rfl
theorem slotSel (cyc : Nat) (die cluster : Nat) : Statement (.slotSel cyc die cluster) := of_none rfl rfl
theorem syncSetAt (cyc : Nat) (die obj : Nat) : Statement (.syncSetAt cyc die obj) := of_none rfl rfl
theorem rindStart (cyc : Nat) (inFlight : List Nat) : Statement (.rindStart cyc inFlight) := of_none rfl rfl
theorem bankPowerDown (cyc : Nat) (bank : Nat) (writeFid readFid : Option Nat) : Statement (.bankPowerDown cyc bank writeFid readFid) := of_none rfl rfl
theorem commitCheck (cyc : Nat) : Statement (.commitCheck cyc) := of_none rfl rfl
theorem eventBeatClose (cyc : Nat) : Statement (.eventBeatClose cyc) := of_none rfl rfl
theorem errorDetected (cyc : Nat) (e : ErrIn) : Statement (.errorDetected cyc e) := of_none rfl rfl
theorem errorLogged (cyc : Nat) : Statement (.errorLogged cyc) := of_none rfl rfl
theorem errorHandling (cyc : Nat) : Statement (.errorHandling cyc) := of_none rfl rfl
theorem errorHandled (cyc : Nat) : Statement (.errorHandled cyc) := of_none rfl rfl
theorem tsPacket (cyc : Nat) (pkt : Bytes) : Statement (.tsPacket cyc pkt) := of_none rfl rfl
theorem clipDraw (cyc : Nat) : Statement (.clipDraw cyc) := of_none rfl rfl
theorem linkUp (cyc : Nat) (port width : Nat) : Statement (.linkUp cyc port width) :=
  of_port port rfl rfl left
theorem helloReceived (cyc : Nat) (port : Nat) (payload : BitVec 896) : Statement (.helloReceived cyc port payload) :=
  of_port port rfl rfl id
theorem leaderElected (cyc : Nat) : Statement (.leaderElected cyc) := of_none rfl rfl
theorem linkRetrain (cyc : Nat) (port width : Nat) : Statement (.linkRetrain cyc port width) :=
  of_port port rfl rfl left
theorem linkDown (cyc : Nat) (port : Nat) : Statement (.linkDown cyc port) :=
  of_port port rfl rfl id
theorem memberReceived (cyc : Nat) (msg : MemberMsg) : Statement (.memberReceived cyc msg) := of_none rfl rfl
theorem leaderLost (cyc : Nat) : Statement (.leaderLost cyc) := of_none rfl rfl
theorem routeReceived (cyc : Nat) (ld first : Nat) (entries : List Nat) : Statement (.routeReceived cyc ld first entries) := of_none rfl rfl
theorem delayMeasure (cyc : Nat) (port roundTripQns : Nat) : Statement (.delayMeasure cyc port roundTripQns) :=
  of_port port rfl rfl id
theorem markerReceived (cyc : Nat) (port : Nat) (mk : Marker) (offsetQns : Int) : Statement (.markerReceived cyc port mk offsetQns) :=
  of_port port rfl rfl left
theorem beatOffsetLimit (cyc : Nat) : Statement (.beatOffsetLimit cyc) := of_none rfl rfl
theorem flitReceived (cyc : Nat) (port : Nat) (flit : Flit) (trailer : Word32) : Statement (.flitReceived cyc port flit trailer) :=
  of_port port rfl rfl id
theorem flitCrcFail (cyc : Nat) (port : Nat) : Statement (.flitCrcFail cyc port) :=
  of_port port rfl rfl id
theorem linkControlFlit (cyc : Nat) (port lastGood : Nat) (nak : Bool) (credits : List Nat) : Statement (.linkControlFlit cyc port lastGood nak credits) :=
  of_port port rfl rfl left
theorem linkControlSend (cyc : Nat) (port : Nat) : Statement (.linkControlSend cyc port) :=
  of_port port rfl rfl id
theorem accumulateWrite (cyc : Nat) (src mu : Nat) : Statement (.accumulateWrite cyc src mu) := of_none rfl rfl
theorem slotArbitration (cyc : Nat) (mu ch : Nat) (requests : List Nat) (slot : SlotUse) : Statement (.slotArbitration cyc mu ch requests slot) := of_none rfl rfl
theorem arbStarve (cyc : Nat) (mu ch req : Nat) : Statement (.arbStarve cyc mu ch req) := of_none rfl rfl
theorem mr4Report (cyc : Nat) (mu rate : Nat) (hot : Bool) : Statement (.mr4Report cyc mu rate hot) := of_none rfl rfl
theorem extraRefresh (cyc : Nat) (mu ch : Nat) (offered : Bool) (displaced : Option Nat) : Statement (.extraRefresh cyc mu ch offered displaced) := of_none rfl rfl
theorem t1InlineEcc (cyc : Nat) (mu ch line : Nat) (check : T1Check) (fid : Option Nat) : Statement (.t1InlineEcc cyc mu ch line check fid) := of_none rfl rfl
theorem patrolScrub (cyc : Nat) (mu line : Nat) (corrected : Bool) : Statement (.patrolScrub cyc mu line corrected) := of_none rfl rfl
theorem scratchpadEcc (cyc : Nat) (die cluster line : Nat) (fatal : Bool) (fid : Option Nat) : Statement (.scratchpadEcc cyc die cluster line fatal fid) := of_none rfl rfl
theorem snapDone (cyc : Nat) : Statement (.snapDone cyc) := of_none rfl rfl
theorem snapDomain (cyc : Nat) : Statement (.snapDomain cyc) := of_none rfl rfl
theorem nandProgramFail (cyc : Nat) : Statement (.nandProgramFail cyc) := of_none rfl rfl
theorem mirrorDone (cyc : Nat) : Statement (.mirrorDone cyc) := of_none rfl rfl
theorem dieToDieRetry (cyc : Nat) (die port : Nat) (lanes : Nat) (retrained : Bool) : Statement (.dieToDieRetry cyc die port lanes retrained) := of_none rfl rfl
theorem shipDone (cyc : Nat) (measure : Nat) : Statement (.shipDone cyc measure) := of_none rfl rfl
theorem configurationRequest (cyc : Nat) : Statement (.configurationRequest cyc) := of_none rfl rfl

end Sys2Proof.Laws.Wf
end

