-- ==== Sys2Proof/Tests/Slice0.lean ====
section
/-! SUPPORT. Tests: ill-formed commands that WellFormed refuses, one for each check; for every statement with hypotheses a
named state and operands that meet them, clause by clause; small tests of one step with expected values from the
manual's own tables, examples and formulas. -/
set_option maxRecDepth 20000
set_option exponentiation.threshold 2100
namespace Sys2Proof.Tests
open Sys2Proof Sys2Proof.Machine

/-! ## Small states -/

/-- The module in state `d` with the link up, the time base running and every register 0. -/
def base (d : DevState) : State :=
  { State.reset with dev := d, regs := [], clk := { Clock.reset with ticking := true }, host := { HostIf.reset with link := true } }
/-- With a register field set. -/
def put (s : State) (f : Field) (v : Nat) : State := { s with regs := fset s.regs f v }
def pass : BootTest := ⟨none, (0, 0, 0)⟩
/-- A descriptor: opcode, flag bit 16, tag, W1 to W4. -/
def desc (op flag tag w1 w2 w3 w4 : Nat) : BitVec 512 :=
  BitVec.ofNat 512 (op + flag * 2 ^ 16 + tag * 2 ^ 32 + w1 * 2 ^ 64 + w2 * 2 ^ 128 + w3 * 2 ^ 192 + w4 * 2 ^ 256)
/-- RUNNING with descriptor `d` at the front of ring 0. -/
def cmd (s : State) (d : BitVec 512) : State := s.setRing 0 { Ring.reset with queue := [⟨d⟩] }
/-- A graph of no tensors and no operations, as an image of 256 bytes (Table 3.11: VERSION 1, SKU 1). -/
def image : Bytes := [1#8, 0#8, 1#8] ++ List.replicate 253 0#8
def noGraph : Graph := ⟨0, [], [], [], [], none, [], [], 0, []⟩
def withGraph (s : State) (g : Graph) : State := { s with plan := { s.plan with graph := some g } }
def feature (s : State) (i : Nat) : State := put s (F.HUB_FEAT_ACCEPT_k_BITS.at 4 (i / 32)) (2 ^ (i % 32))
def vg2 (s : State) : State := { s with fuses := { s.fuses with sku := 2 } }
def side : CardSide := ⟨[], [], [], [], [], [], [], [], [], [], [], [], [], [], [], [], []⟩
/-- A card for VG2 with a slice for each of 2,048 clusters and no figures (Table 18.1). -/
def emptyCard : CardImage :=
  [BitVec.ofNat 128 (0x44524143 + 3 * 2 ^ 32 + 500 * 2 ^ 48 + 1 * 2 ^ 79 + 2048 * 2 ^ 96 + 100 * 2 ^ 112), 0, 0, 0]
    ++ (upTo 2048).map fun k => BitVec.ofNat 128 (0x8F + k / 1024 * 2 ^ 8 + k % 1024 * 2 ^ 12 + 16 * 2 ^ 32)
/-- Port 0 as given. -/
def port0 (s : State) (p : Port) : State := s.setPort 0 p
def upPort : Port := { Port.reset with up := true, credits := fullCredits, owed := [0, 0, 0, 0] }


/-! ## Ill-formed commands: one refused for each check of WellFormed -/

def badErr : ErrIn := ⟨0x0501, ⟨0, 0, 0⟩, none, 0⟩
def okMark : Marker := ⟨0, 1, true, true, false, 0, false, false, false, 0, 0, 0⟩
def noEnv : FigEnv := ⟨0, 0, 0, 0, false, false⟩
theorem wf_refuses_resets :
    (Instr.powerOnReset 0 0 ⟨some badErr, (0, 0, 0)⟩).wf = false ∧ (Instr.coldReset 0 ⟨some { badErr with code := 0x00FF }, (0, 0, 0)⟩).wf = false
      ∧ (Instr.hubResetCold 0 ⟨some ⟨0x0101, ⟨15, 0, 0⟩, none, 0⟩, (0, 0, 0)⟩).wf = false
      ∧ (Instr.hubResetWarm 0 ⟨some ⟨0x0101, ⟨0, 11, 0⟩, none, 0⟩, (0, 0, 0)⟩).wf = false
      ∧ (Instr.pldmReset 0 ⟨some ⟨0x0101, ⟨0, 0, 1024⟩, none, 0⟩, (0, 0, 0)⟩).wf = false
      ∧ (Instr.domainReset 0 ⟨some ⟨0x0101, ⟨0, 0, 0⟩, none, 2 ^ 32⟩, (0, 0, 0)⟩).wf = false
      ∧ (Instr.hostBootImage 0 [] ⟨some badErr, (0, 0, 0)⟩).wf = false
      ∧ (Instr.perstRelease 0 false 3 0).wf = false ∧ (Instr.perstRelease 0 false 0 2).wf = false ∧ (Instr.hostLinkRetrain 0 3 0).wf = false := by decide
theorem wf_refuses_registers :
    (Instr.featAcceptWrite 0 8 0).wf = false ∧ (Instr.starveFlagClear 0 9 0 0).wf = false ∧ (Instr.starveFlagClear 0 0 0 128).wf = false
      ∧ (Instr.vecStickyClear 0 5 0 0).wf = false ∧ (Instr.vecStickyClear 0 0 0 4).wf = false ∧ (Instr.arbRankWrite 0 9 0).wf = false
      ∧ (Instr.registerWrite 0 0x4000000 32 0).wf = false ∧ (Instr.registerWrite 0 0 65 0).wf = false := by decide
theorem wf_refuses_host :
    (Instr.hostLineWrite 0 (.doorbell 64 0 0)).wf = false ∧ (Instr.hostLineWrite 0 (.doorbell 0 (2 ^ 32) 0)).wf = false
      ∧ (Instr.hostLineWrite 0 (.consumer 0 (2 ^ 32))).wf = false ∧ (Instr.hostLinePoll 0 [.consumer (2 ^ 32) 0]).wf = false
      ∧ (Instr.descriptorFetch 0 64 0).wf = false ∧ (Instr.badOpcode 0 64).wf = false ∧ (Instr.nop 0 64).wf = false
      ∧ (Instr.restore 0 0 [(2 ^ 48, 0)] []).wf = false ∧ (Instr.scrubDone 0 (some ⟨15, 0, 0⟩)).wf = false ∧ (Instr.goResponse 0 65).wf = false
      ∧ (Instr.msixModerationExpiry 0 2048).wf = false ∧ (Instr.cxlMemAccess 0 false (2 ^ 46) 0).wf = false
      ∧ (Instr.hostReadError 0 (.command 64 0)).wf = false ∧ (Instr.hostReadError 0 (.t2Figure (2 ^ 32))).wf = false := by decide
theorem wf_refuses_beat :
    (Instr.beatEdge ⟨0, [0], 0, none⟩).wf = false ∧ (Instr.seatReady 0 [0, 0, 0] side 0).wf = false ∧ (Instr.figureStart 0 (2 ^ 32) noEnv).wf = false
      ∧ (Instr.figureComplete 0 (2 ^ 32)).wf = false ∧ (Instr.vatWaitResume 0 4 0 0).wf = false ∧ (Instr.vatWaitResume 0 0 1024 0).wf = false
      ∧ (Instr.vatWaitResume 0 0 0 64).wf = false ∧ (Instr.slotSel 0 4 0).wf = false ∧ (Instr.syncSetAt 0 0 8192).wf = false
      ∧ (Instr.bankPowerDown 0 0 (some (2 ^ 32)) none).wf = false ∧ (Instr.bankPowerDown 0 0 none (some (2 ^ 32))).wf = false
      ∧ (Instr.errorDetected 0 badErr).wf = false ∧ (Instr.tsPacket 0 [0x47]).wf = false := by decide
theorem wf_refuses_fabric :
    (Instr.linkUp 0 18 0).wf = false ∧ (Instr.linkUp 0 0 3).wf = false ∧ (Instr.helloReceived 0 18 0).wf = false ∧ (Instr.linkRetrain 0 0 3).wf = false
      ∧ (Instr.linkDown 0 18).wf = false ∧ (Instr.memberReceived 0 (.present 4096 0)).wf = false ∧ (Instr.memberReceived 0 (.present 0 (2 ^ 64))).wf = false
      ∧ (Instr.memberReceived 0 (.linkLoss 0 18 0)).wf = false ∧ (Instr.memberReceived 0 (.departed 4096)).wf = false
      ∧ (Instr.routeReceived 0 2 0 []).wf = false ∧ (Instr.routeReceived 0 0 4096 [1]).wf = false ∧ (Instr.routeReceived 0 0 0 [256]).wf = false
      ∧ (Instr.delayMeasure 0 18 0).wf = false ∧ (Instr.markerReceived 0 18 okMark 0).wf = false ∧ (Instr.markerReceived 0 0 { okMark with cause := 256 } 0).wf = false
      ∧ (Instr.flitReceived 0 18 ⟨0, 0⟩ 0).wf = false ∧ (Instr.flitCrcFail 0 18).wf = false ∧ (Instr.linkControlFlit 0 0 0 false [0]).wf = false
      ∧ (Instr.linkControlSend 0 18).wf = false := by decide
theorem wf_refuses_tiers :
    (Instr.accumulateWrite 0 15 0).wf = false ∧ (Instr.accumulateWrite 0 0 8).wf = false ∧ (Instr.slotArbitration 0 0 24 [] .open_).wf = false
      ∧ (Instr.slotArbitration 0 0 0 [7] .open_).wf = false ∧ (Instr.slotArbitration 0 0 0 [] (.catchUp (2 ^ 32))).wf = false
      ∧ (Instr.slotArbitration 0 0 0 [] (.earmark 7)).wf = false ∧ (Instr.arbStarve 0 0 0 7).wf = false ∧ (Instr.mr4Report 0 8 3 false).wf = false
      ∧ (Instr.extraRefresh 0 8 0 false none).wf = false ∧ (Instr.t1InlineEcc 0 0 24 0 .corrected none).wf = false ∧ (Instr.patrolScrub 0 8 0 false).wf = false
      ∧ (Instr.scratchpadEcc 0 4 0 0 false none).wf = false ∧ (Instr.scratchpadEcc 0 0 0 32768 false none).wf = false
      ∧ (Instr.dieToDieRetry 0 15 0 0 true).wf = false ∧ (Instr.shipDone 0 (2 ^ 48)).wf = false := by decide
theorem wf_accepts :
    (Instr.slotArbitration 0 7 23 [6] (.earmark 6)).wf = true ∧ (Instr.errorDetected 0 ⟨0x0408, ⟨14, 10, 1023⟩, none, 0⟩).wf = true
      ∧ (Instr.vatWaitResume 0 3 1023 63).wf = true ∧ (Instr.routeReceived 0 1 4095 [255]).wf = true := by decide
/-! ## Witnesses: what every clause of a statement supposes happens -/

theorem witness_StepRunsFrontCommand :
    ({ State.reset with pending := [.nop 0 0, .start 0 true] } : State).pending = .nop 0 0 :: [.start 0 true] ∧ State.reset.pending = [] :=
  ⟨rfl, rfl⟩

def arbState (c : Instr) : State := { base .unconfigured with boot := { State.reset.boot with svn := 3 }, pending := [c] }
theorem witness_FusesRiseOnly_commit :
    ∃ t, step (arbState (.secArbCommit 0)) = .next t ∧ t.fuses.arb ≠ (arbState (.secArbCommit 0)).fuses.arb := ⟨_, rfl, by decide⟩
theorem witness_FusesRiseOnly_pldm :
    ∃ t, step (arbState (.pldmRequest 0 .arbCommit)) = .next t ∧ t.fuses.arb = 3 := ⟨_, rfl, by decide⟩
theorem witness_FusesRiseOnly_image : 64 < imgSvn (List.replicate 6 0#8 ++ [65#8, 0#8]) := by decide

theorem witness_TickMovesTime : (base .running).run.sig = [] := rfl

theorem witness_PowerOnResets : pass.fail = none := rfl
theorem witness_OtherResets : pass.fail = none ∧ (base .running).dev ≠ .off ∧ (base .running).dev ≠ .boot ∧ (base .boot).dev ≠ .off := by decide

def waiting : State := { base .boot with boot := { State.reset.boot with waitHost := true } }
theorem witness_BootStages_image : waiting.dev = .boot ∧ waiting.boot.waitHost = true ∧ waiting.verifyImage [] ≠ 0 := by decide
theorem witness_BootStages_complete :
    (base .boot).dev = .boot ∧ (base .boot).boot.waitHost = false ∧ (base .boot).boot.recovery = false := by decide
theorem witness_BootStages_clear :
    ((base .negotiated).tick 0).dev = .negotiated ∧ ((base .negotiated).tick 0).get F.HUB_BOOT_STATUS_T1_CLEAR = 0 := by decide

theorem witness_PowerGoesOff :
    (38999 < 39000 ∧ 61000 < 61001 ∧ 50000 < 50001) ∧ 115 ≤ 115 ∧ (base .running).dev ≠ .off
      ∧ (({ base .off with run := { Run.reset with stopped := true }, host := HostIf.reset } : State).run.stopped = true)
      ∧ (({ base .off with run := { Run.reset with stopped := true }, host := HostIf.reset } : State).host.link = false)
      ∧ (base .off).dev = .off := by decide
theorem witness_PowerGoesOff_command : ∀ cyc straps test, Instr.nop 0 0 ≠ .powerOnReset cyc straps test := by intros; exact Instr.noConfusion

theorem witness_HostLink_train : (base .running).dev ≠ .off ∧ ((base .running).tick 0).host.link = true := by decide
theorem witness_HostLink_retry :
    ((base .boot).tick (5 * bootMs)).dev = .boot ∧ ((base .boot).tick (5 * bootMs)).pins.perstN = true
      ∧ 5 * bootMs ≤ ((base .boot).tick (5 * bootMs)).clk.cyc ∧ ((base .boot).tick (5 * bootMs)).boot.waitHost = false
      ∧ ((base .boot).tick (5 * bootMs)).clk.cyc - ((base .boot).tick (5 * bootMs)).boot.delay < 90 * bootMs := by decide
theorem witness_HostLink_answered :
    (waiting.tick (5 * bootMs)).boot.waitHost = true ∧ (waiting.tick (5 * bootMs)).dev = .boot
      ∧ ((base .boot).tick (90 * bootMs)).boot.recovery = false
      ∧ 90 * bootMs ≤ ((base .boot).tick (90 * bootMs)).clk.cyc - ((base .boot).tick (90 * bootMs)).boot.delay
      ∧ ((base .halted).tick 0).host.link = true ∧ ((base .halted).tick 0).dev ≠ .boot ∧ ((base .halted).tick 0).dev ≠ .off := by decide
theorem witness_HostLink_power :
    (if ((base .running).tick 0).fuses.sku = 1 then 3600 else 1900) < 3601 ∧ 1000 < 1001 ∧ ((base .running).tick 0).dev = .running
      ∧ ((base .draining).tick 0).dev = .draining := by decide

theorem witness_FeatureNegotiation :
    ((base .unconfigured).tick 0).dev = .unconfigured ∧ ((base .unconfigured).tick 0).boot.startHeld = false ∧ 7 < 8
      ∧ ((base .running).tick 0).dev = .running
      ∧ (({ base .unconfigured with boot := { State.reset.boot with startHeld := true } } : State).tick 0).boot.startHeld = true := by decide

def cleared (s : State) : State := put s F.HUB_BOOT_STATUS_T1_CLEAR 1
theorem witness_StartChecks_held :
    ((base .unconfigured).tick 0).get F.HUB_BOOT_STATUS_T1_CLEAR ≠ 1 ∧ ((base .unconfigured).tick 0).boot.startHeld = false := by decide
theorem witness_StartChecks_refused :
    ((cleared (base .negotiated)).tick 0).get F.HUB_BOOT_STATUS_T1_CLEAR = 1 ∧ ((cleared (base .negotiated)).tick 0).startStatus ≠ St.ok := by decide
/-- Reset registers with ring 0 and the event ring on. -/
def configured : State :=
  put (put (cleared { base .negotiated with regs := State.reset.regs }) F.HUB_CRING_n_CFG_EN 1) F.HUB_EVQ_CFG_EN 1
theorem witness_StartChecks_accepted :
    (configured.tick 0).get F.HUB_BOOT_STATUS_T1_CLEAR = 1 ∧ (configured.tick 0).startStatus = St.ok := by decide +kernel

theorem witness_AntiRollbackAndDebug :
    ((base .unconfigured).tick 0).dev = .unconfigured ∧ ((base .unconfigured).tick 0).tokenOk = false ∧ ((base .running).tick 0).dev ≠ .off := by decide

theorem witness_ClearBits :
    ((base .running).tick 0).dev ≠ .off ∧ ((base .running).tick 0).dev ≠ .boot ∧ 7 < ((base .running).tick 0).nMu ∧ ((base .running).tick 0).vg4 = true
      ∧ 3 < ((base .running).tick 0).nCd ∧ ((base .running).tick 0).evqOn = false ∧ tabWf ((base .running).tick 0).t0.sticky = true := by decide

/-- Values of PLC_PLAN_CFG, PLC_MARGIN and CEL_CFG at the ends of their ranges (R87, R410). -/
theorem witness_GuardedRegisters :
    tabWf ((base .negotiated).tick 0).regs = true ∧ ((base .negotiated).tick 0).locked = false ∧ ((base .running).tick 0).locked = true
      ∧ (1 ≤ (4096 + 100 * 2 ^ 16 + 8 * 2 ^ 24) % 2 ^ 13 ∧ (4096 + 100 * 2 ^ 16 + 8 * 2 ^ 24) / 2 ^ 24 % 2 ^ 4 = 8)
      ∧ ((feature (base .running) 6).tick 0).feat 6 = true ∧ ((base .running).tick 0).feat 6 = false
      ∧ ((feature (base .running) 4).tick 0).feat 4 = true ∧ ((feature (base .running) 9).tick 0).feat 9 = true
      ∧ tabWf ((feature (base .running) 9).tick 0).regs = true := by decide
theorem witness_GuardedRegisters_refuse : (base .running).evqOn = false ∧ tabWf (base .running).regs = true ∧ (∀ k, tGet (base .running).regs k < 2 ^ 32) :=
  ⟨by decide, by decide, fun _ => (by decide : 0 < 2 ^ 32)⟩

theorem witness_FieldsReadBack :
    tabWf (base .running).regs = true ∧ (∀ k, tGet (base .running).regs k < 2 ^ 32)
      ∧ F.HUB_EVQ_CFG_EN.off = F.HUB_EVQ_CFG_LOG2.off ∧ F.HUB_EVQ_CFG_EN.lo + F.HUB_EVQ_CFG_EN.w ≤ F.HUB_EVQ_CFG_LOG2.lo
      ∧ F.HUB_EVQ_CFG_EN.off + 4 * F.HUB_EVQ_CFG_EN.words ≤ F.HUB_PHQ_CFG_EN.off :=
  ⟨by decide, fun _ => (by decide : 0 < 2 ^ 32), by decide, by decide, by decide⟩

theorem witness_RegisterWrites :
    ¬ (2 = 4 ∧ 0x84 % 4 = 0) ∧ ¬ (2 = 8 ∧ 0x84 % 8 = 0) ∧ barAddr 0x3FFFFFC = none ∧ 0x3FFFFFC % 4 = 0
      ∧ ((base .negotiated).tick 0).locked = false ∧ ((base .running).tick 0).locked = true := by decide

theorem witness_CompletionRecords : (base .running).host.rings.length = 64 ∧ memWf (base .running).host.mem = true ∧ 63 < 64 := by decide

def evq (s : State) : State := put (put s F.HUB_EVQ_CFG_EN 1) F.HUB_EVQ_CFG_LOG2 8
theorem witness_EventRecords :
    memWf (base .running).host.mem = true ∧ (base .running).evqOn = false ∧ (evq (base .running)).evqOn = true
      ∧ ({ evq (base .running) with clk := { Clock.reset with beat := 1 } } : State).host.evOpen < 1
      ∧ (evq (base .running)).clk.beat ≤ (evq (base .running)).host.evOpen ∧ (evq (base .running)).evqUsed < (evq (base .running)).evqSize
      ∧ (let s : State := { evq (base .running) with host := { HostIf.reset with evTail := 256 } }; s.evqSize ≤ s.evqUsed)
      ∧ ((base .running).tick 0).dev ≠ .off := by decide

def ringed (s : State) (r : Ring) : State := (put (put s F.HUB_CRING_n_CFG_EN 1) F.HUB_CRING_n_CFG_LOG2 6).setRing 0 r
theorem witness_HostLines :
    ((ringed (feature (base .running) 32) Ring.reset).tick 0).feat 32 = true
      ∧ ((ringed (base .draining) Ring.reset).tick 0).feat 32 = false
      ∧ ((ringed (base .running) Ring.reset).tick 0).host.link = true
      ∧ ((ringed (base .running) Ring.reset).tick 0).get (F.HUB_CRING_n_CFG_EN.at 64 0) = 1
      ∧ (((ringed (base .running) Ring.reset).tick 0).ring 0).stopped = false
      ∧ (64 + (2 ^ 32 - 0 % 2 ^ 32)) % 2 ^ 32 ≤ 2 ^ ((ringed (base .running) Ring.reset).tick 0).get (F.HUB_CRING_n_CFG_LOG2.at 64 0)
      ∧ ¬ (65 + (2 ^ 32 - 0 % 2 ^ 32)) % 2 ^ 32 ≤ 2 ^ ((ringed (base .running) Ring.reset).tick 0).get (F.HUB_CRING_n_CFG_LOG2.at 64 0)
      ∧ (((ringed (base .running) { Ring.reset with stopped := true }).tick 0).ring 0).stopped = true := by decide

theorem witness_DescriptorFetches :
    let u := (ringed (base .running) { Ring.reset with tail := 1 }).tick 0
    u.dev = .running ∧ u.host.link = true ∧ 0 = (u.host.rr + 0) % 64 ∧ u.get (F.HUB_CRING_n_CFG_EN.at 64 0) = 1 ∧ (u.ring 0).stopped = false
      ∧ ((u.ring 0).tail + (2 ^ 32 - (u.ring 0).fetched % 2 ^ 32)) % 2 ^ 32 ≠ 0
      ∧ ((u.ring 0).fetched + (2 ^ 32 - (u.ring 0).cplHead % 2 ^ 32)) % 2 ^ 32 < 2 ^ u.get (F.HUB_CRING_n_CFG_LOG2.at 64 0)
      ∧ ¬ u.get (F.HUB_CRING_n_CFG_EN.at 64 1) = 1 := by decide

theorem witness_RingCommandsRefused :
    ((cmd (base .draining) (desc 0x10 0 0 0 0 0 0)).tick 0).frontIs 0 0x10 (desc 0x10 0 0 0 0 0 0)
      ∧ ((cmd (base .draining) (desc 0x32 0 0 0 0 0 0)).tick 0).frontIs 0 0x32 (desc 0x32 0 0 0 0 0 0)
      ∧ ((cmd (base .running) (desc 0x03 0 0 0 0 0 0)).tick 0).frontIs 0 0x03 (desc 0x03 0 0 0 0 0 0)
      ∧ ((cmd (base .running) (desc 0x03 0 0 0 0 0 0)).tick 0).plan.graph = none ∧ (base .halted).dev ≠ .running := by
  unfold State.frontIs; decide

/-- The front command of a ring may start, whatever its descriptor. -/
theorem front (dev : DevState) (d : BitVec 512) (h : dev ≠ .off) (h2 : dev ≠ .boot) : ((cmd (base dev) d).tick 0).frontIs 0 (dOpcode d) d := by
  cases dev <;> first | exact absurd rfl h | exact absurd rfl h2 | exact ⟨by decide, rfl, rfl, fun _ => rfl, fun _ => rfl⟩
theorem front_feature (d : BitVec 512) (i : Nat) : ((cmd (feature (base .running) i) d).tick 0).frontIs 0 (dOpcode d) d :=
  ⟨by decide, rfl, rfl, fun _ => rfl, fun _ => rfl⟩
theorem front_graph (d : BitVec 512) (g : Graph) : ((withGraph (cmd (base .running) d) g).tick 0).frontIs 0 (dOpcode d) d :=
  ⟨by decide, rfl, rfl, fun _ => rfl, fun _ => rfl⟩

/-- The hub commands at the ends of their operands: object 511, signals of 0 and 65,535, thresholds 0 and 1. -/
theorem witness_HubCommands :
    (∀ d, ((cmd (base .running) d).tick 0).frontIs 0 (dOpcode d) d) ∧ (∀ d, ((cmd (base .running) d).tick 0).dev = .running)
      ∧ [desc 0x21 0 0 511 0 0 0, desc 0x20 0 0 511 0 0 0, desc 0x22 0 0 511 0 0 0, desc 0x06 0 0 0 0 0 0, desc 0xFF 0 0 0 0 0 0].map dOpcode
          = [0x21, 0x20, 0x22, 0x06, 0xFF]
      ∧ bits (dW (desc 0x20 0 0 511 0 0 0) 1) 16 16 = 0 ∧ bits (dW (desc 0x20 0 0 (511 + 65535 * 2 ^ 16) 0 0 0) 1) 16 16 = 65535
      ∧ tGet (base .running).t0.hub 511 < bits (dW (desc 0x22 0 0 (511 + 2 ^ 32) 0 0 0) 1) 32 32
      ∧ bits (dW (desc 0x22 0 0 511 0 0 0) 1) 32 32 ≤ tGet (base .running).t0.hub 511 :=
  ⟨fun d => front .running d (by decide) (by decide), fun _ => rfl, by decide, by decide, by decide, by decide, by decide⟩

/-- Beats of 20 and 20,000 µs, caps of 25 and 100 %, phrases of 1 and 4,096 measures (R31, R25, R85), and one beyond each. -/
theorem witness_PlanCommands :
    (∀ d, ((cmd (base .running) d).tick 0).frontIs 0 (dOpcode d) d) ∧ (∀ d, ((cmd (base .running) d).tick 0).feat 0 = false)
      ∧ (∀ d, ((cmd (feature (base .running) 0) d).tick 0).frontIs 0 (dOpcode d) d) ∧ (∀ d, ((cmd (feature (base .running) 0) d).tick 0).feat 0 = true)
      ∧ [desc 0x10 0 0 20 0 0 0, desc 0x10 0 0 20000 0 0 0, desc 0x10 0 0 19 0 0 0].map (fun d => bits (dW d 1) 0 15) = [20, 20000, 19]
      ∧ [desc 0x11 0 0 25 0 0 0, desc 0x11 0 0 101 0 0 0].map (fun d => bits (dW d 1) 0 7) = [25, 101]
      ∧ [desc 0x12 0 0 4096 0 0 0, desc 0x12 0 0 0 0 0 0].map (fun d => bits (dW d 1) 0 13) = [4096, 0]
      ∧ max (max 3800 (20 * 38)) 0 * 4 ≤ 20 * 1900
      ∧ (((base .running).tick 0).diameter * 210 + 200) * 19 ≤ (20 * 1900 - max (max 3800 (20 * 38)) 0) * 10 :=
  ⟨fun d => front .running d (by decide) (by decide), fun _ => (by decide : (base .running).feat 0 = false), fun d => front_feature d 0,
    fun _ => (by decide : (feature (base .running) 0).feat 0 = true), by decide, by decide, by decide,
    by decide, by decide⟩

theorem witness_GoAndVectors :
    (let u := ({ base .running with host := { HostIf.reset with link := true, go := [⟨0, true, true, [], []⟩] } } : State).tick 0
     u.host.link = true ∧ (u.goLine 0).statWait = true)
      ∧ (let u := ({ base .running with host := { HostIf.reset with link := true, go := [⟨64, true, false, [3], []⟩] } } : State).tick 0
         (u.goLine 64).statWait = false ∧ (u.goLine 64).recWait = true)
      ∧ (let u := ({ put (base .running) ⟨0x84, 0, 8⟩ 1 with host := { HostIf.reset with irqHot := [1, 2], irqCause := [2] } } : State).tick 0
         1 ∈ u.host.irqHot ∧ 1 ∉ u.host.irqCause ∧ 2 ∈ u.host.irqHot ∧ 2 ∈ u.host.irqCause ∧ u.get F.HUB_IRQ_CFG_MOD_US ≠ 0) := by decide
theorem witness_GraphLoads :
    (∀ d, ((cmd (base .running) d).tick 0).frontIs 0 (dOpcode d) d) ∧ dOpcode (desc 1 0 0 0 256 0 0) = 1 ∧ dW (desc 1 0 0 0 256 0 0) 2 = 256
      ∧ ((base .running).tick 0).plan.graph = none ∧ ((withGraph (base .running) noGraph).tick 0).plan.graph ≠ none
      ∧ (base .running).graphStatus (readGraph [] [] []) = St.graphFormat
      ∧ (base .running).graphStatus (readGraph (image.take 256) [] []) = 0
      ∧ (base .running).host.rings.length = 64 ∧ tabWf (base .running).t1.tag = true :=
  ⟨fun d => front .running d (by decide) (by decide), by decide, by decide, by decide, by decide, by decide, by decide, by decide, by decide⟩

def shipped : Snap := { (default : Snap) with role := 2, crcOk := true, complete := true }
theorem witness_GraphLoads_source :
    (readGraph (image.take 256) [] []).evalSource (some shipped) = some shipped ∧ (readGraph (image.take 256) [] []).evalSource none = none := by decide

def expert (s : State) : State := feature (withGraph (vg2 s) noGraph) 0
def withBlock (s : State) : State := { s with t1 := { s.t1 with free := [(0, 0, 1)] } }
def sideAlloc : CardSide := { side with allocs := [(0, 0)] }
theorem witness_CardLoads_check : ((expert (base .running)).checkCard side emptyCard).isSome = true := by decide +kernel
theorem witness_CardLoads :
    (expert (base .running)).feat 0 = true ∧ (withGraph (base .running) noGraph).feat 0 = false
      ∧ (expert (base .running)).checkCard side [] = none ∧ allocAll sideAlloc.allocs [] = none ∧ allocAll sideAlloc.allocs [(0, 0, 1)] = some [(0, 1, 0)]
      ∧ dW (desc 2 0 0 0 32832 0 0) 2 / 16 = emptyCard.length
      ∧ (let u := ({ withGraph (base .running) noGraph with plan := { (withGraph (base .running) noGraph).plan with building := true } } : State).tick 0
         u.plan.building = true ∧ u.feat 0 = false ∧ u.plan.graph ≠ none)
      ∧ (let b := withGraph (base .running) noGraph
         let u := ({ b with plan := { b.plan with building := true }, fab := { b.fab with formed := true } } : State).tick 0
         u.plan.building = true ∧ u.feat 0 = false ∧ u.plan.graph ≠ none ∧ u.fab.formed = true)
      ∧ side.slots = [] ∧ { side with slots := [(0, 1)] }.slots ≠ [] ∧ (expert (base .running)).feat 2 = false
      ∧ side.moves = [] ∧ (base .running).plan.migr = [] := by decide
theorem witness_CardLoads_front (d : BitVec 512) : ((withGraph (cmd (base .running) d) noGraph).tick 0).frontIs 0 (dOpcode d) d := front_graph d noGraph

/-- A KILL runs on ring 63. -/
def active (s : State) (op : Nat) : State := s.setRing 63 { Ring.reset with active := [⟨BitVec.ofNat 512 op, 0⟩] }
theorem witness_GraphsRemoved :
    dFlag (desc 3 1 0 0 0 0 0) = true ∧ dFlag (desc 3 0 0 0 0 0 0) = false ∧ ((base .running).tick 0).get F.HUB_KILL_CFG_SCRUB = 0
      ∧ ((base .running).tick 0).feat 3 = false ∧ ((feature (base .running) 3).tick 0).feat 3 = true ∧ dOpcode (desc 3 1 0 0 0 0 0) = 3
      ∧ ((active (base .running) 3).tick 0).host.rings.length = 64
      ∧ (∃ r ∈ ((active (base .running) 3).tick 0).host.rings, ∃ c ∈ r.active, dOpcode c.desc = 3) := by decide

/-- A snapshot of measure 5 with the empty graph (Tables 14.2, 14.3). -/
def snap : Snap :=
  { role := 0, seat := 0, measure := 5, sku := 1, serial := 1, step := 7, exp := 0, clean := 0, cutNo := 0, cardGen := 1, seats := 1, dims := 0, feat := 0
    bytes := 0, dataPos := 0, dir := [], graph := image, maskImg := [], places := [], state := [], frozen := [], sets := [], routes := [], links := [], crcOk := true
    complete := true }
def restoring : State :=
  { base .running with
    cel := { Cellar.reset with snaps := [snap] }
    fab := { Fabric.reset 1 with formed := true, members := [⟨0, 1, true⟩] } }
theorem witness_Restores :
    restoring.plan.graph = none ∧ restoring.fab.formed = true ∧ (base .running).fab.formed = false
      ∧ restoring.restoreStatus 5 [] (restoring.sourceSnap false [] 5) = 0 ∧ (restoring.sourceSnap false [] 5) = some snap
      ∧ restoring.restoreStatus 4 [] (restoring.sourceSnap false [] 4) = 0x11 ∧ restoring.restoreStatus 5 [(4, 0)] (some snap) = 0x10 ∧ restoring.restoreStatus 5 [(5, 0x13), (5, 0x12)] (some snap) = 0x12
      ∧ 1 ≤ snap.step ∧ snap.step < 2 ^ 32 ∧ dOpcode (desc 4 0 0 5 0 0 0) = 4 ∧ bits (dW (desc 4 0 0 5 0 0 0) 1) 0 48 = 5
      ∧ (∃ r ∈ ((active (base .draining) 4).tick 0).host.rings, ∃ c ∈ r.active, dOpcode c.desc = 4) := by decide

theorem witness_Shipments :
    dFlag (desc 5 1 0 0 0 0 0) = true ∧ dFlag (desc 5 0 0 5 0 0 0) = false ∧ bits (dW (desc 5 0 0 5 0 0 0) 1) 0 48 = 5
      ∧ (∃ x ∈ (restoring.tick 0).cel.snaps, x.role = 0 ∧ x.complete = true ∧ x.measure = 5)
      ∧ ¬ (∃ x ∈ (restoring.tick 0).cel.snaps, x.role = 0 ∧ x.complete = true ∧ x.measure = 4)
      ∧ 5 ∈ (({ base .running with cel := { Cellar.reset with shipping := [5] } } : State).tick 0).cel.shipping
      ∧ 5 ∉ ((base .running).tick 0).cel.shipping
      ∧ (let u := ({ base .running with cel := { Cellar.reset with mirrors := [5] } } : State).tick 0; u.cel.mirrors = 5 :: [] ∧ u.cel.open_ = none) := by decide

theorem witness_DrainingEnds :
    (let u := (base .draining).tick 0; u.dev = .draining ∧ u.clk.pos = none ∧ u.cel.open_ = none ∧ u.host.rings.length = 64)
      ∧ ¬ ((base .running).tick 0).dev = .draining := by decide

/-- A trainable FP32 parameter of two elements and its UPDATE operation. -/
def param : BitVec 512 := BitVec.ofNat 512 (0 + 1 * 2 ^ 4 + 2 ^ 9 + 2 * 2 ^ 32 + 2 ^ 64 + 2 ^ 96 + 2 ^ 128 + 2 ^ 160 + 2 ^ 192)
def update : BitVec 1024 := BitVec.ofNat 1024 (13 + 1 * 2 ^ 16)
def place : Placement := ⟨0, 0, 0, 1, 0, 0, 0, 0, 0, 0, [], none⟩
def paramGraph : Graph := ⟨0, [param], [update], [], [], none, [], [], 0, [place]⟩
def readDesc (op n : Nat) : BitVec 512 := desc op 0 0 0 0 n 0
theorem witness_ParameterAccess :
    (withGraph (base .running) paramGraph).paramAccess (readDesc 0x40 2) = some (param, place)
      ∧ (withGraph (base .running) paramGraph).paramAccess (readDesc 0x41 3) = none ∧ dW (readDesc 0x41 0) 3 = 0
      ∧ srcFinite param false 1 [0#8, 0#8, 0x80#8, 0x7F#8] = false ∧ srcFinite param false 1 [0#8, 0#8, 0x80#8, 0x3F#8] = true
      ∧ [readDesc 0x40 2, readDesc 0x41 3].map dOpcode = [0x40, 0x41] := by decide

theorem witness_HostReadErrors :
    dTag (desc 1 0 7 0 0 0 0) = 7 ∧ (∀ x ∈ ((base .running).tick 0).ing.streams, x.ring ≠ 0 ∨ x.tag ≠ 7)
      ∧ (let u := ({ base .running with ing := { Ingest.reset with streams := [⟨0, 0, 0, 7, 0⟩] } } : State).tick 0
         u.ing.streams = ⟨0, 0, 0, 7, 0⟩ :: [] ∧ u.dev = .running)
      ∧ (let u := ({ base .running with run := { Run.reset with figs := [{ FigStat.fresh 3 with phase := .running }] } } : State).tick 0
         (u.stat 3).phase = .running) := by decide

def packing (s : State) : State := withGraph s { noGraph with ops := [BitVec.ofNat 1024 (12 + 2 ^ 512)] }
theorem witness_IngestCommands :
    sdFld 0 0 32 = ((base .running).tick 0).ing.nStream ∧ sdFld 1 0 32 ≠ ((base .running).tick 0).ing.nStream
      ∧ sdReserved 0 = false ∧ sdReserved (BitVec.ofNat 512 (4 * 2 ^ 32)) = true ∧ ((base .running).tick 0).hostPack = false
      ∧ (let u := (put (packing (feature (base .running) 7)) F.HUB_WIN_CFG_SIZE_MIB 16).tick 0
         u.hostPack = true ∧ u.feat 7 = true ∧ dW (desc 0x31 0 0 4096 0 0 0) 1 % 4096 = 0
           ∧ dW (desc 0x31 0 0 4096 0 0 0) 1 < u.get F.HUB_WIN_CFG_SIZE_MIB * 2 ^ 20 ∧ dW (desc 0x31 0 0 4095 0 0 0) 1 % 4096 ≠ 0) := by decide

theorem witness_WindowAccess :
    (let u := (put (base .running) F.HUB_WIN_CFG_SIZE_MIB 16).tick 0
     u.dev ≠ .off ∧ u.host.link = true ∧ 262143 < u.get F.HUB_WIN_CFG_SIZE_MIB * 2 ^ 14 ∧ u.plan.migr = [] ∧ memWf u.t1.mem = true)
      ∧ ((base .negotiated).tick 0).dev ≠ .running ∧ ((base .negotiated).tick 0).dev ≠ .draining := by decide

theorem witness_Management :
    ((base .running).tick 0).dev ≠ .off ∧ ¬ ((base .running).tick 0).boot.recovery = true ∧ ((base .running).tick 0).sec.spdmStage < 3
      ∧ 3 ≤ (({ base .running with sec := { Security.reset with spdmStage := 3 } } : State).tick 0).sec.spdmStage
      ∧ (let u := ({ base .boot with boot := { State.reset.boot with recovery := true } } : State).tick 0; u.boot.recovery = true ∧ u.dev = .boot)
      ∧ ((base .running).tick 0).get F.HUB_BOOT_CFG_ACTIVE ≤ 1
      ∧ (({ base .running with sec := { Security.reset with fw := some ⟨1, [], false⟩ } } : State).tick 0).sec.fw = some ⟨1, [], false⟩
      ∧ (({ base .running with sec := { Security.reset with fw := some ⟨1, [], true⟩ } } : State).tick 0).sec.fw = some ⟨1, [], true⟩ := by decide

/-! ## Witnesses: further clauses of the commands of the host, of BOOT and of the registers -/

/-- A self-test that fails with an error at die 0, and one that passes. -/
def failing : BootTest := ⟨some ⟨0x0401, ⟨0, 3, 0⟩, none, 0⟩, (0, 0, 0)⟩
theorem witness_PowerOnResets_clauses :
    ({ base .off with pins := { State.reset.pins with latched := true } } : State).pins.latched = true ∧ (base .off).pins.latched = false
      ∧ failing.fail ≠ none := by decide
theorem witness_OtherResets_kinds :
    (base .boot).dev ≠ .off ∧ ({ base .boot with boot := { State.reset.boot with trained := true } } : State).boot.trained = true
      ∧ Instr.coldReset 0 pass ≠ .hubResetCold 0 pass ∧ keptWord .warm 0x4 = true ∧ tabWf ((base .running).tick 9).regs = true := by decide
theorem witness_PowerGoesOff_clauses :
    ¬ ((38000 < 39000 ∨ 61000 < 38000) ∧ 50000 < 50000 ∧ (base .running).dev ≠ .off) ∧ 114 < 115
      ∧ (let s := ({ base .off with run := { Run.reset with stopped := true }, host := HostIf.reset, pins := { State.reset.pins with latched := true } } : State)
         s.dev = .off ∧ s.run.stopped = true ∧ s.host.link = false ∧ s.pins.latched = true) := by decide
theorem witness_HostLink_boot :
    (let u := (base .boot).tick (5 * bootMs - 1); u.dev = .boot ∧ u.clk.cyc < 5 * bootMs)
      ∧ (let u := (base .boot).tick (90 * bootMs)
         u.dev = .boot ∧ u.pins.perstN = true ∧ 5 * bootMs ≤ u.clk.cyc ∧ u.boot.waitHost = false ∧ u.boot.recovery = false)
      ∧ ((base .halted).tick 0).dev ≠ .running ∧ ((base .halted).tick 0).dev ≠ .draining ∧ 1900 ≤ (if (vg2 (base .boot)).fuses.sku = 1 then 3600 else 1900) := by
  decide
theorem witness_FeatureNegotiation_clauses :
    (let u := (base .negotiated).tick 0; u.dev = .negotiated ∧ u.boot.startHeld = false ∧ u.boot.started = false ∧ tabWf u.regs = true)
      ∧ (({ base .negotiated with boot := { State.reset.boot with started := true } } : State).tick 0).boot.started = true := by decide
theorem witness_StartChecks_clauses :
    (let u := (cleared (base .unconfigured)).tick 0; u.dev = .unconfigured ∧ u.boot.startHeld = false ∧ u.get F.HUB_BOOT_STATUS_T1_CLEAR = 1)
      ∧ ((base .running).tick 0).dev ≠ .unconfigured ∧ (base .running).fab.formed = false := by decide
theorem witness_AntiRollbackAndDebug_clauses :
    ((base .negotiated).tick 0).dev ≠ .unconfigured ∧ ({ base .negotiated with fuses := { State.reset.fuses with dbgDis := true } } : State).fuses.dbgDis = true
      ∧ 8 ≤ ((put (base .unconfigured) F.SEC_DBG_CTL_FAILS 8).tick 0).get F.SEC_DBG_CTL_FAILS ∧ ((base .unconfigured).tick 0).get F.SEC_DBG_CTL_FAILS < 8 := by decide
theorem witness_GuardedRegisters_clauses :
    ((base .boot).tick 0).dev = .boot ∧ ((vg2 (base .running)).tick 0).nMu ≤ 7 ∧ ¬ (1 ≤ (4097 : Nat) ∧ 4097 ≤ 4096) ∧ ¬ (5 ≤ (4 : Nat)) ∧ (base .negotiated).locked = false := by
  decide
theorem witness_RegisterWrites_clauses :
    (waiting.tick 0).dev = .boot ∧ ¬ (((base .boot).tick 0).boot.waitHost = true ∧ 0x84 ∈ [0x20, 0x24, 0x28, 0x2C]) := by decide
theorem witness_EventRecords_lost :
    (let s : State := { evq (base .running) with host := { HostIf.reset with evLost := 3 } }
     s.evqOn = true ∧ s.clk.beat ≤ s.host.evOpen ∧ s.host.evLost ≠ 0 ∧ s.evqUsed + 1 < s.evqSize ∧ memWf s.host.mem = true)
      ∧ bit ((put (evq (base .running)) F.HUB_EVT_IRQ_MASK 2).get F.HUB_EVT_IRQ_MASK) 1 = true := by decide
theorem witness_HostLines_down :
    (let u := (ringed (base .running) Ring.reset).tick 0; u.get (F.HUB_CRING_n_CFG_EN.at 64 1) ≠ 1 ∧ ¬ (u.host.link = false))
      ∧ (({ ringed (base .running) Ring.reset with host := { HostIf.reset with link := false } } : State).tick 0).host.link = false
      ∧ ¬ (0 + (2 ^ 32 - (65 : Nat) % 2 ^ 32)) % 2 ^ 32 ≤ 2 ^ 6 := by decide
theorem witness_DescriptorFetches_order :
    let r0 := ringed (base .running) { Ring.reset with tail := 1 }
    let u := (put (put r0 (F.HUB_CRING_n_CFG_EN.at 64 1) 1) (F.HUB_CRING_n_CFG_LOG2.at 64 1) 6 |>.setRing 1 { Ring.reset with tail := 1 }).tick 0
    u.get (F.HUB_CRING_n_CFG_EN.at 64 0) = 1 ∧ (u.ring 0).stopped = false ∧ u.get (F.HUB_CRING_n_CFG_EN.at 64 1) = 1 ∧ (u.ring 1).stopped = false
      ∧ ((u.ring 0).tail + (2 ^ 32 - (u.ring 0).fetched % 2 ^ 32)) % 2 ^ 32 ≠ 0 ∧ 0 = (u.host.rr + 0) % 64 ∧ 1 = (u.host.rr + 1) % 64 := by decide
theorem witness_RingCommandsRefused_load :
    ((cmd (base .draining) (desc 1 0 0 0 0 0 0)).tick 0).dev = .draining
      ∧ ((cmd (base .draining) (desc 1 0 0 0 0 0 0)).tick 0).frontIs 0 0x01 (desc 1 0 0 0 0 0 0)
      ∧ ((cmd (base .draining) (desc 0x32 0 0 0 0 0 0)).tick 0).plan.graph = none := by
  unfold State.frontIs; decide
/-- Signals that stay below 2^32 with no threshold reached; a ring with an active SET_CAP that STOP ends. -/
theorem witness_HubCommands_clauses :
    tabWf (base .running).t0.hub = true ∧ tGet (base .running).t0.hub 511 + 65535 < 2 ^ 32
      ∧ (({ base .running with t0 := { T0.reset with armed := [(511, 65536)] } } : State).t0.armed.all fun a => decide (0 + 65535 < a.2)) = true
      ∧ (((active (base .running) 0x11).ring 63).active.filter fun c => decide (dOpcode c.desc ∈ [0x05, 0x10, 0x11, 0x12, 0x13, 0x30, 0x31, 0x40, 0x41])) ≠ []
      ∧ (base .running).host.rings.length = 64 := by decide
theorem witness_PlanCommands_waits :
    (let s := base .running
     let u := ({ cmd s (desc 0x13 0 0 0 0 0 0) with plan := { s.plan with building := true } } : State).tick 0
     u.plan.building = true ∧ u.fab.formed = false ∧ u.feat 0 = false ∧ u.dev = .running)
      ∧ ((base .running).tick 0).plan.building = false := by decide
theorem witness_GraphLoads_leader :
    ((base .running).tick 0).fab.leader = false ∧ (({ base .running with fab := { Fabric.reset 0 with leader := true } } : State).tick 0).fab.leader = true
      ∧ ((base .running).tick 0).alone = true ∧ (readGraph (image.take 256) [] []).h 64 13 = 0 := by decide
/-- A card the build may have made: VG2, three beats of 500 µs, cap 100, phrase 1, no figures. -/
def building : State :=
  let s := put (withGraph (vg2 (base .running)) noGraph) F.PLC_PLAN_CFG_PHRASE 1
  { s with plan := { s.plan with building := true, cap := 100 }, fab := { s.fab with formed := true } }
theorem witness_CardLoads_built :
    (let u := building.tick 0
     u.dev = .running ∧ u.plan.building = true ∧ u.feat 0 = false ∧ u.plan.graph ≠ none ∧ u.fab.formed = true ∧ allocAll side.allocs u.t1.free = some u.t1.free) ∧ 65535 < 65536 := by
  decide
theorem witness_CardLoads_builtOk : ((building.tick 0).checkCard side emptyCard).any (fun c => (building.tick 0).builtOk c 3) = true := by decide +kernel
theorem witness_CardLoads_notBuilt : ((building.tick 0).checkCard side emptyCard).all (fun c => !(building.tick 0).builtOk c 4) = true := by decide +kernel
def stream0 : Stream := ⟨0, 0, 0, 0, 0⟩
theorem witness_IngestCommands_refused :
    (let u := (packing (base .running)).tick 0; u.feat 7 = false ∧ u.plan.graph ≠ none)
      ∧ (let u := (withGraph (feature (base .running) 7) noGraph).tick 0; u.feat 7 = true ∧ u.hostPack = false)
      ∧ (let u := (packing (base .draining)).tick 0; u.dev = .draining ∧ u.plan.graph ≠ none)
      ∧ 4096 ≤ (List.replicate 4096 stream0).length ∧ ((base .running).tick 0).ing.streams.length < 4096 := by decide +kernel
theorem witness_WindowAccess_down :
    (({ base .running with host := { HostIf.reset with link := false } } : State).tick 0).host.link = false
      ∧ ((put (base .running) F.HUB_WIN_CFG_SIZE_MIB 16).tick 0).get F.HUB_WIN_CFG_SIZE_MIB * 2 ^ 14 ≤ 262144 := by decide
theorem witness_Management_stages :
    1 ≤ (({ base .running with sec := { Security.reset with spdmStage := 1 } } : State).tick 0).sec.spdmStage
      ∧ 2 ≤ (({ base .running with sec := { Security.reset with spdmStage := 2 } } : State).tick 0).sec.spdmStage
      ∧ ((base .running).tick 0).sec.spdmStage < 1 ∧ ((base .running).tick 0).sec.fw = none ∧ SpdmReq.heartbeat ∈ [SpdmReq.getDigests, .getCertificate, .finish, .keyUpdate, .heartbeat]
      ∧ (({ base .running with sec := { Security.reset with aliasCert := true } } : State).tick 0).sec.aliasCert = true ∧ SpdmReq.other 5 ≠ .getVersion := by decide

/-! ## Witnesses: the beat, figures and errors -/

/-- A FIG entry (Table 18.3): class, COND, micro-batch, identifier 16 n, start, duration 100. -/
def figEntry (n cls cond mb start : Nat) : BitVec 128 :=
  BitVec.ofNat 128 (cls * 2 ^ 8 + cond * 2 ^ 11 + mb * 2 ^ 16 + n * 16 * 2 ^ 32 + start * 2 ^ 64 + 100 * 2 ^ 96)
/-- A DMA body of one line: source kind, destination kind, source and destination address. -/
def dmaBody (src dst sa da : Nat) : BitVec 256 := BitVec.ofNat 256 (src + dst * 2 ^ 4 + 2 ^ 8 + sa * 2 ^ 64 + da * 2 ^ 128)
def copyFig (n cond start : Nat) : FigProg := ⟨figEntry n 0 cond 0xFFFF start, [], [], .dma (dmaBody 0 0 0 1), []⟩
/-- RUNNING, a card with one section at beat position `pos` in force, the measure at beat position 0. -/
def onCard (figs : List FigProg) (seq : List (BitVec 128)) : State :=
  let s := base .running
  { s with clk := { s.clk with pos := some 0, measBeats := 64 }, plan := { s.plan with card := some ⟨0, [⟨0, 0, [⟨0, [⟨0, figs, seq⟩]⟩]⟩], 1, side⟩ } }
def oneFig : State := onCard [copyFig 1 0 0] []
/-- Figure 16 runs. -/
def runs (s : State) : State := s.setStat { FigStat.fresh 16 with phase := .running }

theorem witness_BeatEdges :
    (base .boot).clk.ticking = true ∧ (base .halted).clk.ticking = true ∧ State.reset.clk.ticking = false
      ∧ (let s := runs oneFig
         s.clk.ticking = true ∧ s.dev = .running ∧ s.clk.pos = some 0 ∧ 0 + 1 < s.clk.measBeats ∧ s.run.tailOnly = false ∧ s.figsOn = true
           ∧ ∃ f ∈ s.figsNow, (s.stat f.fid).phase = .running) := by decide

/-- A WAIT entry for object 0 to reach 1. -/
def wait1 : BitVec 128 := BitVec.ofNat 128 (2 ^ 32)
/-- A DEP entry with the one producer 16. -/
def dep1 : BitVec 128 := BitVec.ofNat 128 (2 ^ 8 + 16 * 2 ^ 32)
def depFig : FigProg := { copyFig 2 0 0 with deps := [dep1] }
def waitFig : FigProg := { copyFig 1 0 0 with waits := [wait1] }
/-- A figure program as the one section places it. -/
def placed (f : FigProg) : Fig := f.inst ⟨0, 0, []⟩ ⟨0, []⟩ ⟨0, [], []⟩ 0
theorem witness_FiguresStart_skipped :
    (let u := (onCard [copyFig 1 1 0] []).tick 0
     let f := placed (copyFig 1 1 0)
     u.dev ≠ .off ∧ u.figure 16 = some f ∧ u.waitsToStart f = true ∧ f.start ≤ u.clk.cyc ∧ u.skips f = true) := by decide
theorem witness_FiguresStart_cascaded :
    (let u := ((onCard [copyFig 1 0 0, depFig] []).setStat { FigStat.fresh 16 with phase := .dropped }).tick 0
     let f := placed depFig
     u.figure 32 = some f ∧ u.waitsToStart f = true ∧ f.start ≤ u.clk.cyc ∧ u.skips f = false ∧ u.cascaded f = true) := by decide
theorem witness_FiguresStart_runs :
    (let u := oneFig.tick 0
     let f := placed (copyFig 1 0 0)
     u.figure 16 = some f ∧ u.waitsToStart f = true ∧ f.start ≤ u.clk.cyc ∧ u.skips f = false ∧ u.cascaded f = false
       ∧ u.unyielded f = false ∧ u.queueFree f = true ∧ f.waits = []) := by decide
theorem witness_FiguresStart_waits :
    (let u := (onCard [waitFig] []).tick 0
     let f := placed waitFig
     u.figure 16 = some f ∧ u.waitsToStart f = true ∧ u.skips f = false ∧ u.cascaded f = false ∧ u.unyielded f = false
       ∧ f.waits = [wait1] ∧ u.syncGet (entKey wait1 f.die) < ent wait1 32 32)
      ∧ (let u := (onCard [copyFig 1 0 100] []).tick 99
         let f := placed (copyFig 1 0 100)
         u.figure 16 = some f ∧ u.waitsToStart f = true ∧ u.clk.cyc < f.start) := by decide

/-- The figure of `oneFig`, placed. -/
def fig1 : Fig := placed (copyFig 1 0 0)
theorem witness_DropsAreCounted :
    (oneFig.stat fig1.fid).phase ≠ .dropped ∧ ((oneFig.drop fig1 .cascade).stat fig1.fid).phase = .dropped
      ∧ tabWf oneFig.regs = true ∧ oneFig.regs = [] ∧ fig1.die < 15 ∧ oneFig.evqOn = false
      ∧ (let f := { fig1 with mb := 3 }; f.cls = 0 ∧ f.mb ≠ 0xFFFF) ∧ (let f := { fig1 with cls := 1 }; f.cls = 1 ∧ oneFig.run.sealSent = false) := by decide

theorem witness_CopiesBetweenSlices :
    (let d := dmaBody 0 0 0 1; dmSrc d = 0 ∧ dmDst d = 0 ∧ bits (dmDa d) 0 15 = 1)
      ∧ (let d := dmaBody 0 2 0 (1 + 5 * 4 + 7 * 4096); dmSrc d = 0 ∧ dmDst d = 2 ∧ bits (dmDa d) 0 2 = 1 ∧ bits (dmDa d) 2 10 = 5 ∧ bits (dmDa d) 12 15 = 7)
      ∧ oneFig.t0.bankOff = [] ∧ oneFig.t0.poison = [] ∧ (oneFig.stat 16).poison = false ∧ memWf oneFig.t0.mem = true := by decide

def vecFig : State := onCard [{ copyFig 1 0 0 with body := .vec [] }] []
/-- A figure pops 64 bytes from vat 0 of cluster 0, of 4,096 bytes, with `occ` bytes in it, and waits. -/
def popping (occ : Nat) : State :=
  let s := runs (onCard [{ copyFig 1 0 0 with body := .dma (dmaBody 1 0 0 1) }] [])
  { s with t0 := { s.t0 with vat := [(0, 2 ^ 9 + 2 ^ 20 + occ * 2 ^ 64)], vatWait := [⟨0, 16, false, 64, 0⟩] } }
theorem witness_FiguresComplete :
    ((oneFig.tick 9).figure 16 = some fig1 ∧ ((oneFig.tick 9).stat 16).phase ≠ .running)
      ∧ (((runs oneFig).tick 9).figure 16 = some fig1 ∧ ((runs oneFig).tick 9).figsOn = true ∧ (((runs oneFig).tick 9).stat 16).phase = .running
        ∧ ∀ p, fig1.body ≠ .vec p)
      ∧ (((runs vecFig).tick 9).figure 16 = some { fig1 with body := .vec [] } ∧ ((runs vecFig).tick 9).figsOn = true
        ∧ (((runs vecFig).tick 9).stat 16).phase = .running) := by
  refine ⟨by decide, ⟨by decide, by decide, by decide, fun p h => by simp [fig1, placed, copyFig, FigProg.inst] at h⟩, by decide⟩
theorem witness_FiguresComplete_vats :
    (∀ occ ∈ [0, 64], let u := (popping occ).tick 9
      u.dev = .running ∧ u.run.stopped = false ∧ u.t0.vatWait.find? (fun w => w.key == vatKey 0 0 0) = some ⟨0, 16, false, 64, 0⟩
        ∧ u.figure 16 = some { fig1 with body := .dma (dmaBody 1 0 0 1) } ∧ u.vatRefuses 16 (vatKey 0 0 0) 64 false = decide (occ < 64)) := by decide

/-- SLOT_SEL of table 3 at cycle 100; SYNC_SET of object 5 to 7 at cycle 100. -/
def slotEntry : BitVec 128 := BitVec.ofNat 128 (0x87 + 3 * 2 ^ 8 + 100 * 2 ^ 32)
def setEntry : BitVec 128 := BitVec.ofNat 128 (0x88 + 5 * 2 ^ 8 + 2 * 2 ^ 21 + 100 * 2 ^ 32 + 7 * 2 ^ 64)
def entries : State := onCard [] [slotEntry, setEntry]
theorem witness_SequencerEntries :
    (let u := entries.tick 100
     u.dev = .running ∧ u.run.stopped = false ∧ u.clk.cyc ≠ 64 ∧ (entries.tick 64).clk.cyc = 64
       ∧ u.seqNow.filter (fun x => x.1 == 0 && x.2.1 == 0 && ent x.2.2 0 8 == 0x87 && ent x.2.2 32 32 == u.clk.cyc) = [(0, 0, slotEntry)]
       ∧ ∀ x ∈ (entries.tick 99).seqNow, ¬ (x.1 = 0 ∧ x.2.1 = 0 ∧ ent x.2.2 0 8 = 0x87 ∧ ent x.2.2 32 32 = 99))
      ∧ entries.run.sig = [] ∧ tabWf entries.t0.sync = true ∧ entries.clk.cyc ≤ 100 ∧ 100 < entries.clk.lenUs * 1900
      ∧ entries.seqNow.filter (fun x => x.1 == 0 && ent x.2.2 0 8 == 0x88 && ent x.2.2 21 2 == 2 && ent x.2.2 8 13 == 5 && ent x.2.2 32 32 == 100)
          = [(0, 0, setEntry)]
      ∧ (∀ x ∈ entries.seqNow, ¬ (x.1 = 0 ∧ ent x.2.2 0 8 = 0x88 ∧ ent x.2.2 21 2 = 2 ∧ ent x.2.2 8 13 = 6 ∧ ent x.2.2 32 32 = 100)) := by decide
/-- A vat of 4,096 bytes, head 4,032 and tail 64 after a wrap: 128 bytes in it. -/
def wrapped : Nat := 2 ^ 9 + 4032 * 2 ^ 32 + 64 * 2 ^ 64 + 2 ^ 85
theorem witness_SequencerEntries_vat :
    wrapped < 2 ^ 86 ∧ vatSize wrapped = 4096 ∧ vatHead wrapped = 4032 ∧ vatTail wrapped = 64 ∧ bit wrapped 53 ≠ bit wrapped 85
      ∧ vatOcc wrapped = 128 ∧ vatOcc wrapped + 3968 ≤ vatSize wrapped
      ∧ (let e := 2 ^ 9 + 64 * 2 ^ 64; bit e 53 = bit e 85 ∧ vatHead e ≤ vatTail e ∧ vatOcc e = 64) := by decide

def signals (n : Nat) : State :=
  { base .running with t0 := { T0.reset with sync := [(5, 9)] }, run := { Run.reset with sig := [⟨5, n, 10, false, none, none, 0⟩, ⟨5, 3, 10, true, none, none, 0⟩, ⟨5, 1, 11, false, none, none, 0⟩] } }
theorem witness_SyncOrder :
    tabWf (signals 4).t0.sync = true ∧ tGet (signals 4).t0.sync (syncKey 0 5) < 2 ^ 32 ∧ 3 + 4 < 2 ^ 32 ∧ 2 ^ 32 ≤ 3 + (2 ^ 32 - 1)
      ∧ tGet ((signals 4).syncCycle (syncKey 0 5) 10).t0.sync 5 = 7
      ∧ tGet ((signals (2 ^ 32 - 1)).syncCycle (syncKey 0 5) 10).t0.sync 5 = 2 ^ 32 - 1 := by decide

theorem witness_BankPower :
    (let u := oneFig.tick 931000; u.dev = .running ∧ u.run.stopped = false ∧ u.clk.lenUs * 1900 - u.clk.rindCyc ≤ u.clk.cyc)
      ∧ (let u := oneFig.tick 930999; u.clk.cyc < u.clk.lenUs * 1900 - u.clk.rindCyc)
      ∧ (let u := ({ oneFig with t0 := { T0.reset with bankDefer := [7] } } : State).tick 949999
         7 ∈ u.t0.bankDefer ∧ 8 ∉ u.t0.bankDefer ∧ u.clk.lenUs * 1900 ≤ u.clk.cyc + 1 ∧ u.figure 16 = some fig1)
      ∧ (oneFig.tick 949998).clk.cyc + 1 < (oneFig.tick 949998).clk.lenUs * 1900 := by decide

def sealing (c : Option Marker) : State :=
  let s := withGraph oneFig paramGraph
  { s with clk := { s.clk with pos := some 63 }, run := { s.run with sealSent := true }, fab := { s.fab with comb := c } }
def mark : Marker := ⟨0, 1, true, true, false, 0, false, false, false, 0, 0, 0⟩
theorem witness_CommitDecision :
    (∀ c ∈ [none, some mark], let u := (sealing c).tick 931000
      u.figsOn = true ∧ u.measuring = true ∧ u.clk.pos = some 63 ∧ 63 + 1 = u.clk.measBeats ∧ u.run.sealSent = true
        ∧ u.clk.lenUs * 1900 - u.clk.rindCyc ≤ u.clk.cyc ∧ u.fab.comb = c)
      ∧ ¬ ((sealing none).tick 930999).clk.lenUs * 1900 - ((sealing none).tick 930999).clk.rindCyc ≤ ((sealing none).tick 930999).clk.cyc := by decide

theorem witness_ErrorsAreStamped :
    (0x0101 / 256 = 1 ∧ 0x0408 / 256 = 4 ∧ 0x0202 / 256 = 2 ∧ 0x0303 / 256 = 3)
      ∧ (let u := (withGraph (runs oneFig) paramGraph).tick 9
         u.dev ≠ .off ∧ u.figure 16 = some fig1 ∧ (u.stat fig1.fid).phase = .running ∧ u.measuring = true ∧ u.run.sealSent = false)
      ∧ (let u := (sealing none).tick 9; u.chargee ⟨0, 0, 0⟩ = none ∧ u.measuring = true ∧ u.run.sealSent = true)
      ∧ (oneFig.tick 9).hasDie 0 = true := by decide

def oneError : ErrRec := ⟨0x0102, ⟨4, 4, 0⟩, 0, 9, 0xFFFFFFFF, 0⟩
theorem witness_ErrorsAreLogged :
    (oneFig.tick 9).err.inFlight = []
      ∧ (let u := ({ oneFig with err := { Errors.reset with inFlight := [oneError] } } : State).tick 9
         u.dev ≠ .off ∧ u.err.inFlight = [oneError] ∧ u.coalesce oneError = none ∧ u.logUnread < 256 ∧ u.err.log.length = 256 ∧ u.err.cur = none
           ∧ 1 ≤ oneError.code / 256 ∧ oneError.code / 256 ≤ 4 ∧ tabWf u.regs = true ∧ u.regs = [])
      ∧ firstErr [oneError, { oneError with cyc := 8 }] = some { oneError with cyc := 8 } := by decide

def entry (code : Nat) : LogEntry := ⟨false, { oneError with code := code }, 1, 0⟩
def withLog (e : Errors) : State := { base .running with err := { e with log := some (entry 0x0102) :: some (entry 0x0408) :: List.replicate 254 none } }
theorem witness_ErrorsAreHandled :
    (let u := (withLog { Errors.reset with wait := [⟨some 0, entry 0x0102, false⟩, ⟨some 1, entry 0x0408, false⟩] }).tick 9
     u.dev ≠ .off ∧ u.err.cur = none ∧ topHandling (u.err.susp ++ u.err.wait) = some ⟨some 1, entry 0x0408, false⟩ ∧ 0x0408 / 256 = 4)
      ∧ (let u := (withLog { Errors.reset with wait := [⟨some 0, entry 0x0102, false⟩] }).tick 9
         topHandling (u.err.susp ++ u.err.wait) = some ⟨some 0, entry 0x0102, false⟩ ∧ 0x0102 / 256 ≠ 4)
      ∧ (let u := (base .running).tick 9; u.err.cur = none ∧ u.err.susp = [] ∧ u.err.wait = [])
      ∧ (∀ k ∈ [0, 1], let e := if k = 0 then entry 0x0102 else entry 0x0408
         let u := (withLog { Errors.reset with cur := some ⟨some k, e, true⟩ }).tick 9
         u.err.cur = some ⟨some k, e, true⟩ ∧ u.logSlot k = some e ∧ k < u.err.log.length ∧ u.dev ≠ .halted ∧ u.host.link = true) := by decide

/-! ## Witnesses: ingest, the fabric, the slow tier, the cellar, tables, device states -/

/-- RUNNING with a graph whose one operation is INGEST (kind 12), PACK 0; micro-batches of 65,536 rows. -/
def feeding : State := withGraph (base .running) { noGraph with ops := [BitVec.ofNat 1024 12] }
/-- A stream of kind 0 of 1,000 bytes. -/
def stream : Stream := ⟨0, BitVec.ofNat 512 (1000 * 2 ^ 128), 0, 0, 0⟩
/-- A transport-stream packet of PID `pid` with continuity counter `k` and payload. -/
def packet (pid k : Nat) : Bytes := [0x47#8, BitVec.ofNat 8 (pid / 256), BitVec.ofNat 8 pid, BitVec.ofNat 8 (16 + k)] ++ List.replicate 184 0#8
def clip : Clip := ⟨0, 0, 0, 0, 100, 0, 90000, [256], 1, 0, 0, false, [(0, false)], [(0, 0, 0)], false, false⟩
theorem witness_IngestFills :
    ((base .running).tick 0).ing.streams = []
      ∧ (let u := ({ feeding with ing := { Ingest.reset with streams := [stream], demux := { Demux.reset with videoPid := some 33, cc := [(33, 4, false)] } } } : State).tick 0
         u.dev ≠ .off ∧ u.ing.streams = stream :: [] ∧ u.filling = true ∧ sdKind stream.desc = 0 ∧ (packet 33 5).length = 188
           ∧ byteAt (packet 33 5) 0 = 0x47 ∧ u.ing.demux.sync = true ∧ u.ing.demux.buf = [] ∧ stream.off + 188 < sdLen stream.desc
           ∧ tsError (packet 0x8000 0) = true ∧ tsError (packet 33 5) = false ∧ tsPid (packet 33 5) = 33 ∧ some 33 ≠ u.ing.demux.pmtPid
           ∧ tsHasPayload (packet 33 5) = true ∧ tsDiscont (packet 33 5) = false ∧ ccOf u.ing.demux 33 = some (4, false)
           ∧ tsCc (packet 33 4) = 4 ∧ tsCc (packet 33 6) ≠ (4 + 1) % 16)
      ∧ some (tsPid (packet 40 6)) ≠ some 33 := by decide
theorem witness_IngestFills_draws :
    (let u := (feeding.tick 0)
     u.dev = .running ∧ u.run.stopped = false ∧ u.hostPack = false ∧ u.plan.graph.any (fun g => g.ingest.isSome) = true ∧ u.ing.carry = none
       ∧ u.ing.draw.clips.length ≤ u.ing.drawn ∧ u.ing.fill.clips = [] ∧ u.clipRows clip + u.ing.open_.rows < u.budget)
      ∧ (let u := ({ feeding with ing := { Ingest.reset with draw := { Deck.reset with clips := [clip], perm := [0] } } } : State).tick 0
         u.ing.carry = none ∧ u.ing.drawn < u.ing.draw.clips.length ∧ u.ing.draw.clips[u.ing.draw.perm.getD u.ing.drawn 0]? = some clip)
      ∧ (({ feeding with ing := { Ingest.reset with carry := some (clip, 7) } } : State).tick 0).ing.carry = some (clip, 7) := by decide

/-- A VG4 module of domain 7 with two seats in dimension 0. -/
def member (d : DevState) : State := put (put (base d) F.LD_DOMAIN_CFG_ID 7) F.LD_TOPO_CFG_DIM0 1
theorem witness_LinksUpDown :
    (let u := (member .running).tick 0
     u.dev ≠ .off ∧ u.fab.ports.length = 18 ∧ u.run.stopped = false ∧ u.portUsable 0 = true ∧ (u.port 0).up = false
       ∧ u.portUsable 8 = false ∧ u.portUsable 16 = false)
      ∧ (((port0 (member .running) upPort).tick 0).port 0).up = true
      ∧ (let u := ((put (member .running) F.LD_TWIN_CFG_ROLE 1).setPort 17 upPort).tick 0; (u.port 17).up = true ∧ u.portUsable 17 = true) := by decide

/-- A control-class flit; a planned flit of layout A with `x` of its header fields. -/
def flit3 : Flit := ⟨BitVec.ofNat 128 (3 * 2 ^ 13 + 10 * 2 ^ 28), 0⟩
def flitA (x : Nat) : Flit := ⟨BitVec.ofNat 128 (2 ^ 28 + x), 0⟩
/-- A card whose one figure is a stage of operation 0 on link die 12 in beat position 0, running. -/
def staging : State :=
  let f : FigProg := ⟨BitVec.ofNat 128 (0xFFFF * 2 ^ 16 + (16 + 12) * 2 ^ 32), [], [], .tpl (BitVec.ofNat 128 (16 * 2 ^ 8)), []⟩
  let s := port0 (member .running) upPort
  State.setStat { s with clk := { s.clk with pos := some 0, measBeats := 64 }
                         plan := { s.plan with card := some ⟨0, [⟨12, 0, [⟨0, [⟨0, [f], []⟩]⟩]⟩], 1, side⟩ } } { FigStat.fresh 28 with phase := .running }
theorem witness_LinkFlits :
    (let u := staging.tick 0
     let p := u.port 0
     p.carries flit3 = true ∧ bits (0#32).toNat 16 10 = p.rxSeq ∧ bits (65536#32).toNat 16 10 ≠ p.rxSeq ∧ flClass flit3 = 3
       ∧ flClass (flitA 0) = 0 ∧ flLayoutA (flitA 0) = true ∧ flBeat (flitA 0) = u.clk.beat % 16 ∧ flBeat (flitA (2 ^ 36)) ≠ u.clk.beat % 16
       ∧ flBit (flitA (2 ^ 41)) 41 = true ∧ flBeat (flitA (2 ^ 41)) = u.clk.beat % 16
       ∧ (u.receivers (u.portLd 0) (flOp (flitA (2 ^ 41)) == Op.verdict)).map (fun g => (g.fid, (u.stat g.fid).phase)) = [(28, .running)]
       ∧ p.up = true ∧ p.out = [] ∧ 0 < u.fab.ports.length ∧ p.nakDue = false ∧ p.since < 128)
      ∧ ((base .running).tick 0).port 0 = Port.reset ∧ Port.reset.carries flit3 = false
      ∧ ({ upPort with hello := true }).carries (flitA 0) = false
      ∧ (let p := ((port0 (base .running) { upPort with since := 128 }).tick 0).port 0; p.up = true ∧ 128 ≤ p.since) := by decide

/-- HELLO of serial 5, port 2, SKU 1, of domain `dom`, dimensions of two seats. -/
def hello (dom : Nat) : BitVec 896 :=
  BitVec.ofNat 896 (5 + dom * 2 ^ 64 + 0xFFF * 2 ^ 96 + 2 * 2 ^ 110 + 2 ^ 115 + 2 ^ 144 + 5 * 2 ^ 192)
def leading (p : Port) : State :=
  let s := port0 (member .running) p
  { s with fab := { s.fab with leader := true, formed := true, members := [⟨0, 0, true⟩] } }
theorem witness_Membership_hello :
    (let u := (leading upPort).tick 0
     let p := u.port 0
     let h := (hello 7).toNat
     u.dev ≠ .off ∧ p.up = true ∧ p.retrained = false ∧ u.fab.ports.length = 18 ∧ tabWf u.regs = true
       ∧ bits (hello 8).toNat 64 32 ≠ u.get F.LD_DOMAIN_CFG_ID ∧ bits h 64 32 = u.get F.LD_DOMAIN_CFG_ID
       ∧ u.portDim (bits h 110 5) = u.portDim 0 ∧ u.portPlus (bits h 110 5) ≠ u.portPlus 0 ∧ u.incompatible h = 0
       ∧ u.fab.lowSerial ≤ bits h 192 64 ∧ u.fab.leader = true ∧ u.fab.formed = true ∧ u.neighbour u.ownSeat (u.portDim 0) (u.portPlus 0) = 1
       ∧ ∀ m ∈ u.fab.members, m.occupied = true → m.seat ≠ 1 ∧ m.serial ≠ bits h 0 64)
      ∧ (let p := ((leading { upPort with retrained := true, peerSerial := 4 }).tick 0).port 0
         p.up = true ∧ p.retrained = true ∧ p.peerSerial ≠ bits (hello 7).toNat 0 64)
      ∧ (((base .running).tick 0).port 0).up = false := by decide
theorem witness_Membership_others :
    (let u := (leading upPort).tick 0
     u.dev = .running ∧ (∃ m ∈ u.fab.members, m.seat = 0 ∧ m.occupied = true) ∧ (∀ m ∈ u.fab.members, m.seat = 1 → m.occupied = false)
       ∧ u.run.sealSent = false ∧ 1 < u.fab.routeNext.length ∧ tabWf (u.fab.routeNext.getD 1 []) = true)
      ∧ (let u := (member .running).tick 0
         u.fab.leader = false ∧ u.get F.LD_DOMAIN_CFG_ID ≠ 0 ∧ u.fab.lowSerial = u.fuses.serial ∧ u.get F.LD_FORM_CFG_SETTLE ≤ u.fab.held)
      ∧ ((base .running).tick 0).get F.LD_DOMAIN_CFG_ID = 0
      ∧ (let u := ({ member .running with fab := { Fabric.reset 0 with formed := true, noLdr := 3 } } : State).tick 0
         u.dev = .running ∧ u.fab.formed = true ∧ u.fab.leader = false ∧ 3 ≤ u.fab.noLdr) := by decide

theorem witness_BeatMarkers :
    (let u := (leading upPort).tick 0
     (u.port 0).up = true ∧ (u.port 0).hello = false ∧ u.fab.leader = true ∧ ({ mark with ldr := false }).ldr = false ∧ u.fab.far < 3)
      ∧ (let u := (port0 (member .running) upPort).tick 0; u.fab.leader = false ∧ mark.ldr = true ∧ u.fab.pendingJoin = false)
      ∧ 4000 < (-4001 : Int).natAbs ∧ ¬ 4000 < (4000 : Int).natAbs
      ∧ 3 ≤ (({ member .running with fab := { Fabric.reset 0 with far := 3, pendingJoin := true } } : State).tick 0).fab.far := by decide

def tile : AccWrite := ⟨0, 0, 5, List.replicate 1024 fZero, 3, false, false, 16, 0⟩
theorem witness_SlowWrites :
    tile.vals.length = 1024
      ∧ (let u := ({ base .running with run := { Run.reset with acc := [tile, { tile with src := 1, beat := 9 }] } } : State).tick 0
         u.dev ≠ .off ∧ (u.run.acc.find? (fun a => a.src == 0 && a.mu == 0)).isSome = true ∧ tile.beat = u.clk.beat
           ∧ ((u.run.acc.find? (fun a => a.src == 1 && a.mu == 0)).map fun a => a.beat) = some 9 ∧ u.clk.beat ≠ 9
           ∧ (u.run.acc.find? (fun a => a.src == 2 && a.mu == 0)).isSome = false)
      ∧ (base .running).touched (granKey 0 5) = false ∧ ((base .running).touch (granKey 0 5)).touched (granKey 0 5) = true
      ∧ memWf (base .running).t1.pair = true ∧ tabWf (base .running).t1.cnt = true ∧ tabWf (base .running).t1.touch0 = true
      ∧ (base .running).winner 0 false [⟨0, 3, 5⟩, ⟨0, 2, 4⟩, ⟨0, 1, 4⟩] = some ⟨0, 1, 4⟩
      ∧ (base .running).winner 0 true [⟨0, 3, 5⟩, ⟨0, 2, 4⟩] = some ⟨0, 2, 4⟩
      ∧ ((base .running).tick 0).nMu = 8 ∧ ((base .negotiated).tick 0).dev ≠ .running := by decide
theorem witness_SlowWrites_starves :
    (let u := ({ base .running with t1 := { T1.reset with req := [⟨chKey 1 3, 2, 0⟩] } } : State).tick 1
     u.t1.req.find? (fun r => r.key == chKey 1 3 && r.req == 2) = some ⟨chKey 1 3, 2, 0⟩ ∧ u.vg4 = true
       ∧ u.get (F.MU_ARB_CFG_STARVE_US.mu 1) * 1900 < u.clk.base + u.clk.cyc - 0 ∧ bit (u.get (F.MU_ARB_STARVE_FLAG.mu 1)) 2 = false ∧ u.evqOn = false)
      ∧ (vg2 (base .running)).vg4 = false := by decide

theorem witness_SlowChecks :
    (let u := ({ base .running with t1 := { T1.reset with mr4 := [1, 1, 0, 0, 0, 0, 0, 0], extraLog := [1] } } : State).tick 0
     u.dev ≠ .off ∧ 7 < u.nMu ∧ u.t1.mr4.getD 2 0 ≤ u.get (F.MU_REF_CFG_RATE.mu 2) ∧ u.get (F.MU_REF_CFG_RATE.mu 1) < u.t1.mr4.getD 1 0 ∧ 1 ∈ u.t1.extraLog
       ∧ u.get (F.MU_REF_CFG_RATE.mu 0) < u.t1.mr4.getD 0 0 ∧ 0 ∉ u.t1.extraLog)
      ∧ ((vg2 (base .running)).tick 0).nMu ≤ 4 := by decide

def cut (left : List Nat) : Cut := ⟨5, 4, 1, 0, 0, 0, 1, [], [⟨0, left, true⟩, ⟨1, [3], true⟩], [], [], 0, 0⟩
theorem witness_SnapshotsComplete :
    (∀ l ∈ [[], [9]], let u := ({ base .running with cel := { Cellar.reset with open_ := some (cut l) } } : State).tick 0
      u.dev ≠ .off ∧ u.cel.open_ = some (cut l) ∧ ((∀ r ∈ (cut l).readers, r.kind = 0 → r.left = []) ↔ l = []) ∧ tabWf u.regs = true ∧ u.evqOn = false
        ∧ u.cel.readOnly = false ∧ u.dev ≠ .boot)
      ∧ ((base .running).tick 0).cel.open_ = none ∧ ((base .running).tick 0).cel.reports = []
      ∧ (let s := leading upPort; let u := ({ s with cel := { Cellar.reset with reports := [(0, 5)] } } : State).tick 0
         u.fab.leader = true ∧ u.cel.reports.getLast? = some (0, 5) ∧ u.evqOn = false) := by decide

theorem witness_Patterns24 :
    0x33CC < 65536 ∧ tMask24 (BitVec.ofNat 512 (2 ^ 15)) = true ∧ patternAt 0 = some 0x33CC
      ∧ (base .running).wcPattern place (BitVec.ofNat 512 (2 + 2 * 2 ^ 4 + 2 ^ 15 + 64 * 2 ^ 32 + 32 * 2 ^ 64)) 0 2 = some 0x33CC := by decide

theorem witness_Banks : bankOf true 0x1240 = 9 % 16 ^^^ 4 ∧ bankOf false 0x1240 = bankOf false 0x0240 ∧ (5 : Nat) < 2048 ∧ (7 : Nat) < 16 := by decide

/-- A step that answers a next state in device state `d`. -/
def steppedTo (c : Instr) (s : State) (d : DevState) : Bool := match step { s with pending := [c] } with
  | .next t => t.dev == d
  | _ => false
theorem witness_DeviceStates :
    steppedTo (.pwrgdFall 0) (base .running) .off = true ∧ steppedTo (.stop 0 0) (cmd (base .running) (desc 6 0 0 0 0 0 0)) .draining = true
      ∧ steppedTo (.bootComplete 0) { base .boot with boot := { State.reset.boot with trained := true } } .unconfigured = true
      ∧ steppedTo (.drainToHalt 0) (base .draining) .halted = true := by decide

/-! ## Witnesses: further clauses of the beat, figures, errors, ingest, the fabric and the slow tier -/

/-- A boot of a fabric-preserving reset in a formed domain. -/
theorem witness_BeatEdges_fabric :
    (let s := ({ base .boot with boot := { State.reset.boot with kind := .fabric }, fab := { Fabric.reset 0 with formed := true } } : State)
     s.clk.ticking = true ∧ s.dev = .boot ∧ s.boot.kind = .fabric ∧ s.fab.formed = true)
      ∧ (let s := oneFig; s.dev = .running ∧ s.clk.pos = some 0 ∧ s.run.tailOnly = false ∧ s.figsOn = true
          ∧ ∃ f ∈ s.figsNow, s.waitsToStart f = true ∧ s.skips f = false) ∧ (base .off).dev = .off := by decide
/-- What the environment says of a figure whose iteration is beyond the count, and of one whose loop exceeds its bound. -/
def beyond : FigEnv := { noEnv with beyondCount := true }
def bound : FigEnv := { noEnv with boundExceeded := true }
/-- A second figure of the same queue runs; a DEP on a figure of an earlier beat with no yield. -/
theorem witness_FiguresStart_clauses :
    (oneFig.tick 0).figure 32 = none ∧ ((runs oneFig).tick 0).waitsToStart (placed (copyFig 1 0 0)) = false
      ∧ (2 < (placed (copyFig 1 3 0)).cond) ∧ beyond.beyondCount = true ∧ bound.boundExceeded = true
      ∧ (let u := oneFig.tick 0; let f := placed (copyFig 1 0 0); u.passWaits f = false ∧ u.instant f = false)
      ∧ (let u := ((onCard [{ copyFig 1 0 0 with fig := figEntry 1 0 0 3 0 }] []).tick 0)
         ¬ (3 ∈ u.run.mbDrop) ∧ 3 ∈ ({ u.run with mbDrop := [3] } : Run).mbDrop)
      ∧ (let u := (runs (onCard [copyFig 1 0 0, copyFig 2 0 0] [])).tick 0
         let f := placed (copyFig 2 0 0)
         u.figure 32 = some f ∧ u.waitsToStart f = true ∧ u.skips f = false ∧ u.cascaded f = false ∧ u.queueFree f = false) := by decide
theorem witness_DropsAreCounted_sealed :
    (let s := { oneFig with run := { oneFig.run with sealSent := true } }; s.run.sealSent = true ∧ (s.stat fig1.fid).phase ≠ .dropped)
      ∧ ((oneFig.drop fig1 .cascade).stat fig1.fid).phase = .dropped ∧ (∀ j, tGet oneFig.regs j < 2 ^ 32) :=
  ⟨by decide, by decide, fun _ => (by decide : 0 < 2 ^ 32)⟩
theorem witness_CopiesBetweenSlices_clauses :
    (let d := dmaBody 2 0 (1 + 5 * 4 + 7 * 4096) 0; dmSrc d = 2 ∧ dmDst d = 0 ∧ bits (dmSa d) 0 2 = 1 ∧ bits (dmSa d) 2 10 = 5 ∧ bits (dmSa d) 12 15 = 7)
      ∧ ({ oneFig with t0 := { oneFig.t0 with bankOff := [0] } } : State).offLines 0 0 0 1 = true ∧ oneFig.offLines 0 0 0 1 = false
      ∧ (oneFig.t0Mark 0 0 0 1 true).t0Poisoned 0 0 0 1 = true ∧ oneFig.t0Poisoned 0 0 0 1 = false := by decide
theorem witness_FiguresComplete_clauses :
    (oneFig.tick 9).figure 32 = none ∧ ((runs oneFig).tick 9).bodyDone fig1 = true
      ∧ ({ runs oneFig with run := { (runs oneFig).run with noData := [16] } } : State).bodyDone fig1 = false
      ∧ (oneFig.tick 9).t0.vatWait.find? (fun w => w.key == vatKey 0 0 0) = none ∧ ((base .halted).tick 9).dev = .halted
      ∧ ({ base .running with run := { Run.reset with stopped := true } } : State).run.stopped = true
      ∧ ((popping 0).tick 9).vatRefuses 16 (vatKey 0 0 0) 64 false = true ∧ ((popping 64).tick 9).vatRefuses 16 (vatKey 0 0 0) 64 false = false := by decide
theorem witness_SequencerEntries_clauses :
    (let u := entries.tick 100
     u.seqNow.find? (fun x => x.1 == 0 && x.2.1 == 0 && ent x.2.2 0 8 == 0x87 && ent x.2.2 32 32 == u.clk.cyc) = some (0, 0, slotEntry))
      ∧ (let v := entries.tick 99
         v.clk.cyc ≤ 100 ∧ v.run.stopped = false
           ∧ v.seqNow.find? (fun x => x.1 == 0 && ent x.2.2 0 8 == 0x88 && ent x.2.2 21 2 == 2 && ent x.2.2 8 13 == 5 && ent x.2.2 32 32 == 100) = some (0, 0, setEntry)
           ∧ v.seqNow.find? (fun x => x.1 == 0 && ent x.2.2 0 8 == 0x88 && ent x.2.2 21 2 == 2 && ent x.2.2 8 13 == 6 && ent x.2.2 32 32 == 100) = none)
      ∧ ¬ (({ entries with run := { entries.run with stopped := true } } : State).tick 64).run.stopped = false := by decide
/-- Hub object 3 armed at 5, brought to 5 and to 4 by a signal. -/
def arming (n : Nat) : State :=
  { base .running with t0 := { T0.reset with armed := [(3, 5)] }, run := { Run.reset with sig := [⟨15 * 8192 + 3, n, 10, false, none, none, 0⟩] } }
theorem witness_SyncOrder_hub :
    tabWf (arming 5).t0.hub = true ∧ tabWf (arming 5).t0.sync = true ∧ (arming 5).syncGet (15 * 8192 + 3) < 2 ^ 32
      ∧ (arming 5).t0.armed.find? (fun a => a.1 == 15 * 8192 + 3 - 15 * 8192) = some (3, 5)
      ∧ ((arming 5).syncCycle (15 * 8192 + 3) 10).t0.armed = [] ∧ ((arming 4).syncCycle (15 * 8192 + 3) 10).t0.armed = [(3, 5)]
      ∧ syncKey 3 5 < 4 * 8192 ∧ ¬ 15 * 8192 ≤ syncKey 3 5 := by decide
theorem witness_BankPower_clauses :
    ¬ (({ oneFig with run := { oneFig.run with stopped := true } } : State).tick 931000).run.stopped = false
      ∧ (oneFig.tick 949999).figure 99 = none ∧ (some 16 : Option Nat) = some 16 ∧ fig1.fid = 16 := by decide
theorem witness_ErrorsAreStamped_clauses :
    ((base .boot).tick 9).dev = .boot ∧ 0 < ((base .boot).tick 9).clk.lenUs ∧ ((vg2 oneFig).tick 9).hasDie 3 = false
      ∧ (oneFig.tick 9).linkPorts 0 ≤ 9 ∧ 0 < (oneFig.tick 9).linkPorts 0 ∧ ((oneFig.tick 9).stat fig1.fid).phase ≠ .running := by decide
theorem witness_ErrorsAreLogged_clauses :
    (let u := ({ oneFig with err := { Errors.reset with inFlight := [oneError], log := some ⟨false, oneError, 1, 0⟩ :: List.replicate 255 none },
                             regs := fset [] F.ERR_LOG_TAIL_COUNT 1 } : State).tick 9
     u.coalesce oneError = some 0 ∧ u.err.log.length = 256 ∧ tabWf u.regs = true)
      ∧ (let s : State := { oneFig with err := { Errors.reset with inFlight := [oneError], log := List.replicate 256 (some ⟨false, { oneError with src := ⟨5, 4, 0⟩ }, 1, 0⟩) },
                                        regs := fset [] F.ERR_LOG_TAIL_COUNT 256 }
         256 ≤ s.logUnread ∧ s.coalesce oneError = none ∧ s.coalesce { oneError with code := 0x0301 } = none
           ∧ (s.unreadSlots.reverse.find? fun k => (s.logSlot k).any fun l => l.err.code / 256 - 1 == 0) = some 0)
      ∧ (let h : Handling := ⟨some 0, ⟨false, { oneError with code := 0x0408 }, 1, 0⟩, true⟩
         (some h).map (fun h => h.entry.err.code / 256 - 1) = some 3)
      ∧ 0x0408 / 256 - 1 = 3 ∧ 0x0102 / 256 - 1 < 3 := by decide +kernel
theorem witness_ErrorsAreHandled_clauses :
    (let u := (withLog { Errors.reset with cur := some ⟨none, entry 0x0408, true⟩ }).tick 9
     u.err.cur = some ⟨none, entry 0x0408, true⟩ ∧ u.err.cur.bind (·.slot) ≠ some 1 ∧ u.dev ≠ .halted ∧ tabWf u.regs = true)
      ∧ ({ withLog { Errors.reset with cur := some ⟨some 1, entry 0x0408, true⟩ } with dev := .halted } : State).dev = .halted
      ∧ ({ withLog Errors.reset with host := HostIf.reset } : State).host.link = false := by decide

/-- Out of sync, with sync bytes at 3, 191 and 379; with a first byte other than 0x47. -/
def outOf : Bytes := List.replicate 3 0#8 ++ packet 33 5 ++ packet 33 6 ++ packet 33 7
def demuxing (sync : Bool) (b : Bytes) : State := { feeding with ing := { Ingest.reset with demux := { Demux.reset with sync := sync, buf := b } } }
theorem witness_IngestFills_sync :
    (let v := demuxing false outOf
     v.ing.demux.sync = false ∧ 3 + 376 < v.ing.demux.buf.length ∧ byteAt v.ing.demux.buf 3 = 0x47 ∧ byteAt v.ing.demux.buf 191 = 0x47 ∧ byteAt v.ing.demux.buf 379 = 0x47
       ∧ ∀ q, q < 3 → ¬ (byteAt v.ing.demux.buf q = 0x47 ∧ byteAt v.ing.demux.buf (q + 188) = 0x47 ∧ byteAt v.ing.demux.buf (q + 376) = 0x47))
      ∧ (let v := demuxing true outOf; v.ing.demux.sync = true ∧ 188 ≤ v.ing.demux.buf.length ∧ byteAt v.ing.demux.buf 0 ≠ 0x47)
      ∧ (demuxing true []).ing.demux.buf.length < 188 ∧ tabWf (demuxing true []).regs = true := by decide +kernel
/-- A packet that starts a PES, and one of the teletext PID. -/
def startPacket (pid k : Nat) : Bytes := [0x47#8, BitVec.ofNat 8 (64 + pid / 256), BitVec.ofNat 8 pid, BitVec.ofNat 8 (16 + k)] ++ List.replicate 184 0#8
theorem witness_IngestFills_packets :
    (let v : State := { feeding with ing := { Ingest.reset with demux := { Demux.reset with videoPid := some 33, ttxPid := some 40, cc := [(33, 4, false), (40, 4, true)] } } }
     tsStart (startPacket 33 7) = true ∧ tsStart (packet 33 7) = false ∧ tsPid (startPacket 33 7) = 33 ∧ tsHasPayload (startPacket 33 7) = true
       ∧ ccOf v.ing.demux 40 = some (4, true) ∧ some (tsPid (packet 40 4)) = v.ing.demux.ttxPid ∧ some (tsPid (packet 40 4)) ≠ v.ing.demux.videoPid
       ∧ tsCc (packet 40 4) ≠ (4 + 1) % 16 ∧ ¬ (4 = tsCc (packet 40 4) ∧ true = false) ∧ 4 = tsCc (packet 33 4)) := by decide
/-- The interlaced archive: 512 × 288, patch 16, TUBE_T 2, 8 frames a second. -/
def archive : State := withGraph (base .running) { noGraph with ops := [BitVec.ofNat 1024 (12 + (2 ^ 6 + 2 * 2 ^ 8 + 512 * 2 ^ 32 + 288 * 2 ^ 48 + 8000 * 2 ^ 64) * 2 ^ 512)] }
/-- The filling deck holds one clip and the drawing deck none; a micro-batch one row short of full. -/
theorem witness_IngestFills_decks :
    (let s : State := { feeding with ing := { Ingest.reset with fill := { Deck.reset with clips := [clip] } } }
     let u := s.tick 0
     let v := (if u.fillFull = true then u else u.count F.ING_DECK_EARLY_COUNT 1).switchDeck u.ing.skip
     u.ing.carry = none ∧ u.ing.draw.clips.length ≤ u.ing.drawn ∧ u.ing.fill.clips ≠ [] ∧ u.ing.exchPending = false ∧ u.ing.recut = none
       ∧ v.ing.drawn < v.ing.draw.clips.length ∧ v.ing.draw.clips[v.ing.draw.perm.getD v.ing.drawn 0]? = some clip)
      ∧ (let u : State := { archive with ing := { Ingest.reset with open_ := { Pack.reset with rows := archive.budget } } }
         u.clipRows { clip with dur := 90000 } ≤ u.budget ∧ u.budget < u.clipRows { clip with dur := 90000 } + u.ing.open_.rows)
      ∧ ¬ (({ feeding with run := { Run.reset with stopped := true } } : State).tick 0).run.stopped = false
      ∧ (let u := ({ feeding with ing := { Ingest.reset with exchPending := true } } : State).tick 0; u.ing.exchPending = true) := by decide

theorem witness_LinksUpDown_fails :
    (((port0 (member .running) upPort).tick 0).port 0).fails = 0 ∧ 0 < (((port0 (member .running) { upPort with fails := 1 }).tick 0).port 0).fails
      ∧ tabWf ((port0 (member .running) upPort).tick 0).regs = true ∧ ((port0 (member .running) upPort).tick 0).fab.ports.length = 18 := by decide
/-- A flit of layout B for seat 1, with a table that sends it out of port 0; a planned flit with VOID of this beat. -/
def routed : State := let s := port0 (member .running) upPort
  { s with fab := { s.fab with route := [[(1, 0), (2, 31)], [], [], []] } }
theorem witness_LinkFlits_forward :
    (let w := routed.tick 0
     let f : Flit := ⟨BitVec.ofNat 128 (2 ^ 13 * 2 + 1), 0⟩
     flBit f 12 = false ∧ w.fab.route.getD (w.portLd 0) [] ≠ [] ∧ tGet (w.fab.route.getD (w.portLd 0) []) 1 ≠ 31)
      ∧ (let u := (staging.setStat (FigStat.fresh 28)).tick 0
         (u.receivers (u.portLd 0) (flOp (flitA (2 ^ 41)) == Op.verdict)).map (fun g => (g.fid, (u.stat g.fid).phase)) = [(28, .waiting)]) := by decide

/-- HELLO of an incompatible device (SKU 3), of one miscabled (port 3 of the same direction), and of one with seat 0. -/
def hello2 (port sku seat : Nat) : BitVec 896 :=
  BitVec.ofNat 896 (5 + 7 * 2 ^ 64 + seat * 2 ^ 96 + port * 2 ^ 110 + sku * 2 ^ 115 + 2 ^ 144 + 5 * 2 ^ 192)
theorem witness_Membership_refused :
    (let u := (leading upPort).tick 0
     (u.port 0).held = false ∧ u.incompatible (hello2 2 3 0xFFF).toNat ≠ 0
       ∧ ¬ (u.portDim (bits (hello2 0 1 0xFFF).toNat 110 5) = u.portDim 0 ∧ u.portPlus (bits (hello2 0 1 0xFFF).toNat 110 5) ≠ u.portPlus 0)
       ∧ (∀ m ∈ u.fab.members, m.serial < 2 ^ 64) ∧ u.hasMember 0 = true ∧ u.hasMember 1 = false ∧ u.dev = .running)
      ∧ (let u := (put (port0 (member .running) upPort) F.LD_SEAT_SEAT 0xFFF).tick 0
         u.fab.leader = false ∧ u.seat = 0xFFF ∧ bits (hello2 2 1 0).toNat 96 12 ≠ 0xFFF ∧ u.incompatible (hello2 2 1 0).toNat = 0 ∧ u.fab.formed = false)
      ∧ (({ member .running with fab := { Fabric.reset 0 with formed := true } } : State).tick 0).fab.formed = true
      ∧ ¬ (((base .halted).tick 0).dev = .running ∨ ((base .halted).tick 0).dev = .draining) := by decide
/-- A seat that missed the swap marker, at the first beat of a measure, with the next card. -/
theorem witness_BeatMarkers_swapMiss :
    (let s := withGraph (port0 oneFig upPort) paramGraph
     let u := ({ s with run := { s.run with swapMiss := true }, plan := { s.plan with next := s.plan.card } } : State).tick 0
     u.fab.leader = false ∧ u.run.swapMiss = true ∧ u.fab.pendingJoin = false ∧ u.clk.pos = some 0 ∧ u.measuring = true ∧ u.plan.next.isSome = true
       ∧ (u.port 0).up = true ∧ (u.port 0).hello = false ∧ ({ mark with swapped := true } : Marker).beat = u.clk.beat)
      ∧ mark.ldr = true ∧ ((leading upPort).tick 0).fab.leader = true := by decide
/-- A card that earmarks a slot of channel 0 for requester 2; the rind before a change of rate; a tile with an infinity. -/
theorem witness_SlowWrites_clauses :
    (let s := oneFig
     let u := ({ s with plan := { s.plan with card := s.plan.card.map fun c => { c with side := { side with earmarks := [(chKey 0 0, 0, 5, 2)] } } } } : State).tick 0
     u.earmarked (chKey 0 0) 2 = true ∧ u.earmarked (chKey 0 0) 3 = false ∧ u.switching = false ∧ u.dev = .running
       ∧ ([⟨chKey 0 0, 2, 5⟩] : List ArbReq).find? (fun r => r.req == 2) = some ⟨chKey 0 0, 2, 5⟩)
      ∧ (([fInf false] : List Word32).any fNonfin) = true ∧ (tile.vals.any fNonfin) = false
      ∧ ((base .running).tick 0).t1.req.find? (fun r => r.key == chKey 1 3 && r.req == 2) = none := by decide
theorem witness_SlowChecks_clauses :
    ¬ (((base .halted).tick 0).dev = .running ∨ ((base .halted).tick 0).dev = .draining) ∧ pairLine 3 (2 ^ 32 + 5 * 128 + 64) = some (granKey 3 5, 1)
      ∧ pairLine 3 (2 ^ 32 - 1) = none ∧ (2 ^ 32 - 1 < 2 ^ 32) ∧ ((base .halted).tick 0).dev ≠ .off := by decide
theorem witness_SnapshotsComplete_nand :
    ((base .boot).tick 0).dev = .boot ∧ (({ base .running with cel := { Cellar.reset with readOnly := true } } : State).tick 0).cel.readOnly = true
      ∧ ((base .running).tick 0).cel.readOnly = false := by decide
theorem witness_StoresStayCanonical : State.reset.canonical = true ∧ (base .running).canonical = true ∧ (oneFig.canonical = true) := by decide +kernel

/-! ## Witnesses: clauses about taking back writes, vector bodies that wait, the window, arbiters, links and markers -/

/-- A vector body that waits for object 0 to reach 1, and one that has taken its only step. -/
def stalled (k : Nat) : State := (onCard [{ copyFig 1 0 0 with body := .vec [wait1] }] []).setStat { FigStat.fresh 16 with phase := .running, at_ := k }
theorem witness_TickMovesTime_clauses :
    (stalled 1).running.length = 1 ∧ (∀ x ∈ (stalled 1).running, (stalled 1).stepsLeft x = []) ∧ (∃ x ∈ (stalled 0).running, (stalled 0).stepsLeft x ≠ [])
      ∧ (stalled 0).run.sig = [] ∧ (stalled 0).t1.req = [] := by decide
/-- Figure 16 has written byte 64 of its slice, from 0 to 5. -/
def wrote : State := { runs oneFig with t0 := { T0.reset with mem := [(64, 5#8)] }, run := { (runs oneFig).run with undo := [⟨16, 0, [(64, 0#8, 5#8)]⟩] } }
theorem witness_DropsAreCounted_writes :
    memWf wrote.t0.mem = true ∧ (∃ x ∈ wrote.run.undo, x.fid = fig1.fid ∧ x.space = 0 ∧ ∃ c ∈ x.cells, c.1 = 64 ∧ mGet wrote.t0.mem 64 = c.2.2)
      ∧ (∀ x ∈ oneFig.run.undo, x.fid ≠ fig1.fid) ∧ (wrote.stat fig1.fid).phase ≠ .dropped ∧ tabWf wrote.regs = true := by decide
theorem witness_CopiesBetweenSlices_length : bits (dmaBody 0 0 0 1).toNat 8 24 ≤ 32768 ∧ memWf wrote.t0.mem = true := by decide
theorem witness_FiguresComplete_serves :
    (let u := (popping 64).tick 9
     let w : VatWait := ⟨0, 16, false, 64, 0⟩
     u.t0.vatWait = [] ++ w :: [] ∧ w.key = vatKey 0 0 0 ∧ u.dev ≠ .halted ∧ u.run.stopped = false
       ∧ u.figure w.fid = some { fig1 with body := .dma (dmaBody 1 0 0 1) } ∧ u.vatRefuses 16 w.key w.bytes w.push = false)
      ∧ (let u := (popping 0).tick 9; u.figure 16 = some { fig1 with body := .dma (dmaBody 1 0 0 1) } ∧ u.vatRefuses 16 (vatKey 0 0 0) 64 false = true) := by decide
/-- Micro-batch 3 is dropped: its figure 16 at cycle 0 was, its figure 32 is planned at cycle 200. -/
theorem witness_FiguresStart_mates :
    (let later := { copyFig 2 0 200 with fig := figEntry 2 0 0 3 200 }
     let s := onCard [{ copyFig 1 0 0 with fig := figEntry 1 0 0 3 0 }, later] []
     let u := ({ s.setStat { FigStat.fresh 16 with phase := .dropped } with run := { (s.setStat { FigStat.fresh 16 with phase := .dropped }).run with mbDrop := [3] } } : State).tick 200
     let f := placed later
     u.figure 32 = some f ∧ u.waitsToStart f = true ∧ f.start ≤ u.clk.cyc ∧ u.skips f = false ∧ f.deps = [] ∧ u.mbCut f = true ∧ u.unyielded f = false) := by decide
theorem witness_SequencerEntries_now :
    (let v := ({ entries with clk := { entries.clk with cyc := 100 } } : State).tick 99
     v.clk.cyc = 100 ∧ v.dev = .running
       ∧ v.seqNow.find? (fun x => x.1 == 0 && ent x.2.2 0 8 == 0x88 && ent x.2.2 21 2 == 2 && ent x.2.2 8 13 == 5 && ent x.2.2 32 32 == 100) = some (0, 0, setEntry))
      ∧ (entries.tick 99).clk.cyc < 100 ∧ entries.t1.req = [] ∧ entries.running = [] := by decide
theorem witness_SyncOrder_late :
    (let s : State := { base .running with run := { Run.reset with sigDone := [⟨5, 4, 0, false, none, none, 0⟩] } }
     (s.run.sigDone.filter fun g => g.key == 5 && g.due == s.clk.cyc).length = 1 ∧ (s.syncSetNow 5 7).syncGet 5 = 11) := by decide
/-- A window of 16 MiB; two accesses of line 0, which lies on die 0. -/
def windowed : State := { put (base .running) F.HUB_WIN_CFG_SIZE_MIB 16 with t1 := { T1.reset with cxl := [⟨true, 0, 9⟩, ⟨false, 0, 0⟩] } }
theorem witness_WindowAccess_grants :
    (let ch := (windowed.winAddr 0).2 / 1024 % 24
     ((windowed.t1.cxl.filter fun x => (windowed.winAddr x.line).1 == 0 && (windowed.winAddr x.line).2 / 1024 % 24 == ch).take 16).length = 2)
      ∧ 262143 < windowed.get F.HUB_WIN_CFG_SIZE_MIB * 2 ^ 14 ∧ windowed.get F.HUB_WIN_CFG_SIZE_MIB * 2 ^ 20 / windowed.nMu ≤ 186 * 2 ^ 30
      ∧ windowed.plan.migr = [] ∧ memWf windowed.t1.mem = true ∧ tabWf windowed.regs = true
      ∧ ((base .negotiated).tick 0).host.link = true ∧ ((base .negotiated).tick 0).dev ≠ .running := by decide +kernel
theorem witness_ParameterAccess_lost :
    (let u := (withGraph (base .running) paramGraph).tick 0
     tFrozen param = false ∧ u.current (granKey 0 0) = none ∧ dW (readDesc 0x41 2) 3 ≠ 0)
      ∧ (let u := (put (withGraph (base .running) paramGraph) F.PLC_STEP_T 1).tick 0; u.current (granKey 0 0) = some 0) := by decide
/-- A request of requester 2 on channel 3 of die 1 that has waited 100,000 cycles. -/
def starved : State := { put (base .running) (F.MU_ARB_CFG_STARVE_US.mu 1) 50 with clk := { (base .running).clk with cyc := 100000 }, t1 := { T1.reset with req := [⟨chKey 1 3, 2, 0⟩] } }
theorem witness_ClearBits_starving :
    starved.starving 1 2 = some ⟨chKey 1 3, 2, 0⟩ ∧ starved.starving 1 3 = none ∧ starved.vg4 = true ∧ bit 4 2 = true ∧ tabWf starved.t0.sticky = true := by decide
/-- The rind of a phrase's last beat, with a card of another rate to come. -/
def switchingOver : State :=
  let c : Card := ⟨0, [], 1, side⟩
  { oneFig with clk := { oneFig.clk with pos := some 0, measBeats := 1, phraseLen := 1, phrPos := 0, cyc := oneFig.clk.rindStart }
                plan := { oneFig.plan with card := some c, next := some { c with hdr := BitVec.ofNat 512 (2 ^ 119) }, swapBit := true } }
theorem witness_SlowWrites_grants :
    (let r : ArbReq := ⟨chKey 1 3, 2, 0⟩; r ∈ starved.t1.req ∧ r.req < 7 ∧ tabWf starved.regs = true)
      ∧ ((runs oneFig).tick 0).stat 16 = { FigStat.fresh 16 with phase := .running } ∧ ((runs oneFig).tick 0).switching = false
      ∧ (let s := (base .running).touch (granKey 0 5); s.touched (granKey 0 5) = true ∧ s.measuring = false ∧ s.run.sealSent = false)
      ∧ (withGraph oneFig paramGraph).measuring = true ∧ tabWf (base .running).regs = true := by decide
theorem witness_SlowChecks_channels :
    (let u := ({ base .running with t1 := { T1.reset with reread := [t1Line 1 16], mr4 := [101, 100, 0, 0, 0, 0, 0, 0] } } : State).tick 0
     t1Line 1 16 ∈ u.t1.reread ∧ t1Line 1 17 ∉ u.t1.reread ∧ 16 / 16 % 24 = 1 ∧ u.switching = false ∧ tabWf u.regs = true
       ∧ 100 * 2 ^ u.get (F.MU_REF_CFG_RATE.mu 0) < u.t1.mr4.getD 0 0 ∧ u.t1.mr4.getD 1 0 ≤ 100 * 2 ^ u.get (F.MU_REF_CFG_RATE.mu 1) ∧ 0 ∉ u.t1.extraLog) := by decide
/-- Port 0 owes a NAK; it has sent 127 flits; it holds a waiting flit of class 0. -/
theorem witness_LinkFlits_clauses :
    (let u := (port0 (member .running) { upPort with nakDue := true }).tick 0; (u.port 0).up = true ∧ (u.port 0).nakDue = true)
      ∧ (let u := (port0 (member .running) { upPort with since := 127 }).tick 0; (u.port 0).nakDue = false ∧ (u.port 0).since < 128)
      ∧ (let u := (port0 (member .running) { upPort with out := [(0, flitA 0)] }).tick 0; (u.port 0).out = [(0, flitA 0)] ∧ (u.port 0).up = true ∧ 0 < u.fab.ports.length)
      ∧ (let u := (port0 (member .running) upPort).tick 0; (u.port 0).out = [] ∧ (u.port 0).up = true)
      ∧ ((member .running).tick 0).port 0 = Port.reset ∧ Port.reset.up = false
      ∧ (let u := (port0 (member .running) upPort).tick 0
         let f : Flit := ⟨BitVec.ofNat 128 (2 ^ 14), 0⟩
         (u.port 0).carries f = true ∧ flClass f = 2 ∧ flDest f = u.seat ∧ u.ing.exchPending = false ∧ bits (0#32).toNat 16 10 = (u.port 0).rxSeq)
      ∧ (let w := routed.tick 0; tGet (w.fab.route.getD (w.portLd 0) []) 2 = 31)
      ∧ upPort.credits.getD 0 0 ≠ 0 ∧ upPort.out = [] ∧ ({ upPort with credits := [0, 0, 0, 0] }).credits.getD 0 0 = 0 := by decide
theorem witness_BeatMarkers_clauses :
    (let u := (port0 (member .running) upPort).tick 0
     (u.port 0).up = true ∧ (u.port 0).hello = false ∧ u.fab.leader = false ∧ u.run.swapMiss = false ∧ tabWf u.regs = true ∧ u.fab.pendingJoin = false)
      ∧ (let s := port0 (member .running) upPort
         let u := ({ s with fab := { s.fab with pendingJoin := true } } : State).tick 0
         (u.port 0).up = true ∧ u.fab.leader = false ∧ u.fab.pendingJoin = true)
      ∧ ((member .running).tick 0).port 0 = Port.reset ∧ (let u := (port0 (member .running) { upPort with hello := true }).tick 0; (u.port 0).up = true ∧ (u.port 0).hello = true)
      ∧ (let u := ({ base .boot with fab := { Fabric.reset 0 with far := 3 } } : State).tick 0; u.dev = .boot ∧ 3 ≤ u.fab.far)
      ∧ (let u := ({ base .running with fab := { Fabric.reset 0 with far := 3 } } : State).tick 0; u.dev ≠ .boot ∧ 3 ≤ u.fab.far)
      ∧ ((base .running).tick 0).fab.far < 3 := by decide
theorem witness_SlowWrites_switching : switchingOver.switching = true ∧ (switchingOver.tick 0).switching = true ∧ switchingOver.dev = .running := by decide
/-- A frozen parameter of two elements: its working copy is what PARAM_READ reads. -/
theorem witness_ParameterAccess_frozen :
    (let t : BitVec 512 := BitVec.ofNat 512 (3 * 2 ^ 9 + 2 * 2 ^ 32 + 2 ^ 64 + 2 ^ 96 + 2 ^ 128 + 2 ^ 160 + 2 ^ 192)
     tFrozen t = true ∧ (base .running).frozenPieces place t 0 2 ≠ []) := by decide

/-! ## Values from the manual's own tables and worked examples -/

/-- Table 5.7: eight masters under the default codebook with s = 0.5 take codes 12, 1, 15, 8, 10, 7, 11, 0. -/
theorem test_encode_table_5_7 :
    [0x3E800000#32, 0xBED80000#32, 0x3F180000#32, 0x00000000#32, 0x3DC00000#32, 0xBD000000#32, 0x3E200000#32, 0xBF100000#32].map
      (fun w => (encode1 w 0x3F000000#32 defaultC4 false).1) = [12, 1, 15, 8, 10, 7, 11, 0] := by decide
/-- Table 7.9: the block of magnitudes 9 1 8 0 / 0 7 1 6 / 5 2 4 1 / 1 3 2 8 is pruned to pattern 66. -/
theorem test_prune_table_7_9 :
    prunePattern [0x41100000#32, 0x3F800000#32, 0x41000000#32, 0#32, 0#32, 0x40E00000#32, 0x3F800000#32, 0x40C00000#32,
      0x40A00000#32, 0x40000000#32, 0x40800000#32, 0x3F800000#32, 0x3F800000#32, 0x40400000#32, 0x40000000#32, 0x41000000#32] = 66 := by decide +kernel
/-- Table 19.12: addresses of requester 4 on MU5. -/
theorem test_addresses_table_19_12 :
    ((F.MU_ARB_WAIT_n_CYCLES.at 8 4).mu 5).off = 0x1D0140 ∧ ((F.MU_ARB_MAXWAIT_n_CYCLES.at 4 4).mu 5).off = 0x1D0170
      ∧ ((F.MU_ARB_GRANT_n_COUNT.at 4 4).mu 5).off = 0x1D0110 ∧ (F.MU_ARB_STARVE_FLAG.mu 5).off = 0x1D0008 := by decide
/-- Table 19.12, step 4: writing 0x10 clears bit 4 and leaves the other flags. -/
theorem test_starve_clear_table_19_12 :
    (match exec (.starveFlagClear 0 5 0x10 0) (put (base .running) (F.MU_ARB_STARVE_FLAG.mu 5) 0x32) with
     | .next t => t.get (F.MU_ARB_STARVE_FLAG.mu 5)
     | _ => 0) = 0x22 := by decide
/-- The interlaced archive: 512 × 288, patch 16, TUBE_T 2, 8 frames a second: 18,432 rows of 8 s, 16,128 rows of 7 s. -/
theorem test_clip_rows_archive :
    archive.clipRows { clip with dur := 8 * 90000 } = 18432 ∧ archive.clipRows { clip with dur := 7 * 90000 } = 16128 := by decide
/-- R30: a beat of 500 µs is 950,000 cycles; at its edge the next one opens at cycle 0. -/
theorem test_beat_length :
    Clock.reset.beatCycles = 950000
      ∧ (match exec (.beatEdge ⟨0, [0, 0, 0, 0, 0, 0, 0, 0], 0, none⟩) (base .negotiated) with
         | .next t => (t.clk.beat, t.clk.cyc, t.clk.base)
         | _ => (0, 0, 0)) = (1, 0, 950000) := by decide
/-- R227: a set and two signals of one cycle: the set first, then the sum. -/
theorem test_sync_order :
    tGet ((signals 4).syncCycle (syncKey 0 5) 10).t0.sync 5 = 3 + 4 := by decide
/-- R500: a DMA figure copies one line of its slice; it completes with its yield bit set. -/
theorem test_dma_copies :
    (let s := { oneFig with t0 := { T0.reset with mem := [(3, 0xAB#8)] } }
     match exec (.figureStart 0 16 noEnv) s with
     | .next t => mGet t.t0.mem 67 == 0xAB#8 && (match exec (.figureComplete 40 16) t with
       | .next v => (v.stat 16).yield && (v.stat 16).phase == .complete
       | _ => false)
     | _ => false) = true := by decide

end Sys2Proof.Tests
end

/-! PROOF. Fields of the register file: what a field reads after a write of the same and of another field (R9, R10). -/
namespace Sys2Proof.Machine

/-! ## Bits -/

theorem testBit_bits (x lo w i : Nat) : (bits x lo w).testBit i = (decide (i < w) && x.testBit (lo + i)) := by
  simp [bits, Nat.testBit_mod_two_pow, Nat.testBit_shiftRight]

/-- `setBits` puts the new field between the bits above and below it. -/
theorem setBits_eq (x lo w v : Nat) :
    setBits x lo w v = 2 ^ lo * (2 ^ w * (x / 2 ^ lo / 2 ^ w) + v % 2 ^ w) + x % 2 ^ lo := by
  have hx : 2 ^ lo * (2 ^ w * (x / 2 ^ lo / 2 ^ w) + x / 2 ^ lo % 2 ^ w) + x % 2 ^ lo = x := by
    rw [Nat.div_add_mod, Nat.div_add_mod]
  simp only [setBits, bits, Nat.shiftLeft_eq, Nat.shiftRight_eq_div_pow, Nat.mul_comm _ (2 ^ lo), Nat.mul_add] at hx ⊢
  omega

theorem testBit_setBits (x lo w v i : Nat) :
    (setBits x lo w v).testBit i = if lo ≤ i ∧ i < lo + w then v.testBit (i - lo) else x.testBit i := by
  rw [setBits_eq, Nat.testBit_two_pow_mul_add _ (Nat.mod_lt _ (Nat.two_pow_pos lo)),
    Nat.testBit_two_pow_mul_add _ (Nat.mod_lt _ (Nat.two_pow_pos w))]
  by_cases below : i < lo
  · simp [below, Nat.testBit_mod_two_pow, show ¬ lo ≤ i by omega]
  · by_cases inside : i - lo < w
    · simp [below, inside, Nat.testBit_mod_two_pow, show lo ≤ i ∧ i < lo + w by omega]
    · simp [below, inside, Nat.testBit_div_two_pow, show ¬ (lo ≤ i ∧ i < lo + w) by omega, show i - lo - w + w + lo = i by omega]

/-! ## Words -/

/-- Every word of the register file holds 32 bits. -/
def wordsFit32 (t : Tab) : Prop := ∀ k, tGet t k < 2 ^ 32

theorem wrWords_fit : ∀ (n : Nat) (t : Tab) (off v : Nat), tabWf t = true → wordsFit32 t → wordsFit32 (wrWords t off n v)
  | 0, _, _, _, _, fit => fit
  | n + 1, t, off, v, wf, fit => wrWords_fit n _ _ _ (tSet_wf t off _ wf) fun k => by
      rw [tGet_tSet t wf]
      split
      · exact Nat.mod_lt _ (by decide)
      · exact fit k

/-- Word `j` of `n` words written from `off`. -/
theorem tGet_wrWords : ∀ (n : Nat) (t : Tab) (off v j : Nat), tabWf t = true → j < n →
    tGet (wrWords t off n v) (off + 4 * j) = v / 2 ^ (32 * j) % 2 ^ 32
  | n + 1, t, off, v, 0, wf, _ => by
      rw [wrWords, wrWords_other _ _ _ _ _ (fun i _ => by omega), tGet_tSet t wf]
      simp
  | n + 1, t, off, v, j + 1, wf, hj => by
      rw [wrWords, show off + 4 * (j + 1) = off + 4 + 4 * j by omega,
        tGet_wrWords n _ _ _ _ (tSet_wf t off _ wf) (by omega), Nat.div_div_eq_div_mul, ← Nat.pow_add,
        show 32 + 32 * j = 32 * (j + 1) by omega]

theorem testBit_rdWords (t : Tab) (fit : wordsFit32 t) : ∀ (n off i : Nat),
    (rdWords t off n).testBit i = (decide (i < 32 * n) && (tGet t (off + 4 * (i / 32))).testBit (i % 32))
  | 0, _, _ => by simp [rdWords]
  | n + 1, off, i => by
      rw [rdWords, Nat.add_comm, Nat.testBit_two_pow_mul_add _ (fit off), testBit_rdWords t fit n]
      by_cases low : i < 32
      · simp [low, Nat.div_eq_of_lt low, Nat.mod_eq_of_lt low, show i < 32 * (n + 1) by omega]
      · simp [low, show i - 32 < 32 * n ↔ i < 32 * (n + 1) by omega, show (i - 32) % 32 = i % 32 by omega,
          show off + 4 + 4 * ((i - 32) / 32) = off + 4 * (i / 32) by omega]

/-! ## Fields -/

theorem fset_fit (t : Tab) (f : Field) (v : Nat) (wf : tabWf t = true) (fit : wordsFit32 t) : wordsFit32 (fset t f v) :=
  wrWords_fit _ _ _ _ wf fit

/-- Bit `i` of the words from a field's offset on, after a write of the field: the field's own bits are the value's. -/
theorem testBit_rdWords_fset (t : Tab) (f : Field) (v n i : Nat) (wf : tabWf t = true) (fit : wordsFit32 t) :
    (rdWords (fset t f v) f.off n).testBit i
      = (decide (i < 32 * n) && if f.lo ≤ i ∧ i < f.lo + f.w then v.testBit (i - f.lo)
          else (tGet t (f.off + 4 * (i / 32))).testBit (i % 32)) := by
  rw [testBit_rdWords _ (fset_fit t f v wf fit)]
  congr 1
  by_cases written : i / 32 < f.words
  · rw [fset, tGet_wrWords _ _ _ _ _ wf written, Nat.testBit_mod_two_pow, Nat.testBit_div_two_pow, testBit_setBits,
      testBit_rdWords t fit, show i % 32 + 32 * (i / 32) = i by omega]
    simp [Nat.mod_lt, show i < 32 * f.words by omega]
  · have past : ¬ (f.lo ≤ i ∧ i < f.lo + f.w) := by unfold Field.words at written; omega
    rw [fset_other t f v _ (fun j hj => by omega), if_neg past]

theorem fget_fset_same (t : Tab) (f : Field) (v : Nat) (wf : tabWf t = true) (fit : wordsFit32 t) :
    fget (fset t f v) f = v % 2 ^ f.w := by
  refine Nat.eq_of_testBit_eq fun i => ?_
  rw [fget, testBit_bits, testBit_rdWords_fset t f v _ _ wf fit, Nat.testBit_mod_two_pow]
  by_cases inside : i < f.w
  · have read : f.lo + i < 32 * f.words := by unfold Field.words; omega
    simp [inside, read]
  · simp [inside]

/-- A field of the same register that shares no bit with the one written reads as before. -/
theorem fget_fset_disjoint (t : Tab) (f g : Field) (v : Nat) (wf : tabWf t = true) (fit : wordsFit32 t) (same : g.off = f.off)
    (apart : g.lo + g.w ≤ f.lo ∨ f.lo + f.w ≤ g.lo) : fget (fset t f v) g = fget t g := by
  refine Nat.eq_of_testBit_eq fun i => ?_
  rw [fget, fget, testBit_bits, testBit_bits, same, testBit_rdWords_fset t f v _ _ wf fit, testBit_rdWords t fit]
  by_cases inside : i < g.w
  · rw [if_neg (by omega)]
  · simp [inside]

/-- A field none of whose words is written reads as before. -/
theorem fget_fset_apart (t : Tab) (f g : Field) (v : Nat)
    (apart : g.off + 4 * g.words ≤ f.off ∨ f.off + 4 * f.words ≤ g.off) : fget (fset t f v) g = fget t g :=
  fget_congr _ _ g fun i hi => fset_other t f v _ fun j hj => by omega

/-- Settles O16: bit by bit, a field write replaces the field's own bits and leaves every other bit of its words. -/
theorem fieldsReadBack : Obligations.FieldsReadBack := by
  intro s f g v wf fit
  exact ⟨fget_fset_same s.regs f v wf fit, fget_fset_apart s.regs f g v, fget_fset_disjoint s.regs f g v wf fit,
    fset_wf s.regs f v wf, fset_fit s.regs f v wf fit, rfl⟩

end Sys2Proof.Machine

/-! PROOF. What an event record changes of the host interface (R436, R458), and what an error that stops no figure changes (R446). -/
namespace Sys2Proof.Machine

/-- The host interface but for what event records touch: host memory, the ring's tail, lost and held records, lines that wait for GO. -/
def HostIf.besideEvents (h : HostIf) : HostIf := { h with mem := [], evTail := 0, evLost := 0, evHeld := [], go := [] }

/-- Interfaces that agree beside events differ in what events touch alone. -/
theorem HostIf.eq_of_besideEvents {h k : HostIf} (e : k.besideEvents = h.besideEvents) :
    k = { h with mem := k.mem, evTail := k.evTail, evLost := k.evLost, evHeld := k.evHeld, go := k.go } :=
  congrArg (fun x : HostIf => { x with mem := k.mem, evTail := k.evTail, evLost := k.evLost, evHeld := k.evHeld, go := k.go }) e

@[simp] theorem HostIf.besideEvents_update (h : HostIf) (m : Mem) (tail lost : Nat) (held : List EvtRec) (go : List GoLine) :
    HostIf.besideEvents { h with mem := m, evTail := tail, evLost := lost, evHeld := held, go := go } = h.besideEvents := by
  simp only [HostIf.besideEvents]

theorem State.besideEvents_ite (c : Prop) [Decidable c] (s t : State) :
    (if c then s else t).host.besideEvents = if c then s.host.besideEvents else t.host.besideEvents := by split <;> rfl

@[simp] theorem State.recorded_besideEvents (s : State) (l : Nat) (v : Option Nat) :
    (s.recorded l v).host.besideEvents = s.host.besideEvents := by
  simp only [State.recorded, State.setGo, HostIf.besideEvents_update]
@[simp] theorem State.putEvent_besideEvents (s : State) (e : EvtRec) : (s.putEvent e).host.besideEvents = s.host.besideEvents := by
  unfold State.putEvent
  extract_lets s1 s2
  have put : s1.host.besideEvents = s.host.besideEvents := by simp only [s1, State.hostPut, HostIf.besideEvents_update]
  clear_value s1
  rw [State.recorded_besideEvents, HostIf.besideEvents_update, put]
@[simp] theorem State.writeEvent_besideEvents (s : State) (e : EvtRec) : (s.writeEvent e).host.besideEvents = s.host.besideEvents := by
  simp only [State.writeEvent, State.besideEvents_ite, HostIf.besideEvents_update, State.count_host, State.putEvent_besideEvents, ite_self]
@[simp] theorem State.emit_besideEvents (s : State) (k d p : Nat) : (s.emit k d p).host.besideEvents = s.host.besideEvents := by
  simp only [State.emit, State.besideEvents_ite, HostIf.besideEvents_update, State.writeEvent_besideEvents, ite_self]
/-- Entering a device state tells the host by events alone. -/
@[simp] theorem State.enter_besideEvents (s : State) (d : DevState) (h : Nat) : (s.enter d h).host.besideEvents = s.host.besideEvents := by
  simp only [State.enter, State.besideEvents_ite, State.recorded_besideEvents, State.emit_besideEvents, ite_self]

theorem State.enter_rings (s : State) (d : DevState) (h : Nat) : (s.enter d h).host.rings = s.host.rings :=
  (congrArg HostIf.rings (s.enter_besideEvents d h) :)

/-! ## Errors that stop no figure -/

/-- An error of class C or F is recorded, and has no effect on a figure (R446, R447). -/
theorem State.detect_recorded (s : State) (e : ErrIn) (notD : errClass e.code ≠ 1) (notS : errClass e.code ≠ 2) : ∃ fig,
    s.detect e = { s.stamp.2 with
      err := { s.stamp.2.err with inFlight := s.stamp.2.err.inFlight ++ [⟨e.code, e.src, s.clk.beat, s.stamp.1, fig, e.detail⟩] } } := by
  unfold State.detect
  extract_lets fid st rec_ s1
  split
  · contradiction
  · contradiction
  · exact ⟨_, rfl⟩

/-- Past BOOT a stamp is the clock's cycle (R11). -/
theorem State.stamp_past_boot (s : State) (past : s.dev ≠ .boot) : s.stamp = (s.clk.cyc, s) := by
  simp [State.stamp, past]

end Sys2Proof.Machine

/-! PROOF. Register writes over the host port (R503 to R507) and feature negotiation (R439, R440). -/
namespace Sys2Proof.Machine

/-! ## Stored words -/

/-- The row of a register's word decides what a write of the word stores. -/
theorem State.storeWord_of_regAt (s : State) (a : BarAddr) (v off : Nat) (r : RegRow) (row : regAt a.blk a.rel = some r)
    (place : a.blk.base + a.window * a.blk.step + a.rel = off) :
    s.storeWord a v = { s with
      regs := tSet s.regs off (r.fields.foldl
        (fun acc f => fieldWrite s.locked ((a.rel - r.off) % r.stride * 8) (tGet s.regs off) v acc f) (tGet s.regs off)) } := by
  subst place
  unfold State.storeWord
  rw [row]

/-- A field that starts at bit 0 of its word reads the low bits of what is stored there. -/
theorem fget_tSet_low (t : Tab) (off w x : Nat) (wf : tabWf t = true) (pos : 0 < w) (fits : w ≤ 32) :
    fget (tSet t off x) ⟨off, 0, w⟩ = x % 2 ^ w := by
  have one : Field.words ⟨off, 0, w⟩ = 1 := by unfold Field.words; simp only; omega
  simp [fget, one, rdWords, bits, tGet_tSet t wf]

theorem setBits_bits_low (x w v : Nat) : setBits x 0 w (bits v 0 w) % 2 ^ w = v % 2 ^ w := by
  refine Nat.eq_of_testBit_eq fun i => ?_
  rw [Nat.testBit_mod_two_pow, Nat.testBit_mod_two_pow, testBit_setBits, testBit_bits]
  by_cases inside : i < w <;> simp [inside]

/-- Putting back what a key reads changes no read. -/
theorem tGet_tSet_self (t : Tab) (wf : tabWf t = true) (k j : Nat) : tGet (tSet t k (tGet t k)) j = tGet t j := by
  rw [tGet_tSet t wf]
  split
  · rename_i h; rw [h]
  · rfl

theorem regAt_irqCfg : regAt .hub 0x84 = some ⟨"HUB_IRQ_CFG", .hub, 0x84, 4, 1, 4, [⟨0, 8, .rw, .val 8⟩]⟩ := rfl
theorem regAt_pollCfg : regAt .hub 0x88 = some ⟨"HUB_POLL_CFG", .hub, 0x88, 4, 1, 4, [⟨0, 10, .rwl, .val 5⟩]⟩ := rfl
theorem regAt_step : regAt .plc 0x24 = some ⟨"PLC_STEP", .plc, 0x24, 4, 1, 4, [⟨0, 32, .ro, .val 1⟩]⟩ := rfl
theorem regAt_featAccept (k : Nat) (hk : k < 8) :
    regAt .hub (0x60 + 4 * k) = some ⟨"HUB_FEAT_ACCEPT_k", .hub, 0x60, 4, 8, 4, [⟨0, 32, .rwl, .val 0⟩]⟩ :=
  match k, hk with
  | 0, _ | 1, _ | 2, _ | 3, _ | 4, _ | 5, _ | 6, _ | 7, _ => rfl

theorem State.storeWord_irqCfg (u : State) (v : Nat) :
    u.storeWord ⟨.hub, 0, 0x84⟩ v = { u with regs := tSet u.regs 0x84 (setBits (tGet u.regs 0x84) 0 8 (bits v 0 8)) } :=
  u.storeWord_of_regAt ⟨.hub, 0, 0x84⟩ v 0x84 _ regAt_irqCfg rfl

theorem State.storeWord_pollCfg (u : State) (v : Nat) :
    u.storeWord ⟨.hub, 0, 0x88⟩ v = { u with
      regs := tSet u.regs 0x88 (if u.locked then tGet u.regs 0x88 else setBits (tGet u.regs 0x88) 0 10 (bits v 0 10)) } :=
  u.storeWord_of_regAt ⟨.hub, 0, 0x88⟩ v 0x88 _ regAt_pollCfg rfl

theorem State.storeWord_step (u : State) (v : Nat) :
    u.storeWord ⟨.plc, 0, 0x24⟩ v = { u with regs := tSet u.regs 0x10024 (tGet u.regs 0x10024) } :=
  u.storeWord_of_regAt ⟨.plc, 0, 0x24⟩ v 0x10024 _ regAt_step rfl

theorem State.storeWord_featAccept (u : State) (k v : Nat) (hk : k < 8) (free : u.locked = false) :
    u.storeWord ⟨.hub, 0, 0x60 + 4 * k⟩ v = { u with
      regs := tSet u.regs (0x60 + 4 * k) (setBits (tGet u.regs (0x60 + 4 * k)) 0 32 (bits v 0 32)) } := by
  rw [u.storeWord_of_regAt _ v (0x60 + 4 * k) _ (regAt_featAccept k hk) (by simp [Blk.base])]
  have lowest : (0x60 + 4 * k - 0x60) % 4 * 8 = 0 := by omega
  simp only [List.foldl, lowest, fieldWrite, free]
  rfl

/-! ## The host port -/

theorem exec_registerWrite (s : State) (cyc off size : Nat) (v : Word64) (on : s.dev ≠ .off) :
    exec (.registerWrite cyc off size v) s = .next ((s.tick cyc).writeBar0 off size v.toNat) := by
  change execRegisterWrite cyc off size v s = _
  simp [execRegisterWrite, on]

theorem exec_start (s : State) (cyc : Nat) (go : Bool) (on : s.dev ≠ .off) :
    exec (.start cyc go) s = .next ((s.tick cyc).writeStart go) := by
  change execStart cyc go s = _
  simp [execStart, on]

theorem State.writeBar0_word (s : State) (off v : Nat) (aligned : off % 4 = 0) :
    s.writeBar0 off 4 v = s.writeWord off (v % 2 ^ 32) := by
  simp [State.writeBar0, aligned]

theorem State.writeBar0_pair (s : State) (off : Nat) (v : Word64) (aligned : off % 8 = 0) :
    s.writeBar0 off 8 v.toNat = (s.writeWord off (v.toNat % 2 ^ 32)).writeWord (off + 4) (v.toNat / 2 ^ 32) := by
  have upper : v.toNat / 2 ^ 32 % 2 ^ 32 = v.toNat / 2 ^ 32 :=
    Nat.mod_eq_of_lt (Nat.div_lt_of_lt_mul (by have := v.isLt; omega))
  rw [State.writeBar0, if_neg (by omega), if_pos ⟨rfl, aligned⟩, upper]

theorem State.writeBar0_other (s : State) (off size v : Nat) (h4 : ¬ (size = 4 ∧ off % 4 = 0)) (h8 : ¬ (size = 8 ∧ off % 8 = 0)) :
    s.writeBar0 off size v = s := by
  rw [State.writeBar0, if_neg h4, if_neg h8]

theorem State.barServed_past_boot (u : State) (off : Nat) (on : u.dev ≠ .off) (past : u.dev ≠ .boot) : u.barServed off = true := by
  unfold State.barServed
  split
  · contradiction
  · contradiction
  · rfl

theorem State.writeWord_reserved (u : State) (off v : Nat) (h : barAddr off = none) : u.writeWord off v = u := by
  unfold State.writeWord
  rw [h]
  split <;> rfl

/-- In BOOT the words of HUB_BOOT_IMG are served while BOOT waits for the host's image, and of the others only the first four (R471). -/
theorem State.barServed_boot (u : State) (off : Nat) (boot : u.dev = .boot) (served : u.barServed off = true)
    (h : ¬ (u.boot.waitHost = true ∧ off ∈ [0x20, 0x24, 0x28, 0x2C])) : off < 0x20 := by
  simp only [State.barServed, boot, State.servedEarly, Bool.or_eq_true, Bool.and_eq_true, beq_iff_eq] at served
  simp only [List.mem_cons, List.not_mem_nil, or_false] at h
  rcases served with first | ⟨wait, image⟩
  · omega
  · exact absurd ⟨wait, by omega⟩ h

/-- In BOOT no write acts but those of HUB_BOOT_IMG while BOOT waits for the host's image (R471). -/
theorem State.writeWord_boot (u : State) (off v : Nat) (boot : u.dev = .boot)
    (h : ¬ (u.boot.waitHost = true ∧ off ∈ [0x20, 0x24, 0x28, 0x2C])) : u.writeWord off v = u := by
  unfold State.writeWord
  by_cases served : u.barServed off = true
  · have early := u.barServed_boot off boot served h
    rw [served, boot, decide_eq_true early]
    simp only [beq_self_eq_true, Bool.and_self, if_true]
    split
    · rfl
    · split <;> rfl
  · simp [served]

/-- Past BOOT a word of the hub without rules of its own is stored by its row. -/
theorem State.writeWord_hub (u : State) (off v : Nat) (on : u.dev ≠ .off) (past : u.dev ≠ .boot) (low : 0x80 ≤ off) (high : off < 0x10000) :
    u.writeWord off v = u.storeWord ⟨.hub, 0, off⟩ v := by
  have addr : barAddr off = some ⟨.hub, 0, off⟩ := by simp [barAddr, high]
  have dev : (u.dev == .boot) = false := by simpa using past
  simp only [State.writeWord, u.barServed_past_boot off on past, addr, dev]
  simp only [Bool.not_true, Bool.false_eq_true, if_false, Bool.false_and]
  split
  · omega
  · omega
  · rename_i rel _ _ eq _ _
    cases eq
    rw [if_neg (by omega)]
  all_goals contradiction

/-- Past BOOT a write of PLC_STEP follows its row. -/
theorem State.writeWord_step (u : State) (v : Nat) (on : u.dev ≠ .off) (past : u.dev ≠ .boot) :
    u.writeWord 0x10024 v = u.storeWord ⟨.plc, 0, 0x24⟩ v := by
  have dev : (u.dev == .boot) = false := by simpa using past
  simp only [State.writeWord, u.barServed_past_boot _ on past, dev]
  rfl

/-- HUB_START.GO requests START; in BOOT neither does anything (R439). -/
theorem State.writeWord_start (u : State) (v : Nat) (on : u.dev ≠ .off) : u.writeWord 0x18 v = u.writeStart (bit v 0) := by
  by_cases boot : u.dev = .boot
  · rw [u.writeWord_boot _ _ boot (by simp)]
    simp [State.writeStart, boot]
  · have dev : (u.dev == .boot) = false := by simpa using boot
    simp only [State.writeWord, u.barServed_past_boot _ on boot, dev]
    rfl

/-- A write of one word that is stored, through the port. -/
theorem exec_registerWrite_stored (s : State) (cyc off x : Nat) (v : Word64) (on : s.dev ≠ .off) (aligned : off % 4 = 0)
    (stored : (s.tick cyc).writeWord off (v.toNat % 2 ^ 32) = { s.tick cyc with regs := tSet (s.tick cyc).regs off x }) :
    exec (.registerWrite cyc off 4 v) s = .next { s.tick cyc with regs := tSet (s.tick cyc).regs off x } := by
  rw [exec_registerWrite s cyc off 4 v on, State.writeBar0_word _ _ _ aligned, stored]

/-- What a field of `w` bits stored from the low half of a 64-bit operand reads. -/
theorem fget_stored_low (t : Tab) (off w x v : Nat) (wf : tabWf t = true) (pos : 0 < w) (fits : w ≤ 32) :
    fget (tSet t off (setBits x 0 w (bits (v % 2 ^ 32) 0 w))) ⟨off, 0, w⟩ = v % 2 ^ w := by
  rw [fget_tSet_low t off w _ wf pos fits, setBits_bits_low, Nat.mod_mod_of_dvd v (Nat.pow_dvd_pow 2 fits)]

/-- Settles O17: the port splits a write into words; each named register follows its row of the register table. -/
theorem registerWrites : Obligations.RegisterWrites := by
  intro s cyc off size v u
  have dev : u.dev = s.dev := s.tick_dev cyc
  have port (off size : Nat) (on : u.dev ≠ .off) := exec_registerWrite s cyc off size v (dev ▸ on)
  refine ⟨fun on h4 h8 => ?_, fun on al => ?_, fun on al => ?_, u.writeWord_reserved off _, u.writeWord_boot off _, fun on => ?_,
    fun on past wf => ⟨?_, fun unlocked => ?_, fun locked => ?_, ?_⟩⟩
  · rw [port _ _ on, State.writeBar0_other _ _ _ _ h4 h8]
  · rw [port _ _ on, State.writeBar0_word _ _ _ al]
  · rw [port _ _ on, State.writeBar0_pair _ _ _ al]
  · rw [port _ _ on, State.writeBar0_word _ _ _ (by decide), State.writeWord_start _ _ on]
    have go : bit (v.toNat % 2 ^ 32) 0 = v.getLsbD 0 := by simp [bit, BitVec.getLsbD]
    rw [go, exec_start s cyc _ (dev ▸ on)]
  · refine ⟨_, exec_registerWrite_stored s cyc 0x84 _ v (dev ▸ on) (by decide)
      ((u.writeWord_hub 0x84 _ on past (by decide) (by decide)).trans (u.storeWord_irqCfg _)), rfl, ?_, fun k hk => tGet_tSet_ne _ _ _ _ hk⟩
    exact fget_stored_low u.regs 0x84 8 _ v.toNat wf (by decide) (by decide)
  · refine ⟨_, exec_registerWrite_stored s cyc 0x88 _ v (dev ▸ on) (by decide)
      ((u.writeWord_hub 0x88 _ on past (by decide) (by decide)).trans (u.storeWord_pollCfg _)), rfl, ?_, fun k hk => tGet_tSet_ne _ _ _ _ hk⟩
    rw [unlocked]
    exact fget_stored_low u.regs 0x88 10 _ v.toNat wf (by decide) (by decide)
  · refine ⟨_, exec_registerWrite_stored s cyc 0x88 _ v (dev ▸ on) (by decide)
      ((u.writeWord_hub 0x88 _ on past (by decide) (by decide)).trans (u.storeWord_pollCfg _)), rfl, fun k => ?_⟩
    rw [locked]
    exact tGet_tSet_self u.regs wf 0x88 k
  · exact ⟨_, exec_registerWrite_stored s cyc 0x10024 _ v (dev ▸ on) (by decide) ((u.writeWord_step _ on past).trans (u.storeWord_step _)), rfl,
      tGet_tSet_self u.regs wf 0x10024⟩

/-! ## Features -/

theorem exec_featAcceptWrite (s : State) (cyc k : Nat) (v : Word32) (on : s.dev ≠ .off) :
    exec (.featAcceptWrite cyc k v) s = .next ((s.tick cyc).writeFeat k v.toNat) := by
  change execFeatAcceptWrite cyc k v s = _
  simp [execFeatAcceptWrite, on]

/-- Before START is held or accepted, the states that negotiate lock nothing (R440). -/
theorem State.locked_eq_false (u : State) (neg : u.dev = .unconfigured ∨ u.dev = .negotiated) (held : u.boot.startHeld = false)
    (started : u.boot.started = false) : u.locked = false := by
  rcases neg with h | h <;> simp [State.locked, h, held, started]

/-- The feature words are closed beyond the eighth, in the states that do not negotiate, and once a START is held or accepted. -/
theorem State.writeFeat_closed (u : State) (k v : Nat)
    (h : 8 ≤ k ∨ (u.dev ≠ .unconfigured ∧ u.dev ≠ .negotiated) ∨ u.boot.startHeld = true ∨ u.boot.started = true) :
    u.writeFeat k v = u := by
  refine if_pos ?_
  rcases h with h | ⟨h1, h2⟩ | h | h <;> simp [State.locked, *]

/-- The register file with feature word `k` accepted. -/
def State.acceptedRegs (u : State) (k v : Nat) : Tab :=
  tSet u.regs (0x60 + 4 * k) (setBits (tGet u.regs (0x60 + 4 * k)) 0 32 (bits v 0 32))

/-- An open feature word takes the value, and an unconfigured device becomes NEGOTIATED. -/
theorem State.writeFeat_open (u : State) (k v : Nat) (neg : u.dev = .unconfigured ∨ u.dev = .negotiated) (free : u.locked = false)
    (hk : k < 8) :
    u.writeFeat k v = if u.dev = .unconfigured then State.enter { u with regs := u.acceptedRegs k v } .negotiated 0
      else { u with regs := u.acceptedRegs k v } := by
  unfold State.writeFeat
  rw [u.storeWord_featAccept k v hk free, if_neg (by rcases neg with h | h <;> simp [free, h, hk])]
  simp only [beq_iff_eq]
  rfl

theorem State.fget_acceptedRegs (u : State) (k : Nat) (v : Word32) (wf : tabWf u.regs = true) :
    fget (u.acceptedRegs k v.toNat) ⟨0x60 + 4 * k, 0, 32⟩ = v.toNat := by
  have low := fget_stored_low u.regs (0x60 + 4 * k) 32 (tGet u.regs (0x60 + 4 * k)) v.toNat wf (by decide) (Nat.le_refl 32)
  rwa [Nat.mod_eq_of_lt v.isLt] at low

/-- Settles O11: an open word is stored and the device is NEGOTIATED; a closed one is ignored. -/
theorem featureNegotiation : Obligations.FeatureNegotiation := by
  intro s cyc k v u
  have write (on : u.dev ≠ .off) := exec_featAcceptWrite s cyc k v (s.tick_dev cyc ▸ on)
  refine ⟨fun neg held started hk wf => ?_, fun on hk => ?_, fun closed => ?_⟩
  · have on : u.dev ≠ .off := by rcases neg with h | h <;> simp [h]
    refine ⟨u.acceptedRegs k v.toNat, _, write on, u.fget_acceptedRegs k v wf,
      fun j hj => tGet_tSet_ne _ _ _ _ hj, u.writeFeat_open k v.toNat neg (u.locked_eq_false neg held started) hk, ?_⟩
    rw [u.writeFeat_open k v.toNat neg (u.locked_eq_false neg held started) hk]
    split
    · rw [State.enter_rings, State.enter_eq]
      exact ⟨rfl, rfl, rfl, rfl, rfl, rfl, rfl⟩
    · exact ⟨neg.resolve_left ‹_›, rfl, rfl, rfl, rfl, rfl, rfl⟩
  · rw [write on, State.writeFeat_closed u k _ (.inl hk)]
  · have on : u.dev ≠ .off := closed.elim (fun h => h.2.2) fun h => h.1
    rw [write on, State.writeFeat_closed u k _ (.inr (closed.imp (fun h => ⟨h.1, h.2.1⟩) fun h => h.2))]

end Sys2Proof.Machine

/-! PROOF. KILL and the end of its scrub (R230 to R232, R429). -/
namespace Sys2Proof.Machine

/-! ## Commands at the front of a ring -/

/-- A command that R425 lets start is the one `startable` names. -/
theorem State.startable_of_frontIs {u : State} {n op : Nat} {d : BitVec 512} (on : u.ringsOn = true) (front : u.frontIs n op d) :
    u.startable n (fun o => o == op) = some d := by
  obtain ⟨hn, head, rfl, fence, busy⟩ := front
  unfold State.startable
  obtain ⟨rest, queue⟩ := List.head?_eq_some_iff.mp head
  rw [queue]
  have fenced : (dFence d && !(u.ring n).active.isEmpty) = false := by
    cases hf : dFence d <;> simp [fence, hf]
  have free : (stateCmd (dOpcode d) && u.stateBusy) = false := by
    cases hs : stateCmd (dOpcode d)
    · rfl
    · rw [busy (by simpa [stateCmd, or_assoc] using hs)]; rfl
  simp [on, hn, fenced, free]

/-- In RUNNING the front command of a ring starts (R425, R426). -/
theorem State.start_of_frontIs {u : State} {n op : Nat} {d : BitVec 512} (running : u.dev = .running) (front : u.frontIs n op d)
    (dr ng : Bool) (f : BitVec 512 → State → State) (graph : ng = true → u.plan.graph ≠ none) :
    u.start n op dr ng f = f d (u.popCmd n) := by
  have on : u.ringsOn = true := by simp [State.ringsOn, running]
  have resident : (ng && u.plan.graph.isNone) = false := by
    cases ng
    · rfl
    · simpa [Option.isSome_iff_ne_none] using graph rfl
  simp [State.start, State.startable_of_frontIs on front, running, resident]

/-! ## Completions and the commands that wait -/

theorem State.setRing_rings (s : State) (n : Nat) (r : Ring) : (s.setRing n r).host.rings = s.host.rings.set n r := rfl
theorem State.hostPut_rings (s : State) (a n v : Nat) : (s.hostPut a n v).host.rings = s.host.rings := rfl
theorem State.recorded_rings (s : State) (l : Nat) (v : Option Nat) : (s.recorded l v).host.rings = s.host.rings := rfl
theorem State.count_rings (s : State) (f : Field) (v : Nat) : (s.count f v).host.rings = s.host.rings := rfl

theorem State.complete_rings (s : State) (n tag : Nat) (irq : Bool) (st r : Nat) :
    (s.complete n tag irq st r).host.rings = s.host.rings.set n { s.ring n with completed := cntAdd (s.ring n).completed 1 } := by
  rw [State.complete, apply_ite fun t : State => t.host.rings, State.count_rings, State.recorded_rings, State.setRing_rings,
    State.hostPut_rings, ite_self]

theorem State.ring_set {s t : State} {n : Nat} {r : Ring} (rings : t.host.rings = s.host.rings.set n r) (hn : n < s.host.rings.length) :
    t.ring n = r := by
  simp [State.ring, rings, hn]

/-- `t` differs from `s` in its rings by ring `n` alone, whose uncompleted commands in `t` are `l`. -/
def State.ringActive (s t : State) (n : Nat) (l : List ActiveCmd) : Prop :=
  ∃ r : Ring, t.host.rings = s.host.rings.set n r ∧ r.active = l

theorem State.ringActive_refl (s : State) (n : Nat) (hn : n < s.host.rings.length) : s.ringActive s n (s.ring n).active :=
  ⟨s.ring n, by simp [State.ring, hn], rfl⟩

/-- Completing commands of a ring forgets none of them. -/
theorem State.finishAll_ringActive (n st : Nat) (res : ActiveCmd → Nat) : ∀ (gone : List ActiveCmd) (s t : State) (l : List ActiveCmd),
    n < s.host.rings.length → s.ringActive t n l → s.ringActive (gone.foldl (fun u c => u.finish n c.desc st (res c)) t) n l
  | [], _, _, _, _, h => h
  | c :: gone, s, t, l, hn, ⟨r, rings, active⟩ => by
      refine finishAll_ringActive n st res gone s _ l hn ⟨{ r with completed := cntAdd r.completed 1 }, ?_, active⟩
      change (t.complete n _ _ _ _).host.rings = _
      rw [State.complete_rings, State.ring_set rings hn, rings, List.set_set]

/-- Complete and forget the commands of ring `n` that `p` selects: one round of `finishWhere`. -/
def State.finishRing (p : ActiveCmd → Bool) (st : Nat) (res : ActiveCmd → Nat) (t : State) (n : Nat) : State :=
  let r := t.ring n
  let gone := r.active.filter p
  let t1 := if gone.isEmpty then t else t.setRing n { r with active := r.active.filter fun c => !p c }
  gone.foldl (fun u c => u.finish n c.desc st (res c)) t1

theorem State.finishWhere_eq_foldl (s : State) (p : ActiveCmd → Bool) (st : Nat) (res : ActiveCmd → Nat) :
    s.finishWhere p st res = (List.range 64).foldl (State.finishRing p st res) s := rfl

theorem State.finishRing_ringActive (p : ActiveCmd → Bool) (st : Nat) (res : ActiveCmd → Nat) (t : State) (n : Nat)
    (hn : n < t.host.rings.length) : t.ringActive (t.finishRing p st res n) n ((t.ring n).active.filter fun c => !p c) := by
  refine State.finishAll_ringActive n st res _ t _ _ hn ?_
  split
  · rename_i nothing
    have all : (t.ring n).active.filter (fun c => !p c) = (t.ring n).active := by
      simp only [List.isEmpty_iff, List.filter_eq_nil_iff] at nothing
      simpa using nothing
    rw [all]
    exact t.ringActive_refl n hn
  · exact ⟨_, rfl, rfl⟩

/-- After `k` rounds the first `k` rings hold no selected command. -/
theorem State.foldl_finishRing (p : ActiveCmd → Bool) (st : Nat) (res : ActiveCmd → Nat) (s : State) : ∀ k, k ≤ s.host.rings.length →
    ((List.range k).foldl (State.finishRing p st res) s).host.rings.length = s.host.rings.length
      ∧ ∀ i, i < k → ∀ r, ((List.range k).foldl (State.finishRing p st res) s).host.rings[i]? = some r → ∀ c ∈ r.active, p c = false
  | 0, _ => ⟨rfl, fun i hi => absurd hi (Nat.not_lt_zero i)⟩
  | k + 1, hk => by
      obtain ⟨len, done⟩ := foldl_finishRing p st res s k (by omega)
      rw [List.range_succ, List.foldl_append, List.foldl_cons, List.foldl_nil]
      generalize (List.range k).foldl (State.finishRing p st res) s = t at len done
      obtain ⟨r', rings, active⟩ := State.finishRing_ringActive p st res t k (by omega)
      rw [rings]
      refine ⟨by simpa using len, fun i hi r hr c hc => ?_⟩
      by_cases last : i = k
      · subst last
        rw [List.getElem?_set_self (by omega), Option.some_inj] at hr
        subst hr
        rw [active] at hc
        simpa using (List.mem_filter.mp hc).2
      · rw [List.getElem?_set_ne (by omega)] at hr
        exact done i (by omega) r hr c hc

/-- No selected command waits any more. -/
theorem State.finishWhere_active (s : State) (p : ActiveCmd → Bool) (st : Nat) (res : ActiveCmd → Nat) (len : s.host.rings.length = 64) :
    ∀ r ∈ (s.finishWhere p st res).host.rings, ∀ c ∈ r.active, p c = false := by
  rw [State.finishWhere_eq_foldl]
  obtain ⟨len', done⟩ := State.foldl_finishRing p st res s 64 (by omega)
  intro r hr
  obtain ⟨i, hi, rfl⟩ := List.mem_iff_getElem.mp hr
  exact done i (Nat.lt_of_lt_of_eq hi (len'.trans len)) _ (List.getElem?_eq_getElem hi)

/-! ## What KILL leaves -/

/-- Abandoning a cut changes the dirty bits, the cellar's waiting lists and what the host sees. -/
theorem State.abandonCut_eq (s : State) (cause : Nat) : ∃ regs host dirty sealed ships shipping mirrors,
    s.abandonCut cause = { s with
      regs := regs, host := host, t1 := { s.t1 with dirty := dirty, sealedMap := sealed }
      cel := { s.cel with open_ := none, ships := ships, shipping := shipping, mirrors := mirrors } } := by
  unfold State.abandonCut
  split
  · rename_i closed
    exact ⟨s.regs, s.host, s.t1.dirty, s.t1.sealedMap, s.cel.ships, s.cel.shipping, s.cel.mirrors, by rw [← closed]⟩
  · extract_lets s1 s2 cel
    have told : s.facing s1 := State.facing_trans (s.count_facing F.CEL_ABANDON_COUNT 1) (State.emit_facing _ _ _ _)
    obtain ⟨regs, host, told⟩ : ∃ regs host, s1 = { s with regs := regs, host := host } := ⟨_, _, told⟩
    clear_value s1
    subst told
    exact ⟨_, _, _, _, _, _, _, rfl⟩

/-- Killing commands ends streams, stagings and shipments, and tells the host. -/
theorem State.killCommands_eq (s : State) : ∃ regs host,
    s.killCommands = { s with
      regs := regs, host := host, t0 := { s.t0 with armed := [] }, t1 := { s.t1 with staged := [], reading := [] }
      ing := { s.ing with streams := [], hostMb := [] }
      plan := { s.plan with req := ⟨none, none, none, false⟩, carried := ⟨none, none, none, false⟩ }
      cel := { s.cel with ships := [], shipping := [] } } := by
  have told := s.finishWhere_facing (fun c => graphBound (dOpcode c.desc)) St.killed fun _ => 0
  unfold State.killCommands
  extract_lets s1
  obtain ⟨regs, host, told⟩ : ∃ regs host, s1 = { s with regs := regs, host := host } := ⟨_, _, told⟩
  clear_value s1
  subst told
  exact ⟨_, _, rfl⟩

/-! ## The scrub -/

/-- Dropping entries by their key clears the dropped keys and leaves the others as they read. -/
theorem mGet_filter (q : Nat → Bool) (a : Nat) : ∀ m : Mem, mGet (m.filter fun e => q e.1) a = if q a then mGet m a else 0#8
  | [] => by simp [mGet, sGet]
  | (k, v) :: m => by
      have rest := mGet_filter q a m
      simp only [mGet] at rest ⊢
      rw [List.filter_cons]
      by_cases same : a = k
      · subst same
        cases keep : q a <;> simp [keep, sGet, rest]
      · cases keep : q k <;> simp [sGet, same, rest]

/-- Of a T1 that is scrubbed the host window alone keeps its bytes. -/
theorem State.mGet_scrub (u : State) (a : Nat) : mGet u.scrub.t1.mem a = if u.winBase ≤ a % 2 ^ 38 then mGet u.t1.mem a else 0#8 := by
  have window : u.scrub.t1.mem = u.t1.mem.filter fun e => decide (u.winBase ≤ e.1 % 2 ^ 38) := rfl
  rw [window, mGet_filter fun k => decide (u.winBase ≤ k % 2 ^ 38)]
  simp only [decide_eq_true_eq]

/-- The error of a scrub whose verify read found a line that is not zero, if it found one. -/
def State.scrubError (s : State) (bad : Option Source) : State :=
  match bad with
  | some src => s.detect ⟨Er.scrubVerify, src, none, 0⟩
  | none => s

theorem State.scrubError_some (s : State) (src : Source) (past : s.dev ≠ .boot) : ∃ fig,
    s.scrubError (some src)
      = { s with err := { s.err with inFlight := s.err.inFlight ++ [⟨0x0404, src, s.clk.beat, s.clk.cyc, fig, 0⟩] } } := by
  have recorded := s.detect_recorded ⟨Er.scrubVerify, src, none, 0⟩
    (by decide : errClass Er.scrubVerify ≠ 1) (by decide : errClass Er.scrubVerify ≠ 2)
  rw [s.stamp_past_boot past] at recorded
  exact recorded

/-- A failed scrub sends an error and changes nothing else. -/
theorem State.scrubError_eq (s : State) (bad : Option Source) (past : s.dev ≠ .boot) :
    s.scrubError bad = { s with err := (s.scrubError bad).err } := by
  cases bad with
  | none => rfl
  | some src =>
      obtain ⟨fig, e⟩ := s.scrubError_some src past
      rw [e]

/-- A KILL waits for its scrub. -/
def State.killWaits (u : State) : Prop :=
  (u.dev = .running ∨ u.dev = .draining) ∧ ∃ r ∈ u.host.rings, ∃ c ∈ r.active, dOpcode c.desc = 3

theorem State.ringsOn_iff (u : State) : u.ringsOn = true ↔ u.dev = .running ∨ u.dev = .draining := by
  simp [State.ringsOn]

/-- SCRUB_DONE scrubs, tells of a failed verify read and completes the KILL, if one waits (R230, R231). -/
theorem exec_scrubDone (s : State) (cyc : Nat) (bad : Option Source) (on : s.dev ≠ .off) :
    (¬ (s.tick cyc).killWaits → exec (.scrubDone cyc bad) s = .next (s.tick cyc))
      ∧ ((s.tick cyc).killWaits → exec (.scrubDone cyc bad) s
        = .next (((s.tick cyc).scrub.scrubError bad).finishWhere (fun c => dOpcode c.desc == 3) St.ok fun _ => 0)) := by
  have waiting : ((s.tick cyc).ringsOn && (s.tick cyc).host.rings.any fun r => r.active.any fun c => dOpcode c.desc == 3) = true
      ↔ (s.tick cyc).killWaits := by
    simp [State.killWaits, State.ringsOn_iff]
  change (_ → execScrubDone cyc bad s = _) ∧ (_ → execScrubDone cyc bad s = _)
  unfold execScrubDone
  simp only [beq_iff_eq, on, if_false]
  refine ⟨fun idle => if_neg fun waits => idle (waiting.mp waits), fun waits => (if_pos (waiting.mpr waits)).trans ?_⟩
  cases bad <;> rfl

theorem exec_kill (s : State) (cyc n : Nat) (on : s.dev ≠ .off) :
    exec (.kill cyc n) s = .next ((s.tick cyc).start n 0x03 false true fun d t =>
      if dFlag d && !t.feat 3 then t.finish n d St.expertDenied 0
      else if t.noScrub d then t.dropGraph.finish n d St.ok 0
      else t.dropGraph.activate n d 0) := by
  change execKill cyc n s = _
  simp [execKill, on]

/-- Of everything but registers, host interface and errors, the end of a scrub leaves what `scrub` leaves. -/
theorem State.scrubbed_eq (u : State) (bad : Option Source) (past : u.dev ≠ .boot) (p : ActiveCmd → Bool) (st : Nat) (res : ActiveCmd → Nat) :
    ∃ regs host, (u.scrub.scrubError bad).finishWhere p st res
      = { u.scrub with regs := regs, host := host, err := (u.scrub.scrubError bad).err } := by
  obtain ⟨err, failed⟩ : ∃ err, u.scrub.scrubError bad = { u.scrub with err := err } := ⟨_, u.scrub.scrubError_eq bad past⟩
  rw [failed]
  exact ⟨_, _, State.finishWhere_facing _ p st res⟩

/-- Settles O28: KILL's three outcomes, what dropping a graph leaves, and what the end of the scrub leaves. -/
theorem graphsRemoved : Obligations.GraphsRemoved := by
  refine ⟨?_, ?_, ?_⟩
  · intro s cyc n d u p skip running front graph
    have on : s.dev ≠ .off := by rw [← s.tick_dev cyc, running]; decide
    rw [exec_kill s cyc n on, State.start_of_frontIs running front false true _ fun _ => graph]
    have feat : (u.popCmd n).feat 3 = u.feat 3 := rfl
    have noScrub : p.noScrub d = true ↔ skip := by
      simp only [State.noScrub, Bool.and_eq_true, beq_iff_eq]; rfl
    refine ⟨fun flag denied => ?_, fun skips allowed => ?_, fun scrubs allowed => ?_⟩
    · rw [if_pos (by simp [flag, feat, denied])]; rfl
    · rw [if_neg (by simp [feat, allowed]), if_pos (noScrub.mpr skips)]; rfl
    · rw [if_neg (by rcases allowed with h | h <;> simp [feat, h]), if_neg fun skips => scrubs (noScrub.mp skips)]
  · intro p t
    obtain ⟨r1, h1, killed⟩ := p.killCommands_eq
    obtain ⟨r2, h2, dirty, sealed, ships, shipping, mirrors, cut⟩ := p.killCommands.abandonCut_eq 5
    simp only [t, State.dropGraph, cut]
    simp only [killed, Run.reset, Ingest.reset, and_self]
  · intro s cyc bad u waits
    have same : u.dev = s.dev := s.tick_dev cyc
    refine ⟨fun idle on => (exec_scrubDone s cyc bad (same ▸ on)).1 idle, fun killed len => ?_⟩
    have on : s.dev ≠ .off := by rcases killed.1 with h | h <;> rw [← same, h] <;> decide
    have past : u.dev ≠ .boot := by rcases killed.1 with h | h <;> rw [h] <;> decide
    have gone := (u.scrub.scrubError bad).finishWhere_active (fun c => dOpcode c.desc == 3) St.ok (fun _ => 0)
      (by rw [u.scrub.scrubError_eq bad past]; exact len)
    obtain ⟨regs, host, scrubbed⟩ := u.scrubbed_eq bad past (fun c => dOpcode c.desc == 3) St.ok fun _ => 0
    rw [scrubbed] at gone
    refine ⟨_, ((exec_scrubDone s cyc bad on).2 killed).trans (congrArg Host.Outcome.next scrubbed), rfl, rfl, rfl, rfl, rfl,
      fun a low => ?_, fun a high => ?_, rfl, fun r hr c hc => by simpa using gone r hr c hc, rfl, rfl, fun clean => ?_, fun src found => ?_⟩
    · exact (u.mGet_scrub a).trans (if_neg (Nat.not_le.mpr low))
    · exact (u.mGet_scrub a).trans (if_pos high)
    · subst clean; rfl
    · subst found
      obtain ⟨fig, e⟩ := u.scrub.scrubError_some src past
      exact ⟨fig, congrArg State.err e⟩

end Sys2Proof.Machine

/-! PROOF. What a vector body leaves alone (R156 to R171, R226): every part of the machine but the run, the scratchpad side
of its cluster, counters and what events touch. -/
namespace Sys2Proof.Machine

/-- What a running vector body, a signal and an account of waits leave alone, all else at a fixed value: of the clock all but
its cycle, of the host interface all but events, of the errors all but those on their way, of T0 the vats, of T1 all but the
account. -/
def State.besideBodies (s : State) : State := { s with
  free := 0, regs := [], clk := { s.clk with cyc := 0 }, host := s.host.besideEvents, err := { s.err with inFlight := [] }
  run := Run.reset, t0 := { T0.reset with vat := s.t0.vat }, t1 := { s.t1 with settled := [] } }

/-- Run, counters, free values and, beside events and vats, host interface and T0 are not seen. -/
@[simp] theorem State.besideBodies_update (s : State) (free : Nat) (regs : Tab) (host : HostIf) (run : Run) (t0 : T0)
    (events : host.besideEvents = s.host.besideEvents) (vats : t0.vat = s.t0.vat) :
    State.besideBodies { s with free := free, regs := regs, host := host, run := run, t0 := t0 } = s.besideBodies := by
  simp only [State.besideBodies, events, vats]

@[simp] theorem State.besideBodies_ite (c : Prop) [Decidable c] (s t : State) :
    (if c then s else t).besideBodies = if c then s.besideBodies else t.besideBodies := by split <;> rfl

theorem foldl_besideBodies {α : Type} (g : State → α → State) (h : ∀ t x, (g t x).besideBodies = t.besideBodies) :
    ∀ (l : List α) (s : State), (l.foldl g s).besideBodies = s.besideBodies
  | [], _ => rfl
  | x :: l, s => by rw [List.foldl_cons, foldl_besideBodies g h l, h]

/-- What an operation that faces the host does is not seen if it tells the host by events. -/
theorem State.besideBodies_of_facing {s t : State} (told : s.facing t) (events : t.host.besideEvents = s.host.besideEvents) :
    t.besideBodies = s.besideBodies := by
  rw [told]
  exact s.besideBodies_update s.free t.regs t.host s.run s.t0 events rfl

/-! ## Shared operations -/

@[simp] theorem State.emit_besideBodies (s : State) (k d p : Nat) : (s.emit k d p).besideBodies = s.besideBodies :=
  State.besideBodies_of_facing (s.emit_facing k d p) (s.emit_besideEvents k d p)
@[simp] theorem State.set_besideBodies (s : State) (f : Field) (v : Nat) : (s.set f v).besideBodies = s.besideBodies := by
  simp [State.set]
@[simp] theorem State.count_besideBodies (s : State) (f : Field) (n : Nat) : (s.count f n).besideBodies = s.besideBodies := by
  simp [State.count]
@[simp] theorem State.draw_besideBodies (s : State) : s.draw.2.besideBodies = s.besideBodies := by
  simp [State.draw]
@[simp] theorem State.setStat_besideBodies (s : State) (x : FigStat) : (s.setStat x).besideBodies = s.besideBodies := by
  simp [State.setStat]
@[simp] theorem State.flag_besideBodies (s : State) (g : Flags → Flags) : (s.flag g).besideBodies = s.besideBodies := by
  simp [State.flag]
@[simp] theorem State.issue_besideBodies (s : State) (f : Fig) (e : BitVec 128) (el : Nat) :
    (s.issue f e el).besideBodies = s.besideBodies := by
  simp [State.issue]
@[simp] theorem State.noteWrite_besideBodies (s : State) (fid space : Nat) (old new : Mem) (keys : List Nat) :
    (s.noteWrite fid space old new keys).besideBodies = s.besideBodies := by
  simp [State.noteWrite]
@[simp] theorem State.t0Mark_besideBodies (s : State) (die cl line n : Nat) (p : Bool) :
    (s.t0Mark die cl line n p).besideBodies = s.besideBodies := by
  simp [State.t0Mark]
@[simp] theorem State.poisonFig_besideBodies (s : State) (f : Fig) : (s.poisonFig f).besideBodies = s.besideBodies := by
  simp [State.poisonFig, State.poisonFid]
@[simp] theorem State.setNonfinite_besideBodies (s : State) (f : Fig) (unit : Nat) :
    (s.setNonfinite f unit).besideBodies = s.besideBodies := by
  simp [State.setNonfinite]
@[simp] theorem State.tally_besideBodies (s : State) (f : Fig) (unit : Nat) (t : Tally) :
    (s.tally f unit t).besideBodies = s.besideBodies := by
  simp [State.tally]
@[simp] theorem State.useT0_besideBodies (s : State) (f : Fig) (off n : Nat) : (s.useT0 f off n).2.besideBodies = s.besideBodies := by
  simp [State.useT0]
@[simp] theorem State.putT0_besideBodies (s : State) (f : Fig) (off : Nat) (b : Bytes) :
    (s.putT0 f off b).besideBodies = s.besideBodies := by
  simp [State.putT0]

/-! ## Reads and writes of vector and mask registers -/

@[simp] theorem State.vTouch_besideBodies (s : State) (f : Fig) (rs : List Nat) : (s.vTouch f rs).besideBodies = s.besideBodies := by
  simp [State.vTouch]
@[simp] theorem State.vTouch2_besideBodies (s : State) (f : Fig) (v : VInst) (rs : List Nat) :
    (s.vTouch2 f v rs).besideBodies = s.besideBodies := by
  simp [State.vTouch2]
@[simp] theorem State.vMark_besideBodies (s : State) (f : Fig) (key : Nat) : (s.vMark f key).besideBodies = s.besideBodies := by
  simp [State.vMark]
@[simp] theorem State.vPut_besideBodies (s : State) (f : Fig) (r w : Nat) (codes : List Nat) :
    (s.vPut f r w codes).besideBodies = s.besideBodies := by
  simp [State.vPut, foldl_besideBodies]
@[simp] theorem State.maskPut_besideBodies (s : State) (f : Fig) (m : Nat) (l : List Bool) :
    (s.maskPut f m l).besideBodies = s.besideBodies := by
  simp [State.maskPut]
@[simp] theorem State.vWrite_besideBodies (s : State) (f : Fig) (v : VInst) (w : Nat) (res : List Nat) :
    (s.vWrite f v w res).besideBodies = s.besideBodies := by
  simp [State.vWrite]
@[simp] theorem State.vRound_besideBodies (s : State) (f : Fig) (v : VInst) (vals : List FVal) :
    (s.vRound f v vals).besideBodies = s.besideBodies := by
  unfold State.vRound
  split <;> simp
@[simp] theorem State.vSticky_besideBodies (s : State) (f : Fig) (perm : Bool) : (s.vSticky f perm).besideBodies = s.besideBodies := by
  simp [State.vSticky]
@[simp] theorem State.vPairs_besideBodies (s : State) (f : Fig) (v : VInst) (rows : List (Word32 × Word32 × Bool)) :
    (s.vPairs f v rows).besideBodies = s.besideBodies := by
  unfold State.vPairs
  split <;> simp

/-! ## Instructions and bodies -/

@[simp] theorem State.vReduce_besideBodies (s : State) (f : Fig) (v : VInst) : (s.vReduce f v).besideBodies = s.besideBodies := by
  unfold State.vReduce
  simp only []
  split <;> simp

/-- One instruction (Table 18.7): each reads and writes through the operations above. -/
@[simp] theorem State.vRun_besideBodies (s : State) (f : Fig) (v : VInst) : (s.vRun f v).besideBodies = s.besideBodies := by
  unfold State.vRun
  (repeat' split) <;> simp [State.vLoad, State.vStore, State.vMLoad, State.vMStore, State.vFma, State.vSelect, State.vCompare,
    State.vEncode, State.vDecode, State.vTransc, State.vArg, State.vPerm, State.vRowNorm, State.vRowSmax, State.vSoftmax, State.vElem]

theorem State.vBody_besideBodies (f : Fig) (w : Nat) : ∀ (l : List VStep) (s : State) (el k : Nat),
    (s.vBody f w el k l).1.besideBodies = s.besideBodies
  | [], _, _, _ => rfl
  | .inst v :: l, s, el, k => (vBody_besideBodies f w l (s.vRun f v) _ (k + 1)).trans (s.vRun_besideBodies f v)
  | .signal e :: l, s, el, k => (vBody_besideBodies f w l (s.issue f e el) el (k + 1)).trans (s.issue_besideBodies f e el)
  | .wait e :: l, s, el, k => by
      by_cases met : s.waitMet f e = true
      · rw [State.vBody, if_pos met]
        exact vBody_besideBodies f w l s el (k + 1)
      · rw [State.vBody, if_neg met]

theorem State.resumeOne_besideBodies (s : State) (x : FigStat) : (s.resumeOne x).besideBodies = s.besideBodies := by
  unfold State.resumeOne
  split
  · split
    · split
      · simp [State.vecRun, State.vBody_besideBodies]
      · rfl
    · rfl
  · rfl

theorem State.resume_besideBodies (s : State) : s.resume.besideBodies = s.besideBodies := by
  unfold State.resume
  split
  · exact foldl_besideBodies _ State.resumeOne_besideBodies _ s
  · rfl

end Sys2Proof.Machine

/-! PROOF. The clock of a command: signals apply in their cycle, waiting bodies go on, waits are accounted (R11, R226, R227,
R286). -/
namespace Sys2Proof.Machine

/-! ## What signals leave alone -/

/-- What the signals that apply and an account of waits leave alone, all else at a fixed value. -/
def State.besideSignals (s : State) : State := { s with
  free := 0, regs := [], clk := { s.clk with cyc := 0 }, host := s.host.besideEvents, err := { s.err with inFlight := [] }
  run := { s.run with sig := [], sigDone := [] }, t0 := { s.t0 with sync := [], hub := [], armed := [] }
  t1 := { s.t1 with settled := [] } }

@[simp] theorem State.besideSignals_update (s : State) (free : Nat) (regs : Tab) (clk : Clock) (host : HostIf) (err : Errors)
    (run : Run) (t0 : T0) (hclk : { clk with cyc := 0 } = { s.clk with cyc := 0 }) (hhost : host.besideEvents = s.host.besideEvents)
    (herr : { err with inFlight := [] } = { s.err with inFlight := [] })
    (hrun : { run with sig := [], sigDone := [] } = { s.run with sig := [], sigDone := [] })
    (ht0 : { t0 with sync := [], hub := [], armed := [] } = { s.t0 with sync := [], hub := [], armed := [] }) :
    State.besideSignals { s with free := free, regs := regs, clk := clk, host := host, err := err, run := run, t0 := t0 }
      = s.besideSignals := by
  simp only [State.besideSignals, hclk, hhost, herr, hrun, ht0]

@[simp] theorem State.besideSignals_ite (c : Prop) [Decidable c] (s t : State) :
    (if c then s else t).besideSignals = if c then s.besideSignals else t.besideSignals := by split <;> rfl

theorem State.besideBodies_of_besideSignals {s t : State} (h : t.besideSignals = s.besideSignals) : t.besideBodies = s.besideBodies :=
  congrArg (fun x : State => { x with run := Run.reset, t0 := { T0.reset with vat := x.t0.vat } }) h

theorem State.besideSignals_of_facing {s t : State} (told : s.facing t) (events : t.host.besideEvents = s.host.besideEvents) :
    t.besideSignals = s.besideSignals := by
  rw [told]
  exact s.besideSignals_update s.free t.regs s.clk t.host s.err s.run s.t0 rfl events rfl rfl rfl

@[simp] theorem State.emit_besideSignals (s : State) (k d p : Nat) : (s.emit k d p).besideSignals = s.besideSignals :=
  State.besideSignals_of_facing (s.emit_facing k d p) (s.emit_besideEvents k d p)
@[simp] theorem State.count_besideSignals (s : State) (f : Field) (n : Nat) : (s.count f n).besideSignals = s.besideSignals :=
  State.besideSignals_of_facing (s.count_facing f n) rfl
@[simp] theorem State.stamp_besideSignals (s : State) : s.stamp.2.besideSignals = s.besideSignals := by
  unfold State.stamp
  split <;> simp [State.draw]
@[simp] theorem State.syncPut_besideSignals (s : State) (key v : Nat) : (s.syncPut key v).besideSignals = s.besideSignals := by
  simp [State.syncPut]

/-- A saturated sum is an error of class C: it is recorded and drops no figure (R227). -/
@[simp] theorem State.syncSat_besideSignals (s : State) (die unit index detail : Nat) :
    (s.detectAt Er.syncSat die unit index detail).besideSignals = s.besideSignals := by
  obtain ⟨fig, recorded⟩ := s.detect_recorded ⟨Er.syncSat, ⟨die, unit, index⟩, none, detail⟩
    (by decide : errClass Er.syncSat ≠ 1) (by decide : errClass Er.syncSat ≠ 2)
  rw [State.detectAt, recorded, ← s.stamp_besideSignals]
  exact State.besideSignals_update _ _ _ _ _ _ _ _ rfl rfl rfl rfl rfl

@[simp] theorem State.armFire_besideSignals (s : State) (obj : Nat) : (s.armFire obj).besideSignals = s.besideSignals := by
  unfold State.armFire
  split <;> simp
@[simp] theorem State.syncAdd_besideSignals (s : State) (key n : Nat) : (s.syncAdd key n).besideSignals = s.besideSignals := by
  simp [State.syncAdd]
@[simp] theorem State.syncCycle_besideSignals (s : State) (key due : Nat) : (s.syncCycle key due).besideSignals = s.besideSignals := by
  unfold State.syncCycle
  simp only [State.besideSignals_ite, State.syncAdd_besideSignals, ite_self]
  split <;> simp

/-! ## The signals still in flight -/

theorem State.facing_run {s t : State} (told : s.facing t) : t.run = s.run := by
  rw [told]

theorem State.emit_run (s : State) (k d p : Nat) : (s.emit k d p).run = s.run := State.facing_run (s.emit_facing k d p)
theorem State.stamp_run (s : State) : s.stamp.2.run = s.run := by
  unfold State.stamp
  split <;> rfl
theorem State.syncPut_run (s : State) (key v : Nat) : (s.syncPut key v).run = s.run := by
  unfold State.syncPut
  split <;> rfl
theorem State.syncSat_run (s : State) (die unit index detail : Nat) : (s.detectAt Er.syncSat die unit index detail).run = s.run := by
  obtain ⟨fig, recorded⟩ := s.detect_recorded ⟨Er.syncSat, ⟨die, unit, index⟩, none, detail⟩
    (by decide : errClass Er.syncSat ≠ 1) (by decide : errClass Er.syncSat ≠ 2)
  rw [State.detectAt, recorded, ← s.stamp_run]
theorem State.armFire_run (s : State) (obj : Nat) : (s.armFire obj).run = s.run := by
  unfold State.armFire
  split
  · rfl
  · simp only []
    split
    · rw [State.emit_run]
    · rfl
theorem State.syncAdd_run (s : State) (key n : Nat) : (s.syncAdd key n).run = s.run := by
  simp only [State.syncAdd, apply_ite State.run, State.armFire_run, State.syncSat_run, State.count_run, State.syncPut_run, ite_self]

/-- The signals of one object and cycle leave together. -/
theorem State.syncCycle_sig (s : State) (key due : Nat) :
    (s.syncCycle key due).run.sig = s.run.sig.filter fun g => !(g.key == key && g.due == due) := by
  unfold State.syncCycle
  simp only [apply_ite State.run, State.syncAdd_run, ite_self]
  split <;> simp only [State.syncPut_run]

theorem firstSig_none : ∀ {l : List Signal}, firstSig l = none → l = []
  | [], _ => rfl
  | x :: l, h => by unfold firstSig at h; split at h <;> cases h

/-- `firstSig` finds a signal due no later than any other. -/
theorem firstSig_some : ∀ {l : List Signal} {g : Signal}, firstSig l = some g → g ∈ l ∧ ∀ x ∈ l, g.due ≤ x.due
  | x :: l, g, h => by
      unfold firstSig at h
      split at h
      · rename_i empty
        cases h
        simp [firstSig_none empty]
      · rename_i y first
        obtain ⟨mem, least⟩ := firstSig_some first
        cases h
        split
        · rename_i earlier
          exact ⟨List.mem_cons_of_mem _ mem, List.forall_mem_cons.mpr ⟨Nat.le_of_lt earlier, least⟩⟩
        · rename_i later
          exact ⟨List.mem_cons_self, List.forall_mem_cons.mpr ⟨Nat.le_refl _, fun z hz => Nat.le_trans (Nat.le_of_not_lt later) (least z hz)⟩⟩

/-! ## Bodies that have run to their end -/

/-- No running vector body has a step left to take. -/
def State.bodiesDone (s : State) : Prop := ∀ x ∈ s.running, s.stepsLeft x = []

theorem State.bodiesDone_of_besideSignals {s t : State} (h : t.besideSignals = s.besideSignals) (done : s.bodiesDone) : t.bodiesDone := by
  have figs : t.run.figs = s.run.figs := (congrArg (fun x : State => x.run.figs) h :)
  have plan : t.plan = s.plan := (congrArg State.plan h :)
  simpa only [State.bodiesDone, State.running, State.stepsLeft, State.figure, figs, plan] using done

theorem State.resume_of_bodiesDone (s : State) (done : s.bodiesDone) : s.resume = s := by
  have still : ∀ l : List FigStat, (∀ x ∈ l, s.stepsLeft x = []) → l.foldl State.resumeOne s = s := by
    intro l
    induction l with
    | nil => exact fun _ => rfl
    | cons x l ih =>
        intro all
        have ended : s.resumeOne x = s := by
          unfold State.resumeOne
          split
          · rename_i steps
            rw [all x List.mem_cons_self] at steps
            cases steps
          · rfl
        rw [List.foldl_cons, ended]
        exact ih fun y hy => all y (List.mem_cons_of_mem _ hy)
  unfold State.resume
  split
  · exact still _ done
  · rfl

/-! ## Signals up to a cycle -/

/-- The clock's cycle alone is not seen. -/
theorem State.besideSignals_cyc (s : State) (c : Nat) : State.besideSignals { s with clk := { s.clk with cyc := c } } = s.besideSignals := rfl

theorem State.syncUpTo_besideBodies (c : Nat) : ∀ (n : Nat) (s : State), (State.syncUpTo n c s).besideBodies = s.besideBodies
  | 0, _ => rfl
  | n + 1, s => by
      unfold State.syncUpTo
      split
      · rfl
      · split
        · rename_i g _ _
          rw [syncUpTo_besideBodies c n, State.resume_besideBodies]
          exact State.besideBodies_of_besideSignals ((State.syncCycle_besideSignals _ g.key g.due).trans (s.besideSignals_cyc _))
        · rfl

/-- With no body to go on, exactly the signals due by cycle `c` apply. -/
theorem State.syncUpTo_of_bodiesDone (c : Nat) : ∀ (n : Nat) (s : State), s.bodiesDone → s.run.sig.length ≤ n →
    (State.syncUpTo n c s).besideSignals = s.besideSignals
      ∧ (State.syncUpTo n c s).run.sig = s.run.sig.filter fun g => decide (c < g.due)
  | 0, s, _, bound => by
      have empty : s.run.sig = [] := List.length_eq_zero_iff.mp (Nat.le_zero.mp bound)
      exact ⟨rfl, by rw [State.syncUpTo, empty]; rfl⟩
  | n + 1, s, done, bound => by
      unfold State.syncUpTo
      split
      · rename_i landed
        exact ⟨rfl, by rw [firstSig_none landed]; rfl⟩
      · rename_i g first
        obtain ⟨mem, least⟩ := firstSig_some first
        split
        · rename_i due
          have beside := (State.syncCycle_besideSignals { s with clk := { s.clk with cyc := max s.clk.cyc g.due } } g.key g.due).trans
            (s.besideSignals_cyc _)
          have sig := State.syncCycle_sig { s with clk := { s.clk with cyc := max s.clk.cyc g.due } } g.key g.due
          generalize State.syncCycle { s with clk := { s.clk with cyc := max s.clk.cyc g.due } } g.key g.due = w at beside sig
          have wDone := State.bodiesDone_of_besideSignals beside done
          have fewer : w.run.sig.length < s.run.sig.length := by
            rw [sig]
            exact List.length_filter_lt_length_iff_exists.mpr ⟨g, mem, by simp⟩
          obtain ⟨rest, left⟩ := syncUpTo_of_bodiesDone c n w wDone (by omega)
          rw [w.resume_of_bodiesDone wDone]
          refine ⟨rest.trans beside, left.trans ?_⟩
          rw [sig, List.filter_filter]
          refine List.filter_congr fun x _ => ?_
          by_cases later : c < x.due
          · have other : x.due ≠ g.due := by omega
            simp [later, other]
          · simp [later]
        · rename_i early
          exact ⟨rfl, (List.filter_eq_self.mpr fun x hx => decide_eq_true (by have := least x hx; omega)).symm⟩

/-! ## Waits on the arbiters -/

theorem foldl_regs {α : Type} (g : State → α → State) (h : ∀ t x, ∃ regs, g t x = { t with regs := regs }) :
    ∀ (l : List α) (t : State), ∃ regs, l.foldl g t = { t with regs := regs }
  | [], t => ⟨t.regs, rfl⟩
  | x :: l, t => by
      obtain ⟨r1, e1⟩ := h t x
      obtain ⟨r2, e2⟩ := foldl_regs g h l (g t x)
      exact ⟨r2, by rw [List.foldl_cons, e2, e1]⟩

theorem State.settled_of_regs {s u : State} (x : Tab) (h : ∃ regs, u = { s with regs := regs }) : ∃ regs settled,
    ({ u with t1 := { u.t1 with settled := x } } : State) = { s with regs := regs, t1 := { s.t1 with settled := settled } } := by
  obtain ⟨regs, rfl⟩ := h
  exact ⟨regs, x, rfl⟩

/-- An account of waits writes counters and the time up to which they are accounted (R286). -/
theorem State.settleWaits_eq (s : State) (mu : Nat) : ∃ regs settled,
    s.settleWaits mu = { s with regs := regs, t1 := { s.t1 with settled := settled } } := by
  unfold State.settleWaits
  simp only []
  split
  · exact ⟨s.regs, s.t1.settled, rfl⟩
  · refine State.settled_of_regs _ (foldl_regs _ (fun t n => ?_) (upTo 7) s)
    split
    · exact ⟨t.regs, rfl⟩
    · exact ⟨_, rfl⟩

theorem State.foldl_settleWaits_eq : ∀ (l : List Nat) (s : State), ∃ regs settled,
    l.foldl State.settleWaits s = { s with regs := regs, t1 := { s.t1 with settled := settled } }
  | [], s => ⟨s.regs, s.t1.settled, rfl⟩
  | mu :: l, s => by
      obtain ⟨r1, d1, e1⟩ := s.settleWaits_eq mu
      obtain ⟨r2, d2, e2⟩ := foldl_settleWaits_eq l (s.settleWaits mu)
      exact ⟨r2, d2, by rw [List.foldl_cons, e2, e1]⟩

/-! ## The tick -/

/-- The cycle to which a command at cycle `cyc` moves the clock. -/
def State.tickCyc (s : State) (cyc : Nat) : Nat :=
  if s.dev = .boot ∨ s.dev = .off then max s.clk.cyc cyc else min (max s.clk.cyc cyc) (s.clk.beatCycles - 1)

/-- The signals due by the tick's cycle have applied. -/
def State.signalled (s : State) (cyc : Nat) : State :=
  if s.run.sig.isEmpty then s else s.syncUpTo s.sigBound (s.tickCyc cyc)

/-- The signals have applied and the clock stands at the tick's cycle. -/
def State.moved (s : State) (cyc : Nat) : State :=
  { s.signalled cyc with
    clk := { (s.signalled cyc).clk with cyc := s.tickCyc cyc }
    run := { (s.signalled cyc).run with sigDone := (s.signalled cyc).run.sigDone.filter fun g => g.due == s.tickCyc cyc } }

/-- A tick moves the clock with its signals and then accounts for the waits. -/
theorem State.tick_eq_moved (s : State) (cyc : Nat) :
    s.tick cyc = if (s.moved cyc).t1.req.isEmpty then s.moved cyc else (upTo 8).foldl State.settleWaits (s.moved cyc) := by
  have same : (if (s.dev == .boot || s.dev == .off) = true then max s.clk.cyc cyc else min (max s.clk.cyc cyc) (s.clk.beatCycles - 1))
      = s.tickCyc cyc := by
    simp only [State.tickCyc, Bool.or_eq_true, beq_iff_eq]
  unfold State.tick
  rw [same]
  rfl

theorem State.tick_eq (s : State) (cyc : Nat) : ∃ regs settled,
    s.tick cyc = { s.moved cyc with regs := regs, t1 := { (s.moved cyc).t1 with settled := settled } } := by
  rw [State.tick_eq_moved]
  split
  · exact ⟨_, _, rfl⟩
  · exact State.foldl_settleWaits_eq _ _

theorem State.tick_cyc (s : State) (cyc : Nat) : (s.tick cyc).clk.cyc = s.tickCyc cyc := by
  obtain ⟨regs, settled, e⟩ := s.tick_eq cyc
  rw [e]
  rfl

theorem State.tick_besideBodies (s : State) (cyc : Nat) : (s.tick cyc).besideBodies = s.besideBodies := by
  obtain ⟨regs, settled, e⟩ := s.tick_eq cyc
  have signalled : (s.signalled cyc).besideBodies = s.besideBodies := by
    unfold State.signalled
    split
    · rfl
    · exact State.syncUpTo_besideBodies _ _ s
  rw [e, ← signalled]
  rfl

theorem State.tick_of_bodiesDone (s : State) (cyc : Nat) (done : s.bodiesDone) :
    (s.tick cyc).besideSignals = s.besideSignals
      ∧ (s.tick cyc).run.sig = s.run.sig.filter fun g => decide (s.tickCyc cyc < g.due) := by
  obtain ⟨regs, settled, e⟩ := s.tick_eq cyc
  have signalled : (s.signalled cyc).besideSignals = s.besideSignals
      ∧ (s.signalled cyc).run.sig = s.run.sig.filter fun g => decide (s.tickCyc cyc < g.due) := by
    unfold State.signalled
    split
    · rename_i empty
      exact ⟨rfl, by rw [List.isEmpty_iff.mp empty]; rfl⟩
    · exact State.syncUpTo_of_bodiesDone _ _ s done (Nat.le_add_right _ _)
  rw [e]
  exact ⟨(rfl : _ = (s.signalled cyc).besideSignals).trans signalled.1, signalled.2⟩

/-- With no signal in flight and no request at an arbiter a tick moves the clock, and the signals of an earlier cycle have passed. -/
theorem State.tick_idle (s : State) (cyc : Nat) (sig : s.run.sig = []) (req : s.t1.req = []) :
    s.tick cyc = { s with
      clk := { s.clk with cyc := s.tickCyc cyc }
      run := { s.run with sigDone := s.run.sigDone.filter fun g => g.due == s.tickCyc cyc } } := by
  have still : s.signalled cyc = s := by simp [State.signalled, sig]
  rw [State.tick_eq_moved]
  simp only [State.moved, still, req, List.isEmpty_nil, if_true]

/-! ## What the two views give, field by field -/

theorem State.fields_of_besideBodies {s t : State} (h : t.besideBodies = s.besideBodies) :
    t.clk = { s.clk with cyc := t.clk.cyc } ∧ t.dev = s.dev ∧ t.halt = s.halt ∧ t.pins = s.pins ∧ t.fuses = s.fuses
      ∧ t.flash = s.flash ∧ t.boot = s.boot ∧ t.sec = s.sec ∧ t.plan = s.plan ∧ t.ing = s.ing ∧ t.fab = s.fab ∧ t.cel = s.cel
      ∧ t.pending = s.pending ∧ t.host.rings = s.host.rings ∧ t.t0.vat = s.t0.vat
      ∧ t.t1 = { s.t1 with settled := t.t1.settled } :=
  have field {α : Type} (f : State → α) : f t.besideBodies = f s.besideBodies := congrArg f h
  ⟨field fun x => { x.clk with cyc := t.clk.cyc }, field State.dev, field State.halt, field State.pins, field State.fuses,
    field State.flash, field State.boot, field State.sec, field State.plan, field State.ing, field State.fab, field State.cel,
    field State.pending, field fun x => x.host.rings, field fun x => x.t0.vat, field fun x => { x.t1 with settled := t.t1.settled }⟩

theorem State.fields_of_besideSignals {s t : State} (h : t.besideSignals = s.besideSignals) :
    t.t0 = { s.t0 with sync := t.t0.sync, hub := t.t0.hub, armed := t.t0.armed }
      ∧ t.run = { s.run with sig := t.run.sig, sigDone := t.run.sigDone }
      ∧ t.err = { s.err with inFlight := t.err.inFlight }
      ∧ t.host = { s.host with mem := t.host.mem, evTail := t.host.evTail, evLost := t.host.evLost, evHeld := t.host.evHeld, go := t.host.go } :=
  have field {α : Type} (f : State → α) : f t.besideSignals = f s.besideSignals := congrArg f h
  ⟨field fun x => { x.t0 with sync := t.t0.sync, hub := t.t0.hub, armed := t.t0.armed },
    field fun x => { x.run with sig := t.run.sig, sigDone := t.run.sigDone },
    field fun x => { x.err with inFlight := t.err.inFlight }, HostIf.eq_of_besideEvents (field State.host)⟩

/-- Settles O5: a tick changes what its signals, the bodies that go on and the account of waits change, and the clock. -/
theorem tickMovesTime : Obligations.TickMovesTime := by
  intro s cyc t
  obtain ⟨clk, dev, halt, pins, fuses, flash, boot, sec, plan, ing, fab, cel, pending, rings, vats, t1⟩ :=
    State.fields_of_besideBodies (s.tick_besideBodies cyc)
  have clock : t.clk.cyc = s.tickCyc cyc := s.tick_cyc cyc
  refine ⟨?_, dev, halt, pins, fuses, flash, boot, sec, plan, ing, fab, cel, pending, rings, vats, t1, fun done => ?_, fun sig req => ?_⟩
  · rw [clk, State.tick_cyc]
    rfl
  · obtain ⟨beside, left⟩ := s.tick_of_bodiesDone cyc done
    obtain ⟨t0, run, err, host⟩ := State.fields_of_besideSignals beside
    refine ⟨fun g => ?_, t0, run, err, host⟩
    rw [left, List.mem_filter, decide_eq_true_iff, clock]
  · rw [clock]
    exact (s.tick_idle cyc sig req).trans (by rw [clk, State.tick_cyc])

end Sys2Proof.Machine

/-! PROOF. The state right after reset. -/
namespace Sys2Proof.Machine

/-- The stores that hold something after reset are canonical; the others are empty. -/
theorem State.reset_canonical : State.reset.canonical = true := by decide

/-- Settles O3: the reset values are those of the register tables. -/
theorem resetState : Obligations.ResetState := by
  refine ⟨rfl, rfl, rfl, rfl, rfl, State.reset_canonical, Nat.zero_le 64, ?_⟩
  decide

end Sys2Proof.Machine

/-! PROOF. Planning commands (R25, R31, R56, R85, R426, R427). -/
namespace Sys2Proof.Machine

/-- What a planning command that passes its checks leaves: its request is kept for the build that waits for the domain, or else
for the next one, and the command stays uncompleted (R85, R362). -/
def State.keepRequest (p : State) (n : Nat) (d : BitVec 512) (q : PlanReq → PlanReq) : State :=
  if p.plan.building = true ∧ p.fab.formed = false then
    State.activate { p with plan := { p.plan with carried := q p.plan.carried } } n d 1
  else State.activate { p with plan := { p.plan with req := q p.plan.req } } n d 0

/-- Where cards are host-built, a planning command is refused with STATE. -/
theorem State.planCommand_hostCards {u : State} {n op : Nat} {d : BitVec 512} (running : u.dev = .running) (front : u.frontIs n op d)
    (host : u.feat 0 = true) (check : BitVec 512 → Nat) (put : BitVec 512 → PlanReq → PlanReq) :
    u.planCommand n op check put = (u.popCmd n).finish n d 0x18 0 := by
  rw [State.planCommand, State.start_of_frontIs running front false false _ nofun]
  exact if_pos host

/-- Where the device builds cards, a planning command that passes its check is kept. -/
theorem State.planCommand_kept {u : State} {n op : Nat} {d : BitVec 512} (running : u.dev = .running) (front : u.frontIs n op d)
    (device : u.feat 0 = false) {check : BitVec 512 → Nat} (passes : check d = St.ok) (put : BitVec 512 → PlanReq → PlanReq) :
    u.planCommand n op check put = (u.popCmd n).keepRequest n d (put d) := by
  have own : ¬ (u.popCmd n).hostCards = true := fun host => Bool.false_ne_true (device.symm.trans host)
  have waits : ((u.popCmd n).plan.building && !(u.popCmd n).fab.formed) = true
      ↔ (u.popCmd n).plan.building = true ∧ (u.popCmd n).fab.formed = false := by simp
  rw [State.planCommand, State.start_of_frontIs running front false false _ nofun, if_neg own, if_neg (not_not_intro passes)]
  simp only [waits]
  rfl

/-- Where the device builds cards, a planning command that fails its check is refused with the check's status. -/
theorem State.planCommand_refused {u : State} {n op : Nat} {d : BitVec 512} (running : u.dev = .running) (front : u.frontIs n op d)
    (device : u.feat 0 = false) {check : BitVec 512 → Nat} {st : Nat} (fails : check d = st) (refusal : st ≠ St.ok)
    (put : BitVec 512 → PlanReq → PlanReq) : u.planCommand n op check put = (u.popCmd n).finish n d st 0 := by
  have own : ¬ (u.popCmd n).hostCards = true := fun host => Bool.false_ne_true (device.symm.trans host)
  subst fails
  rw [State.planCommand, State.start_of_frontIs running front false false _ nofun, if_neg own, if_pos refusal]

theorem inRange_iff (lo hi x : Nat) : inRange lo hi x = true ↔ lo ≤ x ∧ x ≤ hi := by
  simp [inRange]

/-- A planning command whose only check is the range of one operand. -/
theorem State.planCommand_inRange {u : State} {n op : Nat} {d : BitVec 512} (running : u.dev = .running) (front : u.frontIs n op d)
    (device : u.feat 0 = false) (lo hi : Nat) (operand : BitVec 512 → Nat) (put : BitVec 512 → PlanReq → PlanReq) :
    let set := u.planCommand n op (fun d => if inRange lo hi (operand d) then St.ok else St.planRange) put
    (lo ≤ operand d ∧ operand d ≤ hi → set = (u.popCmd n).keepRequest n d (put d))
      ∧ (¬ (lo ≤ operand d ∧ operand d ≤ hi) → set = (u.popCmd n).finish n d 0x0C 0) := by
  rw [← inRange_iff]
  exact ⟨fun ok => State.planCommand_kept running front device (if_pos ok) put,
    fun bad => State.planCommand_refused running front device (if_neg bad) (by decide) put⟩

theorem exec_setBeat (s : State) (cyc n : Nat) (on : s.dev ≠ .off) :
    exec (.setBeat cyc n) s = .next ((s.tick cyc).planCommand n 0x10
      (fun d =>
        let len := bits (dW d 1) 0 15
        let rind := rindCycles len (bits (dW d 1) 16 15)
        if !inRange 20 20000 len || decide (len * 1900 < rind * 4) || !floodFits (s.tick cyc).diameter len rind then St.beatRange
        else St.ok)
      fun d q => { q with len := some (bits (dW d 1) 0 15, bits (dW d 1) 16 15) }) := by
  change execSetBeat cyc n s = _
  simp [execSetBeat, on]

theorem exec_setCap (s : State) (cyc n : Nat) (on : s.dev ≠ .off) :
    exec (.setCap cyc n) s = .next ((s.tick cyc).planCommand n 0x11
      (fun d => if inRange 25 100 (bits (dW d 1) 0 7) then St.ok else St.planRange)
      fun d q => { q with cap := some (bits (dW d 1) 0 7) }) := by
  change execSetCap cyc n s = _
  simp [execSetCap, on]

theorem exec_setPhrase (s : State) (cyc n : Nat) (on : s.dev ≠ .off) :
    exec (.setPhrase cyc n) s = .next ((s.tick cyc).planCommand n 0x12
      (fun d => if inRange 1 4096 (bits (dW d 1) 0 13) then St.ok else St.planRange)
      fun d q => { q with phrase := some (bits (dW d 1) 0 13) }) := by
  change execSetPhrase cyc n s = _
  simp [execSetPhrase, on]

theorem exec_replan (s : State) (cyc n : Nat) (on : s.dev ≠ .off) :
    exec (.replan cyc n) s = .next ((s.tick cyc).planCommand n 0x13 (fun _ => St.ok) fun _ q => { q with force := true }) := by
  change execReplan cyc n s = _
  simp [execReplan, on]

/-- Settles O24: with host-built cards the four commands are refused; else each is refused by its check or kept. -/
theorem planCommands : Obligations.PlanCommands := by
  intro s cyc n d u p len rind okBeat v cap keep running
  have on : s.dev ≠ .off := by rw [← s.tick_dev cyc, running]; decide
  rw [exec_setBeat s cyc n on, exec_setCap s cyc n on, exec_setPhrase s cyc n on, exec_replan s cyc n on]
  simp only [Host.Outcome.next.injEq]
  refine ⟨fun host => ?_, fun device => ⟨fun front => ?_, fun front => ?_, fun front => ?_, fun front => ?_⟩⟩
  · exact ⟨fun front => State.planCommand_hostCards running front host _ _, fun front => State.planCommand_hostCards running front host _ _,
      fun front => State.planCommand_hostCards running front host _ _, fun front => State.planCommand_hostCards running front host _ _⟩
  · have fails : (!inRange 20 20000 len || decide (len * 1900 < rind * 4) || !floodFits u.diameter len rind) = true ↔ ¬ okBeat := by
      simp only [okBeat, inRange, floodFits, Bool.or_eq_true, Bool.not_eq_true', Bool.and_eq_false_iff, decide_eq_true_eq,
        decide_eq_false_iff_not]
      omega
    exact ⟨fun ok => State.planCommand_kept running front device (if_neg fun bad => fails.mp bad ok) _,
      fun bad => State.planCommand_refused running front device (if_pos (fails.mpr bad)) (by decide) _⟩
  · exact State.planCommand_inRange running front device 25 100 (fun d => bits (dW d 1) 0 7) fun d q => { q with cap := some (bits (dW d 1) 0 7) }
  · exact State.planCommand_inRange running front device 1 4096 (fun d => bits (dW d 1) 0 13) fun d q => { q with phrase := some (bits (dW d 1) 0 13) }
  · exact State.planCommand_kept running front device rfl _

end Sys2Proof.Machine

/-! PROOF. START: what is checked, and what an accepted START leaves (R439, R440, R472). -/
namespace Sys2Proof.Machine

/-- After a further field is written the register file alone still differs. -/
theorem State.set_of_regs {s t : State} (f : Field) (v : Nat) (h : ∃ regs, t = { s with regs := regs }) :
    ∃ regs, t.set f v = { s with regs := regs } := by
  obtain ⟨regs, rfl⟩ := h
  exact ⟨_, rfl⟩

/-- START may be requested: a state that negotiates, with none held (R472). -/
def State.mayStart (u : State) : Prop := (u.dev = .unconfigured ∨ u.dev = .negotiated) ∧ u.boot.startHeld = false

theorem State.writeStart_ignored (u : State) (go : Bool) (h : go = false ∨ ¬ u.mayStart) : u.writeStart go = u := by
  refine if_neg fun asked => ?_
  simp only [Bool.and_eq_true, Bool.or_eq_true, beq_iff_eq, Bool.not_eq_true'] at asked
  obtain ⟨⟨go', neg⟩, held⟩ := asked
  exact h.elim (fun off => Bool.false_ne_true (off.symm.trans go')) fun cannot => cannot ⟨neg, held⟩

/-- A START that may be requested is evaluated, or held until the T1 clear completes. -/
theorem State.writeStart_of_mayStart (u : State) (may : u.mayStart) :
    u.writeStart true = if u.get F.HUB_BOOT_STATUS_T1_CLEAR = 1 then u.evalStart else { u with boot := { u.boot with startHeld := true } } := by
  obtain ⟨neg, held⟩ := may
  refine if_pos ?_
  simpa [held] using neg

theorem State.evalStart_accepted (u : State) (passes : u.startStatus = 0) : u.evalStart = u.accept :=
  if_pos passes

/-- What a refused START leaves: its status recorded, the device NEGOTIATED (R439). -/
def State.refuseStart (u : State) : State :=
  if u.dev = .unconfigured then (u.set F.HUB_START_STATUS u.startStatus).enter .negotiated 0 else u.set F.HUB_START_STATUS u.startStatus

theorem State.evalStart_refused (u : State) (held : u.boot.startHeld = false) (refused : u.startStatus ≠ 0) :
    u.evalStart = u.refuseStart := by
  have same : ({ u with boot := { u.boot with startHeld := false } } : State) = u := by rw [← held]
  unfold State.evalStart
  simp only [same, if_neg (show ¬ u.startStatus = St.ok from refused), beq_iff_eq, State.set_dev]
  rfl

theorem State.refuseStart_eq (u : State) (neg : u.dev = .unconfigured ∨ u.dev = .negotiated) : ∃ halt regs host,
    u.refuseStart = { u with dev := .negotiated, halt := halt, regs := regs, host := host } := by
  obtain ⟨regs, written⟩ := State.set_of_regs (s := u) (t := u) F.HUB_START_STATUS u.startStatus ⟨u.regs, rfl⟩
  unfold State.refuseStart
  rw [written]
  split
  · exact ⟨_, _, _, State.enter_eq _ _ _⟩
  · have negotiated : u.dev = .negotiated := neg.resolve_left ‹_›
    exact ⟨u.halt, regs, u.host, by rw [← negotiated]⟩

/-- The status is the first failing check's in the order of R439. -/
theorem State.startStatus_eq (u : State) :
    u.startStatus = (if u.featOk = false then 0x16 else if u.expertOk = false then 0x01 else if u.beatOk = false then 0x02
      else if u.rangesOk = false then 0x0C else if u.modesAgree = false then 0x0B else 0) := by
  simp only [State.startStatus, Bool.not_eq_true']
  rfl

/-- A device that forms its domain alone writes its seat's registers and the domain (R362). -/
theorem State.formAlone_eq (s : State) : ∃ regs fab, s.formAlone = { s with regs := regs, fab := fab } := by
  unfold State.formAlone
  extract_lets s1
  obtain ⟨regs, seated⟩ : ∃ regs, s1 = { s with regs := regs } :=
    State.set_of_regs _ _ <| State.set_of_regs _ _ <| State.set_of_regs _ _ <| State.set_of_regs _ _ ⟨s.regs, rfl⟩
  clear_value s1
  subst seated
  split
  · exact ⟨s.regs, s.fab, rfl⟩
  · split <;> exact ⟨_, _, rfl⟩

/-- What an accepted START takes of the state it is evaluated in; registers, measurements, domain and what the host is told are left
open (R257, R273, R440). -/
theorem State.accept_eq (u : State) : ∃ regs clk host sec ing fab plan t1,
    u.accept = { u with
      dev := .running, halt := 0, regs := regs, clk := clk, host := host, sec := sec, ing := ing, fab := fab
      plan := plan, t0 := { u.t0 with hub := [], armed := [] }, t1 := t1
      boot := { u.boot with startHeld := false, started := true } }
    ∧ host.rings = u.host.rings
    ∧ plan.graph = none ∧ plan.card = none ∧ plan.cap = u.get F.PLC_POWER_CFG_CAP
    ∧ t1.free = u.freeBlocks ∧ t1.mem = u.t1.mem
    ∧ (u.fab.formed = false → clk.lenUs = u.get (F.CALLER_BEAT_CFG_LEN_US.caller 14)) := by
  unfold State.accept
  extract_lets s1 s2 s3 len rind link boot clk host plan t0 t1 fab s4 ov s5
  obtain ⟨regs, written⟩ : ∃ regs, s3 = { u with regs := regs } :=
    State.set_of_regs _ _ <| State.set_of_regs _ _ <| State.set_of_regs _ _ <| State.set_of_regs _ _ <| State.set_of_regs _ _ <|
      State.set_of_regs _ _ ⟨_, rfl⟩
  clear_value s3 ov rind link
  subst written
  obtain ⟨seat, domain, alone⟩ := (s5.enter .running 0).formAlone_eq
  rw [alone, State.enter_eq]
  refine ⟨_, _, _, _, _, _, _, _, rfl, ?_, rfl, rfl, rfl, rfl, rfl, fun apart => ?_⟩
  · rw [State.enter_rings]
    rfl
  · simp [s5, s4, apart, len]

/-- In NEGOTIATED, with no START held, an accepted START alone locks. -/
theorem State.locked_of_negotiated (u : State) (neg : u.dev = .negotiated) (held : u.boot.startHeld = false) : u.locked = u.boot.started := by
  rw [State.locked, neg, held]
  cases u.boot.started <;> rfl

/-- Settles O12: START is ignored, held, refused with the first failing check's status, or accepted. -/
theorem startChecks : Obligations.StartChecks := by
  intro s cyc u on may
  rw [exec_start s cyc true (s.tick_dev cyc ▸ on), exec_start s cyc false (s.tick_dev cyc ▸ on)]
  simp only [Host.Outcome.next.injEq, exists_eq_left']
  refine ⟨⟨u.writeStart_ignored false (.inl rfl), fun cannot => u.writeStart_ignored true (.inr cannot)⟩, u.startStatus_eq,
    fun asked early => ?_, fun asked cleared refused => ?_, fun asked cleared passes => ?_⟩
  · exact (u.writeStart_of_mayStart asked).trans (if_neg early)
  · have left : u.writeStart true = u.refuseStart :=
      (u.writeStart_of_mayStart asked).trans ((if_pos cleared).trans (u.evalStart_refused asked.2 refused))
    obtain ⟨halt, regs, host, e⟩ := u.refuseStart_eq asked.1
    have negotiated : u.refuseStart.dev = .negotiated := by rw [e]
    have boot : u.refuseStart.boot = u.boot := by rw [e]
    rw [show (s.tick cyc).writeStart true = u.refuseStart from left]
    refine ⟨negotiated, ?_, rfl, ?_⟩
    · rw [State.locked_of_negotiated _ negotiated (boot ▸ asked.2), boot]
    · rw [e]
      exact ⟨rfl, rfl, rfl, rfl⟩
  · have left : u.writeStart true = u.accept :=
      (u.writeStart_of_mayStart asked).trans ((if_pos cleared).trans (u.evalStart_accepted passes))
    obtain ⟨regs, clk, host, sec, ing, fab, plan, t1, accepted, rings, graph, card, cap, free, mem, len⟩ := u.accept_eq
    rw [show (s.tick cyc).writeStart true = u.accept from left, accepted]
    exact ⟨rfl, rfl, rfl, graph, card, cap, rfl, rfl, free, mem, rfl, rfl, rings, len⟩

end Sys2Proof.Machine

/-! PROOF. How a figure of the open beat starts (R24, R42, R44, R46, R226, R491). -/
namespace Sys2Proof.Machine

/-! ## What a start asks -/

/-- COND 0 is always met, 1 after a commit, 2 when the cut opened; the others never are (Table 18.3). -/
theorem State.condMet_eq_false_iff (s : State) (f : Fig) :
    s.condMet f = false ↔ f.cond = 1 ∧ s.run.lastCommit = false ∨ f.cond = 2 ∧ s.run.cutOpened = false ∨ 2 < f.cond := by
  unfold State.condMet
  split
  · simp [*]
  · simp [*]
  · simp [*]
  · rename_i not0 not1 not2
    have high : 2 < f.cond := by have : f.cond ≠ 0 := not0; have : f.cond ≠ 1 := not1; have : f.cond ≠ 2 := not2; omega
    simp [high]

theorem State.skips_iff (s : State) (f : Fig) :
    s.skips f = true ↔ (f.cond = 1 ∧ s.run.lastCommit = false ∨ f.cond = 2 ∧ s.run.cutOpened = false ∨ 2 < f.cond)
      ∨ (f.isSlice = true ∧ s.run.local_ = some false) := by
  simp only [State.skips, Bool.or_eq_true, Bool.not_eq_true', Bool.and_eq_true, beq_iff_eq, s.condMet_eq_false_iff f]

theorem State.mbCut_iff (s : State) (f : Fig) :
    s.mbCut f = true ↔ f.cls = 0 ∧ f.mb ≠ 0xFFFF ∧ f.mb ∈ s.run.mbDrop ∧ ∃ x ∈ s.run.figs, x.phase = .dropped
      ∧ ∃ g, s.figure x.fid = some g ∧ g.cls = 0 ∧ g.mb = f.mb ∧ (g.pos < f.pos ∨ (g.pos = f.pos ∧ g.start < f.start)) := by
  simp [State.mbCut, Cls.chain, Option.any_eq_true, and_assoc]

theorem State.cascaded_iff (s : State) (f : Fig) :
    s.cascaded f = true ↔ (∃ p ∈ f.deps, (s.stat p).phase = .dropped) ∨ s.mbCut f = true := by
  simp [State.cascaded]

theorem State.unyielded_iff (s : State) (f : Fig) :
    s.unyielded f = true ↔ ∃ p ∈ f.deps, ∃ g, s.figure p = some g ∧ g.pos < f.pos ∧ (s.stat p).yield = false := by
  simp only [State.unyielded, List.any_eq_true]
  refine exists_congr fun p => and_congr_right fun _ => ?_
  cases s.figure p <;> simp

/-- Queue free, no earlier pass pending, every leading WAIT met. -/
def State.ready (s : State) (f : Fig) : Prop :=
  s.queueFree f = true ∧ s.passWaits f = false
    ∧ ∀ e ∈ f.waits, ent e 32 32 ≤ s.syncGet (entKey e f.die) + s.nearSum (entKey e f.die) (clKey f.die f.group)

theorem State.ready_iff (s : State) (f : Fig) : (s.queueFree f && !s.passWaits f && f.waits.all (s.waitMet f)) = true ↔ s.ready f := by
  simp only [State.ready, Bool.and_eq_true, Bool.not_eq_true', List.all_eq_true, State.waitMet, decide_eq_true_eq, and_assoc]

/-! ## The row -/

/-- What FIGURE_START leaves of a figure of the card (R491). -/
def State.startRow (u : State) (f : Fig) (env : FigEnv) : State :=
  if !u.waitsToStart f || decide (u.clk.cyc < f.start) then u
  else if u.skips f || env.beyondCount || u.cascaded f || u.unyielded f || (u.queueFree f && !u.passWaits f && f.waits.all (u.waitMet f))
    then u.startFig f env
  else u

theorem exec_figureStart_of_figure (s : State) (cyc fid : Nat) (env : FigEnv) (on : s.dev ≠ .off) {f : Fig}
    (known : (s.tick cyc).figure fid = some f) : exec (.figureStart cyc fid env) s = .next ((s.tick cyc).startRow f env) := by
  change execFigureStart cyc fid env s = _
  simp only [execFigureStart, beq_iff_eq, on, if_false, known, State.startRow, apply_ite Host.Outcome.next]

theorem exec_figureStart_unknown (s : State) (cyc fid : Nat) (env : FigEnv) (on : s.dev ≠ .off)
    (unknown : (s.tick cyc).figure fid = none) : exec (.figureStart cyc fid env) s = .next (s.tick cyc) := by
  change execFigureStart cyc fid env s = _
  simp only [execFigureStart, beq_iff_eq, on, if_false, unknown]

/-- A figure that does not wait, or whose planned start has not come, does not start. -/
theorem State.startRow_early (u : State) (f : Fig) (env : FigEnv) (h : u.waitsToStart f = false ∨ u.clk.cyc < f.start) :
    u.startRow f env = u :=
  if_pos (by simpa using h)

section
variable {u : State} {f : Fig} {env : FigEnv} (waits : u.waitsToStart f = true) (due : f.start ≤ u.clk.cyc)
include waits due

/-- From its planned start on a waiting figure starts if it need not wait for anything more. -/
theorem State.startRow_due (goes : (u.skips f || env.beyondCount || u.cascaded f || u.unyielded f
    || (u.queueFree f && !u.passWaits f && f.waits.all (u.waitMet f))) = true) : u.startRow f env = u.startFig f env := by
  rw [State.startRow, if_neg (by simpa [waits] using due), if_pos goes]

theorem State.startRow_skipped (skip : (u.skips f || env.beyondCount) = true) : u.startRow f env = u.skipFig f := by
  rw [State.startRow_due waits due (by rw [skip]; rfl), State.startFig, if_pos skip]

theorem State.startRow_cascaded (skip : ¬ (u.skips f || env.beyondCount) = true) (casc : (u.cascaded f || u.unyielded f) = true) :
    u.startRow f env = (u.drop f .cascade).sendVoid f := by
  rw [State.startRow_due waits due (by rw [Bool.or_assoc _ (u.cascaded f), casc]; simp), State.startFig, if_neg skip, if_pos casc]

theorem State.startRow_ready (skip : ¬ (u.skips f || env.beyondCount) = true) (casc : ¬ (u.cascaded f || u.unyielded f) = true)
    (ready : u.ready f) : u.startRow f env = if env.boundExceeded then u.drop f (.direct 4) else
      let w := (u.setStat { u.stat f.fid with phase := .running, pos := f.pos, start := u.clk.cyc, at_ := 0 }).bodyRun f env
      if u.instant f then w.completeFig f else w := by
  rw [State.startRow_due waits due (by rw [(u.ready_iff f).mpr ready]; simp), State.startFig, if_neg skip, if_neg casc]
  rfl

theorem State.startRow_blocked (skip : ¬ (u.skips f || env.beyondCount) = true) (casc : ¬ (u.cascaded f || u.unyielded f) = true)
    (blocked : ¬ u.ready f) : u.startRow f env = u := by
  rw [State.startRow, if_neg (by simpa [waits] using due), Bool.or_assoc _ (u.cascaded f), if_neg]
  rw [Bool.or_eq_true, Bool.or_eq_true, u.ready_iff f]
  exact fun goes => goes.elim (fun h => h.elim skip casc) blocked

end

/-- Settles O38: before its start a figure does nothing; then it is skipped, dropped by cascade, started, or waits on. -/
theorem figuresStart : Obligations.FiguresStart := by
  intro s cyc fid env u on
  have on' : s.dev ≠ .off := s.tick_dev cyc ▸ on
  refine ⟨exec_figureStart_unknown s cyc fid env on', fun f known => ?_⟩
  intro skip casc ready w
  rw [exec_figureStart_of_figure s cyc fid env on' known]
  simp only [Host.Outcome.next.injEq]
  have skips : (u.skips f || env.beyondCount) = true ↔ skip := by
    rw [Bool.or_eq_true, u.skips_iff f]
    simp only [skip, or_assoc]
  have cascades : (u.cascaded f || u.unyielded f) = true ↔ casc := by
    rw [Bool.or_eq_true, u.cascaded_iff f, u.mbCut_iff f, u.unyielded_iff f]
    simp only [casc, or_assoc]
  rw [← skips, ← cascades]
  exact ⟨u.startRow_early f env, fun waits due => ⟨State.startRow_skipped waits due, State.startRow_cascaded waits due,
    State.startRow_ready waits due, State.startRow_blocked waits due⟩⟩

end Sys2Proof.Machine

/-! PROOF. What a drop leaves alone, and where a dropped figure stands (R41, R42, R44, R45). -/
namespace Sys2Proof.Machine

/-! ## The status of a figure -/

theorem State.stat_fid (s : State) (fid : Nat) : (s.stat fid).fid = fid := by
  unfold State.stat
  cases found : s.run.figs.find? fun x => x.fid == fid with
  | none => rfl
  | some x => simpa using List.find?_some found

/-- The entry of a figure among the statuses, once `x` has replaced the entry of its own figure. -/
theorem find_replaced (x : FigStat) (fid : Nat) (l : List FigStat) :
    (l.map fun y => if y.fid == x.fid then x else y).find? (fun y => y.fid == fid)
      = (l.find? fun y => y.fid == fid).map fun y => if y.fid == x.fid then x else y := by
  have same : ((fun y : FigStat => y.fid == fid) ∘ fun y => if y.fid == x.fid then x else y) = fun y => y.fid == fid := by
    funext y
    by_cases mine : y.fid = x.fid <;> simp [mine]
  rw [List.find?_map, same]

/-- Each figure stands where it was last put. -/
theorem State.stat_setStat (s : State) (x : FigStat) (fid : Nat) : (s.setStat x).stat fid = if x.fid = fid then x else s.stat fid := by
  by_cases known : (s.run.figs.any fun y => y.fid == x.fid) = true
  · have figs : (s.setStat x).run.figs = s.run.figs.map fun y => if y.fid == x.fid then x else y := if_pos known
    rw [State.stat, State.stat, figs, find_replaced]
    cases found : s.run.figs.find? fun y => y.fid == fid with
    | none =>
        have other : x.fid ≠ fid := by
          rintro rfl
          obtain ⟨y, mem, mine⟩ := List.any_eq_true.mp known
          exact List.find?_eq_none.mp found y mem mine
        exact (if_neg other).symm
    | some y =>
        have mine : y.fid = fid := by simpa using List.find?_some found
        simp only [Option.map_some, Option.getD_some, beq_iff_eq, mine, eq_comm (a := fid)]
  · have figs : (s.setStat x).run.figs = s.run.figs ++ [x] := if_neg known
    have unknown : (s.run.figs.find? fun y => y.fid == x.fid) = none :=
      List.find?_eq_none.mpr fun y mem mine => known (List.any_eq_true.mpr ⟨y, mem, mine⟩)
    rw [State.stat, State.stat, figs, List.find?_append]
    by_cases same : x.fid = fid
    · subst same
      simp [unknown]
    · simp [same]

/-! ## What a drop leaves alone -/

/-- What a drop leaves alone, all else at a fixed value: of the run the figures' status and whether tail figures alone run. -/
def State.besideDrop (s : State) : State := { s with
  free := 0, regs := [], host := s.host.besideEvents, t0 := T0.reset, t1 := T1.reset
  run := { Run.reset with figs := s.run.figs, tailOnly := s.run.tailOnly } }

@[simp] theorem State.besideDrop_update (s : State) (free : Nat) (regs : Tab) (host : HostIf) (run : Run) (t0 : T0) (t1 : T1)
    (events : host.besideEvents = s.host.besideEvents) (figs : run.figs = s.run.figs) (tail : run.tailOnly = s.run.tailOnly) :
    State.besideDrop { s with free := free, regs := regs, host := host, run := run, t0 := t0, t1 := t1 } = s.besideDrop := by
  simp only [State.besideDrop, events, figs, tail]

@[simp] theorem State.besideDrop_ite (c : Prop) [Decidable c] (s t : State) :
    (if c then s else t).besideDrop = if c then s.besideDrop else t.besideDrop := by split <;> rfl

theorem foldl_besideDrop {α : Type} (g : State → α → State) (h : ∀ t x, (g t x).besideDrop = t.besideDrop) :
    ∀ (l : List α) (s : State), (l.foldl g s).besideDrop = s.besideDrop
  | [], _ => rfl
  | x :: l, s => by rw [List.foldl_cons, foldl_besideDrop g h l, h]

theorem State.stat_of_besideDrop {s t : State} (h : t.besideDrop = s.besideDrop) (fid : Nat) : t.stat fid = s.stat fid := by
  have figs : t.run.figs = s.run.figs := (congrArg (fun x : State => x.run.figs) h :)
  rw [State.stat, State.stat, figs]

theorem State.measuring_of_besideDrop {s t : State} (h : t.besideDrop = s.besideDrop) : t.measuring = s.measuring :=
  (congrArg State.measuring h :)

@[simp] theorem State.emit_besideDrop (s : State) (k d p : Nat) : (s.emit k d p).besideDrop = s.besideDrop := by
  rw [s.emit_facing k d p]
  exact s.besideDrop_update s.free _ _ s.run s.t0 s.t1 (s.emit_besideEvents k d p) rfl rfl
@[simp] theorem State.count_besideDrop (s : State) (f : Field) (n : Nat) : (s.count f n).besideDrop = s.besideDrop := rfl
@[simp] theorem State.flag_besideDrop (s : State) (g : Flags → Flags) : (s.flag g).besideDrop = s.besideDrop := by
  simp [State.flag]
@[simp] theorem State.t1Write_besideDrop (s : State) (mu off : Nat) (b : Bytes) : (s.t1Write mu off b).besideDrop = s.besideDrop := rfl

/-- Taking writes back changes the memories they were made in. -/
@[simp] theorem State.unwriteOne_besideDrop (s : State) (x : Undo) : (s.unwriteOne x).besideDrop = s.besideDrop := by
  unfold State.unwriteOne
  split
  · rfl
  · rfl
  · rfl
  · exact foldl_besideDrop _ (fun t c => by simp) _ s

@[simp] theorem State.unwrite_besideDrop (s : State) (fid : Nat) : (s.unwrite fid).besideDrop = s.besideDrop := by
  unfold State.unwrite
  extract_lets mine n
  split
  · rfl
  · exact foldl_besideDrop _ State.unwriteOne_besideDrop (mine.drop n).reverse { s with free := s.free + 1 }

@[simp] theorem State.unsend_besideDrop (s : State) (fid : Nat) : (s.unsend fid).besideDrop = s.besideDrop := by
  simp [State.unsend]

@[simp] theorem State.chargeWhey_besideDrop (s : State) (direct dur : Nat) : (s.chargeWhey direct dur).besideDrop = s.besideDrop := by
  simp [State.chargeWhey]

@[simp] theorem State.resource_besideDrop (s : State) (f : Fig) : (s.resource f).2.besideDrop = s.besideDrop := by
  unfold State.resource
  (repeat' split) <;> rfl

@[simp] theorem State.wheyEvent_besideDrop (s : State) (f : Fig) (cause : Nat) : (s.wheyEvent f cause).besideDrop = s.besideDrop := by
  unfold State.wheyEvent
  extract_lets n r s1
  split
  · exact (State.emit_besideDrop _ _ _ _).trans (s.resource_besideDrop f)
  · rfl

@[simp] theorem State.dropMb_besideDrop (s : State) (f : Fig) : (s.dropMb f).besideDrop = s.besideDrop := by
  unfold State.dropMb
  split <;> rfl

@[simp] theorem State.dropCost_besideDrop (s : State) (f : Fig) : (s.dropCost f).besideDrop = s.besideDrop := by
  unfold State.dropCost
  extract_lets s1 s2
  have flagged : s2.besideDrop = s.besideDrop := by simp [s2, s1]
  split
  · exact flagged
  · exact flagged

/-- A status is put among those that the figures have. -/
theorem State.setStat_besideDrop {s t : State} (x : FigStat) (h : t.besideDrop = s.besideDrop) :
    (t.setStat x).besideDrop = (s.setStat x).besideDrop :=
  (congrArg (fun z : State => z.setStat x) h :)

/-- The status of figure `f` once it is dropped. -/
def State.droppedStat (s : State) (f : Fig) : FigStat := { s.stat f.fid with phase := .dropped, yield := false, pos := f.pos }

/-- One drop puts its figure among the dropped and leaves every other part of this view. -/
theorem State.dropOne_besideDrop (s : State) (f : Fig) (k : DropKind) : (s.dropOne f k).besideDrop = (s.setStat (s.droppedStat f)).besideDrop := by
  unfold State.dropOne
  extract_lets run s0 t0 own s1 s2 direct s3 s4
  have stopped : s1.besideDrop = (s.setStat (s.droppedStat f)).besideDrop :=
    State.setStat_besideDrop _ ((State.unsend_besideDrop _ _).trans (State.unwrite_besideDrop _ _))
  have charged : s3.besideDrop = s1.besideDrop := s2.chargeWhey_besideDrop _ _
  have logged : s4.besideDrop = s3.besideDrop := by
    simp only [s4]
    split
    · exact State.wheyEvent_besideDrop _ _ _
    · rfl
  rw [State.dropCost_besideDrop, logged, charged, stopped]

/-! ## Dropped figures -/

theorem State.dropOne_measuring (s : State) (f : Fig) (k : DropKind) : (s.dropOne f k).measuring = s.measuring :=
  (State.measuring_of_besideDrop (s.dropOne_besideDrop f k)).trans rfl

theorem State.dropOne_stat (s : State) (f : Fig) (k : DropKind) (fid : Nat) :
    (s.dropOne f k).stat fid = if f.fid = fid then s.droppedStat f else s.stat fid := by
  have own : (s.droppedStat f).fid = f.fid := s.stat_fid f.fid
  rw [State.stat_of_besideDrop (s.dropOne_besideDrop f k), State.stat_setStat, own]

/-- A figure that is dropped once stays so. -/
theorem State.dropOne_dropped {s : State} {fid : Nat} (f : Fig) (k : DropKind) (h : f.fid = fid ∨ (s.stat fid).phase = .dropped) :
    ((s.dropOne f k).stat fid).phase = .dropped := by
  rw [State.dropOne_stat]
  split
  · rfl
  · exact h.resolve_left ‹_›

theorem State.dropFig_measuring : ∀ (n : Nat) (s : State) (f : Fig) (k : DropKind), (s.dropFig n f k).measuring = s.measuring
  | 0, s, f, k => by
      rw [State.dropFig, apply_ite State.measuring, State.dropOne_measuring, ite_self]
  | n + 1, s, f, k => by
      rw [State.dropFig]
      split
      · rfl
      · exact List.foldlRecOn (motive := fun t => t.measuring = s.measuring) (s.victims f) _ (s.dropOne_measuring f k)
          fun t same g _ => (dropFig_measuring n t g .cascade).trans same

theorem State.dropFig_dropped (fid : Nat) : ∀ (n : Nat) (s : State) (f : Fig) (k : DropKind),
    f.fid = fid ∨ (s.stat fid).phase = .dropped → ((s.dropFig n f k).stat fid).phase = .dropped
  | 0, s, f, k, h => by
      rw [State.dropFig]
      split
      · rename_i already
        exact h.elim (fun own => own ▸ eq_of_beq already) id
      · exact State.dropOne_dropped f k h
  | n + 1, s, f, k, h => by
      rw [State.dropFig]
      split
      · rename_i already
        exact h.elim (fun own => own ▸ eq_of_beq already) id
      · exact List.foldlRecOn (motive := fun t => (t.stat fid).phase = .dropped) (s.victims f) _ (State.dropOne_dropped f k h)
          fun t dropped g _ => dropFig_dropped fid n t g .cascade (.inr dropped)

theorem State.drop_measuring (s : State) (f : Fig) (k : DropKind) : (s.drop f k).measuring = s.measuring :=
  State.dropFig_measuring _ s f k

theorem State.drop_dropped (s : State) (f : Fig) (k : DropKind) : ((s.drop f k).stat f.fid).phase = .dropped :=
  State.dropFig_dropped f.fid _ s f k (.inl rfl)

end Sys2Proof.Machine

/-! PROOF. Errors at their detection: stamped, charged, with the effect of their class (R211, R445, R446, R453). -/
namespace Sys2Proof.Machine

/-- A stamp may draw a free value and changes nothing else. -/
theorem State.stamp_eq (s : State) : s.stamp.2 = { s with free := s.stamp.2.free } := by
  unfold State.stamp
  split <;> rfl

/-- Before the time base starts the stamp is some cycle of a beat (log entry 63). -/
theorem State.stamp_in_boot (s : State) (boot : s.dev = .boot) :
    s.stamp = (Config.freeNat s.free % s.clk.beatCycles, { s with free := s.free + 1 }) := by
  rw [State.stamp, if_pos (beq_iff_eq.mpr boot)]
  rfl

/-- The figure an error is charged to: none for a step limit, else the one its access names, else one on its source (R446). -/
def State.charged (s : State) (e : ErrIn) : Option Nat :=
  if e.code = 0x0304 then none else match e.fid with
    | some f => some f
    | none => s.chargee e.src

/-- The error is on its way, stamped and charged. -/
def State.sent (s : State) (e : ErrIn) : State := { s.stamp.2 with err := { s.err with
  inFlight := s.err.inFlight ++ [⟨e.code, e.src, s.clk.beat, s.stamp.1, (s.charged e).getD 0xFFFFFFFF, e.detail⟩] } }

theorem State.detect_sent (s : State) (e : ErrIn) :
    ({ s.stamp.2 with err := { s.stamp.2.err with
      inFlight := s.stamp.2.err.inFlight ++ [⟨e.code, e.src, s.clk.beat, s.stamp.1, (s.charged e).getD 0xFFFFFFFF, e.detail⟩] } } : State)
      = s.sent e := by
  rw [State.sent, s.stamp_eq]

theorem State.sent_plan (s : State) (e : ErrIn) : (s.sent e).plan = s.plan := by
  rw [State.sent, s.stamp_eq]
theorem State.sent_run (s : State) (e : ErrIn) : (s.sent e).run = s.run := s.stamp_run
theorem State.sent_clk (s : State) (e : ErrIn) : (s.sent e).clk = s.clk := by
  rw [State.sent, s.stamp_eq]

theorem State.sent_figure (s : State) (e : ErrIn) : (s.sent e).figure = s.figure := by
  funext fid
  rw [State.figure, State.figure, s.sent_plan e]
theorem State.sent_stat (s : State) (e : ErrIn) (fid : Nat) : (s.sent e).stat fid = s.stat fid := by
  rw [State.stat, State.stat, s.sent_run e]
theorem State.sent_measuring (s : State) (e : ErrIn) : (s.sent e).measuring = s.measuring := by
  rw [State.measuring, State.measuring, s.sent_plan e, s.sent_run e, s.sent_clk e]

/-- ERR_S of a class S error: set in a measure (R58). -/
def State.tellErr (s x : State) : State := if s.measuring = true then x.flag Flags.setErr else x

/-- The figure a class S error drops: the one charged, if it runs (R446). -/
def State.hits (s : State) (e : ErrIn) (f : Fig) : Prop :=
  (s.charged e).bind (fun x => s.figure x) = some f ∧ (s.stat f.fid).phase = .running

/-- A class S error on its way, its figure dropped if it runs. -/
def State.struck (s : State) (e : ErrIn) : State :=
  match (s.charged e).bind (fun x => s.figure x) with
  | some f => if (s.stat f.fid).phase == FigPhase.running then (s.sent e).drop f (.direct 1) else s.sent e
  | none => s.sent e

theorem State.struck_of_hits {s : State} {e : ErrIn} {f : Fig} (hit : s.hits e f) : s.struck e = (s.sent e).drop f (.direct 1) := by
  obtain ⟨known, running⟩ := hit
  simp only [State.struck, known, running, beq_self_eq_true, if_true]

theorem State.struck_of_not_hits {s : State} {e : ErrIn} (miss : ∀ f, ¬ s.hits e f) : s.struck e = s.sent e := by
  unfold State.struck
  split
  · rename_i f known
    exact if_neg fun running => miss f ⟨known, eq_of_beq running⟩
  · rfl

theorem State.struck_measuring (s : State) (e : ErrIn) : (s.struck e).measuring = s.measuring := by
  by_cases hit : ∃ f, s.hits e f
  · obtain ⟨f, hit⟩ := hit
    rw [State.struck_of_hits hit, State.drop_measuring, State.sent_measuring]
  · rw [State.struck_of_not_hits fun f h => hit ⟨f, h⟩, State.sent_measuring]

/-- The effect of an error by its class (R445). -/
theorem State.detect_eq (s : State) (e : ErrIn) : s.detect e = match errClass e.code with
    | 1 => match s.charged e with
      | some f => (s.sent e).poisonFid f
      | none => s.sent e
    | 2 => s.tellErr (s.struck e)
    | _ => s.sent e := by
  rw [State.tellErr, ← s.struck_measuring e]
  unfold State.detect
  extract_lets fid st rec_ stamped errors s1 s2
  have sent : s1 = s.sent e := s.detect_sent e
  have struck : s2 = s.struck e := by
    simp only [s2, State.struck, sent, s.sent_figure e, s.sent_stat e]
    rfl
  clear_value s2 s1
  rw [sent, struck]
  rfl

theorem State.detect_quiet (s : State) (e : ErrIn) (notD : errClass e.code ≠ 1) (notS : errClass e.code ≠ 2) : s.detect e = s.sent e := by
  rw [State.detect_eq]
  split
  · contradiction
  · contradiction
  · rfl

theorem State.detect_classD (s : State) (e : ErrIn) (classD : errClass e.code = 1) :
    s.detect e = match s.charged e with
      | some f => (s.sent e).poisonFid f
      | none => s.sent e := by
  rw [State.detect_eq, classD]
  rfl

theorem State.detect_classS (s : State) (e : ErrIn) (classS : errClass e.code = 2) : s.detect e = s.tellErr (s.struck e) := by
  rw [State.detect_eq, classS]
  rfl

/-! ## Where ERR_S is set -/

theorem State.flag_early (s : State) (g : Flags → Flags) (early : s.run.sealSent = false) : (s.flag g).run.flags = g s.run.flags := by
  simp [State.flag, early]
theorem State.flag_late (s : State) (g : Flags → Flags) (late : s.run.sealSent = true) : (s.flag g).run.nextFlags = g s.run.nextFlags := by
  simp [State.flag, late]

/-! ## Scratchpad lines and die-to-die links -/

/-- A line marked as poisoned is poisoned (R454). -/
theorem State.t0Mark_poisoned (s : State) (die cl line : Nat) : (s.t0Mark die cl line 1 true).t0Poisoned die cl line 1 = true := by
  have own : t0Among die cl line 1 (t0Line die cl line) = true := by
    unfold t0Among t0Line
    simp only [Bool.and_eq_true, beq_iff_eq, decide_eq_true_eq]
    omega
  exact List.any_eq_true.mpr ⟨t0Line die cl line, List.mem_append_right _ (List.mem_singleton_self _), own⟩

theorem exec_errorDetected (s : State) (cyc : Nat) (e : ErrIn) (on : s.dev ≠ .off) :
    exec (.errorDetected cyc e) s = .next ((s.tick cyc).detect e) := by
  change execErrorDetected cyc e s = _
  simp [execErrorDetected, on]

theorem exec_scratchpadEcc (s : State) (cyc die cl line : Nat) (fatal : Bool) (f : Option Nat) (on : s.dev ≠ .off) :
    exec (.scratchpadEcc cyc die cl line fatal f) s = .next (if (s.tick cyc).hasDie die = false then s.tick cyc
      else if fatal then ((s.tick cyc).t0Mark die cl line 1 true).detect ⟨0x0201, ⟨die, 0, cl⟩, f, line⟩
      else ((s.tick cyc).count (F.CD_SP_ECC_CORR_COUNT.cd die) 1).detect ⟨0x0101, ⟨die, 0, cl⟩, f, line⟩) := by
  change execScratchpadEcc cyc die cl line fatal f s = _
  simp only [execScratchpadEcc, beq_iff_eq, on, if_false, Bool.not_eq_true', apply_ite Host.Outcome.next]
  rfl

theorem exec_dieToDieRetry (s : State) (cyc die port lanes : Nat) (retrained : Bool) (on : s.dev ≠ .off) :
    exec (.dieToDieRetry cyc die port lanes retrained) s
      = .next (if retrained = true ∨ (s.tick cyc).hasDie die = false ∨ (s.tick cyc).linkPorts die ≤ port then s.tick cyc
        else (s.tick cyc).detect ⟨0x0401, ⟨die, 3, port⟩, none, lanes⟩) := by
  change execDieToDieRetry cyc die port lanes retrained s = _
  simp only [execDieToDieRetry, beq_iff_eq, on, if_false, Bool.or_eq_true, Bool.not_eq_true', decide_eq_true_eq, or_assoc,
    apply_ite Host.Outcome.next]
  rfl

/-- Settles O46: the error is sent, stamped and charged; its class decides what else it does. -/
theorem errorsAreStamped : Obligations.ErrorsAreStamped := by
  intro s cyc e u fid st w on
  have on' : s.dev ≠ .off := s.tick_dev cyc ▸ on
  have detected {t : State} (h : u.detect e = t) : exec (.errorDetected cyc e) s = .next t :=
    (exec_errorDetected s cyc e on').trans (congrArg _ h)
  refine ⟨u.stamp_past_boot, fun boot len => ?_, fun quiet => ?_, fun classD => ?_, fun classS => ?_,
    fun x => ⟨fun early => ?_, fun late => ?_⟩, fun die cl line f => ⟨fun populated => ?_, fun absent fatal => ?_⟩,
    fun die port lanes => ⟨?_, fun portless => ?_, fun populated port' => ?_⟩⟩
  · simp only [st, u.stamp_in_boot boot]
    exact ⟨Nat.mod_lt _ (Nat.mul_pos len (by decide)), trivial⟩
  · exact detected (u.detect_quiet e (by unfold errClass; omega) (by unfold errClass; omega))
  · exact detected (u.detect_classD e (by rw [errClass, classD]))
  · have told {t : State} (h : u.struck e = t) : exec (.errorDetected cyc e) s = .next (u.tellErr t) :=
      detected (h ▸ u.detect_classS e (by rw [errClass, classS]))
    exact ⟨fun f hit => ⟨told (State.struck_of_hits hit), w.drop_dropped f _⟩, fun miss => told (State.struck_of_not_hits miss)⟩
  · rw [x.flag_early _ early]; rfl
  · rw [x.flag_late _ late]; rfl
  · have there : ¬ u.hasDie die = false := by simp [populated]
    refine ⟨?_, ?_, u.t0Mark_poisoned die cl line⟩
    · exact (exec_scratchpadEcc s cyc die cl line false f on').trans (congrArg _ (if_neg there))
    · exact (exec_scratchpadEcc s cyc die cl line true f on').trans (congrArg _ (if_neg there))
  · exact (exec_scratchpadEcc s cyc die cl line fatal f on').trans (congrArg _ (if_pos absent))
  · exact (exec_dieToDieRetry s cyc die port lanes true on').trans (congrArg _ (if_pos (.inl rfl)))
  · exact (exec_dieToDieRetry s cyc die port lanes false on').trans (congrArg _ (if_pos (.inr portless)))
  · have link : ¬ (false = true ∨ u.hasDie die = false ∨ u.linkPorts die ≤ port) := by simp [populated, port']
    exact (exec_dieToDieRetry s cyc die port lanes false on').trans (congrArg _ (if_neg link))

end Sys2Proof.Machine

/-! PROOF. Which commands of a ring are refused before their own effect, and which do not start (R425, R426, R441). -/
namespace Sys2Proof.Machine

/-! ## When a front command may start -/

theorem stateCmd_iff (op : Nat) : stateCmd op = true ↔ op = 1 ∨ op = 2 ∨ op = 3 ∨ op = 4 ∨ op = 6 := by
  simp [stateCmd, or_assoc]

/-- What `startable` names is the front command, and rings are served. -/
theorem State.startable_eq_some {u : State} {n op : Nat} {e : BitVec 512} (h : u.startable n (fun o => o == op) = some e) :
    u.ringsOn = true ∧ u.frontIs n op e := by
  unfold State.startable at h
  split at h
  · cases h
  · rename_i c rest queue
    split at h
    · rename_i may
      cases h
      simp only [Bool.and_eq_true, decide_eq_true_eq, beq_iff_eq, Bool.not_eq_true', Bool.and_eq_false_iff, Bool.not_eq_false',
        List.isEmpty_iff] at may
      obtain ⟨⟨⟨⟨on, hn⟩, opcode⟩, fence⟩, busy⟩ := may
      refine ⟨on, hn, by rw [queue]; rfl, opcode, fun fenced => ?_, fun state => ?_⟩
      · exact fence.resolve_left (by simp [fenced])
      · exact busy.resolve_left (by rw [opcode, (stateCmd_iff op).mpr state]; decide)
    · cases h

/-- Out of RUNNING and DRAINING, or behind another command, no command of a ring starts (R425). -/
theorem State.start_waits {u : State} {n op : Nat} (waits : (u.dev ≠ .running ∧ u.dev ≠ .draining) ∨ ∀ e, ¬ u.frontIs n op e)
    (dr ng : Bool) (f : BitVec 512 → State → State) : u.start n op dr ng f = u := by
  have still : u.startable n (fun o => o == op) = none := by
    refine Option.eq_none_iff_forall_ne_some.mpr fun e may => ?_
    obtain ⟨on, front⟩ := State.startable_eq_some may
    rcases waits with ⟨run, drain⟩ | behind
    · exact (u.ringsOn_iff.mp on).elim run drain
    · exact behind e front
  unfold State.start
  rw [still]

section
variable {u : State} {n op : Nat} {d : BitVec 512} (front : u.frontIs n op d)
include front

/-- A command that DRAINING does not run completes with STATE (R426, R441). -/
theorem State.start_draining_refused (draining : u.dev = .draining) (ng : Bool) (f : BitVec 512 → State → State) :
    u.start n op false ng f = (u.popCmd n).finish n d St.state 0 := by
  have on : u.ringsOn = true := u.ringsOn_iff.mpr (.inr draining)
  simp [State.start, State.startable_of_frontIs on front, draining]

/-- In a state that runs it, a command that needs a graph completes with NO_GRAPH while none is resident (R426). -/
theorem State.start_noGraph {dr : Bool} (runs : u.dev = .running ∨ (u.dev = .draining ∧ dr = true)) (absent : u.plan.graph = none)
    (f : BitVec 512 → State → State) : u.start n op dr true f = (u.popCmd n).finish n d St.noGraph 0 := by
  have on : u.ringsOn = true := u.ringsOn_iff.mpr (runs.imp_right And.left)
  have may : (!(u.dev == .running || (dr && u.dev == .draining))) = false := by
    rcases runs with h | ⟨h, rfl⟩ <;> rw [h] <;> rfl
  simp [State.start, State.startable_of_frontIs on front, may, absent]

/-- A command that DRAINING runs has its own effect there. -/
theorem State.start_draining (draining : u.dev = .draining) (f : BitVec 512 → State → State) :
    u.start n op true false f = f d (u.popCmd n) := by
  have on : u.ringsOn = true := u.ringsOn_iff.mpr (.inr draining)
  simp [State.start, State.startable_of_frontIs on front, draining]

end

/-! ## The commands -/

/-- Command `c` starts as the front command of ring `n` with opcode `op` (R425, R426). -/
def startsAs (s : State) (cyc n : Nat) (c : Instr) (op : Nat) (draining needGraph : Bool) : Prop :=
  ∃ f, exec c s = .next ((s.tick cyc).start n op draining needGraph f)

/-- What the statement says of one command of the table: refused in DRAINING with `st`, NO_GRAPH, or nothing. -/
def refusedAs (s : State) (cyc n : Nat) (d : BitVec 512) (x : Instr × Nat × Bool × Bool) : Prop :=
  let u := s.tick cyc
  (u.dev = .draining → u.frontIs n x.2.1 d → x.2.2.1 = false →
      exec x.1 s = .next ((u.popCmd n).finish n d (if x.2.1 = 0x01 then 0x03 else 0x18) 0))
    ∧ (u.dev = .running ∨ (u.dev = .draining ∧ x.2.2.1 = true) → u.frontIs n x.2.1 d → x.2.2.2 = true → u.plan.graph = none →
        exec x.1 s = .next ((u.popCmd n).finish n d 0x17 0))
    ∧ (u.dev ≠ .off → (u.dev ≠ .running ∧ u.dev ≠ .draining) ∨ (∀ e, ¬ u.frontIs n x.2.1 e) → exec x.1 s = .next u)

theorem refusedAs_of_startsAs {s : State} {cyc n : Nat} (d : BitVec 512) {c : Instr} {op : Nat} {dr ng : Bool} (notLoad : op ≠ 0x01)
    (starts : s.dev ≠ .off → startsAs s cyc n c op dr ng) : refusedAs s cyc n d (c, op, dr, ng) := by
  have same : (s.tick cyc).dev = s.dev := s.tick_dev cyc
  refine ⟨fun draining front runs => ?_, fun runs front needs absent => ?_, fun on waits => ?_⟩
  · obtain ⟨f, e⟩ := starts (by rw [← same, draining]; decide)
    cases runs
    rw [e, State.start_draining_refused front draining, if_neg notLoad]
    rfl
  · obtain ⟨f, e⟩ := starts (by rcases runs with h | ⟨h, _⟩ <;> rw [← same, h] <;> decide)
    cases needs
    rw [e, State.start_noGraph front runs absent]
    rfl
  · obtain ⟨f, e⟩ := starts (same ▸ on)
    rw [e, State.start_waits waits]

/-- The state in which an accepted graph is resident, before its command waits. -/
def State.loadFrom (s : State) (g : Graph) (src : Option Snap) : State := ((s.placeGraph g s.clk.measure).firstTags).loadEval (g.evalSource src)

/-- What LOAD_GRAPH with descriptor `d` does where it starts (R65, R68, R261, R430). -/
def State.loadGraphRun (n : Nat) (image mask : Bytes) (places : List Placement) (src : Option Snap) (d : BitVec 512) (t : State) : State :=
  if t.plan.graph.isSome || t.dev != .running then t.finish n d St.graphBusy 0
  else
    let g := readGraph (image.take (dW d 2)) (mask.take (dW d 4)) places
    if t.graphStatus g ≠ St.ok then t.finish n d (t.graphStatus g) 0
    else if (t.leaderDigest g).1 ≠ g.digest then (t.leaderDigest g).2.finish n d St.graphMismatch 0
    else ((t.leaderDigest g).2.loadFrom g src).activate n d 0

theorem exec_loadGraph (s : State) (cyc n : Nat) (image mask : Bytes) (places : List Placement) (src : Option Snap) (on : s.dev ≠ .off) :
    exec (.loadGraph cyc n image mask places src) s
      = .next ((s.tick cyc).start n 0x01 true false (State.loadGraphRun n image mask places src)) := by
  change execLoadGraph cyc n image mask places src s = _
  rw [execLoadGraph, if_neg (by simpa using on)]
  rfl

/-- LOAD_GRAPH answers DRAINING itself, with GRAPH_BUSY (R430). -/
theorem loadGraph_refusedAs (s : State) (cyc n : Nat) (d : BitVec 512) (image mask : Bytes) (places : List Placement) (src : Option Snap) :
    refusedAs s cyc n d (.loadGraph cyc n image mask places src, 0x01, false, false) := by
  have same : (s.tick cyc).dev = s.dev := s.tick_dev cyc
  refine ⟨fun draining front _ => ?_, fun _ _ needs => absurd needs Bool.false_ne_true, fun on waits => ?_⟩
  · have on : s.dev ≠ .off := by rw [← same, draining]; decide
    have there : ((s.tick cyc).popCmd n).dev = .draining := draining
    rw [exec_loadGraph s cyc n image mask places src on, State.start_draining front draining, State.loadGraphRun, there, if_pos (by simp)]
    rfl
  · rw [exec_loadGraph s cyc n image mask places src (same ▸ on), State.start_waits waits]

/-- Settles O22: each command starts by the shared rule, which refuses it before its own effect; LOAD_GRAPH refuses DRAINING itself. -/
theorem ringCommandsRefused : Obligations.RingCommandsRefused := by
  intro s cyc n d image mask src places card side others twin org sd u all
  have row {c : Instr} {op : Nat} {dr ng : Bool} (notLoad : op ≠ 0x01) (starts : ¬ (s.dev == .off) = true → startsAs s cyc n c op dr ng) :
      refusedAs s cyc n d (c, op, dr, ng) := refusedAs_of_startsAs d notLoad fun on => starts (by simpa using on)
  change ∀ x ∈ all, refusedAs s cyc n d x
  simp only [all, List.forall_mem_cons, List.not_mem_nil, false_imp_iff, implies_true, and_true]
  refine ⟨?_, loadGraph_refusedAs s cyc n d image mask places org, ?_, ?_, ?_, ?_, ?_, ?_, ?_, ?_, ?_, ?_, ?_, ?_, ?_, ?_, ?_, ?_, ?_⟩
  all_goals exact row (by decide) fun on => ⟨_, if_neg on⟩

end Sys2Proof.Machine

/-! PROOF. Registers whose own rules refuse a write, and what a refusal leaves (R87, R281, R291, R311, R410, R510). -/
namespace Sys2Proof.Machine

/-! ## A word that takes every field written to it -/

/-- A field of the first word of its register that a write reaches: open by its access code, and within the word. -/
def FieldRow.takes (f : FieldRow) (locked : Bool) : Prop :=
  (f.acc = .rw ∨ (f.acc = .rwl ∧ locked = false)) ∧ 0 < f.w ∧ f.lo + f.w ≤ 32

theorem testBit_setBits_bits (x lo w v i : Nat) :
    (setBits x lo w (bits v lo w)).testBit i = if lo ≤ i ∧ i < lo + w then v.testBit i else x.testBit i := by
  rw [testBit_setBits]
  split
  · rw [testBit_bits, show lo + (i - lo) = i by omega, decide_eq_true (by omega), Bool.true_and]
  · rfl

theorem fieldWrite_of_takes {locked : Bool} {f : FieldRow} (takes : f.takes locked) (old v acc : Nat) :
    fieldWrite locked 0 old v acc f = setBits acc f.lo f.w (bits v f.lo f.w) := by
  obtain ⟨code, pos, fits⟩ := takes
  have hi : min (f.lo + f.w) (0 + 32) = f.lo + f.w := by omega
  have width : f.lo + f.w - f.lo = f.w := by omega
  unfold fieldWrite
  simp only [Nat.max_zero, hi, width, Nat.sub_zero]
  rw [if_neg (by omega)]
  rcases code with always | ⟨lockable, unlocked⟩
  · rw [always]
  · rw [lockable, unlocked]
    rfl

/-- Written field by field, a word holds the written bits in every field, and its own elsewhere. -/
theorem testBit_foldl_fieldWrite {locked : Bool} (old v i : Nat) : ∀ (l : List FieldRow) (acc : Nat), (∀ f ∈ l, f.takes locked) →
    (l.foldl (fun acc f => fieldWrite locked 0 old v acc f) acc).testBit i
      = if ∃ f ∈ l, f.lo ≤ i ∧ i < f.lo + f.w then v.testBit i else acc.testBit i
  | [], _, _ => by simp
  | f :: l, acc, takes => by
      rw [List.foldl_cons, testBit_foldl_fieldWrite old v i l _ fun g hg => takes g (List.mem_cons_of_mem f hg),
        fieldWrite_of_takes (takes f List.mem_cons_self), testBit_setBits_bits]
      by_cases here : f.lo ≤ i ∧ i < f.lo + f.w <;> simp [here]

theorem bits_foldl_fieldWrite {locked : Bool} (old v acc : Nat) {l : List FieldRow} (takes : ∀ f ∈ l, f.takes locked) {f : FieldRow}
    (mem : f ∈ l) : bits (l.foldl (fun acc f => fieldWrite locked 0 old v acc f) acc) f.lo f.w = bits v f.lo f.w := by
  refine Nat.eq_of_testBit_eq fun i => ?_
  rw [testBit_bits, testBit_bits]
  by_cases inside : i < f.w
  · rw [testBit_foldl_fieldWrite old v _ l acc takes, if_pos ⟨f, mem, by omega, by omega⟩]
  · simp [inside]

/-- A field within the word stored reads its bits of that word. -/
theorem fget_tSet (t : Tab) (off lo w x : Nat) (wf : tabWf t = true) (pos : 0 < w) (fits : lo + w ≤ 32) :
    fget (tSet t off x) ⟨off, lo, w⟩ = bits x lo w := by
  have one : Field.words ⟨off, lo, w⟩ = 1 := by unfold Field.words; simp only; omega
  simp [fget, one, rdWords, tGet_tSet t wf]

theorem bits_eq_div (x lo w : Nat) : bits x lo w = x / 2 ^ lo % 2 ^ w := by rw [bits, Nat.shiftRight_eq_div_pow]

/-- What a write that is accepted leaves: in every field of the word, given as (lowest bit, width), what was written, and every
other word as it was. -/
structure Stored (u t : State) (off : Nat) (fields : List (Nat × Nat)) (v : Nat) : Prop where
  frame : t = { u with regs := t.regs }
  field : ∀ lo w, (lo, w) ∈ fields → t.get ⟨off, lo, w⟩ = v / 2 ^ lo % 2 ^ w
  other : ∀ k, k ≠ off → tGet t.regs k = tGet u.regs k
  wf : tabWf t.regs = true

/-- A write of the first word of a register all of whose fields are open stores every field (R509). -/
theorem State.storeWord_stored (u : State) (a : BarAddr) (v off : Nat) (r : RegRow) (row : regAt a.blk a.rel = some r)
    (place : a.blk.base + a.window * a.blk.step + a.rel = off) (first : a.rel = r.off) (wf : tabWf u.regs = true)
    (takes : ∀ f ∈ r.fields, f.takes u.locked) : Stored u (u.storeWord a v) off (r.fields.map fun f => (f.lo, f.w)) v := by
  have base : (a.rel - r.off) % r.stride * 8 = 0 := by rw [first, Nat.sub_self, Nat.zero_mod, Nat.zero_mul]
  rw [u.storeWord_of_regAt a v off r row place, base]
  refine ⟨rfl, fun lo w named => ?_, fun k hk => tGet_tSet_ne _ _ _ _ hk, tSet_wf _ _ _ wf⟩
  obtain ⟨f, hf, e⟩ := List.mem_map.mp named
  cases e
  obtain ⟨_, pos, fits⟩ := takes f hf
  exact (fget_tSet u.regs off f.lo f.w _ wf pos fits).trans ((bits_foldl_fieldWrite _ v _ takes hf).trans (bits_eq_div v f.lo f.w))

/-! ## The rows -/

theorem regAt_planCfg : regAt .plc 0 = some ⟨"PLC_PLAN_CFG", .plc, 0x0, 4, 1, 4,
    [⟨0, 13, .rw, .val 64⟩, ⟨16, 7, .rw, .val 25⟩, ⟨24, 4, .rw, .val 2⟩]⟩ := rfl
theorem regAt_margin : regAt .plc 4 = some ⟨"PLC_MARGIN", .plc, 0x4, 4, 1, 4,
    [⟨0, 8, .rw, .val 5⟩, ⟨8, 8, .rw, .val 20⟩, ⟨16, 8, .rw, .val 10⟩]⟩ := rfl
theorem regAt_lrMul : regAt .plc 0x2C = some ⟨"PLC_LR_MUL", .plc, 0x2C, 4, 1, 4, [⟨0, 32, .rw, .val 1065353216⟩]⟩ := rfl
theorem regAt_arbRank : regAt .mu 4 = some ⟨"MU_ARB_RANK", .mu, 0x4, 4, 1, 4, [⟨0, 21, .rw, .val 129809⟩]⟩ := rfl
theorem regAt_celCfg : regAt .cel 0 = some ⟨"CEL_CFG", .cel, 0x0, 4, 1, 4,
    [⟨0, 4, .rwl, .val 2⟩, ⟨4, 7, .rwl, .val 0⟩, ⟨11, 5, .rwl, .val 5⟩]⟩ := rfl
theorem regAt_celRing : regAt .cel 4 = some ⟨"CEL_RING", .cel, 0x4, 4, 1, 4, [⟨0, 16, .rw, .val 0⟩]⟩ := rfl

section
variable (u : State) (v : Nat) (wf : tabWf u.regs = true)
include wf

theorem State.storeWord_planCfg : Stored u (u.storeWord ⟨.plc, 0, 0⟩ v) 0x10000 [(0, 13), (16, 7), (24, 4)] v :=
  u.storeWord_stored ⟨.plc, 0, 0⟩ v 0x10000 _ regAt_planCfg rfl rfl wf (by simp [FieldRow.takes])

theorem State.storeWord_margin : Stored u (u.storeWord ⟨.plc, 0, 4⟩ v) 0x10004 [(0, 8), (8, 8), (16, 8)] v :=
  u.storeWord_stored ⟨.plc, 0, 4⟩ v 0x10004 _ regAt_margin rfl rfl wf (by simp [FieldRow.takes])

theorem State.storeWord_lrMul : Stored u (u.storeWord ⟨.plc, 0, 0x2C⟩ v) 0x1002C [(0, 32)] v :=
  u.storeWord_stored ⟨.plc, 0, 0x2C⟩ v 0x1002C _ regAt_lrMul rfl rfl wf (by simp [FieldRow.takes])

theorem State.storeWord_arbRank (mu : Nat) :
    Stored u (u.storeWord ⟨.mu, mu, 4⟩ v) (0x180004 + mu * 0x10000) [(0, 21)] v :=
  u.storeWord_stored ⟨.mu, mu, 4⟩ v _ _ regAt_arbRank (by simp only [Blk.base, Blk.step]; omega) rfl wf (by simp [FieldRow.takes])

theorem State.storeWord_celRing : Stored u (u.storeWord ⟨.cel, 0, 4⟩ v) 0x30004 [(0, 16)] v :=
  u.storeWord_stored ⟨.cel, 0, 4⟩ v 0x30004 _ regAt_celRing rfl rfl wf (by simp [FieldRow.takes])

theorem State.storeWord_celCfg (unlocked : u.locked = false) : Stored u (u.storeWord ⟨.cel, 0, 0⟩ v) 0x30000 [(0, 4), (4, 7), (11, 5)] v :=
  u.storeWord_stored ⟨.cel, 0, 0⟩ v 0x30000 _ regAt_celCfg rfl rfl wf (by simp [FieldRow.takes, unlocked])

end

/-! ## MU_ARB_RANK: one die, every die, no die (R281, R511) -/

theorem State.nMu_le_eight (u : State) : u.nMu ≤ 8 := by unfold State.nMu; split <;> decide
theorem State.nMu_pos (u : State) : 0 < u.nMu := by unfold State.nMu; split <;> decide

theorem State.writeWindows_die (u : State) {mu : Nat} (h : mu < u.nMu) : u.writeWindows ⟨.mu, mu, 4⟩ = [⟨.mu, mu, 4⟩] := by
  have notAll : mu ≠ 8 := by have := u.nMu_le_eight; omega
  simp [State.writeWindows, notAll, State.windowOn, ld0Only, h]

theorem State.writeWindows_absent (u : State) {mu : Nat} (h : u.nMu ≤ mu) (notAll : mu ≠ 8) : u.writeWindows ⟨.mu, mu, 4⟩ = [] := by
  have absent : ¬ mu < u.nMu := Nat.not_lt.mpr h
  simp [State.writeWindows, notAll, State.windowOn, absent]

theorem State.writeWindows_all (u : State) : u.writeWindows ⟨.mu, 8, 4⟩ = (List.range u.nMu).map fun k => ⟨.mu, k, 4⟩ := rfl

/-- A write of the broadcast window, die by die. -/
def State.rankAll (u : State) (n v : Nat) : State := (List.range n).foldl (fun t k => t.storeWord ⟨.mu, k, 4⟩ v) u

theorem State.rankAll_stored (u : State) (v : Nat) (wf : tabWf u.regs = true) : ∀ n, let t := u.rankAll n v
    t = { u with regs := t.regs } ∧ tabWf t.regs = true
      ∧ (∀ mu, mu < n → t.get (F.MU_ARB_RANK_RANK.mu mu) = v / 2 ^ 0 % 2 ^ 21)
      ∧ ∀ k, (∀ mu, mu < n → k ≠ 0x180004 + mu * 0x10000) → tGet t.regs k = tGet u.regs k
  | 0 => ⟨rfl, wf, fun _ h => absurd h (Nat.not_lt_zero _), fun _ _ => rfl⟩
  | n + 1 => by
      obtain ⟨frame, wf', ranks, other⟩ := rankAll_stored u v wf n
      have step : u.rankAll (n + 1) v = (u.rankAll n v).storeWord ⟨.mu, n, 4⟩ v := by
        simp only [State.rankAll, List.range_succ, List.foldl_append, List.foldl_cons, List.foldl_nil]
      have last := (u.rankAll n v).storeWord_arbRank v wf' n
      rw [← step] at last
      refine ⟨by rw [last.frame, frame], last.wf, fun mu hmu => ?_, fun k hk => ?_⟩
      · by_cases same : mu = n
        · subst same
          exact last.field 0 21 List.mem_cons_self
        · refine Eq.trans (fget_congr _ _ _ fun i hi => last.other _ ?_) (ranks mu (by omega))
          have : i = 0 := by simpa [Field.words, F.MU_ARB_RANK_RANK, Field.mu] using hi
          subst this
          simp only [F.MU_ARB_RANK_RANK, Field.mu]
          omega
      · rw [last.other k (hk n (Nat.lt_succ_self n)), other k fun mu hmu => hk mu (Nat.lt_succ_of_lt hmu)]

section
variable (u : State) (v : Nat)

theorem State.writeArbRank_die {mu : Nat} (h : mu < u.nMu) (may : u.feat 4 = true) : u.writeArbRank mu v = u.storeWord ⟨.mu, mu, 4⟩ v := by
  simp [State.writeArbRank, u.writeWindows_die h, may]

theorem State.writeArbRank_all (may : u.feat 4 = true) : u.writeArbRank 8 v = u.rankAll u.nMu v := by
  have populated : u.nMu ≠ 0 := Nat.pos_iff_ne_zero.mp u.nMu_pos
  simp [State.writeArbRank, u.writeWindows_all, may, State.rankAll, List.foldl_map, populated]

theorem State.writeArbRank_refused {mu : Nat} (h : mu < u.nMu ∨ mu = 8) (denied : u.feat 4 = false) :
    u.writeArbRank mu v = u.refuseReg (0x180004 + mu * 0x10000) St.expertDenied := by
  have reached : (u.writeWindows ⟨.mu, mu, 4⟩).isEmpty = false := by
    rcases h with h | rfl
    · simp [u.writeWindows_die h]
    · simp [u.writeWindows_all, Nat.pos_iff_ne_zero.mp u.nMu_pos]
  simp [State.writeArbRank, reached, denied]

theorem State.writeArbRank_absent {mu : Nat} (h : u.nMu ≤ mu) (notAll : mu ≠ 8) : u.writeArbRank mu v = u := by
  simp [State.writeArbRank, u.writeWindows_absent h notAll]

end

/-! ## Which values a register takes (R87, R410) -/

section
variable (u : State) (v : Nat)

theorem State.writePlanCfg_eq : u.writePlanCfg v =
    if 1 ≤ v / 2 ^ 0 % 2 ^ 13 ∧ v / 2 ^ 0 % 2 ^ 13 ≤ 4096 ∧ v / 2 ^ 16 % 2 ^ 7 ≤ 100 ∧ 1 ≤ v / 2 ^ 24 % 2 ^ 4 ∧ v / 2 ^ 24 % 2 ^ 4 ≤ 8 then
      State.storeWord { u with plan := { u.plan with req := { u.plan.req with phrase := none } } } ⟨.plc, 0, 0⟩ v
    else u.refuseReg 0x10000 St.planRange :=
  ite_congr (propext (by simp only [inRange, bits_eq_div, Bool.and_eq_true, decide_eq_true_eq, Nat.zero_le, true_and, and_assoc]))
    (fun _ => rfl) fun _ => rfl

theorem State.writeMargin_eq : u.writeMargin v =
    if v / 2 ^ 0 % 2 ^ 8 ≤ 100 ∧ 5 ≤ v / 2 ^ 8 % 2 ^ 8 ∧ v / 2 ^ 8 % 2 ^ 8 ≤ 200 ∧ v / 2 ^ 16 % 2 ^ 8 ≤ 100 then u.storeWord ⟨.plc, 0, 4⟩ v
    else u.refuseReg 0x10004 St.planRange :=
  ite_congr (propext (by simp only [inRange, bits_eq_div, Bool.and_eq_true, decide_eq_true_eq, Nat.zero_le, true_and, and_assoc]))
    (fun _ => rfl) fun _ => rfl

theorem State.writeCelCfg_open (unlocked : u.locked = false) : u.writeCelCfg v =
    if 1 ≤ v / 2 ^ 0 % 2 ^ 4 ∧ v / 2 ^ 4 % 2 ^ 7 ≤ 75 ∧ 1 ≤ v / 2 ^ 11 % 2 ^ 5 then u.storeWord ⟨.cel, 0, 0⟩ v
    else u.refuseReg 0x30000 St.planRange := by
  have keep : v / 2 ^ 0 % 2 ^ 4 ≤ 15 := Nat.le_of_lt_succ (Nat.mod_lt _ (by decide))
  have years : v / 2 ^ 11 % 2 ^ 5 ≤ 31 := Nat.le_of_lt_succ (Nat.mod_lt _ (by decide))
  rw [State.writeCelCfg, if_neg (by simp [unlocked])]
  refine ite_congr (propext ?_) (fun _ => rfl) fun _ => rfl
  simp only [inRange, bits_eq_div, Bool.and_eq_true, decide_eq_true_eq, keep, years, Nat.zero_le, and_true, true_and, and_assoc]

theorem State.writeCelCfg_locked (locked : u.locked = true) : u.writeCelCfg v = u := if_pos locked

end

/-! ## The commands -/

theorem State.regsOn_of_past_boot {u : State} (on : u.dev ≠ .off) (past : u.dev ≠ .boot) : u.regsOn = true := by
  simp [State.regsOn, State.powered, on, past]

section
variable (s : State) (cyc : Nat) (v : Word32) (on : s.dev ≠ .off)
include on

theorem exec_planCfgWrite (margin : Bool) : exec (.planCfgWrite cyc margin v) s = .next (if (s.tick cyc).regsOn = false then s.tick cyc
    else if margin then (s.tick cyc).writeMargin v.toNat else (s.tick cyc).writePlanCfg v.toNat) := by
  change execPlanCfgWrite cyc margin v s = _
  simp only [execPlanCfgWrite, beq_iff_eq, on, if_false, Bool.not_eq_true', apply_ite Host.Outcome.next]

theorem exec_lrMulWrite : exec (.lrMulWrite cyc v) s
    = .next (if (s.tick cyc).regsOn then (s.tick cyc).writeLrMul v.toNat else s.tick cyc) := by
  change execLrMulWrite cyc v s = _
  simp only [execLrMulWrite, beq_iff_eq, on, if_false, apply_ite Host.Outcome.next]

theorem exec_arbRankWrite (mu : Nat) : exec (.arbRankWrite cyc mu v) s
    = .next (if (s.tick cyc).regsOn then (s.tick cyc).writeArbRank mu v.toNat else s.tick cyc) := by
  change execArbRankWrite cyc mu v s = _
  simp only [execArbRankWrite, beq_iff_eq, on, if_false, apply_ite Host.Outcome.next]

theorem exec_celRegWrite (ring : Bool) : exec (.celRegWrite cyc ring v) s = .next (if (s.tick cyc).regsOn = false then s.tick cyc
    else if ring then (s.tick cyc).writeCelRing v.toNat else (s.tick cyc).writeCelCfg v.toNat) := by
  change execCelRegWrite cyc ring v s = _
  simp only [execCelRegWrite, beq_iff_eq, on, if_false, Bool.not_eq_true', apply_ite Host.Outcome.next]

end

/-! ## What a refusal leaves -/

/-- The state with a refusal recorded, before its event (R510). -/
def State.noteRefusal (s : State) (off status : Nat) : State :=
  ((s.set F.HUB_REG_REFUSED_OFFSET off).set F.HUB_REG_REFUSED_STATUS status).count F.HUB_REG_REFUSED_COUNT 1

theorem State.noteRefusal_fields (s : State) (off status : Nat) (wf : tabWf s.regs = true) (fit : wordsFit32 s.regs) (ho : off < 2 ^ 26)
    (hs : status < 2 ^ 16) : (s.noteRefusal off status).get F.HUB_REG_REFUSED_OFFSET = off
      ∧ (s.noteRefusal off status).get F.HUB_REG_REFUSED_STATUS = status
      ∧ (s.noteRefusal off status).get F.HUB_REG_REFUSED_COUNT = min (s.get F.HUB_REG_REFUSED_COUNT + 1) 65535 := by
  obtain ⟨t1, h1⟩ : ∃ t1, fset s.regs F.HUB_REG_REFUSED_OFFSET off = t1 := ⟨_, rfl⟩
  obtain ⟨t2, h2⟩ : ∃ t2, fset t1 F.HUB_REG_REFUSED_STATUS status = t2 := ⟨_, rfl⟩
  have wf1 : tabWf t1 = true := h1 ▸ fset_wf _ _ _ wf
  have fit1 : wordsFit32 t1 := h1 ▸ fset_fit _ _ _ wf fit
  have wf2 : tabWf t2 = true := h2 ▸ fset_wf _ _ _ wf1
  have fit2 : wordsFit32 t2 := h2 ▸ fset_fit _ _ _ wf1 fit1
  have first (g : Field) (same : g.off = 0x118) (apart : 26 ≤ g.lo) : fget t1 g = fget s.regs g :=
    h1 ▸ fget_fset_disjoint s.regs F.HUB_REG_REFUSED_OFFSET g off wf fit same (.inr apart)
  have second (g : Field) (same : g.off = 0x118) (apart : g.lo + g.w ≤ 32 ∨ 48 ≤ g.lo) : fget t2 g = fget t1 g :=
    h2 ▸ fget_fset_disjoint t1 F.HUB_REG_REFUSED_STATUS g status wf1 fit1 same apart
  have noted : (s.noteRefusal off status).regs = fset t2 F.HUB_REG_REFUSED_COUNT (satAdd 16 (s.get F.HUB_REG_REFUSED_COUNT) 1) := by
    rw [State.get, ← first F.HUB_REG_REFUSED_COUNT rfl (by decide), ← second F.HUB_REG_REFUSED_COUNT rfl (by decide), ← h2, ← h1]
    rfl
  have third (g : Field) (same : g.off = 0x118) (apart : g.lo + g.w ≤ 48) : (s.noteRefusal off status).get g = fget t2 g := by
    rw [State.get, noted]
    exact fget_fset_disjoint t2 F.HUB_REG_REFUSED_COUNT g _ wf2 fit2 same (.inl apart)
  refine ⟨?_, ?_, ?_⟩
  · rw [third _ rfl (by decide), second _ rfl (by decide), ← h1, fget_fset_same _ _ _ wf fit]
    exact Nat.mod_eq_of_lt ho
  · rw [third _ rfl (by decide), ← h2, fget_fset_same _ _ _ wf1 fit1]
    exact Nat.mod_eq_of_lt hs
  · rw [State.get, noted, fget_fset_same _ _ _ wf2 fit2, satAdd]
    exact Nat.mod_eq_of_lt (Nat.lt_of_le_of_lt (Nat.min_le_right _ _) (by decide))

theorem State.noteRefusal_other (s : State) (off status k : Nat) (h0 : k ≠ 0x118) (h1 : k ≠ 0x11C) :
    tGet (s.noteRefusal off status).regs k = tGet s.regs k := by
  have apart (f : Field) (place : f.off = 0x118) (two : f.words ≤ 2) (t : Tab) (v : Nat) : tGet (fset t f v) k = tGet t k :=
    fset_other t f v k fun i hi => by omega
  exact (apart F.HUB_REG_REFUSED_COUNT rfl (by decide) _ _).trans
    ((apart F.HUB_REG_REFUSED_STATUS rfl (by decide) _ _).trans (apart F.HUB_REG_REFUSED_OFFSET rfl (by decide) _ _))

/-- Settles O15: each register is written by its row or refused, and the refusal's own register tells of it. -/
theorem guardedRegisters : Obligations.GuardedRegisters := by
  refine ⟨?_, fun s off status wf fit ho hs => ?_⟩
  · intro s cyc v u f
    have same : u.dev = s.dev := s.tick_dev cyc
    refine ⟨fun boot b mu => ?_, fun on past wf => ?_⟩
    · have on : s.dev ≠ .off := by rw [← same, boot]; decide
      have off : (s.tick cyc).regsOn = false := by
        rw [State.regsOn, show (s.tick cyc).dev = .boot from boot]
        exact Bool.and_false _
      simp only [List.forall_mem_cons, List.not_mem_nil, false_imp_iff, implies_true, and_true]
      rw [exec_planCfgWrite s cyc v on, exec_lrMulWrite s cyc v on, exec_arbRankWrite s cyc v on, exec_celRegWrite s cyc v on, off]
      exact ⟨rfl, rfl, rfl, rfl⟩
    · have on' : s.dev ≠ .off := same ▸ on
      have regs : (s.tick cyc).regsOn = true := State.regsOn_of_past_boot on past
      have cfg : exec (.planCfgWrite cyc false v) s = .next (u.writePlanCfg v.toNat) := by simp [exec_planCfgWrite s cyc v on', regs, u]
      have margin : exec (.planCfgWrite cyc true v) s = .next (u.writeMargin v.toNat) := by simp [exec_planCfgWrite s cyc v on', regs, u]
      have lrMul : exec (.lrMulWrite cyc v) s = .next (u.writeLrMul v.toNat) := by simp [exec_lrMulWrite s cyc v on', regs, u]
      have rank mu : exec (.arbRankWrite cyc mu v) s = .next (u.writeArbRank mu v.toNat) := by simp [exec_arbRankWrite s cyc v on', regs, u]
      have ring : exec (.celRegWrite cyc true v) s = .next (u.writeCelRing v.toNat) := by simp [exec_celRegWrite s cyc v on', regs, u]
      have cel : exec (.celRegWrite cyc false v) s = .next (u.writeCelCfg v.toNat) := by simp [exec_celRegWrite s cyc v on', regs, u]
      refine ⟨fun ok => ?_, fun bad => ?_, fun ok => ?_, fun bad => ?_, fun may => ?_, fun denied => ?_, fun mu populated may => ?_, fun may => ?_,
        fun mu reached denied => ?_, fun mu absent notAll => ?_, fun may => ?_, fun denied => ?_, fun locked => ?_, fun unlocked ok => ?_,
        fun unlocked bad => ?_⟩
      · have st := State.storeWord_planCfg { u with plan := { u.plan with req := { u.plan.req with phrase := none } } } v.toNat wf
        exact ⟨_, cfg.trans (congrArg _ ((u.writePlanCfg_eq v.toNat).trans (if_pos ok))), st.frame,
          st.field 0 13 (by decide), st.field 16 7 (by decide), st.field 24 4 (by decide), st.other⟩
      · exact cfg.trans (congrArg _ ((u.writePlanCfg_eq v.toNat).trans (if_neg bad)))
      · have st := u.storeWord_margin v.toNat wf
        exact ⟨_, margin.trans (congrArg _ ((u.writeMargin_eq v.toNat).trans (if_pos ok))), st.frame,
          st.field 0 8 (by decide), st.field 8 8 (by decide), st.field 16 8 (by decide), st.other⟩
      · exact margin.trans (congrArg _ ((u.writeMargin_eq v.toNat).trans (if_neg bad)))
      · have st := u.storeWord_lrMul v.toNat wf
        have whole : v.toNat / 2 ^ 0 % 2 ^ 32 = v.toNat := by rw [Nat.pow_zero, Nat.div_one, Nat.mod_eq_of_lt v.isLt]
        exact ⟨_, lrMul.trans (congrArg _ (if_pos may)), st.frame, (st.field 0 32 (by decide)).trans whole, st.other⟩
      · exact lrMul.trans (congrArg _ (if_neg (by simp [denied])))
      · have st := u.storeWord_arbRank v.toNat wf mu
        exact ⟨_, (rank mu).trans (congrArg _ (u.writeArbRank_die v.toNat populated may)), st.frame, st.field 0 21 (by decide), st.other⟩
      · obtain ⟨frame, _, ranks, other⟩ := u.rankAll_stored v.toNat wf u.nMu
        exact ⟨_, (rank 8).trans (congrArg _ (u.writeArbRank_all v.toNat may)), frame, ranks, other⟩
      · exact (rank mu).trans (congrArg _ (u.writeArbRank_refused v.toNat reached denied))
      · exact (rank mu).trans (congrArg _ (u.writeArbRank_absent v.toNat absent notAll))
      · have st := u.storeWord_celRing v.toNat wf
        exact ⟨_, ring.trans (congrArg _ (if_pos may)), st.frame, st.field 0 16 (by decide), st.other⟩
      · exact ring.trans (congrArg _ (if_neg (by simp [denied])))
      · exact cel.trans (congrArg _ (u.writeCelCfg_locked v.toNat locked))
      · have st := u.storeWord_celCfg v.toNat wf unlocked
        exact ⟨_, cel.trans (congrArg _ ((u.writeCelCfg_open v.toNat unlocked).trans (if_pos ok))), st.frame,
          st.field 0 4 (by decide), st.field 4 7 (by decide), st.field 11 5 (by decide), st.other⟩
      · exact cel.trans (congrArg _ ((u.writeCelCfg_open v.toNat unlocked).trans (if_neg bad)))
  · obtain ⟨ho', hs', hc⟩ := s.noteRefusal_fields off status wf fit ho hs
    exact ⟨s.noteRefusal off status, rfl, rfl, ho', hs', hc, s.noteRefusal_other off status,
      fset_wf _ _ _ (fset_wf _ _ _ (fset_wf _ _ _ wf))⟩

end Sys2Proof.Machine

/-! PROOF. LOAD_GRAPH: what is checked, and what an accepted graph leaves (R65, R68, R74, R261, R295, R430, R529). -/
namespace Sys2Proof.Machine

/-! ## The encoder counts in high registers alone -/

/-- Every word below the counters of MASK_24 (PLC_META_DUP, 0x10038) reads in `t` as in `s`. -/
def State.lowRegs (s t : State) : Prop := ∀ k, k < 0x10038 → tGet t.regs k = tGet s.regs k

theorem State.lowRegs_refl (s : State) : s.lowRegs s := fun _ _ => rfl
theorem State.lowRegs_trans {s t u : State} (h : s.lowRegs t) (g : t.lowRegs u) : s.lowRegs u := fun k hk => (g k hk).trans (h k hk)
theorem State.lowRegs_of_regs {s t : State} (h : t.regs = s.regs) : s.lowRegs t := fun k _ => congrArg (tGet · k) h

theorem State.lowRegs_foldl {α : Type} (g : State → α → State) (h : ∀ t x, State.lowRegs t (g t x)) :
    ∀ (l : List α) (s : State), s.lowRegs (l.foldl g s)
  | [], s => s.lowRegs_refl
  | x :: l, s => State.lowRegs_trans (h s x) (lowRegs_foldl g h l (g s x))

theorem State.lowRegs_foldl_fst {α β : Type} (g : State × β → α → State × β) (h : ∀ t x, State.lowRegs t.1 (g t x).1) :
    ∀ (l : List α) (s : State × β), s.1.lowRegs (l.foldl g s).1
  | [], s => s.1.lowRegs_refl
  | x :: l, s => State.lowRegs_trans (h s x) (lowRegs_foldl_fst g h l (g s x))

theorem State.count_lowRegs (s : State) (f : Field) (n : Nat) (high : 0x10038 ≤ f.off) : s.lowRegs (s.count f n) :=
  fun k hk => fset_other s.regs f _ k fun i _ => by omega

theorem State.setBlock_lowRegs (s : State) (q : Param) (i j n : Nat) : s.lowRegs (s.setBlock q i j n) := State.lowRegs_of_regs rfl

theorem State.wcPut_lowRegs (s : State) (mu base w idx code : Nat) : s.lowRegs (s.wcPut mu base w idx code) := by
  unfold State.wcPut
  split <;> exact State.lowRegs_of_regs rfl

/-- A counter of a memory-update die lies above the words of the placement controller. -/
theorem Field.mu_high (f : Field) (mu : Nat) (high : 0x180000 ≤ f.off) : 0x10038 ≤ (f.mu mu).off := by
  simp only [Field.mu]
  omega

theorem State.choose_lowRegs (s : State) (q : Param) (src : Nat) (first : Bool) (i j : Nat) : s.lowRegs (s.choose q src first i j) := by
  have high (f : Field) (h : 0x180000 ≤ f.off) (t : State) (n : Nat) : t.lowRegs (t.count (f.mu q.p.mu) n) :=
    t.count_lowRegs _ n (f.mu_high q.p.mu h)
  unfold State.choose
  extract_lets mags mu k s1 n s2
  have counted : s.lowRegs s1 := high F.MU_PRUNE_OVF_COUNT (by decide) s k.2
  have again : s.lowRegs s2 := by
    simp only [s2]
    split
    · exact s.lowRegs_refl
    · exact high F.MU_REPRUNE_COUNT (by decide) s 1
  clear_value s1 s2
  split
  · split
    · exact State.lowRegs_trans counted (s1.setBlock_lowRegs q i j _)
    · exact State.lowRegs_trans counted (State.lowRegs_trans (high F.MU_PRUNE_REFIT_COUNT (by decide) s1 1) (State.setBlock_lowRegs _ q i j _))
  · split
    · exact State.lowRegs_trans again (s2.setBlock_lowRegs q i j n)
    · exact s.lowRegs_refl

theorem State.reencode_lowRegs (s : State) (q : Param) (gi : Nat) (reprune first : Bool) : s.lowRegs (s.reencode q gi reprune first) := by
  unfold State.reencode
  split
  · exact s.lowRegs_refl
  · extract_lets w mu src s1 mask r
    have chosen : s.lowRegs s1 := by
      simp only [s1]
      split
      · exact State.lowRegs_foldl _ (fun t e => t.choose_lowRegs q src first _ _) _ s
      · exact s.lowRegs_refl
    have coded : s1.lowRegs r.1 := by
      refine State.lowRegs_foldl_fst _ (fun t e => ?_) _ (s1, 0)
      dsimp only
      split
      · split
        · split
          · exact State.wcPut_lowRegs _ _ _ _ _ _
          · exact State.lowRegs_refl _
        · exact State.lowRegs_refl _
      · exact State.wcPut_lowRegs _ _ _ _ _ _
    exact State.lowRegs_trans chosen (State.lowRegs_trans coded (r.1.count_lowRegs _ _ (F.MU_NUM_SAT_COUNT.mu_high mu (by decide))))

theorem State.evalMasters_lowRegs (s : State) (q : Param) : s.lowRegs (s.evalMasters q) := by
  refine State.lowRegs_foldl _ (fun t gi => State.lowRegs_foldl _ (fun u e => ?_) _ t) _ s
  split
  · exact State.wcPut_lowRegs _ _ _ _ _ _
  · exact u.lowRegs_refl

theorem State.evalEncode_lowRegs (s : State) (q : Param) (pairs : Mem) : s.lowRegs (s.evalEncode q pairs) := by
  unfold State.evalEncode
  extract_lets t0 u w
  have encoded : u.lowRegs w := by
    simp only [w]
    split
    · exact u.evalMasters_lowRegs q
    · exact State.lowRegs_foldl _ (fun z gi => z.reencode_lowRegs q gi false true) _ u
  exact encoded

theorem State.evalParam_lowRegs (x : Snap) (y : Graph) (s : State) (p : Placement) : s.lowRegs (State.evalParam x y s p) := by
  unfold State.evalParam
  split
  · split
    · exact s.lowRegs_refl
    · split
      · split
        · exact State.lowRegs_of_regs rfl
        · exact s.lowRegs_refl
      · rename_i o _ _ _ _ _
        extract_lets q
        refine State.lowRegs_trans (s.evalEncode_lowRegs q (evalPairs x o p.mu)) ?_
        obtain ⟨m, wl, e⟩ := (s.evalEncode q (evalPairs x o p.mu)).evalScales_eq x o p
        rw [e]
        exact State.lowRegs_of_regs rfl
  · exact s.lowRegs_refl

/-! ## The parts of a load -/

/-- EXPLICIT masks are written to working copies, and repeats counted (R191). -/
theorem State.writeMasks_eq (s : State) (g : Graph) :
    (∃ r m wl, s.writeMasks g = { s with regs := r, t1 := { s.t1 with mem := m, wb := wl } }) ∧ s.lowRegs (s.writeMasks g) := by
  unfold State.writeMasks
  refine ⟨foldl_memRegs _ (fun t x => ?_) _ s, State.lowRegs_foldl _ (fun t x => ?_) _ s⟩
  · split
    · exact ⟨_, _, _, rfl⟩
    · exact foldl_memRegs _ (fun u b => ⟨_, _, _, rfl⟩) _ t
  · split
    · exact t.lowRegs_refl
    · exact State.lowRegs_foldl _ (fun u b => State.lowRegs_trans (u.count_lowRegs F.PLC_META_DUP_COUNT _ (by decide)) (State.setBlock_lowRegs _ _ _ _ _)) _ t

/-- Filling an evaluation graph leaves the low registers, and takes the codebooks (R262). -/
theorem State.loadEval_some (s : State) (x : Snap) (g : Graph) (resident : s.plan.graph = some g) :
    s.lowRegs (s.loadEval (some x)) ∧ (s.loadEval (some x)).plan.graph = some (g.takeBooks (readGraph x.graph x.maskImg x.places)) := by
  unfold State.loadEval
  rw [resident]
  dsimp only
  refine ⟨State.lowRegs_foldl _ (fun t p => t.evalParam_lowRegs x _ p) _ _, ?_⟩
  have plan (l : List Placement) : ∀ t : State, (l.foldl (State.evalParam x (readGraph x.graph x.maskImg x.places)) t).plan = t.plan := by
    induction l with
    | nil => exact fun t => rfl
    | cons p l ih =>
        intro t
        obtain ⟨r, m, wl, c, e⟩ := State.evalParam_eq x (readGraph x.graph x.maskImg x.places) t p
        rw [List.foldl_cons, ih, e]
  rw [plan]

/-- First tags: each key takes 0 in location 0 and all ones in location 1 (R295). -/
def State.firstTag (t : State) (k : Nat) : State := (t.setTag k 0 0).setTag k 1 0xFFFFFFFF

theorem State.firstTag_wf (t : State) (k : Nat) (wf : tabWf t.t1.tag = true) : tabWf (t.firstTag k).t1.tag = true := by
  simp only [State.firstTag, State.setTag]
  exact tSet_wf _ _ _ (tSet_wf _ _ _ wf)

theorem State.firstTag_tag (t : State) (k j : Nat) (wf : tabWf t.t1.tag = true) :
    (t.firstTag k).tag j 0 = (if j = k then 0 else t.tag j 0) ∧ (t.firstTag k).tag j 1 = if j = k then 0xFFFFFFFF else t.tag j 1 := by
  simp only [State.firstTag, State.tag, State.setTag, tGet_tSet _ (tSet_wf _ _ _ wf), tGet_tSet _ wf]
  constructor
  · rw [if_neg (show ¬ j * 2 + 0 = k * 2 + 1 by omega)]
    exact ite_congr (propext (by omega)) (fun _ => rfl) fun _ => rfl
  · rw [if_neg (show ¬ j * 2 + 1 = k * 2 + 0 by omega)]
    exact ite_congr (propext (by omega)) (fun _ => rfl) fun _ => rfl

theorem State.foldl_firstTag (k : Nat) : ∀ (l : List Nat) (t : State), tabWf t.t1.tag = true → k ∈ l ∨ (t.tag k 0 = 0 ∧ t.tag k 1 = 0xFFFFFFFF) →
    (l.foldl State.firstTag t).tag k 0 = 0 ∧ (l.foldl State.firstTag t).tag k 1 = 0xFFFFFFFF
  | [], _, _, h => h.resolve_left (List.not_mem_nil)
  | x :: l, t, wf, h => by
      refine foldl_firstTag k l (t.firstTag x) (t.firstTag_wf x wf) ?_
      obtain ⟨at0, at1⟩ := t.firstTag_tag x k wf
      rw [at0, at1]
      by_cases same : k = x
      · exact .inr ⟨if_pos same, if_pos same⟩
      · rw [if_neg same, if_neg same]
        exact h.imp_left fun mem => (List.mem_cons.mp mem).resolve_left same

theorem State.foldl_firstTag_eq : ∀ (l : List Nat) (t : State), ∃ tag, l.foldl State.firstTag t = { t with t1 := { t.t1 with tag := tag } }
  | [], t => ⟨t.t1.tag, rfl⟩
  | x :: l, t => by
      obtain ⟨tag, e⟩ := foldl_firstTag_eq l (t.firstTag x)
      exact ⟨tag, e⟩

theorem State.firstTags_eq (t : State) : ∃ tag, t.firstTags = { t with t1 := { t.t1 with tag := tag } } := State.foldl_firstTag_eq _ t

theorem State.firstTags_tag (t : State) (wf : tabWf t.t1.tag = true) {p : Placement} (placed : p ∈ t.places) {k : Nat} (key : k ∈ placeKeys p) :
    t.firstTags.tag k 0 = 0 ∧ t.firstTags.tag k 1 = 0xFFFFFFFF :=
  State.foldl_firstTag k _ t wf (.inl (List.mem_flatMap.mpr ⟨p, placed, key⟩))

/-! ## What a load leaves -/

/-- A field of one word reads what was written. -/
theorem fget_fset_word (t : Tab) (f : Field) (v : Nat) (wf : tabWf t = true) (pos : 0 < f.w) (fits : f.lo + f.w ≤ 32) :
    fget (fset t f v) f = v % 2 ^ f.w := by
  have one : f.words = 1 := by unfold Field.words; omega
  have word : fset t f v = tSet t f.off (setBits (rdWords t f.off 1) f.lo f.w v % 2 ^ 32) := by
    unfold fset
    rw [one]
    rfl
  rw [word, show fget _ f = _ from fget_tSet t f.off f.lo f.w _ wf pos fits]
  refine Nat.eq_of_testBit_eq fun i => ?_
  rw [testBit_bits, Nat.testBit_mod_two_pow, Nat.testBit_mod_two_pow, testBit_setBits]
  by_cases inside : i < f.w
  · simp [inside, show f.lo + i < 32 by omega]
  · simp [inside]

/-- What a load leaves beside the graph, the paired state and the tags: nothing runs, the first phrase calibrates, waiting planning
commands are carried by the build. -/
structure LoadedFrom (s t : State) (g : Graph) : Prop where
  loading : t.plan.loading = true
  calib : t.plan.calib = true
  card : t.plan.card = none
  next : t.plan.next = none
  building : t.plan.building = !s.feat 0
  pos : t.clk.pos = none
  measure : t.clk.measure = s.clk.measure
  figs : t.run.figs = []
  cutNo : t.cel.cutNo = 0
  phrase : g.h 64 13 ≠ 0 → t.get F.PLC_PLAN_CFG_PHRASE = g.h 64 13
  rings : t.host.rings = s.host.rings.map fun r => { r with active := r.active.map carryCmd }
  dev : t.dev = s.dev
  t0 : t.t0 = s.t0
  ing : t.ing = s.ing
  fab : t.fab = s.fab
  snaps : t.cel.snaps = s.cel.snaps
  fuses : t.fuses = s.fuses

/-- A change of T1, of the graph and of high registers keeps what a load leaves. -/
theorem LoadedFrom.keep {s t w : State} {g : Graph} (h : LoadedFrom s t g) (low : t.lowRegs w)
    (frame : w = { t with regs := w.regs, t1 := w.t1, plan := { t.plan with graph := w.plan.graph } }) : LoadedFrom s w g := by
  have phrase : w.get F.PLC_PLAN_CFG_PHRASE = t.get F.PLC_PLAN_CFG_PHRASE :=
    fget_congr w.regs t.regs F.PLC_PLAN_CFG_PHRASE fun i hi => low _ (by
      have first : i < 1 := hi
      simp only [F.PLC_PLAN_CFG_PHRASE]
      omega)
  obtain ⟨loading, calib, card, next, building, pos, measure, figs, cutNo, phr, rings, dev, t0, ing, fab, snaps, fuses⟩ := h
  rw [← phrase] at phr
  rw [frame] at phr ⊢
  exact ⟨loading, calib, card, next, building, pos, measure, figs, cutNo, phr, rings, dev, t0, ing, fab, snaps, fuses⟩

/-- A write of PLC_PLAN_CFG.PHRASE leaves the accepted features. -/
theorem State.feat_set_phrase (s : State) (v i : Nat) : (s.set F.PLC_PLAN_CFG_PHRASE v).feat i = s.feat i := by
  refine congrArg (bit · i) (rdWords_congr _ _ 8 F.HUB_FEAT_ACCEPT_k_BITS.off fun j hj => fset_other s.regs F.PLC_PLAN_CFG_PHRASE v _ fun m _ => ?_)
  simp only [F.HUB_FEAT_ACCEPT_k_BITS, F.PLC_PLAN_CFG_PHRASE]
  omega

theorem State.placeGraph_loaded (s : State) (g : Graph) (wf : tabWf s.regs = true) :
    LoadedFrom s (s.placeGraph g s.clk.measure) g ∧ (s.placeGraph g s.clk.measure).plan.graph = some g
      ∧ (s.placeGraph g s.clk.measure).t1.pair = s.t1.pair ∧ (s.placeGraph g s.clk.measure).t1.tag = s.t1.tag := by
  generalize placed : s.placeGraph g s.clk.measure = w
  unfold State.placeGraph at placed
  extract_lets ph s1 clk host plan req run t1 cel s2 at placed
  have written : (∃ r, s1 = { s with regs := r }) ∧ s1.feat 0 = s.feat 0 ∧ (g.h 64 13 ≠ 0 → s1.get F.PLC_PLAN_CFG_PHRASE = g.h 64 13) := by
    by_cases own : g.h 64 13 = 0
    · have asked : ph = s.plan.req.phrase := if_pos own
      simp only [s1, asked]
      cases s.plan.req.phrase with
      | none => exact ⟨⟨_, rfl⟩, rfl, fun h => absurd own h⟩
      | some v => exact ⟨⟨_, rfl⟩, s.feat_set_phrase v 0, fun h => absurd own h⟩
    · have named : ph = some (g.h 64 13) := if_neg own
      simp only [s1, named]
      refine ⟨⟨_, rfl⟩, s.feat_set_phrase _ 0, fun _ => ?_⟩
      exact (fget_fset_word s.regs F.PLC_PLAN_CFG_PHRASE _ wf (by decide) (by decide)).trans (Nat.mod_eq_of_lt (Nat.mod_lt _ (by decide)))
  obtain ⟨⟨r, e⟩, feat, phrase⟩ := written
  have start : LoadedFrom s s2 g ∧ s2.plan.graph = some g ∧ s2.t1.pair = s.t1.pair ∧ s2.t1.tag = s.t1.tag := by
    have building : s2.plan.building = !s.feat 0 := congrArg (!·) feat
    have phr : g.h 64 13 ≠ 0 → s2.get F.PLC_PLAN_CFG_PHRASE = g.h 64 13 := phrase
    clear_value s1
    subst e
    exact ⟨⟨rfl, rfl, rfl, rfl, building, rfl, rfl, rfl, rfl, phr, rfl, rfl, rfl, rfl, rfl, rfl, rfl⟩, rfl, rfl, rfl⟩
  clear_value s2
  obtain ⟨loaded, graph, pair, tag⟩ := start
  obtain ⟨⟨r, m, wl, masks⟩, low⟩ := s2.writeMasks_eq g
  subst placed
  refine ⟨loaded.keep low (by rw [masks]), ?_⟩
  rw [masks]
  exact ⟨graph, pair, tag⟩

theorem State.loadFrom_loaded (s : State) (g : Graph) (src : Option Snap) (wf : tabWf s.regs = true) (tagWf : tabWf s.t1.tag = true) :
    let t := s.loadFrom g src
    LoadedFrom s t g ∧ (∀ x, g.evalSource src = some x → t.plan.graph = some (g.takeBooks (readGraph x.graph x.maskImg x.places)))
      ∧ (g.evalSource src = none → t.plan.graph = some g ∧ t.t1.pair = s.t1.pair)
      ∧ ∀ q ∈ t.places, ∀ k ∈ placeKeys q, t.tag k 0 = 0 ∧ t.tag k 1 = 0xFFFFFFFF := by
  intro t
  obtain ⟨loaded, graph, pair, tag⟩ := s.placeGraph_loaded g wf
  simp only [t, State.loadFrom]
  generalize s.placeGraph g s.clk.measure = w at *
  have tags := fun q (hq : q ∈ w.places) k (hk : k ∈ placeKeys q) => w.firstTags_tag (tag ▸ tagWf) hq hk
  obtain ⟨tg, e⟩ := w.firstTags_eq
  have places : w.places = g.places := by rw [State.places, graph]
  rw [places] at tags
  have tagged : LoadedFrom s w.firstTags g := loaded.keep (State.lowRegs_of_regs (by rw [e])) (by rw [e])
  have graph' : w.firstTags.plan.graph = some g := by rw [e]; exact graph
  have pair' : w.firstTags.t1.pair = s.t1.pair := by rw [e]; exact pair
  generalize w.firstTags = z at *
  cases source : g.evalSource src with
  | none =>
      refine ⟨tagged, fun x hx => absurd hx (by simp), fun _ => ⟨graph', pair'⟩, ?_⟩
      have same : (z.loadEval none).places = g.places := by rw [State.loadEval, State.places, graph']
      rw [same]
      exact tags
  | some x =>
      obtain ⟨low, books⟩ := z.loadEval_some x g graph'
      obtain ⟨r, m, wl, c, g', filled⟩ := z.loadEval_eq (some x)
      refine ⟨tagged.keep low (by rw [filled]), fun y hy => ?_, fun hn => absurd hn (by simp), ?_⟩
      · cases hy
        exact books
      · have same : (z.loadEval (some x)).places = g.places := by rw [State.places, books]; rfl
        rw [same, filled]
        exact tags

/-! ## The command -/

theorem State.leaderDigest_own (s : State) (g : Graph) (own : s.fab.leader = true ∨ s.alone = true) : s.leaderDigest g = (g.digest, s) :=
  if_pos (by simpa using own)

theorem State.leaderDigest_frame (s : State) (g : Graph) : (s.leaderDigest g).2 = { s with free := (s.leaderDigest g).2.free } := by
  unfold State.leaderDigest
  split <;> rfl

theorem State.loadGraphRun_busy (p : State) (n : Nat) (image mask : Bytes) (places : List Placement) (src : Option Snap) (d : BitVec 512)
    (busy : p.plan.graph ≠ none) : p.loadGraphRun n image mask places src d = p.finish n d St.graphBusy 0 :=
  if_pos (by simp [Option.isSome_iff_ne_none, busy])

/-- With none resident, in RUNNING, the checks of the graph and of its digest decide (R68, R430). -/
theorem State.loadGraphRun_eq (p : State) (n : Nat) (image mask : Bytes) (places : List Placement) (src : Option Snap) (d : BitVec 512)
    (running : p.dev = .running) (absent : p.plan.graph = none) :
    let g := readGraph (image.take (dW d 2)) (mask.take (dW d 4)) places
    p.loadGraphRun n image mask places src d = if p.graphStatus g ≠ St.ok then p.finish n d (p.graphStatus g) 0
      else if (p.leaderDigest g).1 ≠ g.digest then (p.leaderDigest g).2.finish n d St.graphMismatch 0
      else ((p.leaderDigest g).2.loadFrom g src).activate n d 0 :=
  if_neg (by simp [absent, running])

/-- A started command that waits joins the uncompleted ones of its ring (R425). -/
theorem State.activate_ring (w : State) (n : Nat) (d : BitVec 512) (datum : Nat) (hn : n < w.host.rings.length) :
    (w.activate n d datum).ring n = { w.ring n with active := (w.ring n).active ++ [⟨d, datum⟩] } :=
  State.ring_set rfl hn

/-- The ring of the command after a load: its front command taken, its waiting planning commands carried. -/
theorem LoadedFrom.ring {u p w : State} {g : Graph} (h : LoadedFrom p w g) {n : Nat} (hn : n < u.host.rings.length)
    (popped : p.host.rings = (u.popCmd n).host.rings) : n < w.host.rings.length
      ∧ w.ring n = { u.ring n with queue := (u.ring n).queue.tail, active := (u.ring n).active.map carryCmd } := by
  have rings : w.host.rings = (u.host.rings.set n { u.ring n with queue := (u.ring n).queue.tail }).map
      fun r => { r with active := r.active.map carryCmd } := h.rings.trans (congrArg (List.map _) popped)
  exact ⟨by simp [rings, hn], by simp [State.ring, rings, hn]⟩

/-- Settles O26: LOAD_GRAPH is refused by its first failing check; else the graph is placed, tagged and filled, and the command waits. -/
theorem graphLoads : Obligations.GraphLoads := by
  intro s cyc n d image mask places src u p g l running front
  have on : s.dev ≠ .off := by rw [← s.tick_dev cyc, running]; decide
  rw [exec_loadGraph s cyc n image mask places src on, State.start_of_frontIs running front true false _ nofun]
  simp only [Host.Outcome.next.injEq, exists_eq_left']
  have run (absent : u.plan.graph = none) := State.loadGraphRun_eq p n image mask places src d running absent
  have frame : l.2 = { p with free := l.2.free } := p.leaderDigest_frame g
  refine ⟨p.loadGraphRun_busy n image mask places src d, fun absent refused => (run absent).trans (if_pos refused), p.leaderDigest_own g, frame,
    fun absent passes other => ?_, fun absent passes agrees len tagWf wf => ?_⟩
  · exact (run absent).trans ((if_neg fun refused => refused passes).trans (if_pos other))
  · have left : p.loadGraphRun n image mask places src d = (l.2.loadFrom g src).activate n d 0 :=
      (run absent).trans ((if_neg fun refused => refused passes).trans (if_neg fun other => other agrees))
    rw [show (s.tick cyc).popCmd n = p from rfl, left]
    obtain ⟨loaded, books, own, tags⟩ := l.2.loadFrom_loaded g src (by rw [frame]; exact wf) (by rw [frame]; exact tagWf)
    obtain ⟨hw, ring⟩ := loaded.ring (u := u) (n := n) (by rw [len]; exact front.1) (by rw [frame])
    have active := State.activate_ring (l.2.loadFrom g src) n d 0 hw
    rw [ring] at active
    have same : l.2.feat 0 = u.feat 0 ∧ l.2.clk = u.clk ∧ l.2.dev = u.dev ∧ l.2.t0 = u.t0 ∧ l.2.ing = u.ing ∧ l.2.fab = u.fab
        ∧ l.2.cel = u.cel ∧ l.2.fuses = u.fuses ∧ l.2.t1 = u.t1 := by
      rw [frame]
      exact ⟨rfl, rfl, rfl, rfl, rfl, rfl, rfl, rfl, rfl⟩
    obtain ⟨feat, clk, dev, t0, ing, fab, cel, fuses, t1⟩ := same
    rw [active]
    exact ⟨books, fun bare => ⟨(own bare).1, (own bare).2.trans (congrArg T1.pair t1)⟩, loaded.loading, loaded.calib, loaded.card, loaded.next,
      loaded.building.trans (congrArg _ feat), loaded.pos, loaded.measure.trans (congrArg Clock.measure clk), loaded.figs, loaded.cutNo,
      loaded.phrase, tags, rfl, rfl, loaded.dev.trans dev, loaded.t0.trans t0, loaded.ing.trans ing, loaded.fab.trans fab,
      loaded.snaps.trans (congrArg Cellar.snaps cel), loaded.fuses.trans fuses⟩

end Sys2Proof.Machine

/-! PROOF. Host access to parameters: what PARAM_WRITE stages and which pieces PARAM_READ keeps (R145, R428, R431, R432). -/
namespace Sys2Proof.Machine

/-! ## PARAM_WRITE -/

/-- The values of the PARAM_WRITE `d` of ring `n` as they wait for the next measure boundary (R431). -/
def stagedOf (n : Nat) (d : BitVec 512) (src : Bytes) : Staged :=
  ⟨n, dTag d, bits (dW d 1) 0 18, dFlag d, dW d 2, dW d 3, src⟩

/-- A PARAM_WRITE of tensor `t` within bounds: refused if a value is not finite (R145), else staged. -/
def State.stage (s : State) (n : Nat) (d : BitVec 512) (src : Bytes) (t : BitVec 512) : State :=
  if srcFinite t (dFlag d) (dW d 3) src = false then s.finish n d St.dataNonfinite 0
  else State.activate { s with t1 := { s.t1 with staged := s.t1.staged ++ [stagedOf n d src] } } n d 0

theorem exec_paramWrite (s : State) (cyc n : Nat) (src : Bytes) (on : s.dev ≠ .off) :
    exec (.paramWrite cyc n src) s = .next ((s.tick cyc).start n 0x40 false true fun d p =>
      (p.paramAccess d).elim (p.finish n d St.badArg 0) fun x => p.stage n d src x.1) := by
  change execParamWrite cyc n src s = _
  rw [execParamWrite, if_neg (by simpa only [beq_iff_eq] using on)]
  congr 2
  funext d p
  cases p.paramAccess d with
  | none => rfl
  | some x => simp only [Option.elim_some, State.stage, stagedOf, Bool.not_eq_true']

/-! ## PARAM_READ -/

/-- The granules that the PARAM_READ `d` of a trainable tensor `t`, placed at `q`, reaches: of scales with SCALE set, else of masters. -/
def State.readKeys (s : State) (n : Nat) (d t : BitVec 512) (q : Placement) : List Nat :=
  if dFlag d then (upTo q.scaleCount).filterMap fun k =>
      if decide (dW d 2 < (k + 1) * 1024) && decide (k * 1024 < dW d 2 + dW d 3) then some (granKey q.mu (q.scaleGran + k)) else none
  else ((upTo (granCount t)).filter (reached (layoutOf (s.kOuter (bits (dW d 1) 0 18)) t q) (stagedOf n d []))).map
    fun gi => granKey q.mu (q.gran + gi)

/-- The pieces of 1 KiB it reaches: blocks of a frozen working copy, or the quarters of each granule's current location (R432; the pieces
are log entry 33's, those of a frozen copy 50's). -/
def State.readPieces (s : State) (n : Nat) (d t : BitVec 512) (q : Placement) : List (Nat × Nat) :=
  if tFrozen t then s.frozenPieces q t (dW d 2) (dW d 3)
  else (s.readKeys n d t q).flatMap fun k => (upTo 4).map fun x => (k, 4 * (s.current k).getD 0 + x)

/-- A piece of a granule without a current location is the fault of a lost pair (R298). -/
def State.readFault (s : State) (t : BitVec 512) (q : Placement) (left : List (Nat × Nat)) : State :=
  if tFrozen t = false ∧ ∃ x ∈ left, s.current x.1 = none then s.pairLost q.mu none else s

/-- The PARAM_READ `d` waits with the pieces `left` to read (R432). -/
def State.keepReading (s : State) (n : Nat) (d : BitVec 512) (left : List (Nat × Nat)) : State :=
  State.activate { s with t1 := { s.t1 with
    reading := s.t1.reading ++ [⟨n, dTag d, bits (dW d 1) 0 18, dFlag d, dW d 2, dW d 3, dW d 4, left⟩] } } n d 0

/-- A PARAM_READ of tensor `t`, placed at `q`, within bounds: a count of 0 asks for no piece, which the model completes at once (no rule
of the manual speaks of it); its pieces are those of its start (R432). -/
def State.read (s : State) (n : Nat) (d t : BitVec 512) (q : Placement) : State :=
  let left := if dW d 3 = 0 then [] else s.readPieces n d t q
  if left = [] then s.finish n d St.ok 0 else (s.readFault t q left).keepReading n d left

/-- The model looks for lost pairs before it finds nothing to read: with no piece there is none. -/
theorem State.readFault_order (s : State) (n : Nat) (d t : BitVec 512) (q : Placement) (left : List (Nat × Nat)) :
    (let e := if !tFrozen t && left.any fun x => (s.current x.1).isNone then s.pairLost q.mu none else s
      if left.isEmpty then e.finish n d St.ok 0 else e.keepReading n d left)
    = if left = [] then s.finish n d St.ok 0 else (s.readFault t q left).keepReading n d left := by
  have lost : (!tFrozen t && left.any fun x => (s.current x.1).isNone) = true ↔ tFrozen t = false ∧ ∃ x ∈ left, s.current x.1 = none := by
    simp only [Bool.and_eq_true, Bool.not_eq_true', List.any_eq_true, Option.isNone_iff_eq_none]
  have fault : (if !tFrozen t && left.any fun x => (s.current x.1).isNone then s.pairLost q.mu none else s) = s.readFault t q left :=
    ite_congr (propext lost) (fun _ => rfl) fun _ => rfl
  cases left with
  | nil => simp only [List.any_nil, Bool.and_false, Bool.false_eq_true, if_false, List.isEmpty_nil, if_true]
  | cons x rest => exact congrArg (State.keepReading · n d (x :: rest)) fault

theorem exec_paramRead (s : State) (cyc n : Nat) (on : s.dev ≠ .off) :
    exec (.paramRead cyc n) s = .next ((s.tick cyc).start n 0x41 false true fun d p =>
      (p.paramAccess d).elim (p.finish n d St.badArg 0) fun x => p.read n d x.1 x.2) := by
  change execParamRead cyc n s = _
  rw [execParamRead, if_neg (by simpa only [beq_iff_eq] using on)]
  congr 2
  funext d p
  cases p.paramAccess d with
  | none => rfl
  | some x => exact p.readFault_order n d x.1 x.2 (if dW d 3 = 0 then [] else p.readPieces n d x.1 x.2)

theorem State.read_nothing (s : State) {n : Nat} {d t : BitVec 512} {q : Placement} (nothing : dW d 3 = 0 ∨ s.readPieces n d t q = []) :
    s.read n d t q = s.finish n d St.ok 0 := by
  rcases nothing with uncounted | unreached
  · exact if_pos (if_pos uncounted)
  · exact if_pos (by rw [unreached, ite_self])

theorem State.read_waits (s : State) {n : Nat} {d t : BitVec 512} {q : Placement} (asked : dW d 3 ≠ 0) (reaches : s.readPieces n d t q ≠ []) :
    s.read n d t q = (s.readFault t q (s.readPieces n d t q)).keepReading n d (s.readPieces n d t q) := by
  simp only [State.read, if_neg asked, if_neg reaches]

/-- Settles O32: out of bounds is BAD_ARG; a PARAM_WRITE is refused or staged; a PARAM_READ completes or keeps its pieces and waits. -/
theorem parameterAccess : Obligations.ParameterAccess := by
  intro s cyc n d src u p running graph
  have on : s.dev ≠ .off := by rw [← s.tick_dev cyc, running]; decide
  have write (front : u.frontIs n 0x40 d) : exec (.paramWrite cyc n src) s
      = .next ((p.paramAccess d).elim (p.finish n d St.badArg 0) fun x => p.stage n d src x.1) := by
    rw [exec_paramWrite s cyc n src on, State.start_of_frontIs running front false true _ fun _ => graph]
  have read (front : u.frontIs n 0x41 d) : exec (.paramRead cyc n) s
      = .next ((p.paramAccess d).elim (p.finish n d St.badArg 0) fun x => p.read n d x.1 x.2) := by
    rw [exec_paramRead s cyc n on, State.start_of_frontIs running front false true _ fun _ => graph]
  refine ⟨fun front outside => ?_, fun front outside => ?_, fun t q front inside => ⟨fun infinite => ?_, fun finite => ?_⟩,
    fun t q front inside => ?_⟩
  · rw [write front, outside]; rfl
  · rw [read front, outside]; rfl
  · rw [write front, inside, Option.elim_some, State.stage, if_pos infinite]; rfl
  · rw [write front, inside, Option.elim_some, State.stage, if_neg (by rw [finite]; decide)]; rfl
  · rw [read front, inside]
    exact ⟨fun nothing => congrArg Host.Outcome.next (p.read_nothing nothing),
      fun asked reaches => congrArg Host.Outcome.next (p.read_waits asked reaches)⟩

end Sys2Proof.Machine

/-! PROOF. Registers that a write clears bit by bit, and the two error registers (R171, R288, R464, R509, R511). -/
namespace Sys2Proof.Machine

/-! ## The dies a write reaches, one by one or all (R511) -/

section
variable {α : Type} (u : State) (rel : Nat) (g : α → Nat → α) (a : α)

theorem State.foldl_writeWindows_mu (mu : Nat) : (u.writeWindows ⟨.mu, mu, rel⟩).foldl (fun t b => g t b.window) a
    = if mu = 8 then (upTo u.nMu).foldl g a else if mu < u.nMu then g a mu else a := by
  by_cases all : mu = 8
  · simp [State.writeWindows, all, List.foldl_map]
  · by_cases here : mu < u.nMu <;> simp [State.writeWindows, State.windowOn, ld0Only, all, here]

theorem State.foldl_writeWindows_cd (cd : Nat) : (u.writeWindows ⟨.cd, cd, rel⟩).foldl (fun t b => g t b.window) a
    = if cd = 4 then (upTo u.nCd).foldl g a else if cd < u.nCd then g a cd else a := by
  by_cases all : cd = 4
  · simp [State.writeWindows, all, List.foldl_map]
  · by_cases here : cd < u.nCd <;> simp [State.writeWindows, State.windowOn, ld0Only, all, here]

end

/-! ## The commands past BOOT -/

section
variable {s : State} {cyc : Nat} (v : Word32) (on : s.dev ≠ .off) (regs : (s.tick cyc).regsOn = true)
include on regs

theorem exec_starveFlagClear (mu new : Nat) : exec (.starveFlagClear cyc mu v new) s
    = .next (((s.tick cyc).writeWindows ⟨.mu, mu, 8⟩).foldl (fun t b => t.clearStarve b.window v.toNat new) (s.tick cyc)) := by
  change execStarveFlagClear cyc mu v new s = _
  simp only [execStarveFlagClear, beq_iff_eq, on, regs, if_false, if_true]

theorem exec_vecStickyClear (cd new : Nat) : exec (.vecStickyClear cyc cd v new) s
    = .next (((s.tick cyc).writeWindows ⟨.cd, cd, 0x40⟩).foldl (fun t b => t.clearSticky b.window v.toNat new) (s.tick cyc)) := by
  change execVecStickyClear cyc cd v new s = _
  simp only [execVecStickyClear, beq_iff_eq, on, regs, if_false, if_true]

theorem exec_errStatusWrite : exec (.errStatusWrite cyc v) s = .next ((s.tick cyc).writeErrStatus v.toNat) := by
  change execErrStatusWrite cyc v s = _
  simp only [execErrStatusWrite, beq_iff_eq, on, regs, if_false, if_true]

theorem exec_errLogHeadWrite : exec (.errLogHeadWrite cyc v) s = .next ((s.tick cyc).writeLogHead v.toNat) := by
  change execErrLogHeadWrite cyc v s = _
  simp only [execErrLogHeadWrite, beq_iff_eq, on, regs, if_false, if_true]

end

/-- A 32-bit value is its own residue, so the distance below ERR_LOG_TAIL is counted from the value itself (R509). -/
theorem State.writeLogHead_word (u : State) (v : Word32) : u.writeLogHead v.toNat
    = if (u.get F.ERR_LOG_TAIL_COUNT + (2 ^ 32 - v.toNat)) % 2 ^ 32 ≤ 256 then u.set F.ERR_LOG_HEAD_COUNT v.toNat else u := by
  rw [State.writeLogHead, cntSub, Nat.mod_eq_of_lt v.isLt, State.logTail]

/-! ## Starvation flags (R288) -/

theorem State.clearStarve_vg2 {u : State} (vg2 : u.vg4 = false) (k v new : Nat) : u.clearStarve k v new = u := by
  simp [State.clearStarve, vg2]

/-- The one of the longest wait so far and the next request that has waited longer: what `State.starving` folds with. -/
def longerWait (b : Option ArbReq) (r : ArbReq) : Option ArbReq :=
  match b with
  | none => some r
  | some x => some (if r.since < x.since then r else x)

theorem longerWait_some (x r : ArbReq) : longerWait (some x) r = some (minOn ArbReq.since x r) := by
  by_cases later : x.since ≤ r.since
  · rw [longerWait, minOn, if_pos later, if_neg (Nat.not_lt.mpr later)]
  · rw [longerWait, minOn, if_neg later, if_pos (Nat.lt_of_not_le later)]

theorem foldl_longerWait_some : ∀ (l : List ArbReq) (x : ArbReq),
    l.foldl longerWait (some x) = some (l.foldl (minOn ArbReq.since) x)
  | [], _ => rfl
  | r :: l, x => by rw [List.foldl_cons, List.foldl_cons, longerWait_some, foldl_longerWait_some l]

theorem foldl_longerWait_none (l : List ArbReq) : l.foldl longerWait none = l.minOn? ArbReq.since := by
  cases l with
  | nil => rfl
  | cons r l => exact foldl_longerWait_some l r

/-- A request of requester `r` that waits on die `k` beyond STARVE_US (R288). -/
def State.waitsLate (u : State) (k r : Nat) (x : ArbReq) : Prop :=
  x ∈ u.t1.req ∧ x.key / 24 = k ∧ x.req = r ∧ u.get (F.MU_ARB_CFG_STARVE_US.mu k) * 1900 < u.clk.base + u.clk.cyc - x.since

section
variable (u : State) (k r : Nat)

/-- The late requests, in the order of their listing. -/
def State.lateReqs : List ArbReq :=
  u.t1.req.filter fun x => x.key / 24 == k && x.req == r && decide (u.get (F.MU_ARB_CFG_STARVE_US.mu k) * 1900 < u.clock - x.since)

theorem State.mem_lateReqs (x : ArbReq) : x ∈ u.lateReqs k r ↔ u.waitsLate k r x := by
  simp only [State.lateReqs, List.mem_filter, Bool.and_eq_true, beq_iff_eq, decide_eq_true_eq, and_assoc]
  exact Iff.rfl

/-- The request that has waited longest is the library's `minOn?` of the cycle it has waited since. -/
theorem State.starving_eq_minOn? : u.starving k r = (u.lateReqs k r).minOn? ArbReq.since := foldl_longerWait_none _

theorem State.starving_eq_none_iff : u.starving k r = none ↔ ∀ x, ¬ u.waitsLate k r x := by
  rw [u.starving_eq_minOn?, ← Option.not_isSome_iff_eq_none, List.isSome_minOn?_iff, Decidable.not_not, List.eq_nil_iff_forall_not_mem]
  simp only [u.mem_lateReqs]

theorem State.starving_longest {x : ArbReq} (h : u.starving k r = some x) :
    u.waitsLate k r x ∧ ∀ y, u.waitsLate k r y → x.since ≤ y.since := by
  have longest : (u.lateReqs k r).minOn? ArbReq.since = some x := (u.starving_eq_minOn? k r).symm.trans h
  refine ⟨(u.mem_lateReqs k r x).mp (List.minOn?_mem longest), fun y late => ?_⟩
  rw [← List.minOn_eq_of_minOn?_eq_some longest]
  exact List.apply_minOn_le_of_mem ((u.mem_lateReqs k r y).mpr late)

end

/-! ## Sticky bits (R171) -/

/-- One cluster's sticky bits cleared, as `State.clearSticky` does it: an entry of zero stays unlisted. -/
def clearClusterSticky (k v : Nat) (t : Tab) (c : Nat) : Tab :=
  if tGet t (clKey k c) = 0 then t else tSet t (clKey k c) (Nat.land (tGet t (clKey k c)) (3 - v % 4))

theorem tGet_clearClusterSticky {t : Tab} (wf : tabWf t = true) (k v c j : Nat) : tGet (clearClusterSticky k v t c) j
    = if j = clKey k c then Nat.land (tGet t (clKey k c)) (3 - v % 4) else tGet t j := by
  unfold clearClusterSticky
  split
  · next zero =>
    split
    · next here => rw [here, zero]; exact (Nat.zero_and _).symm
    · rfl
  · exact tGet_tSet t wf _ _ _

theorem clearClusterSticky_wf {t : Tab} (wf : tabWf t = true) (k v c : Nat) : tabWf (clearClusterSticky k v t c) = true := by
  unfold clearClusterSticky
  split
  · exact wf
  · exact tSet_wf _ _ _ wf

/-- The first `n` clusters of a die cleared. -/
def clearClusters (k v n : Nat) (t : Tab) : Tab := (upTo n).foldl (clearClusterSticky k v) t

theorem clearClusters_succ (k v n : Nat) (t : Tab) : clearClusters k v (n + 1) t = clearClusterSticky k v (clearClusters k v n t) n := by
  simp [clearClusters, upTo, List.range_succ]

theorem clearClusters_cleared {t : Tab} (wf : tabWf t = true) (k v : Nat) : ∀ n, tabWf (clearClusters k v n t) = true
    ∧ (∀ c, c < n → tGet (clearClusters k v n t) (clKey k c) = Nat.land (tGet t (clKey k c)) (3 - v % 4))
    ∧ ∀ j, (∀ c, c < n → j ≠ clKey k c) → tGet (clearClusters k v n t) j = tGet t j
  | 0 => ⟨wf, fun _ h => absurd h (Nat.not_lt_zero _), fun _ _ => rfl⟩
  | n + 1 => by
      obtain ⟨wf', cleared, other⟩ := clearClusters_cleared wf k v n
      have apart (c : Nat) (h : c ≠ n) : clKey k c ≠ clKey k n := by unfold clKey; omega
      rw [clearClusters_succ]
      refine ⟨clearClusterSticky_wf wf' k v n, fun c hc => ?_, fun j hj => ?_⟩
      · rw [tGet_clearClusterSticky wf']
        by_cases last : c = n
        · rw [last, if_pos rfl, other _ fun c hc => (apart c (Nat.ne_of_lt hc)).symm]
        · rw [if_neg (apart c last), cleared c (by omega)]
      · rw [tGet_clearClusterSticky wf', if_neg (hj n (Nat.lt_succ_self n)), other j fun c hc => hj c (Nat.lt_succ_of_lt hc)]

theorem State.clearSticky_eq (u : State) (k v new : Nat) : u.clearSticky k v new
    = { u with regs := (u.set ⟨0x100040 + k * 0x10000, 0, 2⟩
          (Nat.lor (Nat.land (u.get ⟨0x100040 + k * 0x10000, 0, 2⟩) (3 - v % 4)) (new % 4))).regs
               t0 := { u.t0 with sticky := clearClusters k v 1024 u.t0.sticky } } := rfl

/-- Settles O14: each write reaches the dies it names, a late request's flag prevails over its clear, and clusters lose the bits
written. -/
theorem clearBits : Obligations.ClearBits := by
  refine ⟨?_, fun u k v new => ⟨fun vg2 => State.clearStarve_vg2 vg2 k v new, fun vg4 => ?_,
    fun r => ⟨u.starving_eq_none_iff k r, fun x => u.starving_longest k r⟩, fun wf => ?_⟩⟩
  · intro s cyc v u on past
    have on' : s.dev ≠ .off := s.tick_dev cyc ▸ on
    have regs : u.regsOn = true := State.regsOn_of_past_boot on past
    refine ⟨fun mu new => ?_, fun cd new => ?_, exec_errStatusWrite v on' regs, ?_⟩
    · exact (exec_starveFlagClear v on' regs mu new).trans (congrArg _
        (u.foldl_writeWindows_mu 8 (fun t k => t.clearStarve k v.toNat new) u mu))
    · exact (exec_vecStickyClear v on' regs cd new).trans (congrArg _
        (u.foldl_writeWindows_cd 0x40 (fun t k => t.clearSticky k v.toNat new) u cd))
    · rw [exec_errLogHeadWrite v on' regs, State.writeLogHead_word]
  · intro kept up w
    rw [State.clearStarve, vg4]
    rfl
  · obtain ⟨-, cleared, other⟩ := clearClusters_cleared wf k v 1024
    rw [State.clearSticky_eq]
    generalize clearClusters k v 1024 u.t0.sticky = sticky at cleared other ⊢
    exact ⟨rfl, cleared, other, rfl⟩

end Sys2Proof.Machine

/-! PROOF. The 90 transposable patterns and their numbers (R188), and the codes of a 2:4 working copy (R189). -/
namespace Sys2Proof.Machine

/-! ## Rows and columns of a block -/

theorem mem_rowPairs_iff {r : Nat} (h : r < 16) : r ∈ rowPairs ↔ ((List.range 4).filter r.testBit).length = 2 := by
  revert r; decide

theorem lt_of_mem_rowPairs {r : Nat} (h : r ∈ rowPairs) : r < 16 := by
  revert r; decide

/-- Row `r` of the block is bits 4r to 4r + 3. -/
theorem bits_mem_rowPairs_iff (p r : Nat) :
    bits p (4 * r) 4 ∈ rowPairs ↔ ((List.range 4).filter fun c => p.testBit (4 * r + c)).length = 2 := by
  have row : (List.range 4).filter (bits p (4 * r) 4).testBit = (List.range 4).filter fun c => p.testBit (4 * r + c) :=
    List.filter_congr fun c hc => by rw [testBit_bits, decide_eq_true (List.mem_range.mp hc), Bool.true_and]
  rw [mem_rowPairs_iff (show bits p (4 * r) 4 < 16 from Nat.mod_lt _ (by decide)), row]

theorem colsTwo_iff (p : Nat) :
    colsTwo p = true ↔ ∀ c, c < 4 → ((List.range 4).filter fun r => p.testBit (4 * r + c)).length = 2 := by
  simp only [colsTwo, upTo, List.all_eq_true, List.mem_range, beq_iff_eq]

/-! ## Members of the list -/

/-- A number is four rows exactly if it fits in 16 bits and each of its rows is one of them. -/
theorem exists_rows_iff (S : List Nat) (hS : ∀ r ∈ S, r < 16) (p : Nat) :
    (∃ r3 ∈ S, ∃ r2 ∈ S, ∃ r1 ∈ S, ∃ r0 ∈ S, r3 * 4096 + r2 * 256 + r1 * 16 + r0 = p)
      ↔ p < 65536 ∧ ∀ r, r < 4 → bits p (4 * r) 4 ∈ S := by
  have digit (r : Nat) : bits p (4 * r) 4 = p / 16 ^ r % 16 :=
    congrArg (· % 16) ((Nat.shiftRight_eq_div_pow p (4 * r)).trans (congrArg (p / ·) (Nat.pow_mul 2 4 r)))
  simp only [digit]
  constructor
  · rintro ⟨r3, h3, r2, h2, r1, h1, r0, h0, sum⟩
    have b3 := hS r3 h3
    have b2 := hS r2 h2
    have b1 := hS r1 h1
    have b0 := hS r0 h0
    refine ⟨by omega, fun r hr => ?_⟩
    match r, hr with
    | 0, _ => rwa [show p / 16 ^ 0 % 16 = r0 by omega]
    | 1, _ => rwa [show p / 16 ^ 1 % 16 = r1 by omega]
    | 2, _ => rwa [show p / 16 ^ 2 % 16 = r2 by omega]
    | 3, _ => rwa [show p / 16 ^ 3 % 16 = r3 by omega]
  · rintro ⟨fits, rows⟩
    exact ⟨_, rows 3 (by decide), _, rows 2 (by decide), _, rows 1 (by decide), _, rows 0 (by decide), by omega⟩

theorem mem_patterns_iff (p : Nat) : p ∈ patterns ↔ p < 65536
    ∧ (∀ r, r < 4 → ((List.range 4).filter fun c => p.testBit (4 * r + c)).length = 2)
    ∧ ∀ c, c < 4 → ((List.range 4).filter fun r => p.testBit (4 * r + c)).length = 2 := by
  simp only [patterns, List.mem_filter, List.mem_flatMap, List.mem_map, exists_rows_iff rowPairs (fun _ => lt_of_mem_rowPairs),
    bits_mem_rowPairs_iff, colsTwo_iff, and_assoc]

/-! ## Order and number -/

/-- Ascending lists follow one another in ascending order when division by `k` tells them apart. -/
theorem pairwise_lt_flatMap {S : List Nat} (ascending : S.Pairwise (· < ·)) {f : Nat → List Nat} (k base : Nat)
    (quotient : ∀ a ∈ S, ∀ x ∈ f a, x / k = base + a) (inner : ∀ a ∈ S, (f a).Pairwise (· < ·)) :
    (S.flatMap f).Pairwise (· < ·) := by
  refine List.pairwise_flatMap.mpr ⟨inner, ascending.imp_of_mem fun {a b} ha hb less x hx y hy => ?_⟩
  have quotients : x / k < y / k := by rw [quotient a ha x hx, quotient b hb y hy]; exact Nat.add_lt_add_left less base
  exact Nat.lt_of_div_lt_div quotients

theorem pairwise_lt_rowPairs : rowPairs.Pairwise (· < ·) := by decide

theorem pairwise_lt_patterns : patterns.Pairwise (· < ·) := by
  refine List.Pairwise.filter _ (pairwise_lt_flatMap pairwise_lt_rowPairs 4096 0 ?row3 fun r3 _ =>
    pairwise_lt_flatMap pairwise_lt_rowPairs 256 (r3 * 16) ?row2 fun r2 _ =>
    pairwise_lt_flatMap pairwise_lt_rowPairs 16 (r3 * 256 + r2 * 16) ?row1 fun r1 _ =>
    pairwise_lt_rowPairs.map _ fun a b less => Nat.add_lt_add_left less _)
  case row3 =>
    simp only [List.mem_flatMap, List.mem_map]
    rintro r3 - _ ⟨r2, h2, r1, h1, r0, h0, rfl⟩
    have b2 := lt_of_mem_rowPairs h2
    have b1 := lt_of_mem_rowPairs h1
    have b0 := lt_of_mem_rowPairs h0
    omega
  case row2 =>
    simp only [List.mem_flatMap, List.mem_map]
    rintro r2 - _ ⟨r1, h1, r0, h0, rfl⟩
    have b1 := lt_of_mem_rowPairs h1
    have b0 := lt_of_mem_rowPairs h0
    omega
  case row1 =>
    simp only [List.mem_map]
    rintro r1 - _ ⟨r0, h0, rfl⟩
    have b0 := lt_of_mem_rowPairs h0
    omega

/-- Each choice of row 3 has 15 patterns, and they follow one another. -/
theorem map_row3_patterns : patterns.map (· / 4096) = rowPairs.flatMap (List.replicate 15) := by decide

theorem length_patterns : patterns.length = 90 := by
  rw [← List.length_map (· / 4096), map_row3_patterns]; rfl

theorem row3_patterns {n : Nat} (h : n < 90) : patterns.getD n 0 / 4096 = rowPairs.getD (n / 15) 0 := by
  have inMap : (patterns.map (· / 4096)).getD n 0 = patterns.getD n 0 / 4096 := by
    rw [List.getD_eq_getElem?_getD, List.getElem?_map]
    exact Option.getD_map (· / 4096) 0 patterns[n]?
  have choice : ∀ n, n < 90 → (rowPairs.flatMap (List.replicate 15)).getD n 0 = rowPairs.getD (n / 15) 0 := by decide
  rw [← inMap, map_row3_patterns, choice n h]

theorem rowPairs_getD_inj : ∀ a, a < 6 → ∀ b, b < 6 → (rowPairs.getD a 0 = rowPairs.getD b 0 ↔ a = b) := by decide

theorem row3_patterns_eq_iff {n m : Nat} (hn : n < 90) (hm : m < 90) :
    n / 15 = m / 15 ↔ patterns.getD n 0 / 4096 = patterns.getD m 0 / 4096 := by
  rw [row3_patterns hn, row3_patterns hm, rowPairs_getD_inj _ (by omega) _ (by omega)]

/-! ## Numbers -/

theorem patternAt_of_lt {n : Nat} (h : n < 90) : patternAt n = patterns[n]? := if_pos h

theorem patternAt_of_le {n : Nat} (h : 90 ≤ n) : patternAt n = none := if_neg (Nat.not_lt.mpr h)

/-- The anchors of Table 7.7. -/
theorem patternAt_table_7_7 : patternAt 0 = some 0x33CC ∧ patternAt 1 = some 0x35AC ∧ patternAt 2 = some 0x35CA
    ∧ patternAt 66 = some 0xA5A5 ∧ patternAt 89 = some 0xCC33 := by decide

/-! ## Codes of a working copy -/

theorem State.wcSlot_isSome (s : State) (p : Placement) {t : BitVec 512} (i j : Nat) {pat : Nat} (masked : tMask24 t = true)
    (named : s.wcPattern p t i j = some pat) : (s.wcSlot p t i j).isSome = pat.testBit (4 * (i % 4) + j % 4) := by
  simp only [State.wcSlot, masked, named, if_true]
  split
  · next kept => rw [kept]; rfl
  · next pruned => rw [Bool.eq_false_iff.mpr pruned]; rfl

/-- Settles O57: membership row by row and column by column, ascending order by the rows from row 3 down, and the numbers by the
position in the list. -/
theorem patterns24 : Obligations.Patterns24 := by
  obtain ⟨at0, at1, at2, at66, at89⟩ := patternAt_table_7_7
  exact ⟨length_patterns, pairwise_lt_patterns, fun p fits => (mem_patterns_iff p).trans (and_iff_right fits),
    fun p member => ((mem_patterns_iff p).mp member).1, fun _ => patternAt_of_le, fun _ => patternAt_of_lt,
    at0, at1, at2, at66, at89, fun _ hn _ hm => row3_patterns_eq_iff hn hm, fun s p _ i j _ => s.wcSlot_isSome p i j⟩

end Sys2Proof.Machine

/-! PROOF. The register file under counters and event records (R436, R463). -/
namespace Sys2Proof.Machine

/-! ## Counters of one word (R463) -/

theorem State.get_lt (s : State) (f : Field) : s.get f < 2 ^ f.w := Nat.mod_lt _ (Nat.two_pow_pos f.w)

/-- A counter of one word reads its saturated count. -/
theorem State.get_count_word (s : State) (f : Field) (n : Nat) (wf : tabWf s.regs = true) (pos : 0 < f.w) (fits : f.lo + f.w ≤ 32) :
    (s.count f n).get f = min (s.get f + n) (2 ^ f.w - 1) := by
  have bound : min (s.get f + n) (2 ^ f.w - 1) < 2 ^ f.w := by have := Nat.two_pow_pos f.w; omega
  exact (fget_fset_word s.regs f _ wf pos fits).trans (Nat.mod_eq_of_lt bound)

theorem Field.words_of_word (f : Field) (lo : f.lo = 0) (w : f.w = 32) : f.words = 1 := by
  simp only [Field.words, lo, w]

/-- A count touches no field of other words. -/
theorem State.get_count_apart (s : State) (f g : Field) (n : Nat) (apart : g.off + 4 * g.words ≤ f.off ∨ f.off + 4 * f.words ≤ g.off) :
    (s.count f n).get g = s.get g :=
  fget_fset_apart s.regs f g _ apart

/-! ## Event records count in HUB_EVT_LOST alone (R436) -/

/-- A register file `u` that came from `t` by counts of HUB_EVT_LOST: canonical if `t` was, and past that register as it reads. -/
def keepsPastLost (t u : Tab) : Prop := (tabWf t = true → tabWf u = true) ∧ ∀ g : Field, 0x104 ≤ g.off → fget u g = fget t g

theorem keepsPastLost_refl (t : Tab) : keepsPastLost t t := ⟨id, fun _ _ => rfl⟩
theorem State.countLost_regs (s : State) (n : Nat) : keepsPastLost s.regs (s.count F.HUB_EVT_LOST_COUNT n).regs :=
  ⟨fset_wf _ _ _, fun g past => s.get_count_apart F.HUB_EVT_LOST_COUNT g n (.inr past)⟩
theorem State.recorded_regs (s : State) (line : Nat) (vec : Option Nat) : (s.recorded line vec).regs = s.regs := rfl
theorem State.putEvent_regs (s : State) (e : EvtRec) : (s.putEvent e).regs = s.regs := by
  unfold State.putEvent
  extract_lets s1 host s2
  have put : s1.regs = s.regs := State.hostPut_regs ..
  have same : s2.regs = s1.regs := rfl
  clear_value s2
  exact (s2.recorded_regs 64 _).trans (same.trans put)

theorem State.writeEvent_regs (s : State) (e : EvtRec) : keepsPastLost s.regs (s.writeEvent e).regs := by
  unfold State.writeEvent
  extract_lets lost told s1 counted late
  have kept : s1.regs = s.regs := by
    simp only [s1]
    split
    · rfl
    · exact s.putEvent_regs ⟨Ev.lost, 14, s.seat, s.clk.beat, s.clk.cyc, s.host.evLost⟩
  rw [← kept]
  split
  · exact s1.countLost_regs 1
  · rw [State.putEvent_regs]; exact keepsPastLost_refl _

theorem State.emit_regs (s : State) (kind die payload : Nat) : keepsPastLost s.regs (s.emit kind die payload).regs := by
  unfold State.emit
  split
  · exact keepsPastLost_refl _
  · extract_lets e
    split
    · exact s.writeEvent_regs e
    · exact keepsPastLost_refl _

theorem State.enter_regs (s : State) (d : DevState) (h : Nat) : keepsPastLost s.regs (s.enter d h).regs := by
  unfold State.enter
  extract_lets told payload s1
  split
  · exact s1.emit_regs Ev.state 14 payload
  · exact keepsPastLost_refl _

end Sys2Proof.Machine

/-! PROOF. Refresh reports, inline ECC and the patrol scrub (R267, R268, R271, R272, R282, R455). -/
namespace Sys2Proof.Machine

/-! ## Errors of class D (R453) -/

theorem State.sent_t1 (s : State) (e : ErrIn) : (s.sent e).t1 = s.t1 := by
  rw [State.sent, s.stamp_eq]

/-- Figure poison changes the run and ERR_POISON_PROP alone. -/
theorem State.poisonFid_eq (s : State) (fid : Nat) : ∃ regs run, s.poisonFid fid = { s with regs := regs, run := run }
    ∧ ∀ g : Field, 0x50024 ≤ g.off → fget regs g = s.get g := by
  unfold State.poisonFid
  split
  · exact ⟨s.regs, s.run, rfl, fun _ _ => rfl⟩
  · exact ⟨_, _, rfl, fun g high => State.get_count_apart _ F.ERR_POISON_PROP_COUNT g 1 (.inr high)⟩

/-- A class D error is sent, and its figure is poisoned. -/
theorem State.detect_classD_eq (s : State) (e : ErrIn) (classD : errClass e.code = 1) : ∃ regs run,
    s.detect e = { s.sent e with regs := regs, run := run } ∧ ∀ g : Field, 0x50024 ≤ g.off → fget regs g = s.get g := by
  have regs : (s.sent e).regs = s.regs := by rw [State.sent, s.stamp_eq]
  rw [s.detect_classD e classD]
  split
  · simp only [State.get, ← regs]
    exact (s.sent e).poisonFid_eq _
  · exact ⟨_, _, rfl, fun g _ => congrArg (fget · g) regs⟩

/-! ## Poison of a line after its second read (R455) -/

theorem State.mem_markT1 (s : State) (key x : Nat) (p : Bool) :
    x ∈ (s.markT1 key p).t1.poison ↔ if x = key then p = true else x ∈ s.t1.poison := by
  by_cases same : x = key <;> cases p <;> simp [State.markT1, same]

/-- A line read again in vain is poison; persistent state and working copies that it holds are noted. -/
theorem State.poisonLine_eq (s : State) (mu line : Nat) : ∃ persistBad repair, s.poisonLine mu line
    = { s.markT1 (t1Line mu line) true with t1 := { (s.markT1 (t1Line mu line) true).t1 with persistBad := persistBad, repair := repair } } := by
  unfold State.poisonLine
  simp only []
  split
  · split <;> exact ⟨_, _, rfl⟩
  · split
    · exact ⟨_, _, rfl⟩
    · split <;> exact ⟨_, _, rfl⟩

/-! ## The four rows -/

/-- The report of a package: the highest need of the phrase counts (R272). -/
def State.reportNeed (u : State) (mu rate : Nat) : State :=
  { u with t1 := { u.t1 with mr4 := u.t1.mr4.set mu (max (u.t1.mr4.getD mu 0) rate) } }

/-- The refresh rate planned for a die, in hundredths of the base rate (R271). -/
def State.plannedRate (u : State) (mu : Nat) : Nat := 100 * 2 ^ u.get (F.MU_REF_CFG_RATE.mu mu)

/-- An extra refresh is counted, and the first of a phrase on its die is an error (R272). -/
def State.refreshExtra (u : State) (mu ch : Nat) : State :=
  if mu ∈ u.t1.extraLog then u.count (F.MU_REF_EXTRA_COUNT.mu mu) 1
  else State.detect { u.count (F.MU_REF_EXTRA_COUNT.mu mu) 1 with t1 := { u.t1 with extraLog := u.t1.extraLog ++ [mu] } }
    ⟨Er.extraRefresh, ⟨4 + mu, 4, ch⟩, none, 0⟩

/-- A corrected line is counted, logged and queued for its writeback (R268, R282). -/
def State.lineCorrected (u : State) (mu line : Nat) (src : Source) (fid : Option Nat) : State :=
  { State.detect (u.count (F.MU_ECC_CORR_COUNT.mu mu) 1) ⟨Er.t1Corr, src, fid, line⟩ with t1 := { u.t1 with wb := u.t1.wb ++ [t1Line mu line] } }

/-- A line read again that fails again is counted, poisoned and a class D error (R455). -/
def State.lineLost (u : State) (mu line : Nat) (src : Source) (fid : Option Nat) : State :=
  (((State.count { u with t1 := { u.t1 with reread := u.t1.reread.filter (· != t1Line mu line) } } (F.MU_ECC_UNCORR_COUNT.mu mu) 1).poisonLine
    mu line).detect ⟨Er.t1Fatal, src, fid, line⟩)

/-- What the check of a read found (R268, R455). -/
def State.lineChecked (u : State) (mu ch line : Nat) (check : T1Check) (fid : Option Nat) : State :=
  match check with
  | .corrected => u.lineCorrected mu line ⟨4 + mu, 4, ch⟩ fid
  | .uncorrectable => { u with t1 := { u.t1 with reread := u.t1.reread ++ [t1Line mu line] } }
  | .afterReread => if t1Line mu line ∈ u.t1.reread then u.lineLost mu line ⟨4 + mu, 4, ch⟩ fid else u
  | .linkCorrected => u.count (F.MU_LINK_CORR_COUNT.mu mu) 1

/-- The patrol keeps its place (R282). -/
def State.patrolAt (u : State) (mu line : Nat) : State := { u with t1 := { u.t1 with patrol := tSet u.t1.patrol mu line } }

/-- The patrol has read a line (R282). -/
def State.patrolled (u : State) (mu line : Nat) (corrected : Bool) : State :=
  if corrected then (u.patrolAt mu line).lineCorrected mu line ⟨4 + mu, 4, lineCh line⟩ none else u.patrolAt mu line

/-- A corrected error leaves the slow tier to its writeback. -/
theorem State.lineCorrected_detect (u : State) (mu line : Nat) (src : Source) (fid : Option Nat) :
    let d := State.detect (u.count (F.MU_ECC_CORR_COUNT.mu mu) 1) ⟨Er.t1Corr, src, fid, line⟩
    ({ d with t1 := { d.t1 with wb := d.t1.wb ++ [t1Line mu line] } } : State) = u.lineCorrected mu line src fid := by
  intro d
  have kept : d.t1 = u.t1 := by
    simp only [d]
    rw [State.detect_quiet _ _ (by decide : errClass Er.t1Corr ≠ 1) (by decide : errClass Er.t1Corr ≠ 2), State.sent_t1, State.count_t1]
  rw [kept]
  rfl

theorem State.lineCorrected_past_boot (u : State) (mu line : Nat) (src : Source) (fid : Option Nat) (past : u.dev ≠ .boot) :
    ∃ fig, u.lineCorrected mu line src fid = { u.count (F.MU_ECC_CORR_COUNT.mu mu) 1 with
      err := { u.err with inFlight := u.err.inFlight ++ [⟨0x0102, src, u.clk.beat, u.clk.cyc, fig, line⟩] }
      t1 := { u.t1 with wb := u.t1.wb ++ [t1Line mu line] } } := by
  have counted : (u.count (F.MU_ECC_CORR_COUNT.mu mu) 1).dev ≠ .boot := past
  obtain ⟨fig, e⟩ := State.detect_recorded (u.count (F.MU_ECC_CORR_COUNT.mu mu) 1) ⟨Er.t1Corr, src, fid, line⟩
    (by decide : errClass Er.t1Corr ≠ 1) (by decide : errClass Er.t1Corr ≠ 2)
  rw [State.stamp_past_boot _ counted] at e
  exact ⟨fig, by rw [State.lineCorrected, e]; rfl⟩

section
variable (s : State) (cyc mu : Nat) (on : s.dev ≠ .off)
include on

theorem exec_mr4Report (rate : Nat) (hot : Bool) : exec (.mr4Report cyc mu rate hot) s
    = .next (if (s.tick cyc).nMu ≤ mu then s.tick cyc
        else if hot then ((s.tick cyc).reportNeed mu rate).detect ⟨Er.dramTemp, ⟨4 + mu, 4, 0⟩, none, 0⟩
        else (s.tick cyc).reportNeed mu rate) := by
  refine (if_neg (by simpa using on) : execMr4Report cyc mu rate hot s = _).trans ?_
  by_cases absent : (s.tick cyc).nMu ≤ mu
  · exact (if_pos absent).trans (congrArg _ (if_pos absent).symm)
  · refine (if_neg absent).trans (.trans ?_ (congrArg _ (if_neg absent).symm))
    cases hot <;> rfl

theorem exec_extraRefresh (ch : Nat) (offered : Bool) (displaced : Option Nat) : exec (.extraRefresh cyc mu ch offered displaced) s
    = .next (if (s.tick cyc).nMu ≤ mu ∨ (s.tick cyc).switching = true ∨ (s.tick cyc).t1.mr4.getD mu 0 ≤ (s.tick cyc).plannedRate mu
        then s.tick cyc else (s.tick cyc).refreshExtra mu ch) := by
  refine (if_neg (by simpa using on) : execExtraRefresh cyc mu ch offered displaced s = _).trans ?_
  by_cases idle : (s.tick cyc).nMu ≤ mu ∨ (s.tick cyc).switching = true ∨ (s.tick cyc).t1.mr4.getD mu 0 ≤ (s.tick cyc).plannedRate mu
  · exact (if_pos (by simpa [or_assoc, State.plannedRate] using idle)).trans (congrArg _ (if_pos idle).symm)
  · refine (if_neg (by simpa [or_assoc, State.plannedRate] using idle)).trans (.trans ?_ (congrArg _ (if_neg idle).symm))
    by_cases logged : mu ∈ (s.tick cyc).t1.extraLog
    · exact (if_pos (by simpa using logged)).trans (congrArg _ (if_pos logged).symm)
    · exact (if_neg (by simpa using logged)).trans (congrArg _ (if_neg logged).symm)

theorem exec_t1InlineEcc (ch line : Nat) (check : T1Check) (fid : Option Nat) : exec (.t1InlineEcc cyc mu ch line check fid) s
    = .next (if (s.tick cyc).nMu ≤ mu ∨ lineCh line ≠ ch then s.tick cyc else (s.tick cyc).lineChecked mu ch line check fid) := by
  refine (if_neg (by simpa using on) : execT1InlineEcc cyc mu ch line check fid s = _).trans ?_
  by_cases idle : (s.tick cyc).nMu ≤ mu ∨ lineCh line ≠ ch
  · exact (if_pos (by simpa using idle)).trans (congrArg _ (if_pos idle).symm)
  · refine (if_neg (by simpa using idle)).trans (.trans ?_ (congrArg _ (if_neg idle).symm))
    cases check with
    | corrected => exact congrArg _ ((s.tick cyc).lineCorrected_detect mu line ⟨4 + mu, 4, ch⟩ fid)
    | uncorrectable => rfl
    | afterReread =>
      by_cases again : t1Line mu line ∈ (s.tick cyc).t1.reread
      · exact (if_neg (by simpa using again)).trans (congrArg _ (if_pos again).symm)
      · exact (if_pos (by simpa using again)).trans (congrArg _ (if_neg again).symm)
    | linkCorrected => rfl

theorem exec_patrolScrub (line : Nat) (corrected : Bool) : exec (.patrolScrub cyc mu line corrected) s
    = .next (if (s.tick cyc).nMu ≤ mu ∨ (s.tick cyc).ringsOn = false ∨ (s.tick cyc).switching = true then s.tick cyc
        else (s.tick cyc).patrolled mu line corrected) := by
  refine (if_neg (by simpa using on) : execPatrolScrub cyc mu line corrected s = _).trans ?_
  by_cases idle : (s.tick cyc).nMu ≤ mu ∨ (s.tick cyc).ringsOn = false ∨ (s.tick cyc).switching = true
  · exact (if_pos (by simpa [or_assoc] using idle)).trans (congrArg _ (if_pos idle).symm)
  · refine (if_neg (by simpa [or_assoc] using idle)).trans (.trans ?_ (congrArg _ (if_neg idle).symm))
    cases corrected with
    | true => exact congrArg _ (((s.tick cyc).patrolAt mu line).lineCorrected_detect mu line ⟨4 + mu, 4, lineCh line⟩ none)
    | false => rfl

end

/-- The line that is lost is poison and no longer read again, its error is on its way, and no other line changes. -/
theorem State.lineLost_spec (u : State) (mu line : Nat) (src : Source) (fid : Option Nat) :
    let t := u.lineLost mu line src fid
    t1Line mu line ∉ t.t1.reread
      ∧ t1Line mu line ∈ t.t1.poison ∧ (∀ x, x ≠ t1Line mu line → (x ∈ t.t1.poison ↔ x ∈ u.t1.poison))
      ∧ (∃ x : ErrRec, x.code = 0x0202 ∧ x.src = src ∧ x.detail = line ∧ t.err = { u.err with inFlight := u.err.inFlight ++ [x] })
      ∧ (tabWf u.regs = true → t.get (F.MU_ECC_UNCORR_COUNT.mu mu) = min (u.get (F.MU_ECC_UNCORR_COUNT.mu mu) + 1) (2 ^ 32 - 1))
      ∧ t.t1.mem = u.t1.mem ∧ t.t1.pair = u.t1.pair ∧ t.dev = u.dev ∧ t.clk = u.clk := by
  intro t
  let counted : State := State.count { u with t1 := { u.t1 with reread := u.t1.reread.filter (· != t1Line mu line) } } (F.MU_ECC_UNCORR_COUNT.mu mu) 1
  obtain ⟨persistBad, repair, poisoned⟩ := counted.poisonLine_eq mu line
  obtain ⟨regs, run, detected, other⟩ := (counted.poisonLine mu line).detect_classD_eq ⟨Er.t1Fatal, src, fid, line⟩
    (by decide : errClass Er.t1Fatal = 1)
  have fields : t = { (counted.poisonLine mu line).sent ⟨Er.t1Fatal, src, fid, line⟩ with regs := regs, run := run } := detected
  rw [State.sent, State.stamp_eq, poisoned] at fields
  rw [poisoned] at other
  have poison (x : Nat) : x ∈ t.t1.poison ↔ if x = t1Line mu line then true = true else x ∈ u.t1.poison := by
    rw [fields]
    exact counted.mem_markT1 (t1Line mu line) x true
  refine ⟨?_, ?_, fun x hx => ?_, ?_, fun wf => ?_, ?_, ?_, ?_, ?_⟩
  · rw [fields]
    exact fun h => by simpa using (List.mem_filter.mp h).2
  · rw [poison, if_pos rfl]
  · rw [poison, if_neg hx]
  · rw [fields]
    exact ⟨_, rfl, rfl, rfl, rfl⟩
  · have regsOf : t.get (F.MU_ECC_UNCORR_COUNT.mu mu) = counted.get (F.MU_ECC_UNCORR_COUNT.mu mu) := by
      rw [fields]
      exact other _ (Nat.le_trans (by decide : 0x50024 ≤ F.MU_ECC_UNCORR_COUNT.off) (Nat.le_add_right _ _))
    rw [regsOf]
    exact State.get_count_word _ (F.MU_ECC_UNCORR_COUNT.mu mu) 1 wf (by decide : 0 < 32) (by decide : 0 + 32 ≤ 32)
  all_goals rw [fields]; rfl

/-- The plan of a build by the phrase's highest report (R272). -/
theorem planRate_eq (r : Nat) : planRate false r = (if r ≤ 100 then 0 else if r ≤ 200 then 1 else 2)
    ∧ planRate true r = if r ≤ 100 then 0 else 2 := by
  unfold planRate mr4Step
  by_cases base : r ≤ 100
  · simp [base]
  · by_cases double : r ≤ 200 <;> simp [base, double]

/-- Settles O55: each row's condition and its effect, clause by clause. -/
theorem slowChecks : Obligations.SlowChecks := by
  refine ⟨fun s cyc mu ch line rate off disp fid => ?_, planRate_eq⟩
  intro u w need planned src active own on
  have powered : s.dev ≠ .off := s.tick_dev cyc ▸ on
  have mr4 := exec_mr4Report s cyc mu powered rate
  have extra := exec_extraRefresh s cyc mu powered ch off disp
  have ecc := fun check => exec_t1InlineEcc s cyc mu powered ch line check fid
  have patrol := exec_patrolScrub s cyc mu powered line
  have idle (h : ¬ active) : u.ringsOn = false ∨ u.switching = true := by
    rw [Decidable.not_and_iff_or_not, ← State.ringsOn_iff, Bool.not_eq_true, Bool.not_eq_false] at h
    exact h
  refine ⟨fun absent => ⟨?_, ?_, fun check => ?_, ?_⟩, fun h => ?_, fun h => ?_, fun h check => ?_, fun present => ?_⟩
  · rw [mr4, if_pos absent]
  · rw [extra, if_pos (.inl absent)]
  · rw [ecc, if_pos (.inl absent)]
  · rw [patrol, if_pos (.inl absent)]
  · rw [patrol, if_pos (.inr (idle h))]
  · rw [extra, if_pos (.inr h)]
  · rw [ecc, if_pos (.inr (Ne.symm h))]
  · have here : ¬ u.nMu ≤ mu := Nat.not_le.mpr present
    have beyond (still : u.switching = false) (more : planned < need) : ¬ (u.nMu ≤ mu ∨ u.switching = true ∨ u.t1.mr4.getD mu 0 ≤ u.plannedRate mu) := by
      rintro (h | h | h)
      · exact here h
      · rw [still] at h; cases h
      · exact Nat.not_le.mpr more h
    have scrubs (h : active) : ¬ (u.nMu ≤ mu ∨ u.ringsOn = false ∨ u.switching = true) := by
      obtain ⟨rings, still⟩ := h
      simp [here, u.ringsOn_iff.mpr rings, still]
    refine ⟨?_, ?_, rfl, fun still more logged => ?_, fun still more first => ?_, rfl, rfl, fun same => ?_, fun h => ?_, fun h => ?_⟩
    · rw [mr4, if_neg here]; rfl
    · rw [mr4, if_neg here]; rfl
    · rw [extra, if_neg (beyond still more), State.refreshExtra, if_pos logged]
    · rw [extra, if_neg (beyond still more), State.refreshExtra, if_neg first]
    · have checked (check : T1Check) : exec (.t1InlineEcc cyc mu ch line check fid) s = .next (u.lineChecked mu ch line check fid) := by
        have acts : ¬ (u.nMu ≤ mu ∨ lineCh line ≠ ch) := not_or.mpr ⟨here, Decidable.not_not.mpr same.symm⟩
        rw [ecc, if_neg acts]
      refine ⟨checked _, checked _, fun fresh => ?_, fun again => ⟨u.lineLost mu line src fid, ?_, u.lineLost_spec mu line src fid⟩, checked _⟩
      · rw [checked, State.lineChecked, if_neg fresh]
      · rw [checked, State.lineChecked, if_pos again]
    · rw [patrol, if_neg (scrubs h)]; rfl
    · have past : u.dev ≠ .boot := by obtain ⟨rings | rings, _⟩ := h <;> simp [rings]
      obtain ⟨fig, e⟩ := (u.patrolAt mu line).lineCorrected_past_boot mu line ⟨4 + mu, 4, own⟩ none past
      refine ⟨⟨0x0102, ⟨4 + mu, 4, own⟩, u.clk.beat, u.clk.cyc, fig, line⟩, rfl, rfl, ?_⟩
      rw [patrol, if_neg (scrubs h)]
      exact congrArg _ e

end Sys2Proof.Machine

/-! PROOF. Bytes of a number and of a store, read back (R8). -/
namespace Sys2Proof.Machine

theorem length_leBytes : ∀ (n x : Nat), (leBytes n x).length = n
  | 0, _ => rfl
  | n + 1, x => congrArg Nat.succ (length_leBytes n (x / 256))

/-- The little-endian bytes of a number give it back, as far as they reach. -/
theorem leNat_leBytes : ∀ (n x : Nat), leNat (leBytes n x) = x % 2 ^ (8 * n)
  | 0, x => (Nat.mod_one x).symm
  | n + 1, x => by
      rw [leBytes, leNat, leNat_leBytes n, BitVec.toNat_ofNat, show 8 * (n + 1) = 8 + 8 * n by omega, Nat.pow_add, Nat.mod_mul]

theorem mRead_eq_map (m : Mem) : ∀ (n a : Nat), mRead m a n = (List.range n).map fun i => mGet m (a + i)
  | 0, _ => rfl
  | n + 1, a => by
      rw [mRead, mRead_eq_map m n, List.range_succ_eq_map, List.map_cons, List.map_map]
      exact congrArg _ (List.map_congr_left fun i _ => congrArg (mGet m) (by simp only [Nat.succ_eq_add_one]; omega))

theorem length_mRead (m : Mem) (a n : Nat) : (mRead m a n).length = n := by
  rw [mRead_eq_map, List.length_map, List.length_range]

/-- A store reads back the bytes written to it. -/
theorem mRead_mWrite_same {m : Mem} (wf : memWf m = true) (a : Nat) {b : Bytes} {n : Nat} (len : b.length = n) :
    mRead (mWrite m a b) a n = b := by
  refine List.ext_getElem ((length_mRead _ _ _).trans len.symm) fun i _ hi => ?_
  simp only [mRead_eq_map, List.getElem_map, List.getElem_range]
  rw [mGet_mWrite b m a _ wf, if_pos (by omega), Nat.add_sub_cancel_left, List.getD_eq_getElem?_getD, List.getElem?_eq_getElem hi, Option.getD_some]

end Sys2Proof.Machine

/-! PROOF. CXL.mem accesses of the host window (R266, R282, R413). -/
namespace Sys2Proof.Machine

/-! ## Where a line lies (R266) -/

/-- A line of the window starts at a line of its die. -/
theorem State.winAddr_aligned (u : State) (line : Nat) : (u.winAddr line).2 % 64 = 0 := by
  simp only [State.winAddr, State.nMu]
  split <;> omega

/-! ## One access served (R413) -/

theorem State.serveWin_read (u : State) (line : Nat) (data : BitVec 512) : let a := u.winAddr line
    u.serveWin ⟨false, line, data⟩ = { u with host := { u.host with memRsp := u.host.memRsp
      ++ [(line, BitVec.ofNat 512 (leNat (mRead u.t1.mem (t1Addr a.1 a.2) 64)), u.t1.poison.contains (t1Line a.1 (a.2 / 64)))] } } := rfl

/-- The writebacks that one aligned line cancels are its own. -/
theorem filter_unqueued_line (wb : List Nat) (mu off : Nat) (aligned : off % 64 = 0) :
    (wb.filter fun l => !(decide (t1Line mu (off / 64) ≤ l) && decide (l < t1Line mu ((off + 64 + 63) / 64))))
      = wb.filter (· != t1Line mu (off / 64)) := by
  have next : t1Line mu ((off + 64 + 63) / 64) = t1Line mu (off / 64) + 1 := by simp only [t1Line]; omega
  refine List.filter_congr fun l _ => ?_
  rw [next, Bool.eq_iff_iff]
  simp only [Bool.not_eq_true', Bool.and_eq_false_iff, decide_eq_false_iff_not, bne_iff_ne]
  omega

/-- While no page moves a write replaces its line's bytes, ends the line's poison and cancels its writeback (R282, R413). -/
theorem State.serveWin_write (u : State) (line : Nat) (data : BitVec 512) (still : u.plan.migr = []) : let a := u.winAddr line
    let key := t1Line a.1 (a.2 / 64)
    u.serveWin ⟨true, line, data⟩ = { u with t1 := { u.t1 with
      mem := mWrite u.t1.mem (t1Addr a.1 a.2) (leBytes 64 data.toNat)
      poison := u.t1.poison.filter (· != key)
      wb := u.t1.wb.filter (· != key) } } := by
  intro a key
  rw [← filter_unqueued_line u.t1.wb a.1 a.2 (u.winAddr_aligned line)]
  simp only [State.serveWin, State.markT1, State.t1Write, State.unqueue, still, length_leBytes]
  rfl

/-- A read of a line after a write of it gives what was written, clean (R413). -/
theorem State.serveWin_read_write (u : State) (line : Nat) (data other : BitVec 512) (still : u.plan.migr = []) (wf : memWf u.t1.mem = true) :
    ((u.serveWin ⟨true, line, data⟩).serveWin ⟨false, line, other⟩).host.memRsp = u.host.memRsp ++ [(line, data, false)] := by
  have whole : BitVec.ofNat 512 (leNat (leBytes 64 data.toNat)) = data := by
    rw [leNat_leBytes, show 8 * 64 = 512 from rfl, Nat.mod_eq_of_lt data.isLt, BitVec.ofNat_toNat, BitVec.setWidth_eq]
  obtain ⟨t, written⟩ : ∃ t, u.serveWin ⟨true, line, data⟩ = t := ⟨_, rfl⟩
  rw [written]
  rw [u.serveWin_write line data still] at written
  have addr : t.winAddr line = u.winAddr line := by rw [← written]; rfl
  have mem : t.t1.mem = mWrite u.t1.mem (t1Addr (u.winAddr line).1 (u.winAddr line).2) (leBytes 64 data.toNat) := by rw [← written]
  have clean : t.t1.poison.contains (t1Line (u.winAddr line).1 ((u.winAddr line).2 / 64)) = false := by rw [← written]; simp
  have answered : t.host.memRsp = u.host.memRsp := by rw [← written]
  simp only [t.serveWin_read line, addr, mem, mRead_mWrite_same wf _ (length_leBytes 64 _), whole, clean, answered]

/-! ## Accesses outside RUNNING and DRAINING (R413) -/

/-- Accesses that end outside RUNNING and DRAINING: a read answers poison, a write nothing, and each counts. -/
theorem State.foldl_winEarly : ∀ (l : List CxlReq) (s : State), tabWf s.regs = true → ∃ regs,
    l.foldl State.winEarly s = { s with regs := regs, host := { s.host with
      memRsp := s.host.memRsp ++ (l.filter fun x => !x.write).map fun x => (x.line, 0, true) } }
      ∧ fget regs F.HUB_WIN_EARLY_COUNT = min (s.get F.HUB_WIN_EARLY_COUNT + l.length) (2 ^ 32 - 1)
  | [], s, _ => ⟨s.regs, by simp, by
      have bound : s.get F.HUB_WIN_EARLY_COUNT < 2 ^ 32 := s.get_lt _
      change s.get F.HUB_WIN_EARLY_COUNT = min (s.get F.HUB_WIN_EARLY_COUNT + 0) (2 ^ 32 - 1)
      omega⟩
  | x :: l, s, wf => by
      have one : (s.winEarly x).get F.HUB_WIN_EARLY_COUNT = min (s.get F.HUB_WIN_EARLY_COUNT + 1) (2 ^ 32 - 1) :=
        s.get_count_word F.HUB_WIN_EARLY_COUNT 1 wf (by decide) (by decide)
      obtain ⟨regs, e, count⟩ := State.foldl_winEarly l (s.winEarly x) (fset_wf _ _ _ wf)
      refine ⟨regs, ?_, ?_⟩
      · rw [List.foldl_cons, e]
        cases h : x.write <;> simp [State.winEarly, h, State.count, State.set]
      · rw [count, one, List.length_cons]
        omega

/-- When the device HALTs, the accesses that wait end so (R413, R441). -/
theorem State.halted_window (u : State) (cause : Nat) (wf : tabWf u.regs = true) : let t := u.halted cause
    t.t1 = { u.t1 with cxl := [] }
      ∧ t.host.memRsp = u.host.memRsp ++ (u.t1.cxl.filter fun x => !x.write).map (fun x => (x.line, 0, true))
      ∧ t.get F.HUB_WIN_EARLY_COUNT = min (u.get F.HUB_WIN_EARLY_COUNT + u.t1.cxl.length) (2 ^ 32 - 1) := by
  obtain ⟨keptWf, kept⟩ := u.enter_regs .halted cause
  have early : (u.enter .halted cause).get F.HUB_WIN_EARLY_COUNT = u.get F.HUB_WIN_EARLY_COUNT := kept _ (by decide)
  have memRsp : (u.enter .halted cause).host.memRsp = u.host.memRsp := (congrArg HostIf.memRsp (u.enter_besideEvents .halted cause) :)
  have t1 : (u.enter .halted cause).t1 = u.t1 := by rw [u.enter_eq]
  have flushed : (u.enter .halted cause).flushWin
      = u.t1.cxl.foldl State.winEarly { u.enter .halted cause with t1 := { u.t1 with cxl := [] } } := by
    have off : (u.enter .halted cause).ringsOn = false := by rw [u.enter_eq]; rfl
    rw [State.flushWin, off, t1]
    rfl
  obtain ⟨regs, ended, count⟩ := State.foldl_winEarly u.t1.cxl { u.enter .halted cause with t1 := { u.t1 with cxl := [] } } (keptWf wf)
  have total : fget regs F.HUB_WIN_EARLY_COUNT = min ((u.enter .halted cause).get F.HUB_WIN_EARLY_COUNT + u.t1.cxl.length) (2 ^ 32 - 1) := count
  rw [State.halted, flushed, ended]
  exact ⟨rfl, by rw [← memRsp], by rw [← early]; exact total⟩

/-! ## The row and the grant -/

/-- An access of the window past the tick (R413). -/
def State.accessWin (u : State) (x : CxlReq) : State :=
  if u.host.link = false then u
  else if u.ringsOn = false then u.winEarly x
  else if u.get F.HUB_WIN_CFG_SIZE_MIB * 2 ^ 14 ≤ x.line then u
  else { u with t1 := { u.t1 with cxl := u.t1.cxl ++ [x] } }

theorem exec_cxlMemAccess (s : State) (cyc line : Nat) (write : Bool) (data : BitVec 512) (on : s.dev ≠ .off) :
    exec (.cxlMemAccess cyc write line data) s = .next ((s.tick cyc).accessWin ⟨write, line, data⟩) := by
  change execCxlMemAccess cyc write line data s = _
  simp only [execCxlMemAccess, State.accessWin, beq_iff_eq, on, if_false, Bool.not_eq_true', apply_ite Host.Outcome.next]

/-- A grant of HOST with accesses on the channel serves up to 16 of them, the oldest first (R285, R413). -/
theorem State.serve_window (u : State) (mu ch : Nat) : let mine := (u.t1.cxl.filter (u.winOn mu ch)).take 16
    mine ≠ [] → u.serve mu ch 0 = mine.foldl State.serveWin { u with t1 := { u.t1 with cxl := mine.foldl List.erase u.t1.cxl } } := by
  intro mine waiting
  refine if_pos (?_ : (!mine.isEmpty) = true)
  rw [List.isEmpty_eq_false_iff.mpr waiting, Bool.not_false]

/-- Settles O35: what an access does by link and device state, how waiting ones end, and what a grant serves. -/
theorem windowAccess : Obligations.WindowAccess := by
  refine ⟨fun s cyc line w data => ?_, fun u cause wf _ => u.halted_window cause wf, fun u mu ch => u.serve_window mu ch,
    fun u line data _ _ => ?_⟩
  · intro u run on
    rw [exec_cxlMemAccess s cyc line w data (s.tick_dev cyc ▸ on)]
    have served (h : run) : ¬ u.ringsOn = false := by rw [u.ringsOn_iff.mpr h]; decide
    have unserved (h : ¬ run) : u.ringsOn = false := Bool.eq_false_iff.mpr fun e => h (u.ringsOn_iff.mp e)
    have linked (up : u.host.link = true) : ¬ u.host.link = false := by rw [up]; decide
    refine ⟨fun down => congrArg _ (if_pos down), fun up early => congrArg _ ?_, fun up h past => congrArg _ ?_,
      fun up h inside => congrArg _ ?_⟩
    · exact (if_neg (linked up)).trans (if_pos (unserved early))
    · exact (if_neg (linked up)).trans ((if_neg (served h)).trans (if_pos past))
    · exact (if_neg (linked up)).trans ((if_neg (served h)).trans (if_neg (Nat.not_le.mpr inside)))
  · intro g die off
    refine ⟨u.serveWin_read line data, fun still wf => ?_⟩
    intro t
    have written : t = { u with t1 := { u.t1 with
        mem := mWrite u.t1.mem (t1Addr die off) (leBytes 64 data.toNat)
        poison := u.t1.poison.filter (· != t1Line die (off / 64))
        wb := u.t1.wb.filter (· != t1Line die (off / 64)) } } := u.serveWin_write line data still
    have mem : t.t1.mem = mWrite u.t1.mem (t1Addr die off) (leBytes 64 data.toNat) := by rw [written]
    refine ⟨?_, fun a outside => ?_, ?_, ?_, ?_, u.serveWin_read_write line data 0 still wf⟩
    · rw [mem, mRead_mWrite_same wf _ (length_leBytes 64 _)]
    · rw [mem, mGet_mWrite _ _ _ _ wf, length_leBytes, if_neg (by omega)]
    · rw [written]
    · rw [written]
    · rw [written]

end Sys2Proof.Machine

/-! PROOF. The free-slot arbiter and the starvation flag (R284 to R288). -/
namespace Sys2Proof.Machine

/-! ## The order of requests (R287) -/

section
variable (s : State) (mu : Nat) (reserved : Bool)

/-- The arbiter's order: lower rank, then longer wait, then lower number; of the reserved grant the wait comes first. -/
def State.arbLe (x y : ArbReq) : Prop :=
  if reserved then x.since < y.since ∨ (x.since = y.since ∧ (s.rankOf mu x.req < s.rankOf mu y.req ∨ (s.rankOf mu x.req = s.rankOf mu y.req ∧ x.req ≤ y.req)))
  else s.rankOf mu x.req < s.rankOf mu y.req ∨ (s.rankOf mu x.req = s.rankOf mu y.req ∧ (x.since < y.since ∨ (x.since = y.since ∧ x.req ≤ y.req)))

theorem State.arbLe_refl (x : ArbReq) : s.arbLe mu reserved x x := by
  cases reserved with
  | true => exact .inr ⟨rfl, .inr ⟨rfl, Nat.le_refl _⟩⟩
  | false => exact .inr ⟨rfl, .inr ⟨rfl, Nat.le_refl _⟩⟩

theorem State.arbLe_trans {x y z : ArbReq} (h : s.arbLe mu reserved x y) (k : s.arbLe mu reserved y z) : s.arbLe mu reserved x z := by
  cases reserved with
  | true => simp only [State.arbLe, if_true] at *; omega
  | false => simp only [State.arbLe, Bool.false_eq_true, if_false] at *; omega

/-- A request that beats another comes before it, and one that does not comes after it. -/
theorem State.arbLe_of_beats (x y : ArbReq) : (s.beats mu reserved x y = true → s.arbLe mu reserved x y)
    ∧ (¬ s.beats mu reserved x y = true → s.arbLe mu reserved y x) := by
  cases reserved with
  | true =>
    simp only [State.beats, State.arbLe, if_true, Bool.or_eq_true, Bool.and_eq_true, decide_eq_true_eq, beq_iff_eq]
    omega
  | false =>
    simp only [State.beats, State.arbLe, Bool.false_eq_true, if_false, Bool.or_eq_true, Bool.and_eq_true, decide_eq_true_eq, beq_iff_eq]
    omega

/-- The winner so far against the next request: what `State.winner` folds with. -/
def State.nextWinner (b : Option ArbReq) (x : ArbReq) : Option ArbReq :=
  match b with
  | none => some x
  | some y => some (if s.beats mu reserved x y then x else y)

/-- The better of two requests comes before both. -/
theorem State.arbLe_better (x y : ArbReq) : s.arbLe mu reserved (if s.beats mu reserved x y then x else y) x
    ∧ s.arbLe mu reserved (if s.beats mu reserved x y then x else y) y := by
  split
  · next wins => exact ⟨s.arbLe_refl mu reserved x, (s.arbLe_of_beats mu reserved x y).1 wins⟩
  · next loses => exact ⟨(s.arbLe_of_beats mu reserved x y).2 loses, s.arbLe_refl mu reserved y⟩

/-- The better of two requests is one of them. -/
theorem State.better_eq (x y : ArbReq) : (if s.beats mu reserved x y then x else y) = x ∨ (if s.beats mu reserved x y then x else y) = y := by
  split
  · exact .inl rfl
  · exact .inr rfl

/-- What the fold keeps is one of the requests, before all of them. -/
theorem State.foldl_nextWinner : ∀ (l : List ArbReq) (y : ArbReq), ∃ r, l.foldl (s.nextWinner mu reserved) (some y) = some r
    ∧ r ∈ y :: l ∧ ∀ x ∈ y :: l, s.arbLe mu reserved r x
  | [], y => ⟨y, rfl, List.mem_singleton_self y, fun x h => by rw [List.mem_singleton.mp h]; exact s.arbLe_refl mu reserved y⟩
  | x :: l, y => by
      obtain ⟨beforeX, beforeY⟩ := s.arbLe_better mu reserved x y
      obtain ⟨r, fold, listed, least⟩ := State.foldl_nextWinner l (if s.beats mu reserved x y then x else y)
      have best := least _ List.mem_cons_self
      refine ⟨r, fold, ?_, fun z hz => ?_⟩
      · rcases List.mem_cons.mp listed with first | later
        · rcases s.better_eq mu reserved x y with isX | isY
          · rw [first, isX]; exact List.mem_cons_of_mem _ List.mem_cons_self
          · rw [first, isY]; exact List.mem_cons_self
        · exact List.mem_cons_of_mem _ (List.mem_cons_of_mem _ later)
      · rcases List.mem_cons.mp hz with rfl | later
        · exact s.arbLe_trans mu reserved best beforeY
        · rcases List.mem_cons.mp later with rfl | rest
          · exact s.arbLe_trans mu reserved best beforeX
          · exact least z (List.mem_cons_of_mem _ rest)

/-- The winner is one of the requests, before all of them in the arbiter's order (R287). -/
theorem State.winner_least {l : List ArbReq} {r : ArbReq} (h : s.winner mu reserved l = some r) :
    r ∈ l ∧ ∀ x ∈ l, s.arbLe mu reserved r x := by
  cases l with
  | nil => cases h
  | cons y l =>
    obtain ⟨r', fold, listed, least⟩ := s.foldl_nextWinner mu reserved l y
    have same : r' = r := Option.some.inj (fold.symm.trans h)
    exact same ▸ ⟨listed, least⟩

end

/-! ## A grant (R285 to R287) -/

/-- The winner has the slot: its request leaves, its longest wait is kept, and a counted grant counts. -/
def State.granted (s : State) (mu : Nat) (r : ArbReq) (counted : Bool) : State :=
  let s1 : State := { s with t1 := { s.t1 with
    req := s.t1.req.erase r
    moved := tSet s.t1.moved (mu * 8 + r.req) (tGet s.t1.moved (mu * 8 + r.req) + 1) } }
  let most := (F.MU_ARB_MAXWAIT_n_CYCLES.at 4 r.req).mu mu
  let s2 := s1.set most (max (s1.get most) (min (s.clock - r.since) (2 ^ 32 - 1)))
  if counted then
    State.count { s2 with t1 := { s2.t1 with grants := tSet s2.t1.grants r.key (tGet s2.t1.grants r.key + 1) } } ((F.MU_ARB_GRANT_n_COUNT.at 4 r.req).mu mu) 1
  else s2

theorem State.grant_eq_serve (s : State) (mu : Nat) (r : ArbReq) (counted : Bool) :
    s.grant mu r counted = (s.granted mu r counted).serve mu (r.key % 24) r.req := rfl

theorem State.granted_frame (s : State) (mu : Nat) (r : ArbReq) (counted : Bool) : let w := s.granted mu r counted
    w = { s with regs := w.regs, t1 := { s.t1 with req := s.t1.req.erase r, moved := w.t1.moved, grants := w.t1.grants } }
      ∧ (counted = false → w.t1.grants = s.t1.grants) := by
  cases counted with
  | true => exact ⟨rfl, fun h => by cases h⟩
  | false => exact ⟨rfl, fun _ => rfl⟩

theorem State.granted_counts (s : State) (mu : Nat) (r : ArbReq) (counted : Bool) (wf : tabWf s.regs = true) :
    (s.granted mu r counted).get ((F.MU_ARB_MAXWAIT_n_CYCLES.at 4 r.req).mu mu)
        = max (s.get ((F.MU_ARB_MAXWAIT_n_CYCLES.at 4 r.req).mu mu)) (min (s.clk.base + s.clk.cyc - r.since) (2 ^ 32 - 1))
      ∧ (s.granted mu r counted).get ((F.MU_ARB_GRANT_n_COUNT.at 4 r.req).mu mu)
        = if counted then min (s.get ((F.MU_ARB_GRANT_n_COUNT.at 4 r.req).mu mu) + 1) (2 ^ 32 - 1)
          else s.get ((F.MU_ARB_GRANT_n_COUNT.at 4 r.req).mu mu) := by
  let most := (F.MU_ARB_MAXWAIT_n_CYCLES.at 4 r.req).mu mu
  let won := (F.MU_ARB_GRANT_n_COUNT.at 4 r.req).mu mu
  let longest := max (s.get most) (min (s.clk.base + s.clk.cyc - r.since) (2 ^ 32 - 1))
  have apart : won.off + 4 * won.words ≤ most.off := by
    rw [won.words_of_word rfl rfl]
    simp only [most, won, Field.at, Field.mu, F.MU_ARB_MAXWAIT_n_CYCLES, F.MU_ARB_GRANT_n_COUNT]
    omega
  have bound : longest < 2 ^ 32 := by
    have held : s.get most < 2 ^ 32 := s.get_lt most
    exact Nat.max_lt.mpr ⟨held, Nat.lt_of_le_of_lt (Nat.min_le_right _ _) (by decide)⟩
  have waited : (s.set most longest).get most = longest :=
    (fget_fset_word s.regs most longest wf (by decide : 0 < 32) (by decide : 0 + 32 ≤ 32)).trans (Nat.mod_eq_of_lt bound)
  have kept : (s.set most longest).get won = s.get won := fget_fset_apart s.regs most won longest (.inl apart)
  cases counted with
  | false => exact ⟨waited, kept⟩
  | true =>
    have first : ((s.set most longest).count won 1).get most = longest := (State.get_count_apart _ won most 1 (.inr apart)).trans waited
    have second : ((s.set most longest).count won 1).get won = min (s.get won + 1) (2 ^ 32 - 1) :=
      (State.get_count_word _ won 1 (fset_wf _ _ _ wf) (by decide : 0 < 32) (by decide : 0 + 32 ≤ 32)).trans (by rw [kept]; rfl)
    exact ⟨first, second⟩

/-! ## The offered slot (R284 to R287) -/

/-- The requests of a channel that stand from earlier slots. -/
def State.heldReqs (u : State) (mu ch : Nat) : List ArbReq := u.t1.req.filter fun r => r.key == chKey mu ch

/-- The requests that the sample of an offered slot adds. -/
def State.newReqs (u : State) (mu ch : Nat) (reqs : List Nat) : List ArbReq :=
  (reqs.eraseDups.filter fun n => decide (n < 7) && !((u.heldReqs mu ch).any fun r => r.req == n)).map fun n => ⟨chKey mu ch, n, u.clk.base + u.clk.cyc⟩

/-- The waits of a die accounted and the sampled requests raised. -/
def State.sampled (u : State) (mu ch : Nat) (reqs : List Nat) : State :=
  { u.settleWaits mu with t1 := { (u.settleWaits mu).t1 with req := u.t1.req ++ u.newReqs mu ch reqs } }

/-- The arbiter offers the slot to its winner among `all`; every NTH grant of VG2 is the reserved one (R287). -/
def State.offer (v : State) (mu ch : Nat) (all : List ArbReq) : State :=
  match v.winner mu (!v.vg4 && (tGet v.t1.grants (chKey mu ch) + 1) % max 1 (v.get (F.MU_ARB_CFG_NTH.mu mu)) == 0) all with
  | some r => v.grant mu r true
  | none => v

/-- What becomes of an offered slot: a running figure behind its schedule, or the requester that the card earmarks it for, comes before
the arbiter (R284). -/
def State.useSlot (v : State) (mu ch : Nat) (all : List ArbReq) : SlotUse → State
  | .catchUp fid => if (v.stat fid).phase == .running then v else v.offer mu ch all
  | .earmark q => match all.find? fun r => r.req == q && v.earmarked (chKey mu ch) q with
    | some r => v.grant mu r false
    | none => v.offer mu ch all
  | .open_ => v.offer mu ch all

/-- The account of waits leaves the requests and the clock. -/
theorem State.settleWaits_asks (u : State) (mu ch : Nat) (reqs : List Nat) : (u.settleWaits mu).heldReqs mu ch = u.heldReqs mu ch
    ∧ (u.settleWaits mu).newReqs mu ch reqs = u.newReqs mu ch reqs ∧ (u.settleWaits mu).t1.req = u.t1.req := by
  obtain ⟨regs, settled, e⟩ := u.settleWaits_eq mu
  rw [e]
  exact ⟨rfl, rfl, rfl⟩

theorem next_optionMatch (x : Option ArbReq) (f : ArbReq → State) (v : State) :
    (match x with | some r => .next (f r) | none => .next v : Host.Outcome State Fault Refusal) = .next (match x with | some r => f r | none => v) := by
  cases x <;> rfl

theorem exec_slotArbitration (s : State) (cyc mu ch : Nat) (reqs : List Nat) (use : SlotUse) (on : s.dev ≠ .off) :
    let u := s.tick cyc
    exec (.slotArbitration cyc mu ch reqs use) s = .next (if u.nMu ≤ mu ∨ u.ringsOn = false ∨ u.switching = true then u
      else (u.sampled mu ch reqs).useSlot mu ch (u.heldReqs mu ch ++ u.newReqs mu ch reqs) use) := by
  intro u
  refine (if_neg (by simpa using on) : execSlotArbitration cyc mu ch reqs use s = _).trans ?_
  by_cases idle : u.nMu ≤ mu ∨ u.ringsOn = false ∨ u.switching = true
  · exact (if_pos (by simpa [or_assoc] using idle)).trans (congrArg _ (if_pos idle).symm)
  · refine (if_neg (by simpa [or_assoc] using idle)).trans (.trans ?_ (congrArg _ (if_neg idle).symm))
    obtain ⟨held, new, req⟩ := u.settleWaits_asks mu ch reqs
    rw [State.sampled, ← held, ← new, ← req]
    let w := u.settleWaits mu
    let v : State := { w with t1 := { w.t1 with req := w.t1.req ++ w.newReqs mu ch reqs } }
    let all := w.heldReqs mu ch ++ w.newReqs mu ch reqs
    cases use with
    | catchUp fid => rfl
    | earmark q => exact next_optionMatch (all.find? fun r => r.req == q && v.earmarked (chKey mu ch) q) (fun r => v.grant mu r false) (v.offer mu ch all)
    | open_ => rfl

/-- The sample of a slot leaves the figures and the card's earmarks. -/
theorem State.sampled_views (u : State) (mu ch : Nat) (reqs : List Nat) : (u.sampled mu ch reqs).stat = u.stat
    ∧ (u.sampled mu ch reqs).earmarked = u.earmarked := by
  obtain ⟨regs, settled, e⟩ := u.settleWaits_eq mu
  rw [State.sampled, e]
  exact ⟨rfl, rfl⟩

theorem State.useSlot_catchUp (v : State) (mu ch fid : Nat) (all : List ArbReq) :
    v.useSlot mu ch all (.catchUp fid) = if (v.stat fid).phase = .running then v else v.offer mu ch all := by
  simp only [State.useSlot, beq_iff_eq]

theorem State.useSlot_earmark (v : State) (mu ch q : Nat) {all : List ArbReq} {r : ArbReq} (marked : v.earmarked (chKey mu ch) q = true)
    (asks : all.find? (fun r => r.req == q) = some r) : v.useSlot mu ch all (.earmark q) = v.grant mu r false := by
  simp only [State.useSlot, marked, Bool.and_true, asks]

theorem State.useSlot_unmarked (v : State) (mu ch q : Nat) {all : List ArbReq}
    (h : v.earmarked (chKey mu ch) q = false ∨ all.find? (fun r => r.req == q) = none) : v.useSlot mu ch all (.earmark q) = v.offer mu ch all := by
  have nobody : all.find? (fun r => r.req == q && v.earmarked (chKey mu ch) q) = none := by
    rcases h with unmarked | silent
    · simp [unmarked]
    · exact List.find?_eq_none.mpr fun r listed both => List.find?_eq_none.mp silent r listed (Bool.and_eq_true_iff.mp both).1
  simp only [State.useSlot, nobody]

/-! ## Starvation (R288) -/

/-- A clear bit, added, is set. -/
theorem testBit_add_two_pow {x i : Nat} (clear : x.testBit i = false) : (x + 2 ^ i).testBit i = true := by
  rw [Nat.add_comm, Nat.testBit_two_pow_add_eq, clear, Bool.not_false]

/-- A request's wait sets its flag: past STARVE_US on VG4, once (R288). -/
def State.starved (u : State) (mu ch req : Nat) (r : ArbReq) : State :=
  if u.vg4 = false ∨ u.clock - r.since ≤ u.get (F.MU_ARB_CFG_STARVE_US.mu mu) * 1900 then u
  else if bit (u.get (F.MU_ARB_STARVE_FLAG.mu mu)) req then u
  else (u.set (F.MU_ARB_STARVE_FLAG.mu mu) (u.get (F.MU_ARB_STARVE_FLAG.mu mu) + 2 ^ req)).starveEvent mu req ch (u.clock - r.since)

theorem exec_arbStarve_none (s : State) (cyc mu ch req : Nat) (on : s.dev ≠ .off)
    (silent : (s.tick cyc).t1.req.find? (fun r => r.key == chKey mu ch && r.req == req) = none) :
    exec (.arbStarve cyc mu ch req) s = .next (s.tick cyc) := by
  change execArbStarve cyc mu ch req s = _
  simp only [execArbStarve, beq_iff_eq, on, if_false, silent]

theorem exec_arbStarve_some (s : State) (cyc mu ch req : Nat) (on : s.dev ≠ .off) {r : ArbReq}
    (asks : (s.tick cyc).t1.req.find? (fun r => r.key == chKey mu ch && r.req == req) = some r) :
    exec (.arbStarve cyc mu ch req) s = .next ((s.tick cyc).starved mu ch req r) := by
  change execArbStarve cyc mu ch req s = _
  simp only [execArbStarve, State.starved, beq_iff_eq, on, if_false, asks, Bool.or_eq_true, Bool.not_eq_true', decide_eq_true_eq, apply_ite Host.Outcome.next]

theorem State.starved_still (u : State) (mu ch req : Nat) (r : ArbReq) (h : u.vg4 = false
    ∨ u.clock - r.since ≤ u.get (F.MU_ARB_CFG_STARVE_US.mu mu) * 1900 ∨ bit (u.get (F.MU_ARB_STARVE_FLAG.mu mu)) req = true) :
    u.starved mu ch req r = u := by
  by_cases early : u.vg4 = false ∨ u.clock - r.since ≤ u.get (F.MU_ARB_CFG_STARVE_US.mu mu) * 1900
  · exact if_pos early
  · have raised := ((or_assoc.mpr h).resolve_left early)
    exact (if_neg early).trans (if_pos raised)

/-- A flag that rises tells of it by an event, and of nothing else past HUB_EVT_LOST. -/
theorem State.starveEvent_spec (s : State) (mu req ch wait : Nat) : let t := s.starveEvent mu req ch wait
    t = { s with regs := t.regs, t1 := { s.t1 with flagged := s.t1.flagged ++ [(mu, req)] }, host := t.host }
      ∧ keepsPastLost s.regs t.regs
      ∧ (s.evqOn = false → t = { s with t1 := { s.t1 with flagged := s.t1.flagged ++ [(mu, req)] } }) := by
  intro t
  obtain ⟨x, noted⟩ : ∃ x : State, { s with t1 := { s.t1 with flagged := s.t1.flagged ++ [(mu, req)] } } = x := ⟨_, rfl⟩
  have told : t = x.emit Ev.arbStarve (4 + mu) (req + ch * 8 + (wait % 2 ^ 32) * 2 ^ 32) := by rw [← noted]; rfl
  have facing : t = { x with regs := t.regs, host := t.host } := by rw [told]; exact x.emit_facing _ _ _
  have regs : keepsPastLost x.regs t.regs := by rw [told]; exact x.emit_regs _ _ _
  refine ⟨?_, ?_, fun silent => ?_⟩
  · rw [facing, ← noted]
  · rw [← noted] at regs
    exact regs
  · have off : x.evqOn = false := by rw [← noted]; exact silent
    rw [told, State.emit, off, noted]
    rfl

/-- A wait beyond STARVE_US whose flag is clear sets it and is noted (R288, R289). -/
theorem State.starved_rises (u : State) (mu ch req : Nat) (r : ArbReq) (vg4 : u.vg4 = true)
    (late : u.get (F.MU_ARB_CFG_STARVE_US.mu mu) * 1900 < u.clock - r.since) (clear : bit (u.get (F.MU_ARB_STARVE_FLAG.mu mu)) req = false) :
    let t := u.starved mu ch req r
    t.t1 = { u.t1 with flagged := u.t1.flagged ++ [(mu, req)] }
      ∧ (tabWf u.regs = true → req < 7 → bit (t.get (F.MU_ARB_STARVE_FLAG.mu mu)) req = true)
      ∧ t = { u with regs := t.regs, t1 := t.t1, host := t.host }
      ∧ (u.evqOn = false → t = { u.set (F.MU_ARB_STARVE_FLAG.mu mu) (u.get (F.MU_ARB_STARVE_FLAG.mu mu) + 2 ^ req) with
            t1 := { u.t1 with flagged := u.t1.flagged ++ [(mu, req)] } }) := by
  intro t
  let f := F.MU_ARB_STARVE_FLAG.mu mu
  obtain ⟨x, risen⟩ : ∃ x, u.set f (u.get f + 2 ^ req) = x := ⟨_, rfl⟩
  have event : t = x.starveEvent mu req ch (u.clock - r.since) := by
    rw [← risen]
    exact (if_neg (not_or.mpr ⟨by rw [vg4]; decide, Nat.not_le.mpr late⟩)).trans (if_neg (by rw [clear]; decide))
  obtain ⟨frame, kept, silent⟩ := x.starveEvent_spec mu req ch (u.clock - r.since)
  rw [← event] at frame kept silent
  refine ⟨?_, fun wf listed => ?_, ?_, fun off => ?_⟩
  · rw [frame, ← risen]; rfl
  · have read : t.get f = (u.get f + 2 ^ req) % 2 ^ 7 := by
      rw [State.get, kept.2 f (Nat.le_trans (by decide : 0x104 ≤ F.MU_ARB_STARVE_FLAG.off) (Nat.le_add_right _ _)), ← risen]
      exact fget_fset_word u.regs f _ wf (by decide : 0 < 7) (by decide : 0 + 7 ≤ 32)
    rw [read, bit, Nat.testBit_mod_two_pow, testBit_add_two_pow clear, decide_eq_true listed]
    rfl
  · rw [frame, ← risen]; rfl
  · have still : x.evqOn = false := by
      have apart : F.HUB_EVQ_CFG_EN.off + 4 * F.HUB_EVQ_CFG_EN.words ≤ f.off :=
        Nat.le_trans (by decide : _ ≤ F.MU_ARB_STARVE_FLAG.off) (Nat.le_add_right _ _)
      rw [← off, ← risen, State.evqOn, State.evqOn, State.get, State.get]
      exact congrArg (· == 1) (fget_fset_apart u.regs f F.HUB_EVQ_CFG_EN _ (.inl apart))
    rw [silent still, ← risen]
    rfl

end Sys2Proof.Machine

/-! PROOF. Accumulate-on-write (R264, R275 to R277, R432, R453). -/
namespace Sys2Proof.Machine

/-! ## Words of a location -/

theorem length_word32Bytes : ∀ l : List Word32, (word32Bytes l).length = 4 * l.length
  | [] => rfl
  | w :: l => by
      rw [word32Bytes, List.flatMap_cons, List.length_append, length_leBytes, List.length_cons]
      have rest := length_word32Bytes l
      rw [word32Bytes] at rest
      omega

theorem packedAt_word32Bytes : ∀ (l : List Word32) (i : Nat) (hi : i < l.length), packedAt (word32Bytes l) 32 i = l[i].toNat
  | w :: l, 0, _ => by
      have first : bytesAt (word32Bytes (w :: l)) 0 4 = leBytes 4 w.toNat := List.take_left' (length_leBytes 4 _)
      change leNat (bytesAt (word32Bytes (w :: l)) 0 4) = w.toNat
      rw [first, leNat_leBytes]
      exact Nat.mod_eq_of_lt w.isLt
  | w :: l, i + 1, hi => by
      have skip : bytesAt (word32Bytes (w :: l)) ((i + 1) * 4) 4 = bytesAt (word32Bytes l) (i * 4) 4 := by
        have drop : (word32Bytes (w :: l)).drop 4 = word32Bytes l := List.drop_left' (length_leBytes 4 _)
        rw [bytesAt, bytesAt, ← drop, List.drop_drop, show 4 + i * 4 = (i + 1) * 4 by omega]
      exact (congrArg leNat skip).trans (packedAt_word32Bytes l i (Nat.lt_of_succ_lt_succ hi))

theorem getD_map_upTo {α : Type} (f : Nat → α) (d : α) {n i : Nat} (hi : i < n) : ((upTo n).map f).getD i d = f i := by
  simp [upTo, List.getD_eq_getElem?_getD, hi]

/-- Words written to a location's bytes read back. -/
theorem word32s_word32Bytes {l : List Word32} {n : Nat} (len : l.length = n) : word32s (word32Bytes l) n = l := by
  refine List.ext_getElem (by simp [word32s, upTo, len]) fun i _ hi => ?_
  simp only [word32s, upTo, List.getElem_map, List.getElem_range]
  rw [packedAt_word32Bytes l i hi, BitVec.ofNat_toNat, BitVec.setWidth_eq]

/-! ## What goes before a write of a location: READ_STALE (R432), the copy for an open cut (R395) -/

theorem State.finishTag_facing (s : State) (n op tag status result : Nat) : s.facing (s.finishTag n op tag status result) := by
  unfold State.finishTag
  split
  · exact s.facing_refl
  · next c _ => exact State.facing_trans (s.setRing_facing n _) (State.finish_facing _ n c.desc status result)

theorem State.staleReads_eq (s : State) (k loc : Nat) : ∃ regs host reading,
    s.staleReads k loc = { s with regs := regs, host := host, t1 := { s.t1 with reading := reading } } := by
  have told := State.facing_foldl (fun (t : State) (r : Reading) => t.finishTag r.ring 0x41 r.tag St.readStale 0)
    (fun t r => t.finishTag_facing r.ring 0x41 r.tag St.readStale 0) (s.t1.reading.filter fun r => r.left.any fun x => x.1 == k && x.2 / 4 == loc)
    { s with t1 := { s.t1 with reading := s.t1.reading.filter fun r => !r.left.any fun x => x.1 == k && x.2 / 4 == loc } }
  exact ⟨_, _, _, told⟩

theorem State.copyBefore_eq (s : State) (k loc : Nat) : ∃ regs host dirty sealed cel,
    s.copyBefore k loc = { s with regs := regs, host := host, cel := cel, t1 := { s.t1 with dirty := dirty, sealedMap := sealed } } := by
  unfold State.copyBefore
  split
  · exact ⟨s.regs, s.host, s.t1.dirty, s.t1.sealedMap, s.cel, rfl⟩
  · split
    · exact ⟨s.regs, s.host, s.t1.dirty, s.t1.sealedMap, s.cel, rfl⟩
    · extract_lets mu full gone c1 s1 s2 c2 s3 s4
      have counted : ∃ regs, s2 = { s with regs := regs } := by
        simp only [s2]
        split <;> exact ⟨_, rfl⟩
      obtain ⟨regs, counted⟩ := counted
      split
      · have copied : ∃ regs, s4 = { s2 with regs := regs } := ⟨_, rfl⟩
        obtain ⟨regs', copied⟩ := copied
        clear_value s4 s3 s2
        exact ⟨regs', s.host, s.t1.dirty, s.t1.sealedMap, _, by rw [copied, counted]⟩
      · obtain ⟨r, host, dirty, sealed, ships, shipping, mirrors, e⟩ := State.abandonCut_eq { s2 with cel := { s2.cel with open_ := some c1 } } 2
        clear_value s2
        exact ⟨r, host, dirty, sealed, _, by rw [e, counted]⟩

/-- What a tile finds before it is applied: reads of the location it replaces are stale, and an open cut has its copy. -/
def State.accReady (s : State) (k l : Nat) : State := (if s.touched k then s else s.staleReads k l).copyBefore k l

theorem State.accReady_frame (s : State) (k l : Nat) : let x := s.accReady k l
    x.t1 = { s.t1 with reading := x.t1.reading, dirty := x.t1.dirty, sealedMap := x.t1.sealedMap }
      ∧ x.run = s.run ∧ x.clk = s.clk ∧ x.plan = s.plan := by
  have stale : ∃ regs host reading, (if s.touched k then s else s.staleReads k l)
      = { s with regs := regs, host := host, t1 := { s.t1 with reading := reading } } := by
    split
    · exact ⟨_, _, _, rfl⟩
    · exact s.staleReads_eq k l
  obtain ⟨r1, h1, reading, stale⟩ := stale
  obtain ⟨regs, host, dirty, sealed, cel, copied⟩ := State.copyBefore_eq { s with regs := r1, host := h1, t1 := { s.t1 with reading := reading } } k l
  rw [State.accReady, stale, copied]
  exact ⟨rfl, rfl, rfl, rfl⟩

/-! ## The write itself: bytes, count, touched bit, poison -/

/-- The poison marks of the first `n` of some lines, each under a key of its own. -/
theorem State.foldl_markT1 (key : Nat → Nat) (inj : ∀ i j, key i = key j → i = j) (p : Nat → Bool) (s : State) : ∀ n,
    let t := (List.range n).foldl (fun t l => t.markT1 (key l) (p l)) s
    t = { s with t1 := { s.t1 with poison := t.t1.poison } } ∧ ∀ i, i < n → (key i ∈ t.t1.poison ↔ p i = true)
  | 0 => ⟨rfl, fun i hi => absurd hi (Nat.not_lt_zero i)⟩
  | n + 1 => by
      obtain ⟨frame, marks⟩ := State.foldl_markT1 key inj p s n
      rw [List.range_succ, List.foldl_append, List.foldl_cons, List.foldl_nil]
      obtain ⟨t, marked⟩ : ∃ t, (List.range n).foldl (fun t l => t.markT1 (key l) (p l)) s = t := ⟨_, rfl⟩
      rw [marked] at frame marks ⊢
      refine ⟨by rw [frame]; rfl, fun i hi => ?_⟩
      rw [State.mem_markT1]
      by_cases last : i = n
      · rw [if_pos (congrArg key last), last]
      · rw [if_neg fun same => last (inj i n same)]
        exact marks i (by omega)

theorem State.markLoc_spec (s : State) (k loc : Nat) (p : Nat → Bool) : let t := s.markLoc k loc p
    t = { s with t1 := { s.t1 with poison := t.t1.poison } } ∧ ∀ i, i < 64 → (t.linePoisoned k loc i = true ↔ p i = true) := by
  obtain ⟨frame, marks⟩ := State.foldl_markT1 (pairLineOf k loc) (fun i j => Nat.add_left_cancel) p s 64
  exact ⟨frame, fun i hi => List.contains_iff_mem.trans (marks i hi)⟩

/-- A tile's values, count and poison in their location. -/
def State.tileIn (s : State) (k l : Nat) (vals : List Word32) (cnt : Nat) (p : Nat → Bool) : State :=
  let s1 := s.locWrite k l 0 (word32Bytes vals)
  (State.touch { s1 with t1 := { s1.t1 with cnt := tSet s1.t1.cnt k cnt } } k).markLoc k l p

theorem State.touch_eq (s : State) (k : Nat) : s.touch k = { s with t1 := { s.t1 with
    touch0 := if s.t1.bank then s.t1.touch0 else tSet s.t1.touch0 k 1
    touch1 := if s.t1.bank then tSet s.t1.touch1 k 1 else s.t1.touch1 } } := by
  unfold State.touch
  split
  · next bank => simp only [bank]
  · next bank => simp only [bank]

theorem State.touched_touch (s : State) (k j : Nat) (wf0 : tabWf s.t1.touch0 = true) (wf1 : tabWf s.t1.touch1 = true) :
    (s.touch k).touched j = (j == k || s.touched j) := by
  have one (t : Tab) (wf : tabWf t = true) : (tGet (tSet t k 1) j == 1) = (j == k || tGet t j == 1) := by
    rw [tGet_tSet t wf]
    by_cases same : j = k <;> simp [same]
  rw [s.touch_eq, State.touched, State.touched]
  cases bank : s.t1.bank with
  | true => exact one _ wf1
  | false => exact one _ wf0

/-- The parts of the slow tier that a tile changes. -/
theorem State.tileIn_eq (s : State) (k l : Nat) (vals : List Word32) (cnt : Nat) (p : Nat → Bool) : let t := s.tileIn k l vals cnt p
    t = { s with t1 := { s.t1 with pair := t.t1.pair, cnt := t.t1.cnt, touch0 := t.t1.touch0, touch1 := t.t1.touch1, poison := t.t1.poison, wb := t.t1.wb } }
      ∧ t.t1.pair = mWrite s.t1.pair (locBase k l) (word32Bytes vals) ∧ t.t1.cnt = tSet s.t1.cnt k cnt
      ∧ (∀ j, t.touched j = (s.touch k).touched j) ∧ (∀ i, i < 64 → (t.linePoisoned k l i = true ↔ p i = true)) := by
  intro t
  obtain ⟨x, touched⟩ : ∃ x, State.touch { s.locWrite k l 0 (word32Bytes vals) with
    t1 := { (s.locWrite k l 0 (word32Bytes vals)).t1 with cnt := tSet s.t1.cnt k cnt } } k = x := ⟨_, rfl⟩
  have marked : t = x.markLoc k l p := by rw [← touched]; rfl
  obtain ⟨frame, marks⟩ := x.markLoc_spec k l p
  rw [← marked] at frame marks
  rw [State.touch_eq] at touched
  refine ⟨?_, ?_, ?_, fun j => ?_, marks⟩
  · rw [frame, ← touched]; rfl
  · rw [frame, ← touched]
    exact congrArg (mWrite s.t1.pair · _) (Nat.add_zero _)
  · rw [frame, ← touched]
  · rw [frame, ← touched, State.touch_eq]; rfl

/-! ## Sums that are no finite number (R153, R277) -/

theorem State.sumNonfinite_spec (s : State) (mu fid : Nat) : (s.sumNonfinite mu fid).t1 = s.t1
    ∧ (s.measuring = true → s.run.sealSent = false → (s.sumNonfinite mu fid).run.flags.nonfin = true) := by
  unfold State.sumNonfinite
  extract_lets run x
  have told : x.t1 = s.t1 ∧ x.measuring = s.measuring ∧ x.run.sealSent = s.run.sealSent := by
    simp only [x]
    split
    · exact ⟨rfl, rfl, rfl⟩
    · have facing := State.emit_facing { s with run := { s.run with numEvt := s.run.numEvt ++ [4 + mu] } } Ev.numeric (4 + mu) (fid + 2 ^ 35)
      rw [State.facing] at facing
      rw [facing]
      exact ⟨rfl, rfl, rfl⟩
  obtain ⟨t1, measuring, marker⟩ := told
  clear_value x
  refine ⟨?_, fun runs early => ?_⟩
  · rw [← t1]
    split
    · unfold State.flag; split <;> rfl
    · rfl
  · rw [if_pos (measuring.trans runs), State.flag_early _ _ (marker.trans early)]
    rfl

/-! ## A tile applied -/

/-- The values a granule holds after a tile: the tile's, or their sums with what a touched one holds (R275). -/
def State.accVals (s : State) (a : AccWrite) : List Word32 :=
  let k := granKey a.mu a.gran
  if s.touched k then (upTo 1024).map fun i => fAdd ((word32s (s.locRead k (s.accLoc k)) 1024).getD i fZero) (a.vals.getD i fZero) else a.vals

/-- Its token count after the tile. -/
def State.accTokens (s : State) (a : AccWrite) : Nat :=
  let k := granKey a.mu a.gran
  if s.touched k then satAdd 32 (tGet s.t1.cnt k) a.tokens else a.tokens

/-- The sums of a tile that are no finite number; values just written do not count (R277). -/
def State.accBad (s : State) (a : AccWrite) : Nat :=
  if s.touched (granKey a.mu a.gran) then ((s.accVals a).filter fNonfin).length else 0

/-- The tile in its place. -/
def State.accPlaced (s : State) (a : AccWrite) : State :=
  let k := granKey a.mu a.gran
  let l := s.accLoc k
  (s.accReady k l).tileIn k l (s.accVals a) (s.accTokens a) fun i => a.poison || (s.touched k && s.linePoisoned k l i)

theorem State.applyAcc_eq (s : State) (a : AccWrite) : s.applyAcc a
    = if s.accBad a = 0 then s.accPlaced a
      else ((s.accPlaced a).count (F.MU_NUM_NONFINITE_COUNT.mu a.mu) (s.accBad a)).sumNonfinite a.mu a.fid := by
  unfold State.applyAcc
  extract_lets k l was s0 old vals cnt bad s1 t1 s2
  have found (h : was = true) : s0 = s := if_pos h
  have held (h : was = true) : old = word32s (s.locRead k l) 1024 := (if_pos h).trans (by rw [found h])
  have values : vals = s.accVals a := ite_congr rfl (fun h => congrArg
    (fun x : List Word32 => (upTo 1024).map fun i => fAdd (x.getD i fZero) (a.vals.getD i fZero)) (held h)) fun _ => rfl
  have tokens : cnt = s.accTokens a := ite_congr rfl (fun h => by rw [found h]) fun _ => rfl
  have count : bad = s.accBad a := ite_congr rfl (fun _ => by rw [values]) fun _ => rfl
  have placed : s2 = s.accPlaced a := by
    rw [State.accPlaced, ← values, ← tokens]
    rfl
  rw [placed, count]

theorem State.length_accVals (s : State) (a : AccWrite) (len : a.vals.length = 1024) : (s.accVals a).length = 1024 := by
  simp only [State.accVals]
  split
  · simp [upTo]
  · exact len

theorem State.applyAcc_t1 (s : State) (a : AccWrite) : (s.applyAcc a).t1 = (s.accPlaced a).t1 := by
  rw [s.applyAcc_eq]
  split
  · rfl
  · exact (State.sumNonfinite_spec _ _ _).1.trans (State.count_t1 ..)

section
variable (s : State) (a : AccWrite) (len : a.vals.length = 1024) (pairWf : memWf s.t1.pair = true) (wf0 : tabWf s.t1.touch0 = true)
  (wf1 : tabWf s.t1.touch1 = true) (cntWf : tabWf s.t1.cnt = true)
include len pairWf wf0 wf1 cntWf

/-- A tile in its place: its granule's words, count, touched bit and poison; nothing else of the slow tier's pairs, and no run. -/
theorem State.accPlaced_spec :
    let k := granKey a.mu a.gran
    let l := s.accLoc k
    let t := s.accPlaced a
    word32s (t.locRead k l) 1024 = s.accVals a ∧ tGet t.t1.cnt k = s.accTokens a
      ∧ (∀ j, t.touched j = (j == k || s.touched j))
      ∧ (∀ i, i < 64 → (t.linePoisoned k l i = true ↔ a.poison = true ∨ (s.touched k = true ∧ s.linePoisoned k l i = true)))
      ∧ (∀ x, x < locBase k l ∨ locBase k l + 4096 ≤ x → mGet t.t1.pair x = mGet s.t1.pair x)
      ∧ t.t1.tag = s.t1.tag ∧ t.t1.mem = s.t1.mem ∧ t.run = s.run ∧ t.measuring = s.measuring := by
  intro k l t
  obtain ⟨x, ready⟩ : ∃ x, s.accReady k l = x := ⟨_, rfl⟩
  obtain ⟨slow, run, clk, plan⟩ := s.accReady_frame k l
  have placed : t = x.tileIn k l (s.accVals a) (s.accTokens a) fun i => a.poison || (s.touched k && s.linePoisoned k l i) := by rw [← ready]; rfl
  obtain ⟨frame, pair, cnt, touched, poison⟩ := x.tileIn_eq k l (s.accVals a) (s.accTokens a)
    fun i => a.poison || (s.touched k && s.linePoisoned k l i)
  rw [← placed] at frame pair cnt touched poison
  rw [ready] at slow run clk plan
  have kept {α : Type} (f : T1 → α) : f x.t1 = f { s.t1 with reading := x.t1.reading, dirty := x.t1.dirty, sealedMap := x.t1.sealedMap } :=
    congrArg f slow
  have pairOf : x.t1.pair = s.t1.pair := kept T1.pair
  have cntOf : x.t1.cnt = s.t1.cnt := kept T1.cnt
  have bytes : (word32Bytes (s.accVals a)).length = 4096 := by rw [length_word32Bytes, s.length_accVals a len]
  rw [pairOf] at pair
  rw [cntOf] at cnt
  have runOf : t.run = s.run := by rw [frame]; exact run
  have clkOf : t.clk = s.clk := by rw [frame]; exact clk
  have planOf : t.plan = s.plan := by rw [frame]; exact plan
  refine ⟨?_, ?_, fun j => ?_, fun i hi => ?_, fun y outside => ?_, ?_, ?_, runOf, ?_⟩
  · rw [State.locRead, pair, mRead_mWrite_same pairWf _ bytes, word32s_word32Bytes (s.length_accVals a len)]
  · rw [cnt, tGet_tSet _ cntWf, if_pos rfl]
  · have before : x.touched j = s.touched j := kept fun y => tGet (if y.bank then y.touch1 else y.touch0) j == 1
    rw [touched, x.touched_touch k j ((kept fun y => tabWf y.touch0).trans wf0) ((kept fun y => tabWf y.touch1).trans wf1), before]
  · refine (poison i hi).trans ?_
    rw [Bool.or_eq_true, Bool.and_eq_true]
  · rw [pair, mGet_mWrite _ _ _ _ pairWf, bytes, if_neg (by omega)]
  · rw [frame]; exact kept T1.tag
  · rw [frame]; exact kept T1.mem
  · rw [State.measuring, State.measuring, runOf, clkOf, planOf]

/-- The words and the count of the granule after its tile. -/
theorem State.applyAcc_holds : let k := granKey a.mu a.gran
    let t := s.applyAcc a
    word32s (t.locRead k (s.accLoc k)) 1024 = s.accVals a ∧ tGet t.t1.cnt k = s.accTokens a := by
  intro k t
  obtain ⟨words, cnt, _⟩ := s.accPlaced_spec a len pairWf wf0 wf1 cntWf
  have same {α : Type} (f : T1 → α) : f t.t1 = f (s.accPlaced a).t1 := congrArg f (s.applyAcc_t1 a)
  exact ⟨(same fun x => word32s (mRead x.pair (locBase k (s.accLoc k)) 4096) 1024).trans words, (same fun x => tGet x.cnt k).trans cnt⟩

/-- The touched bits, the poison, and what a tile leaves (R276, R278, R453). -/
theorem State.applyAcc_frame : let k := granKey a.mu a.gran
    let l := s.accLoc k
    let t := s.applyAcc a
    t.touched k = true ∧ (∀ j, j ≠ k → t.touched j = s.touched j)
      ∧ (∀ i, i < 64 → (t.linePoisoned k l i = true ↔ a.poison = true ∨ (s.touched k = true ∧ s.linePoisoned k l i = true)))
      ∧ (∀ x, x < locBase k l ∨ locBase k l + 4096 ≤ x → mGet t.t1.pair x = mGet s.t1.pair x) ∧ t.t1.tag = s.t1.tag ∧ t.t1.mem = s.t1.mem := by
  intro k l t
  obtain ⟨_, _, touched, poison, other, tag, mem, _⟩ := s.accPlaced_spec a len pairWf wf0 wf1 cntWf
  have same {α : Type} (f : T1 → α) : f t.t1 = f (s.accPlaced a).t1 := congrArg f (s.applyAcc_t1 a)
  have bits (j : Nat) : t.touched j = (j == k || s.touched j) :=
    (same fun x => tGet (if x.bank then x.touch1 else x.touch0) j == 1).trans (touched j)
  refine ⟨?_, fun j apart => ?_, fun i hi => ?_, fun x outside => (same fun y => mGet y.pair x).trans (other x outside),
    (same T1.tag).trans tag, (same T1.mem).trans mem⟩
  · rw [bits, beq_self_eq_true, Bool.true_or]
  · rw [bits, beq_false_of_ne apart, Bool.false_or]
  · exact (Bool.eq_iff_iff.mp (same fun x => x.poison.contains (pairLineOf k l i))).trans (poison i hi)

/-- A tile whose sums are finite changes nothing of the run; one with another sum flags a measure that runs (R277). -/
theorem State.applyAcc_run : (s.accBad a = 0 → (s.applyAcc a).run = s.run)
    ∧ (s.accBad a ≠ 0 → s.measuring = true → s.run.sealSent = false → (s.applyAcc a).run.flags.nonfin = true) := by
  obtain ⟨_, _, _, _, _, _, _, run, measuring⟩ := s.accPlaced_spec a len pairWf wf0 wf1 cntWf
  rw [s.applyAcc_eq]
  refine ⟨fun fine => ?_, fun bad runs early => ?_⟩
  · rw [if_pos fine, run]
  · rw [if_neg bad]
    exact (State.sumNonfinite_spec _ _ _).2 ((State.measuring_of_besideDrop (State.count_besideDrop ..)).trans (measuring.trans runs))
      ((congrArg Run.sealSent ((State.count_run ..).trans run)).trans early)

/-- A tile replaces what an untouched granule's location holds (R275). -/
theorem State.applyAcc_untouched : let k := granKey a.mu a.gran
    let t := s.applyAcc a
    s.touched k = false → word32s (t.locRead k (s.accLoc k)) 1024 = a.vals ∧ tGet t.t1.cnt k = a.tokens ∧ t.run = s.run := by
  intro k t fresh
  obtain ⟨words, tokens⟩ := s.applyAcc_holds a len pairWf wf0 wf1 cntWf
  have first : ¬ s.touched k = true := by rw [fresh]; decide
  exact ⟨words.trans (if_neg first), tokens.trans (if_neg first), (s.applyAcc_run a len pairWf wf0 wf1 cntWf).1 (if_neg first)⟩

/-- A tile adds to a touched granule's location, and sums that are no finite number flag the measure (R275, R277). -/
theorem State.applyAcc_touched : let k := granKey a.mu a.gran
    let l := s.accLoc k
    let t := s.applyAcc a
    s.touched k = true →
      (∀ i, i < 1024 → (word32s (t.locRead k l) 1024).getD i fZero = fAdd ((word32s (s.locRead k l) 1024).getD i fZero) (a.vals.getD i fZero))
        ∧ tGet t.t1.cnt k = min (tGet s.t1.cnt k + a.tokens) (2 ^ 32 - 1)
        ∧ ((word32s (t.locRead k l) 1024).any fNonfin = true → s.measuring = true → s.run.sealSent = false → t.run.flags.nonfin = true)
        ∧ ((word32s (t.locRead k l) 1024).any fNonfin = false → t.run = s.run) := by
  intro k l t was
  obtain ⟨words, tokens⟩ := s.applyAcc_holds a len pairWf wf0 wf1 cntWf
  obtain ⟨quiet, flags⟩ := s.applyAcc_run a len pairWf wf0 wf1 cntWf
  have sums : s.accVals a = (upTo 1024).map _ := if_pos was
  have bad : s.accBad a = ((s.accVals a).filter fNonfin).length := if_pos was
  rw [words]
  refine ⟨fun i hi => ?_, tokens.trans (if_pos was), fun found => flags ?_, fun fine => quiet ?_⟩
  · rw [sums]
    exact getD_map_upTo _ _ hi
  · obtain ⟨v, listed, nonfin⟩ := List.any_eq_true.mp found
    rw [bad]
    exact Nat.ne_of_gt (List.length_pos_iff.mpr (List.ne_nil_of_mem (List.mem_filter.mpr ⟨listed, nonfin⟩)))
  · rw [bad, List.length_eq_zero_iff, List.filter_eq_nil_iff]
    exact List.any_eq_false.mp fine

end

/-! ## The row -/

theorem exec_accumulateWrite (s : State) (cyc src mu : Nat) (on : s.dev ≠ .off) : exec (.accumulateWrite cyc src mu) s
    = .next (if (s.tick cyc).switching = true then s.tick cyc
        else match (s.tick cyc).run.acc.find? fun a => a.src == src && a.mu == mu with
          | none => s.tick cyc
          | some a =>
            let w : State := { s.tick cyc with run := { (s.tick cyc).run with acc := (s.tick cyc).run.acc.erase a } }
            if a.beat = (s.tick cyc).clk.beat then w.applyAcc a else w.count (F.MU_ACC_LATE_COUNT.mu mu) 1) := by
  refine (if_neg (by simpa using on) : execAccumulateWrite cyc src mu s = _).trans ?_
  by_cases waits : (s.tick cyc).switching = true
  · exact (if_pos waits).trans (congrArg _ (if_pos waits).symm)
  · refine (if_neg waits).trans (.trans ?_ (congrArg _ (if_neg waits).symm))
    cases arrived : (s.tick cyc).run.acc.find? fun a => a.src == src && a.mu == mu with
    | none => rfl
    | some a => exact (apply_ite Host.Outcome.next _ _ _).symm

theorem exec_accumulateWrite_some (s : State) (cyc src mu : Nat) (on : s.dev ≠ .off) {a : AccWrite} (still : (s.tick cyc).switching = false)
    (arrived : (s.tick cyc).run.acc.find? (fun a => a.src == src && a.mu == mu) = some a) :
    let w : State := { s.tick cyc with run := { (s.tick cyc).run with acc := (s.tick cyc).run.acc.erase a } }
    exec (.accumulateWrite cyc src mu) s
      = .next (if a.beat = (s.tick cyc).clk.beat then w.applyAcc a else w.count (F.MU_ACC_LATE_COUNT.mu mu) 1) := by
  rw [exec_accumulateWrite s cyc src mu on, if_neg (by rw [still]; decide), arrived]

/-- Settles O54: what a tile does, whom a slot goes to and what its grant leaves, and when a starvation flag rises. -/
theorem slowWrites : Obligations.SlowWrites := by
  refine ⟨fun s cyc src mu => ?_, fun s a len pairWf wf0 wf1 cntWf => ?_,
    fun s mu reserved l r won => ?_, fun s mu r counted => ?_, fun s cyc mu ch reqs use => ?_, fun s cyc mu ch req on silent => ?_,
    fun s cyc mu ch req r => ?_⟩
  · intro u on
    refine ⟨fun h => ?_, fun a still arrived => ?_⟩
    · rw [exec_accumulateWrite s cyc src mu (s.tick_dev cyc ▸ on)]
      split
      · rfl
      · next still => rw [h.resolve_left still]
    · have row := exec_accumulateWrite_some s cyc src mu (s.tick_dev cyc ▸ on) still arrived
      exact ⟨fun late => row.trans (congrArg _ (if_neg late)), fun now => row.trans (congrArg _ (if_pos now))⟩
  · exact ⟨s.applyAcc_untouched a len pairWf wf0 wf1 cntWf, s.applyAcc_touched a len pairWf wf0 wf1 cntWf,
      s.applyAcc_frame a len pairWf wf0 wf1 cntWf⟩
  · exact s.winner_least mu reserved won
  · obtain ⟨frame, grants⟩ := s.granted_frame mu r counted
    exact ⟨s.granted mu r counted, s.grant_eq_serve mu r counted, frame, grants, fun wf _ _ _ => s.granted_counts mu r counted wf⟩
  · intro u w held add v on
    have row := exec_slotArbitration s cyc mu ch reqs use (s.tick_dev cyc ▸ on)
    obtain ⟨stat, earmarked⟩ := u.sampled_views mu ch reqs
    refine ⟨fun idle => row.trans (congrArg _ (if_pos ?_)), fun present serves still => ?_⟩
    · refine idle.imp_right (Or.imp_left fun h => Bool.eq_false_iff.mpr fun rings => ?_)
      exact (u.ringsOn_iff.mp rings).elim h.1 h.2
    · intro offer
      have acts : ¬ (u.nMu ≤ mu ∨ u.ringsOn = false ∨ u.switching = true) := by
        simp [Nat.not_le.mpr present, u.ringsOn_iff.mpr serves, still]
      have used : exec (.slotArbitration cyc mu ch reqs use) s = .next (v.useSlot mu ch (held ++ add) use) := row.trans (congrArg _ (if_neg acts))
      refine ⟨fun fid h => ?_, fun h => ?_, fun q h => ⟨fun r marked asks => ?_, fun h' => ?_⟩⟩
      · rw [used, h, v.useSlot_catchUp, show v.stat = u.stat from stat]
        rfl
      · rw [used, h]
        rfl
      · rw [used, h, v.useSlot_earmark mu ch q ((congrFun (congrFun earmarked _) _).trans marked) asks]
      · rw [used, h, v.useSlot_unmarked mu ch q (h'.imp_left (congrFun (congrFun earmarked _) _).trans)]
        rfl
  · exact exec_arbStarve_none s cyc mu ch req (s.tick_dev cyc ▸ on) silent
  · intro u wait on asks
    have row := exec_arbStarve_some s cyc mu ch req (s.tick_dev cyc ▸ on) asks
    refine ⟨fun still => row.trans (congrArg _ (u.starved_still mu ch req r still)), fun vg4 late clear => ?_⟩
    obtain ⟨t1, flag, frame, silent⟩ := u.starved_rises mu ch req r vg4 late clear
    exact ⟨⟨_, row, t1, flag, frame⟩, fun off => row.trans (congrArg _ (silent off))⟩

end Sys2Proof.Machine

/-! PROOF. The demultiplexer over the stream at the cursor, and the packer's draws (R316 to R318, R327, R248, R341). -/
namespace Sys2Proof.Machine

/-! ## Clips close without touching the demultiplexer (R324) -/

theorem repeatExchange_demux : ∀ (js : List Nat) (n : Nat) (s : State), (repeatExchange n js s).ing.demux = s.ing.demux
  | [], 0, _ => rfl
  | [], _ + 1, _ => rfl
  | _ :: _, 0, _ => rfl
  | j :: js, n + 1, s => by
    unfold repeatExchange
    split
    · exact repeatExchange_demux js (n + 1) s
    · exact repeatExchange_demux js n _

theorem repeatExchange_unless_demux (c : Prop) [Decidable c] (n : Nat) (js : List Nat) (s : State) :
    (if c then s else repeatExchange n js s).ing.demux = s.ing.demux := by
  split
  · rfl
  · exact repeatExchange_demux js n s

theorem State.refillClip_demux (s : State) (j : Nat) : (s.refillClip j).ing.demux = s.ing.demux := by
  unfold State.refillClip
  split
  · rfl
  · extract_lets _ _ s0
    split
    · rfl
    · split
      · rfl
      · exact repeatExchange_demux [j] 1 s0

theorem State.detectUnsupported_ing (s : State) (die unit index detail : Nat) : (s.detectAt Er.unsupported die unit index detail).ing = s.ing := by
  rw [State.detectAt, s.detect_quiet _ (by decide : errClass Er.unsupported ≠ 1) (by decide : errClass Er.unsupported ≠ 2),
    State.sent, s.stamp_eq]

theorem State.closeClip_demux (s : State) (dur : Nat) : (s.closeClip dur).ing.demux = s.ing.demux := by
  unfold State.closeClip
  split
  · rfl
  · extract_lets _ s1 tag k d _ s2
    split
    · rw [State.detectUnsupported_ing]
      rfl
    · split
      · rfl
      · split
        · split
          · rfl
          · extract_lets s3
            exact repeatExchange_unless_demux _ _ _ s3
        · exact s2.refillClip_demux _

theorem State.endClip_demux (s : State) : s.endClip.ing.demux = s.ing.demux := by
  unfold State.endClip
  split
  · exact s.closeClip_demux _
  · rfl

theorem State.overflowClip_demux (s : State) (c : Clip) : (s.overflowClip c).ing.demux = s.ing.demux := by
  unfold State.overflowClip
  split
  · rfl
  · extract_lets g head rest _ s1
    have closed : s1.ing.demux = s.ing.demux := State.closeClip_demux _ _
    split <;> exact closed

/-! ## Sync and the bytes not yet consumed stay as a packet is taken (R316) -/

/-- Sync and the bytes not yet consumed: only the moves over the buffer change them, nothing that becomes of a packet does. -/
def Demux.intake (d : Demux) : Bool × Bytes := (d.sync, d.buf)

theorem State.takeAu_intake (s : State) (st : Stream) (off pts : Nat) (au : Bytes) (bad : Bool) :
    (s.takeAu st off pts au bad).ing.demux.intake = s.ing.demux.intake := by
  unfold State.takeAu
  extract_lets rap _ fresh _ _ _ s0
  split
  · rfl
  · split
    · split <;> rfl
    · extract_lets t c1 s1
      split
      · exact (congrArg Demux.intake (s0.closeClip_demux t)).trans rfl
      · split
        · exact (congrArg Demux.intake (s1.overflowClip_demux c1)).trans rfl
        · rfl

theorem State.endPes_intake (s : State) (st : Stream) : (s.endPes st).ing.demux.intake = s.ing.demux.intake := by
  unfold State.endPes
  extract_lets d _ s1
  split
  · rfl
  · split
    · exact s1.takeAu_intake st _ _ _ _
    · rfl

theorem State.takePat_intake (s : State) (st : Stream) (off : Nat) (b : Bytes) : (s.takePat st off b).ing.demux.intake = s.ing.demux.intake := by
  unfold State.takePat
  extract_lets d n
  split <;> rfl

theorem State.takePmt_intake (s : State) (st : Stream) (b : Bytes) : (s.takePmt st b).ing.demux.intake = s.ing.demux.intake := by
  unfold State.takePmt
  extract_lets ver s1 n es
  split
  · rfl
  · have closed : s1.ing.demux.intake = s.ing.demux.intake := by
      unfold s1
      split
      · exact congrArg Demux.intake s.endClip_demux
      · rfl
    exact closed

theorem Demux.psiPacket_intake (d : Demux) (pid off : Nat) (p : Bytes) : (d.psiPacket pid off p).2.intake = d.intake := by
  unfold Demux.psiPacket
  extract_lets pl old rest keep old1 r
  split <;> rfl

theorem foldl_intake {α : Type} (g : State → α → State) (h : ∀ t x, (g t x).ing.demux.intake = t.ing.demux.intake) :
    ∀ (l : List α) (s : State), (l.foldl g s).ing.demux.intake = s.ing.demux.intake
  | [], _ => rfl
  | x :: l, s => (foldl_intake g h l (g s x)).trans (h s x)

/-! ## One packet (R316 to R318) -/

/-- The PIDs whose packets are reassembled: the selected program's video, audio and teletext (R317). -/
def Demux.selects (d : Demux) (pid : Nat) : Bool := some pid == d.videoPid || some pid == d.audioPid || some pid == d.ttxPid

/-- What follows the counter of a packet of the video PID: a start ends the PES before it, any other continues it (R318). -/
def State.videoPacket (s : State) (st : Stream) (off : Nat) (p : Bytes) : State :=
  if tsStart p then
    let t := s.endPes st
    { t with ing := { t.ing with demux := { t.ing.demux with pes := tsPayload p, pesOff := off } } }
  else if s.ing.demux.pes.isEmpty then s
  else { s with ing := { s.ing with demux := { s.ing.demux with pes := s.ing.demux.pes ++ tsPayload p } } }

/-- The counter of a packet is the last of its PID, with the mark of a duplicate. -/
def State.counterTo (s : State) (p : Bytes) (dup : Bool) : State := { s with ing := { s.ing with demux := { s.ing.demux with
  cc := (s.ing.demux.cc.filter fun x => x.1 != tsPid p) ++ [(tsPid p, tsCc p, dup)] } } }

/-- The picture under reassembly is damaged. -/
def State.pesDamaged (s : State) : State := { s with ing := { s.ing with demux := { s.ing.demux with pesBad := true } } }

/-- A packet of a chosen PID with payload, the PID's last counter being `last`: a duplicate is dropped, a gap counts and damages
the video picture (R318). -/
def State.trackPacket (s : State) (st : Stream) (off : Nat) (p : Bytes) (video : Option Nat) (last : Option (Nat × Bool)) : State :=
  let dup := last.any fun x => x.1 == tsCc p && !x.2
  let gap := last.any fun x => !dup && tsCc p != (x.1 + 1) % 16
  let s1 := s.counterTo p dup
  let s2 := if gap then s1.count F.ING_TS_CC_ERR_COUNT 1 else s1
  if dup then s1
  else if some (tsPid p) ≠ video then s2
  else State.videoPacket (if gap then s2.pesDamaged else s2) st off p

theorem State.takePacket_error (s : State) (st : Stream) (off : Nat) (p : Bytes) (bad : tsError p = true) :
    s.takePacket st off p = if some (tsPid p) = s.ing.demux.videoPid then s.pesDamaged else s := if_pos bad

theorem State.takePacket_tables (s : State) (st : Stream) (off : Nat) (p : Bytes) (sound : tsError p = false)
    (psi : tsPid p = 0 ∨ some (tsPid p) = s.ing.demux.pmtPid) : let r := s.ing.demux.psiPacket (tsPid p) off p
    s.takePacket st off p = r.1.foldl (fun t x => if tsPid p = 0 then t.takePat st x.1 x.2 else t.takePmt st x.2)
      { s with ing := { s.ing with demux := r.2 } } :=
  (if_neg (by simp [sound]) : s.takePacket st off p = _).trans (if_pos psi)

theorem State.takePacket_elementary (s : State) (st : Stream) (off : Nat) (p : Bytes) (sound : tsError p = false)
    (stream : ¬ (tsPid p = 0 ∨ some (tsPid p) = s.ing.demux.pmtPid)) : s.takePacket st off p =
      let s0 := if tsDiscont p && tsPcr p && some (tsPid p) == s.ing.demux.pcrPid then s.endClip else s
      if !s.ing.demux.selects (tsPid p) || !tsHasPayload p then s0
      else s0.trackPacket st off p s.ing.demux.videoPid (if tsDiscont p then none else ccOf s0.ing.demux (tsPid p)) :=
  (if_neg (by simp [sound]) : s.takePacket st off p = _).trans (if_neg stream)

theorem State.videoPacket_intake (s : State) (st : Stream) (off : Nat) (p : Bytes) :
    (s.videoPacket st off p).ing.demux.intake = s.ing.demux.intake := by
  unfold State.videoPacket
  split
  · exact s.endPes_intake st
  · split <;> rfl

theorem State.trackPacket_intake (s : State) (st : Stream) (off : Nat) (p : Bytes) (video : Option Nat) (last : Option (Nat × Bool)) :
    (s.trackPacket st off p video last).ing.demux.intake = s.ing.demux.intake := by
  unfold State.trackPacket
  extract_lets dup gap s1 s2
  have counted : s2.ing.demux.intake = s.ing.demux.intake := by
    unfold s2
    split <;> rfl
  split
  · rfl
  · split
    · exact counted
    · rw [videoPacket_intake]
      split <;> exact counted

theorem State.takePacket_intake (s : State) (st : Stream) (off : Nat) (p : Bytes) :
    (s.takePacket st off p).ing.demux.intake = s.ing.demux.intake := by
  cases sound : tsError p
  case true =>
    rw [s.takePacket_error st off p sound]
    split <;> rfl
  case false =>
    by_cases psi : tsPid p = 0 ∨ some (tsPid p) = s.ing.demux.pmtPid
    · rw [s.takePacket_tables st off p sound psi]
      refine (foldl_intake _ (fun t x => ?_) _ _).trans (s.ing.demux.psiPacket_intake (tsPid p) off p)
      split
      · exact t.takePat_intake st x.1 x.2
      · exact t.takePmt_intake st x.2
    · rw [s.takePacket_elementary st off p sound psi]
      extract_lets s0
      have closed : s0.ing.demux.intake = s.ing.demux.intake := by
        unfold s0
        split
        · exact congrArg Demux.intake s.endClip_demux
        · rfl
      split
      · exact closed
      · rw [trackPacket_intake, closed]

/-! ## A packet whose PID has a counter (R318) -/

section
variable (s : State) (st : Stream) (off : Nat) (p : Bytes) (video : Option Nat) {k : Nat} {dup : Bool}

theorem State.takePacket_counted (sound : tsError p = false) (notPat : tsPid p ≠ 0) (notPmt : some (tsPid p) ≠ s.ing.demux.pmtPid)
    (chosen : s.ing.demux.selects (tsPid p) = true) (payload : tsHasPayload p = true) (steady : tsDiscont p = false) :
    s.takePacket st off p = s.trackPacket st off p s.ing.demux.videoPid (ccOf s.ing.demux (tsPid p)) := by
  rw [s.takePacket_elementary st off p sound (by simp [notPat, notPmt]), steady, chosen, payload]
  rfl

theorem State.trackPacket_duplicate (same : k = tsCc p) (first : dup = false) :
    s.trackPacket st off p video (some (k, dup)) = s.counterTo p true := by
  simp [State.trackPacket, same, first]

theorem State.trackPacket_gap (jumps : tsCc p ≠ (k + 1) % 16) (fresh : ¬ (k = tsCc p ∧ dup = false)) :
    let w := (s.counterTo p false).count F.ING_TS_CC_ERR_COUNT 1
    s.trackPacket st off p video (some (k, dup)) = if some (tsPid p) ≠ video then w else w.pesDamaged.videoPacket st off p := by
  have noDup : (k == tsCc p && !dup) = false := by simpa using fresh
  have gap : (tsCc p != (k + 1) % 16) = true := by simpa using jumps
  simp [State.trackPacket, noDup, gap]

theorem State.videoPacket_start (starts : tsStart p = true) : s.videoPacket st off p =
    { s.endPes st with ing := { (s.endPes st).ing with demux := { (s.endPes st).ing.demux with pes := tsPayload p, pesOff := off } } } :=
  if_pos starts

theorem State.videoPacket_continues (starts : tsStart p = false) : s.videoPacket st off p = { s with ing := { s.ing with demux := { s.ing.demux with
    pes := if s.ing.demux.pes = [] then [] else s.ing.demux.pes ++ tsPayload p } } } := by
  rw [State.videoPacket, if_neg (by simp [starts])]
  by_cases none : s.ing.demux.pes = []
  · rw [if_pos (by simp [none]), if_pos none, ← none]
  · rw [if_neg (by simp [none]), if_neg none]

end

/-! ## One move over the buffer (R316) -/

section
variable (s : State) (st : Stream) (off : Nat)

theorem State.demuxOnce_short (sync : s.ing.demux.sync = true) (short : s.ing.demux.buf.length < 188) : s.demuxOnce st off = (off, s, false) := by
  simp [State.demuxOnce, sync, short]

theorem State.demuxOnce_packet (sync : s.ing.demux.sync = true) (whole : 188 ≤ s.ing.demux.buf.length) (head : byteAt s.ing.demux.buf 0 = 0x47) :
    s.demuxOnce st off = (off + 188, (s.demuxTo (s.ing.demux.buf.drop 188) true).takePacket st off (s.ing.demux.buf.take 188), true) := by
  simp [State.demuxOnce, sync, head, Nat.not_lt.mpr whole]

theorem State.demuxOnce_lost (sync : s.ing.demux.sync = true) (whole : 188 ≤ s.ing.demux.buf.length) (head : byteAt s.ing.demux.buf 0 ≠ 0x47) :
    s.demuxOnce st off = (off, s.syncLost, true) := by
  simp [State.demuxOnce, sync, head, Nat.not_lt.mpr whole]

theorem State.demuxOnce_found {o : Nat} (sync : s.ing.demux.sync = false) (found : syncAt s.ing.demux.buf = some o) :
    s.demuxOnce st off = (off + o, s.demuxTo (s.ing.demux.buf.drop o) true, true) := by
  simp [State.demuxOnce, sync, found]

theorem State.syncLost_count (wf : tabWf s.regs = true) :
    s.syncLost.get F.ING_TS_RESYNC_COUNT = min (s.get F.ING_TS_RESYNC_COUNT + 1) (2 ^ 32 - 1) :=
  State.get_count_word _ F.ING_TS_RESYNC_COUNT 1 wf (by decide) (by decide)

theorem State.demux_continues {n o : Nat} {t : State} (move : s.demuxOnce st off = (o, t, true)) :
    State.demux st (n + 1) off s = State.demux st n o t := by
  simp [State.demux, move]

theorem State.demux_stops {n o : Nat} {t : State} (move : s.demuxOnce st off = (o, t, false)) : State.demux st (n + 1) off s = t := by
  simp [State.demux, move]

/-- A buffer of one packet, in sync: it is taken once, and nothing is left to consume. -/
theorem State.demux_one_packet (sync : s.ing.demux.sync = true) (one : s.ing.demux.buf.length = 188)
    (head : byteAt s.ing.demux.buf 0 = 0x47) :
    State.demux st (s.ing.demux.buf.length + 1) off s = (s.demuxTo [] true).takePacket st off s.ing.demux.buf := by
  have within : s.ing.demux.buf.length ≤ 188 := Nat.le_of_eq one
  have first := s.demuxOnce_packet st off sync (Nat.le_of_eq one.symm) head
  rw [List.drop_eq_nil_of_le within, List.take_of_length_le within] at first
  let t := (s.demuxTo [] true).takePacket st off s.ing.demux.buf
  have left : t.ing.demux.intake = (true, []) := State.takePacket_intake _ st off _
  obtain ⟨still, empty⟩ := Prod.ext_iff.mp left
  have second := t.demuxOnce_short st (off + 188) still (by rw [show t.ing.demux.buf = [] from empty]; decide)
  rw [s.demux_continues st off first, one]
  exact t.demux_stops st (off + 188) second

end

/-- The first of the places where three sync bytes stand a packet apart. -/
theorem syncAt_first {b : Bytes} {o : Nat} (inside : o + 376 < b.length)
    (here : byteAt b o = 0x47 ∧ byteAt b (o + 188) = 0x47 ∧ byteAt b (o + 376) = 0x47)
    (before : ∀ q, q < o → ¬ (byteAt b q = 0x47 ∧ byteAt b (q + 188) = 0x47 ∧ byteAt b (q + 376) = 0x47)) : syncAt b = some o := by
  refine List.find?_range_eq_some.mpr ⟨by simp [here], List.mem_range.mpr (by omega), fun q less => ?_⟩
  rw [Bool.not_eq_true', Bool.eq_false_iff]
  exact fun found => before q less (by simpa [and_assoc] using found)

/-! ## TS_PACKET -/

/-- The stream behind the bytes it has given of `pkt`. -/
def Stream.fed (st : Stream) (pkt : Bytes) : Stream := { st with off := st.off + (pkt.take (sdLen st.desc - st.off)).length }

/-- The bytes of `pkt` within the stream at the cursor join the buffer. -/
def State.buffered (s : State) (st : Stream) (rest : List Stream) (pkt : Bytes) : State := { s with ing := { s.ing with
  streams := st.fed pkt :: rest, demux := { s.ing.demux with buf := s.ing.demux.buf ++ pkt.take (sdLen st.desc - st.off) } } }

/-- What the buffer holds is consumed: demultiplexed, or of a raw stream cut into access units. -/
def State.consumed (s : State) (st : Stream) (base : Nat) : State :=
  if sdKind st.desc = 0 then State.demux st (s.ing.demux.buf.length + 1) base s else State.rawUnits st s.ing.demux.buf.length base s

theorem State.consumed_transport (s : State) (st : Stream) (base : Nat) (kind : sdKind st.desc = 0) :
    s.consumed st base = State.demux st (s.ing.demux.buf.length + 1) base s := if_pos kind

section
variable (s : State) (cyc : Nat) (pkt : Bytes) (on : s.dev ≠ .off)
include on

theorem exec_tsPacket_idle (idle : (s.tick cyc).ing.streams = [] ∨ (s.tick cyc).filling = false) :
    exec (.tsPacket cyc pkt) s = .next (s.tick cyc) := by
  refine (if_neg (by simpa using on) : execTsPacket cyc pkt s = _).trans ?_
  dsimp only
  split
  · rfl
  · next st rest streams => exact if_pos (by simpa [streams] using idle)

theorem exec_tsPacket_fill {st : Stream} {rest : List Stream} (streams : (s.tick cyc).ing.streams = st :: rest)
    (fills : (s.tick cyc).filling = true) :
    let v := ((s.tick cyc).buffered st rest pkt).consumed (st.fed pkt) (st.off - (s.tick cyc).ing.demux.buf.length)
    exec (.tsPacket cyc pkt) s = .next (if sdLen st.desc ≤ (st.fed pkt).off then v.endStream (st.fed pkt) else v) := by
  intro v
  refine (if_neg (by simpa using on) : execTsPacket cyc pkt s = _).trans ?_
  simp only [streams]
  refine (if_neg (by simp [fills])).trans ?_
  exact (apply_ite Host.Outcome.next _ _ _).symm

theorem exec_tsPacket_packet {st : Stream} {rest : List Stream} (streams : (s.tick cyc).ing.streams = st :: rest)
    (fills : (s.tick cyc).filling = true) (kind : sdKind st.desc = 0) (len : pkt.length = 188) (head : byteAt pkt 0 = 0x47)
    (sync : (s.tick cyc).ing.demux.sync = true) (empty : (s.tick cyc).ing.demux.buf = []) (more : st.off + 188 < sdLen st.desc) :
    let u := s.tick cyc
    let st1 : Stream := { st with off := st.off + (pkt.take (sdLen st.desc - st.off)).length }
    exec (.tsPacket cyc pkt) s = .next (State.takePacket { u with ing := { u.ing with streams := st1 :: rest } } st1 st.off pkt) := by
  intro u st1
  have all : pkt.take (sdLen st.desc - st.off) = pkt := List.take_of_length_le (by omega)
  have ends : ¬ sdLen st.desc ≤ (st.fed pkt).off := by
    rw [Stream.fed, all]
    simp only []
    omega
  let w := u.buffered st rest pkt
  have buf : w.ing.demux.buf = pkt := by
    simp only [w, State.buffered, u, empty, all, List.nil_append]
  have same : w.demuxTo [] true = { u with ing := { u.ing with streams := st1 :: rest } } := by
    rw [← empty, ← sync]
    rfl
  have taken := w.demux_one_packet (st.fed pkt) st.off sync (by rw [buf, len]) (by rw [buf, head])
  rw [exec_tsPacket_fill s cyc pkt on streams fills, if_neg ends, empty, List.length_nil, Nat.sub_zero,
    State.consumed_transport w (st.fed pkt) st.off kind, taken, same, buf]
  rfl

end

/-! ## The next draw (R327) -/

section
variable (u : State)

theorem State.takeDraw_next (left : u.ing.drawn < u.ing.draw.clips.length) : u.takeDraw
    = (u.ing.draw.clips[u.ing.draw.perm.getD u.ing.drawn 0]?, { u with ing := { u.ing with drawn := u.ing.drawn + 1 } }) := by
  unfold State.takeDraw
  simp only [if_pos left]

theorem State.takeDraw_waits (done : u.ing.draw.clips.length ≤ u.ing.drawn)
    (waits : u.ing.fill.clips = [] ∨ u.ing.exchPending = true ∨ u.ing.recut.isSome = true) : u.takeDraw = (none, u) := by
  unfold State.takeDraw
  simp only [if_neg (Nat.not_lt.mpr done), if_pos (show (u.ing.fill.clips.isEmpty || u.ing.exchPending || u.ing.recut.isSome) = true by
    simpa [or_assoc] using waits)]

/-- The filling deck becomes the drawing deck; one that was not full counts as early. -/
def State.decksSwitched : State := (if u.fillFull = true then u else u.count F.ING_DECK_EARLY_COUNT 1).switchDeck u.ing.skip

theorem State.takeDraw_switches (done : u.ing.draw.clips.length ≤ u.ing.drawn) (filled : u.ing.fill.clips ≠ [])
    (still : u.ing.exchPending = false) (cut : u.ing.recut = none) (left : u.decksSwitched.ing.drawn < u.decksSwitched.ing.draw.clips.length) :
    u.takeDraw = u.decksSwitched.takeDraw := by
  rw [u.decksSwitched.takeDraw_next left]
  unfold State.takeDraw
  have free : ¬ (u.ing.fill.clips.isEmpty || u.ing.exchPending || u.ing.recut.isSome) = true := by simp [filled, still, cut]
  simp only [if_neg (Nat.not_lt.mpr done), if_neg free]
  exact if_pos left

end

/-! ## CLIP_DRAW -/

/-- The packer composes: RUNNING with device packing of a graph with an INGEST operation (R341, R342). -/
def State.packing (u : State) : Prop :=
  u.dev = .running ∧ u.run.stopped = false ∧ u.hostPack = false ∧ u.plan.graph.any (fun g => g.ingest.isSome) = true

section
variable (s : State) (cyc : Nat) (on : s.dev ≠ .off)
include on

theorem exec_clipDraw_idle (idle : ¬ (s.tick cyc).packing) : exec (.clipDraw cyc) s = .next (s.tick cyc) := by
  refine (if_neg (by simpa using on) : execClipDraw cyc s = _).trans (if_pos (Decidable.byContradiction fun acts => ?_))
  exact idle (by simpa [State.packing, and_assoc] using acts)

theorem exec_clipDraw_packing (packs : (s.tick cyc).packing) : exec (.clipDraw cyc) s = match (s.tick cyc).ing.carry with
    | some (c, r) => .next ((s.tick cyc).placePiece ((s.tick cyc).dataPos 0) c r)
    | none => match (s.tick cyc).takeDraw with
      | (none, w) => .next w
      | (some c, w) => .next (w.placePiece ((s.tick cyc).dataPos 0) c 0) := by
  obtain ⟨runs, going, device, ingests⟩ := packs
  refine (if_neg (by simpa using on) : execClipDraw cyc s = _).trans ((if_neg ?_).trans rfl)
  rw [s.tick_dev cyc] at runs
  simp [runs, going, device, ingests]

theorem exec_clipDraw_carry {c : Clip} {r : Nat} (packs : (s.tick cyc).packing) (carry : (s.tick cyc).ing.carry = some (c, r)) :
    exec (.clipDraw cyc) s = .next ((s.tick cyc).placePiece ((s.tick cyc).dataPos 0) c r) := by
  rw [exec_clipDraw_packing s cyc on packs, carry]

theorem exec_clipDraw_draw {c : Clip} {w : State} (packs : (s.tick cyc).packing) (carry : (s.tick cyc).ing.carry = none)
    (draw : (s.tick cyc).takeDraw = (some c, w)) : exec (.clipDraw cyc) s = .next (w.placePiece ((s.tick cyc).dataPos 0) c 0) := by
  rw [exec_clipDraw_packing s cyc on packs, carry, draw]

theorem exec_clipDraw_none {w : State} (packs : (s.tick cyc).packing) (carry : (s.tick cyc).ing.carry = none)
    (draw : (s.tick cyc).takeDraw = (none, w)) : exec (.clipDraw cyc) s = .next w := by
  rw [exec_clipDraw_packing s cyc on packs, carry, draw]

end

/-! ## A clip of no more rows than a micro-batch (R248) -/

/-- `n` rows of clip `c`, its last ones, join the micro-batch under packing, which closes once full. -/
def State.placed (s : State) (c : Clip) (n : Nat) : State :=
  let t : State := { s with ing := { s.ing with
    open_ := { s.ing.open_ with parts := s.ing.open_.parts ++ [(c, 0, n)], rows := s.ing.open_.rows + n }, carry := none } }
  if t.ing.open_.rows = t.budget then t.closePack (t.dataPos 0) else t

section
variable (s : State) (pos : BitVec 1024) (c : Clip)

theorem State.piece_whole (fits : s.clipRows c ≤ s.budget) : s.piece c 0 = (s.clipRows c, false) := if_pos fits

theorem State.placePiece_whole (fits : s.clipRows c ≤ s.budget) : s.placePiece pos c 0
    = (if s.budget < s.ing.open_.rows + s.clipRows c then s.closePack pos else s).placed c (s.clipRows c) := by
  have uncut : decide (0 + s.clipRows c < s.clipRows c) = false := by simp
  unfold State.placePiece
  simp only [s.piece_whole c fits, uncut]
  rfl

theorem State.placePiece_room (room : s.ing.open_.rows + s.clipRows c ≤ s.budget) : s.placePiece pos c 0 = s.placed c (s.clipRows c) := by
  rw [s.placePiece_whole pos c (by omega), if_neg (by omega)]

theorem State.placePiece_closes (fits : s.clipRows c ≤ s.budget) (wide : s.budget < s.ing.open_.rows + s.clipRows c) :
    s.placePiece pos c 0 = (s.closePack pos).placePiece pos c 0 := by
  rw [s.placePiece_whole pos c fits, if_pos wide]
  exact ((s.closePack pos).placePiece_room pos c (Nat.le_trans (Nat.le_of_eq (Nat.zero_add _)) fits)).symm

theorem State.placed_room {n : Nat} (room : s.ing.open_.rows + n < s.budget) : s.placed c n = { s with ing := { s.ing with
    open_ := { s.ing.open_ with parts := s.ing.open_.parts ++ [(c, 0, n)], rows := s.ing.open_.rows + n }, carry := none } } :=
  if_neg (Nat.ne_of_lt room)

end

/-- Settles O49: the packets of the stream at the cursor, one move of the demultiplexer, one packet, the draws and their placing. -/
theorem ingestFills : Obligations.IngestFills := by
  refine ⟨?_, ?_, ?_, ?_, ?_⟩
  · intro s cyc pkt u on
    have on := s.tick_dev cyc ▸ on
    exact ⟨exec_tsPacket_idle s cyc pkt on, fun st rest streams fills => ⟨exec_tsPacket_fill s cyc pkt on streams fills,
      exec_tsPacket_packet s cyc pkt on streams fills⟩⟩
  · intro v st off b
    exact ⟨v.demuxOnce_short st off, v.demuxOnce_packet st off,
      fun sync whole head => ⟨v.demuxOnce_lost st off sync whole head, rfl, v.syncLost_count⟩,
      fun o sync inside first second third before =>
        v.demuxOnce_found st off sync (syncAt_first inside ⟨first, second, third⟩ before)⟩
  · intro v st off p d
    refine ⟨v.takePacket_error st off p, ?_⟩
    intro k dup sound notPat notPmt chosen payload steady known cc w
    have counted := v.takePacket_counted st off p sound notPat notPmt (by simpa [Demux.selects, or_assoc] using chosen) payload steady
    rw [known] at counted
    refine ⟨fun same first => counted.trans (v.trackPacket_duplicate st off p _ same first), fun jumps fresh => ?_⟩
    have gap := counted.trans (v.trackPacket_gap st off p _ jumps fresh)
    refine ⟨fun other => gap.trans (if_pos other), fun video starts => ?_, fun video starts => ?_⟩
    · exact (gap.trans (if_neg (not_not_intro video))).trans (State.videoPacket_continues _ st off p starts)
    · exact (gap.trans (if_neg (not_not_intro video))).trans (State.videoPacket_start _ st off p starts)
  · intro s cyc u draws v on
    have on := s.tick_dev cyc ▸ on
    refine ⟨exec_clipDraw_idle s cyc on, fun packs => ⟨fun c r => exec_clipDraw_carry s cyc on packs, fun c carry left clip => ?_,
      fun c carry done filled still cut left clip => ?_, fun carry done waits => ?_⟩⟩
    · exact exec_clipDraw_draw s cyc on packs carry ((u.takeDraw_next left).trans (congrArg (·, _) clip))
    · exact exec_clipDraw_draw s cyc on packs carry ((u.takeDraw_switches done filled still cut left).trans
        ((v.takeDraw_next left).trans (congrArg (·, _) clip)))
    · exact exec_clipDraw_none s cyc on packs carry (State.takeDraw_waits _ done waits)
  · intro u pos c
    refine ⟨fun room => ?_, fun fits wide => ⟨?_, List.length_append, rfl⟩⟩
    · rw [u.placePiece_room pos c (by omega), u.placed_room c (by omega)]
    · exact u.placePiece_closes pos c fits (by omega)

end Sys2Proof.Machine

/-! PROOF. Ports: what a flit sent changes (R353, R359), and the register words of the ports (R382, Table 13.9). -/
namespace Sys2Proof.Machine

/-! ## Ports -/

section
variable (s : State) {n m : Nat} (p : Port)

theorem State.port_setPort_same (inside : n < s.fab.ports.length) : (s.setPort n p).port n = p := by
  simp [State.port, State.setPort, inside]
theorem State.port_setPort_ne (other : m ≠ n) : (s.setPort n p).port m = s.port m := by
  simp [State.port, State.setPort, List.getD_eq_getElem?_getD, List.getElem?_set_ne other.symm]
theorem State.setPort_outside (outside : s.fab.ports.length ≤ n) : s.setPort n p = s := by
  simp [State.setPort, List.set_eq_of_length_le outside]

end

/-! ## Flits sent -/

/-- Sending takes credits, sequences, places in the replay buffer and in the queue of a port; on a link that is down, nothing. -/
def Port.sends (p q : Port) : Prop :=
  q = { p with credits := q.credits, txSeq := q.txSeq, replay := q.replay, since := q.since, out := q.out } ∧ (p.up = false → q = p)

theorem Port.sends_refl (p : Port) : p.sends p := ⟨rfl, fun _ => rfl⟩
theorem Port.sends_trans {p q r : Port} (h : p.sends q) (k : q.sends r) : p.sends r := by
  obtain ⟨taken, still⟩ := h
  obtain ⟨taken', still'⟩ := k
  refine ⟨by rw [taken', taken], fun down => ?_⟩
  obtain rfl := still down
  exact still' down

/-- A state that came by sends alone: only what a port sends with differs, and free values. -/
def State.sends (s t : State) : Prop :=
  t = { s with free := t.free, fab := { s.fab with ports := t.fab.ports } } ∧ ∀ m, (s.port m).sends (t.port m)

/-- Ports that are the same have sent nothing. -/
theorem State.sends_of_ports {s t : State} (same : t.fab.ports = s.fab.ports) (m : Nat) : (s.port m).sends (t.port m) := by
  rw [show t.port m = s.port m from congrArg (fun l : List Port => l.getD m Port.reset) same]
  exact Port.sends_refl _

theorem State.sends_refl (s : State) : s.sends s := ⟨rfl, fun m => (s.port m).sends_refl⟩
theorem State.sends_trans {s t u : State} (h : s.sends t) (k : t.sends u) : s.sends u :=
  ⟨by rw [k.1, h.1], fun m => Port.sends_trans (h.2 m) (k.2 m)⟩
theorem State.sends_foldl {α : Type} (g : State → α → State) (h : ∀ t x, State.sends t (g t x)) : ∀ (l : List α) (s : State), s.sends (l.foldl g s)
  | [], s => s.sends_refl
  | x :: l, s => State.sends_trans (h s x) (State.sends_foldl g h l _)

theorem State.sends_setPort (s : State) (n : Nat) {q : Port} (h : (s.port n).sends q) : s.sends (s.setPort n q) := by
  refine ⟨rfl, fun m => ?_⟩
  by_cases there : m = n ∧ n < s.fab.ports.length
  · obtain ⟨rfl, inside⟩ := there
    rwa [s.port_setPort_same q inside]
  · by_cases same : m = n
    · rw [s.setPort_outside q (by omega)]; exact Port.sends_refl _
    · rw [s.port_setPort_ne q same]; exact Port.sends_refl _

theorem Port.transmit_eq (p : Port) (f : Flit) : p.transmit f = { p with
    credits := (p.transmit f).credits, txSeq := (p.transmit f).txSeq, replay := (p.transmit f).replay, since := (p.transmit f).since
    out := (p.transmit f).out } := by
  simp only [Port.transmit]

theorem State.sendFlit_sends (s : State) (n : Nat) (f : Flit) : s.sends (s.sendFlit n f) := by
  unfold State.sendFlit
  extract_lets p
  split
  · exact s.sends_refl
  · have up : p.up = true := by simp_all [Port.carries]
    have alive {q : Port} (down : p.up = false) : q = p := absurd (up.symm.trans down) (by decide)
    split
    · exact s.sends_setPort n ⟨rfl, alive⟩
    · exact s.sends_setPort n ⟨p.transmit_eq f, alive⟩

theorem State.sendFlit_ne (s : State) {n m : Nat} (f : Flit) (other : m ≠ n) : (s.sendFlit n f).port m = s.port m := by
  unfold State.sendFlit
  extract_lets p
  split
  · rfl
  · split <;> exact s.port_setPort_ne _ other

theorem State.sendHello_sends (s : State) (n : Nat) : s.sends (s.sendHello n) := s.sendFlit_sends n _
theorem State.sendHello_ne (s : State) {n m : Nat} (other : m ≠ n) : (s.sendHello n).port m = s.port m := s.sendFlit_ne _ other

/-- With a credit of its class and nothing of it waiting, a flit goes out at once. -/
theorem State.sendFlit_transmits (s : State) (n : Nat) (f : Flit) (carried : (s.port n).carries f = true)
    (credit : (s.port n).credits.getD (flClass f) 0 ≠ 0) (first : (s.port n).out = []) :
    s.sendFlit n f = s.setPort n ((s.port n).transmit f) := by
  have now : (decide ((s.port n).credits.getD (flClass f) 0 = 0) || (s.port n).out.any fun x => flClass x.2 == flClass f) = false := by
    simpa [first] using credit
  simp only [State.sendFlit, carried, now]
  rfl

/-- The class and the operation of a flit of layout B stand above its destination. -/
theorem State.flit_class_op (s : State) (cls op dest seq payload : Nat) (hcls : cls < 4) (hop : op < 16) (hdest : dest < 2 ^ 13) :
    flClass (s.flit cls op dest seq payload) = cls ∧ flOp (s.flit cls op dest seq payload) = op := by
  simp only [flClass, flOp, flFld, State.flit, State.header, bits_eq_div, BitVec.toNat_ofNat]
  omega

/-! ## The words of ports and link dies -/

/-- Every word below the words of the ports reads in `t` as in `s`. -/
def State.belowPorts (s t : State) : Prop := ∀ k, k < 0x240100 → tGet t.regs k = tGet s.regs k

theorem State.belowPorts_trans {s t u : State} (h : s.belowPorts t) (g : t.belowPorts u) : s.belowPorts u := fun k hk => (g k hk).trans (h k hk)

theorem State.set_port_belowPorts (s : State) (f : Field) (n v : Nat) (port : 0x240100 ≤ f.off) : s.belowPorts (s.set (s.portField f n) v) :=
  fun k hk => fset_other s.regs _ v k fun i _ => by
    have place : (s.portField f n).off = f.off + n * 4 + s.portLd n * 0x10000 := rfl
    omega

theorem State.get_belowPorts {s t : State} (h : s.belowPorts t) (g : Field) (low : g.off + 4 * g.words ≤ 0x240100) : t.get g = s.get g :=
  fget_congr _ _ g fun i hi => h _ (by omega)

theorem State.seat_belowPorts {s t : State} (h : s.belowPorts t) : t.seat = s.seat := State.get_belowPorts h F.LD_SEAT_SEAT (by decide)
theorem State.ownSeat_belowPorts {s t : State} (h : s.belowPorts t) : t.ownSeat = s.ownSeat := by
  simp only [State.ownSeat, State.seat_belowPorts h]
theorem State.dims_belowPorts {s t : State} (h : s.belowPorts t) : t.dims = s.dims := by
  have dim (g : Field) (low : g.off + 4 * g.words ≤ 0x240100) := State.get_belowPorts h g low
  simp only [State.dims, dim F.LD_TOPO_CFG_DIM0 (by decide), dim F.LD_TOPO_CFG_DIM1 (by decide), dim F.LD_TOPO_CFG_DIM2 (by decide),
    dim F.LD_TOPO_CFG_DIM3 (by decide)]
theorem State.neighbour_belowPorts {s t : State} (h : s.belowPorts t) (seat dim : Nat) (plus : Bool) :
    t.neighbour seat dim plus = s.neighbour seat dim plus := by
  simp only [State.neighbour, State.dims_belowPorts h]

/-- A counter of a link die reads its saturated count (R463). -/
theorem State.get_count_ld (s : State) (f : Field) (k n : Nat) (wf : tabWf s.regs = true) (lo : f.lo = 0) (w : f.w = 32) :
    (s.count (f.ld k) n).get (f.ld k) = min (s.get (f.ld k) + n) (2 ^ 32 - 1) := by
  have width : (f.ld k).w = 32 := w
  have low : (f.ld k).lo = 0 := lo
  rw [s.get_count_word (f.ld k) n wf (by omega) (by omega), width]

/-- A port of the module has its word on its own link die, apart from that die's counters. -/
theorem State.get_counter_of_port (s : State) (f g : Field) (n v : Nat) (port : f.off = 0x240100)
    (counter : g.off + 4 * g.words ≤ 0x240100) :
    (s.set (s.portField f n) v).get (g.ld (s.portLd n)) = s.get (g.ld (s.portLd n)) :=
  fget_fset_apart s.regs (s.portField f n) (g.ld (s.portLd n)) v <| .inl <| by
    have place : (s.portField f n).off = f.off + n * 4 + s.portLd n * 0x10000 := rfl
    have die : (g.ld (s.portLd n)).off = g.off + s.portLd n * 0x10000 := rfl
    have words : (g.ld (s.portLd n)).words = g.words := rfl
    omega

end Sys2Proof.Machine

/-! PROOF. Links that come up, retrain, go down and measure their delay (R354, R361, R367, R376). -/
namespace Sys2Proof.Machine

/-! ## Links that train -/

/-- The port is usable and down, in a state and with Callers that let it train (R361). -/
def State.mayTrain (u : State) (n : Nat) : Prop :=
  (u.dev = .running ∨ u.dev = .draining) ∧ u.run.stopped = false ∧ u.portUsable n = true ∧ (u.port n).up = false

theorem State.mayTrain_iff (u : State) (n : Nat) :
    (u.ringsOn && !u.run.stopped && u.portUsable n && !(u.port n).up) = true ↔ u.mayTrain n := by
  simp [State.mayTrain, State.ringsOn, and_assoc]

/-- The port as it comes up, before its HELLO. -/
def Port.trained (width : Nat) : Port := { Port.reset with up := true, width := width, credits := fullCredits, owed := [0, 0, 0, 0] }

/-- A link that has trained, before its HELLO. -/
def State.trained (u : State) (n width : Nat) : State :=
  let v := State.setPort { u with fab := { u.fab with lost := u.fab.lost.filter fun x => !(x.1 == u.seat && x.2.1 == n) } } n (Port.trained width)
  (v.set (u.portField F.LD_PORT_n_UP n) 1).set (u.portField F.LD_PORT_n_WIDTH n) width

section
variable (s : State) (cyc n width : Nat) (on : s.dev ≠ .off)
include on

theorem exec_linkUp_may (may : (s.tick cyc).mayTrain n) :
    exec (.linkUp cyc n width) s = .next (((s.tick cyc).trained n width).sendHello n) := by
  change execLinkUp cyc n width s = _
  simp only [execLinkUp, beq_iff_eq, on, if_false, if_pos ((State.mayTrain_iff _ n).mpr may)]
  rfl

theorem exec_linkUp_not (may : ¬ (s.tick cyc).mayTrain n) : exec (.linkUp cyc n width) s = .next (s.tick cyc) := by
  change execLinkUp cyc n width s = _
  simp only [execLinkUp, beq_iff_eq, on, if_false, if_neg (mt (State.mayTrain_iff _ n).mp may)]

end

theorem State.port_trained (u : State) {n : Nat} (width : Nat) (inside : n < u.fab.ports.length) :
    (u.trained n width).port n = Port.trained width :=
  State.port_setPort_same { u with fab := { u.fab with lost := _ } } (Port.trained width) inside

/-- A port that came up has the credit for its HELLO. -/
theorem Port.trained_transmit (width : Nat) (f : Flit) (control : flClass f = 3) : (Port.trained width).transmit f
    = { Port.trained width with credits := [1024, 1024, 512, 63], replay := [(0, f)], txSeq := 1, since := 1 } := by
  simp [Port.transmit, control, Port.trained, Port.reset, fullCredits]

theorem State.sendHello_trained (u : State) {n : Nat} (width : Nat) (inside : n < u.fab.ports.length) : ∃ h, flOp h = Op.hello ∧ flClass h = 3
    ∧ (u.trained n width).sendHello n = (u.trained n width).setPort n
      { Port.trained width with credits := [1024, 1024, 512, 63], replay := [(0, h)], txSeq := 1, since := 1 } := by
  have port := u.port_trained width inside
  unfold State.sendHello
  generalize (u.trained n width).helloPayload n = payload
  have dest : (u.trained n width).get ((u.trained n width).portField F.LD_PORT_n_PEER_SEAT n) < 2 ^ 13 :=
    Nat.lt_trans (State.get_lt _ _) (by decide : 2 ^ 12 < 2 ^ 13)
  obtain ⟨cls, op⟩ := (u.trained n width).flit_class_op 3 Op.hello _ 0 payload (by decide) (by decide) dest
  refine ⟨_, op, cls, ?_⟩
  rw [State.sendFlit_transmits, port, Port.trained_transmit _ _ cls]
  · rw [port]; rfl
  · rw [port, cls]; exact (by decide : 64 ≠ 0)
  · rw [port]; rfl

/-! ## Links that retrain -/

/-- A link that has retrained at lost lanes `width`, before its HELLO. -/
def State.retrained (u : State) (n width : Nat) : State :=
  let p := u.port n
  let w := max p.width width
  let v := (u.setPort n { p with width := w, retrained := true, replays := 0, fails := 0 }).count (F.LD_RETRAIN_COUNT.ld (u.portLd n)) 1
  if w = p.width then v else (if p.hello then v else v.set (v.portField F.LD_PORT_n_WIDTH n) w).linkEvent Ev.linkWidth n 0

/-- A link whose retraining failed (R367; log entry 12). -/
def State.retrainFailed (u : State) (n : Nat) : State :=
  (u.setPort n { u.port n with fails := (u.port n).fails + 1, replays := 0 }).count (F.LD_RETRAIN_COUNT.ld (u.portLd n)) 1

section
variable (s : State) (cyc n width : Nat) (on : s.dev ≠ .off)
include on

theorem exec_linkRetrain_down (down : ((s.tick cyc).port n).up = false) : exec (.linkRetrain cyc n width) s = .next (s.tick cyc) := by
  change execLinkRetrain cyc n width s = _
  simp [execLinkRetrain, on, down]

theorem exec_linkRetrain (up : ((s.tick cyc).port n).up = true) (trains : width < 3) :
    exec (.linkRetrain cyc n width) s = .next (((s.tick cyc).retrained n width).sendHello n) := by
  change execLinkRetrain cyc n width s = _
  refine (if_neg ?_).trans ((if_neg ?_).trans (if_pos up))
  · simpa using on
  · simp [up, trains]

theorem exec_linkRetrain_fails (up : ((s.tick cyc).port n).up = true) (fails : 3 ≤ width) : exec (.linkRetrain cyc n width) s
    = .next (if 2 ≤ ((s.tick cyc).port n).fails + 1 then ((s.tick cyc).retrainFailed n).linkDown n else (s.tick cyc).retrainFailed n) := by
  change execLinkRetrain cyc n width s = _
  refine (if_neg ?_).trans (if_pos ?_)
  · simpa using on
  · simp [up, fails]

theorem exec_linkDown_up (up : ((s.tick cyc).port n).up = true) : exec (.linkDown cyc n) s = .next ((s.tick cyc).linkDown n) := by
  change execLinkDown cyc n s = _
  simp [execLinkDown, on, up]
theorem exec_linkDown_down (down : ((s.tick cyc).port n).up = false) : exec (.linkDown cyc n) s = .next (s.tick cyc) := by
  change execLinkDown cyc n s = _
  simp [execLinkDown, on, down]

theorem exec_delayMeasure_up (q : Nat) (up : ((s.tick cyc).port n).up = true) :
    exec (.delayMeasure cyc n q) s = .next ((s.tick cyc).set ((s.tick cyc).portField F.LD_PORT_n_DELAY_NS n) (min 4095 (q / 8))) := by
  change execDelayMeasure cyc n q s = _
  simp [execDelayMeasure, on, up]
theorem exec_delayMeasure_down (q : Nat) (down : ((s.tick cyc).port n).up = false) : exec (.delayMeasure cyc n q) s = .next (s.tick cyc) := by
  change execDelayMeasure cyc n q s = _
  simp [execDelayMeasure, on, down]

end

/-- An event of a port tells the host alone. -/
theorem State.linkEvent_facing (s : State) (kind n cause : Nat) : s.facing (s.linkEvent kind n cause) := s.emit_facing ..
theorem State.linkEvent_regs (s : State) (kind n cause : Nat) : keepsPastLost s.regs (s.linkEvent kind n cause).regs := s.emit_regs ..

/-- A link that retrains changes its port, its width in the register, the counter, and what the host is told (R354). -/
theorem State.retrained_spec (u : State) (n width : Nat) (wf : tabWf u.regs = true) : (∃ regs host, u.retrained n width = State.setPort
      { u with regs := regs, host := host } n { u.port n with width := max (u.port n).width width, retrained := true, replays := 0, fails := 0 })
    ∧ (u.retrained n width).get (F.LD_RETRAIN_COUNT.ld (u.portLd n)) = min (u.get (F.LD_RETRAIN_COUNT.ld (u.portLd n)) + 1) (2 ^ 32 - 1) := by
  unfold State.retrained
  extract_lets p w v
  have counted : v.get (F.LD_RETRAIN_COUNT.ld (u.portLd n)) = min (u.get (F.LD_RETRAIN_COUNT.ld (u.portLd n)) + 1) (2 ^ 32 - 1) :=
    State.get_count_ld (u.setPort n _) F.LD_RETRAIN_COUNT (u.portLd n) 1 wf rfl rfl
  split
  · exact ⟨⟨_, _, rfl⟩, counted⟩
  · generalize shown : (if p.hello = true then v else v.set (v.portField F.LD_PORT_n_WIDTH n) w) = x
    have frame : ∃ regs, x = { v with regs := regs } := by
      rw [← shown]; split
      · exact ⟨_, rfl⟩
      · exact ⟨_, rfl⟩
    have kept : x.get (F.LD_RETRAIN_COUNT.ld (u.portLd n)) = v.get (F.LD_RETRAIN_COUNT.ld (u.portLd n)) := by
      rw [← shown]; split
      · rfl
      · exact v.get_counter_of_port F.LD_PORT_n_WIDTH F.LD_RETRAIN_COUNT n w rfl (by decide)
    obtain ⟨regs, rfl⟩ := frame
    refine ⟨⟨_, _, State.linkEvent_facing _ _ _ _⟩, ?_⟩
    rw [← counted, ← kept]
    exact (State.linkEvent_regs _ _ _ _).2 _ (Nat.le_trans (by decide : 0x104 ≤ 0x240028) (Nat.le_add_right _ _))

/-! ## Links that go down -/

/-- A link that is down, before the loss is reported or the mirror's reader ends. -/
def State.downed (u : State) (n : Nat) : State :=
  let v := ((u.count (F.LD_LINK_DOWN_COUNT.ld (u.portLd n)) 1).linkEvent Ev.linkDown n 0).setPort n Port.reset
  (v.set (v.portField F.LD_PORT_n_UP n) 0).set (v.portField F.LD_PORT_n_WIDTH n) 0

theorem State.downed_eq (u : State) (n : Nat) : ∃ regs host, u.downed n = State.setPort { u with regs := regs, host := host } n Port.reset := by
  unfold State.downed
  have told := State.facing_trans (u.count_facing (F.LD_LINK_DOWN_COUNT.ld (u.portLd n)) 1) (State.linkEvent_facing _ Ev.linkDown n 0)
  generalize State.linkEvent _ Ev.linkDown n 0 = w at told ⊢
  rw [told]
  exact ⟨_, _, rfl⟩

/-- A state that came by noting and reporting lost links: members departed, links noted as lost, flits sent. -/
def State.losesLinks (s t : State) : Prop :=
  t = { s with free := t.free, run := t.run, fab := { s.fab with ports := t.fab.ports, members := t.fab.members, lost := t.fab.lost } }
    ∧ ∀ m, (s.port m).sends (t.port m)

theorem State.sends.losesLinks {s t : State} (h : s.sends t) : s.losesLinks t := ⟨by rw [h.1], h.2⟩
theorem State.losesLinks_trans {s t u : State} (h : s.losesLinks t) (k : t.losesLinks u) : s.losesLinks u :=
  ⟨by rw [k.1, h.1], fun m => Port.sends_trans (h.2 m) (k.2 m)⟩

theorem State.reportLoss_sends (s : State) (n peer : Nat) : s.sends (s.reportLoss n peer) := by
  unfold State.reportLoss
  split
  · exact s.sends_refl
  · split
    · exact s.sendFlit_sends _ _
    · exact s.sends_refl

/-- A flag changes the run alone. -/
theorem State.flag_eq (s : State) (g : Flags → Flags) : s.flag g = { s with run := (s.flag g).run } := by
  unfold State.flag; split <;> rfl

/-- A departure empties a position and flags the measure (R368). -/
theorem State.depart_eq (s : State) (seat : Nat) : ∃ members run, s.depart seat = { s with run := run, fab := { s.fab with members := members } } := by
  unfold State.depart
  split
  · exact ⟨_, _, State.flag_eq _ _⟩
  · exact ⟨_, _, rfl⟩

theorem State.noteLoss_losesLinks (s : State) (seat n peer : Nat) : s.losesLinks (s.noteLoss seat n peer) := by
  unfold State.noteLoss
  extract_lets l fab noted left
  have noting : s.losesLinks noted := ⟨rfl, State.sends_of_ports rfl⟩
  have leaving : s.losesLinks left := by
    obtain ⟨members, run, departed⟩ := noted.depart_eq peer
    simp only [left, departed]
    exact ⟨rfl, State.sends_of_ports rfl⟩
  clear_value noted left
  split
  · exact State.losesLinks_trans leaving (State.sends_foldl _ (fun t k => t.sendFlit_sends k _) _ left).losesLinks
  · exact noting

/-- A fabric link's loss is reported and noted (R367, R368). -/
theorem State.linkDown_fabric (u : State) (n : Nat) (fabric : n < 16) : (u.downed n).losesLinks (u.linkDown n) := by
  have notTwin : isTwin n = false := by simp [isTwin]; omega
  unfold State.linkDown
  simp only [notTwin, Bool.false_eq_true, if_false]
  change (u.downed n).losesLinks (if _ then (u.downed n).reportLoss n _ else ((u.downed n).reportLoss n _).noteLoss _ n _)
  have told := ((u.downed n).reportLoss_sends n (u.get (u.portField F.LD_PORT_n_PEER_SEAT n))).losesLinks
  split
  · exact told
  · exact State.losesLinks_trans told (State.noteLoss_losesLinks ..)

/-- A twin link's loss ends the mirror's reader alone (R380, R406). -/
theorem State.linkDown_twin (u : State) (n : Nat) (twin : isTwin n = true) : ∃ regs cel, u.linkDown n = { u.downed n with regs := regs, cel := cel } := by
  unfold State.linkDown
  simp only [twin, if_true]
  change ∃ regs cel, (if (u.downed n).twinUp = true then u.downed n else ((u.downed n).endReader 1).set F.CEL_STATUS_MIRROR_UP 0) = _
  unfold State.endReader
  repeat' split
  all_goals exact ⟨_, _, rfl⟩


/-- What every loss of a link leaves (R367). -/
structure LinkLost (u t : State) (n : Nat) : Prop where
  port : t.port n = Port.reset
  others : ∀ m, m ≠ n → (t.port m).up = (u.port m).up ∧ (t.port m).width = (u.port m).width
  twin : 16 ≤ n → t.fab.members = u.fab.members ∧ t.fab.lost = u.fab.lost ∧ t.run = u.run
  frame : t = { u with free := t.free, regs := t.regs, host := t.host, run := t.run, cel := t.cel
                       fab := { u.fab with ports := t.fab.ports, members := t.fab.members, lost := t.fab.lost } }

theorem State.linkDown_lost (u : State) (n : Nat) (inside : n < u.fab.ports.length) (real : n < 18) : LinkLost u (u.linkDown n) n := by
  obtain ⟨regs, host, down⟩ := u.downed_eq n
  have reset : (u.downed n).port n = Port.reset := by rw [down]; exact State.port_setPort_same _ _ inside
  have others (m : Nat) (other : m ≠ n) : (u.downed n).port m = u.port m := by rw [down]; exact State.port_setPort_ne _ _ other
  by_cases fabric : n < 16
  · obtain ⟨frame, sent⟩ := u.linkDown_fabric n fabric
    refine ⟨?_, fun m other => ?_, fun twin => absurd fabric (Nat.not_lt.mpr twin), ?_⟩
    · rw [(sent n).2 (by rw [reset]; rfl), reset]
    · rw [(sent m).1, others m other]; exact ⟨rfl, rfl⟩
    · rw [frame, down]; rfl
  · have twin : isTwin n = true := by simp [isTwin]; omega
    obtain ⟨regs', cel, gone⟩ := u.linkDown_twin n twin
    rw [gone, down]
    rw [down] at reset others
    exact ⟨reset, fun m other => ⟨congrArg Port.up (others m other), congrArg Port.width (others m other)⟩, fun _ => ⟨rfl, rfl, rfl⟩, rfl⟩

/-- What a retrained link leaves once its HELLO is sent (R354). -/
structure LinkRetrained (u t : State) (n width : Nat) : Prop where
  port : (t.port n).width = max (u.port n).width width ∧ (t.port n).up = (u.port n).up ∧ (t.port n).retrained = true
    ∧ (t.port n).replays = 0 ∧ (t.port n).fails = 0
  others : ∀ m, m ≠ n → t.port m = u.port m
  count : t.get (F.LD_RETRAIN_COUNT.ld (u.portLd n)) = min (u.get (F.LD_RETRAIN_COUNT.ld (u.portLd n)) + 1) (2 ^ 32 - 1)
  frame : t = { u with free := t.free, regs := t.regs, host := t.host, fab := { u.fab with ports := t.fab.ports } }

theorem State.retrained_hello (u : State) (n width : Nat) (inside : n < u.fab.ports.length) (wf : tabWf u.regs = true) :
    LinkRetrained u ((u.retrained n width).sendHello n) n width := by
  obtain ⟨⟨regs, host, frame⟩, counted⟩ := u.retrained_spec n width wf
  obtain ⟨still, sent⟩ := (u.retrained n width).sendHello_sends n
  have before : (u.retrained n width).port n
      = { u.port n with width := max (u.port n).width width, retrained := true, replays := 0, fails := 0 } := by
    rw [frame]; exact State.port_setPort_same _ _ inside
  have port := (sent n).1
  rw [before] at port
  refine ⟨?_, fun m other => ?_, ?_, ?_⟩
  · rw [port]; exact ⟨rfl, rfl, rfl, rfl, rfl⟩
  · rw [State.sendHello_ne _ other, frame]; exact State.port_setPort_ne _ _ other
  · rw [← counted, still]; rfl
  · rw [still, frame]; rfl

/-- What a link that came up leaves once its HELLO `h` is sent (R354, R361). -/
structure LinkTrained (u t : State) (n width : Nat) (h : Flit) : Prop where
  hello : flOp h = Op.hello ∧ flClass h = 3
  port : t.port n = { Port.reset with up := true, width := width, credits := [1024, 1024, 512, 63], owed := [0, 0, 0, 0]
                                      replay := [(0, h)], txSeq := 1, since := 1 }
  others : ∀ m, m ≠ n → t.port m = u.port m
  regs : t.regs = ((u.set (u.portField F.LD_PORT_n_UP n) 1).set (u.portField F.LD_PORT_n_WIDTH n) width).regs
  lost : ∀ x, x ∈ t.fab.lost ↔ x ∈ u.fab.lost ∧ ¬ (x.1 = u.seat ∧ x.2.1 = n)
  frame : t = { u with regs := t.regs, fab := { u.fab with ports := t.fab.ports, lost := t.fab.lost } }

theorem State.trained_hello (u : State) (n width : Nat) (inside : n < u.fab.ports.length) :
    ∃ h, LinkTrained u ((u.trained n width).sendHello n) n width h := by
  obtain ⟨h, op, cls, sent⟩ := u.sendHello_trained width inside
  rw [sent]
  refine ⟨h, ⟨op, cls⟩, ?_, fun m other => ?_, rfl, fun x => ?_, rfl⟩
  · exact State.port_setPort_same _ _ (by simpa [State.trained, State.setPort] using inside)
  · exact (State.port_setPort_ne _ _ other).trans (State.port_setPort_ne { u with fab := { u.fab with lost := _ } } _ other)
  · simp only [State.trained, State.setPort, State.set_fab, List.mem_filter, Bool.not_eq_true', Bool.and_eq_false_iff, beq_eq_false_iff_ne, not_and_or, ne_eq]

/-- Settles O50: a link comes up with its HELLO sent, retrains or fails to, goes down with all it held, and measures its delay. -/
theorem linksUpDown : Obligations.LinksUpDown := by
  intro s cyc n width q u p may on ports real
  have on := s.tick_dev cyc ▸ on
  have inside : n < u.fab.ports.length := ports ▸ real
  refine ⟨fun trains => ?_, exec_linkUp_not s cyc n width on, fun down => ⟨exec_linkRetrain_down s cyc n width on down,
    exec_linkDown_down s cyc n on down, exec_delayMeasure_down s cyc n on q down⟩, fun up narrower wf => ?_, fun up fails => ⟨fun first => ?_,
    fun second => ?_⟩, fun up => ?_, exec_delayMeasure_up s cyc n on q⟩
  · obtain ⟨h, ⟨op, cls⟩, port, others, regs, lost, frame⟩ := u.trained_hello n width inside
    exact ⟨_, h, exec_linkUp_may s cyc n width on trains, op, cls, port, others, regs, lost, frame⟩
  · obtain ⟨⟨wider, still, again, replays, good⟩, others, count, frame⟩ := u.retrained_hello n width inside wf
    refine ⟨_, exec_linkRetrain s cyc n width on up narrower, wider, still.trans up, again, replays, good, count, others, ?_⟩
    rw [frame]
    exact ⟨rfl, rfl, rfl, rfl, rfl, rfl, rfl⟩
  · rw [exec_linkRetrain_fails s cyc n width on up fails, if_neg (show ¬ 2 ≤ p.fails + 1 by omega)]
    rfl
  · rw [exec_linkRetrain_fails s cyc n width on up fails, if_pos (show 2 ≤ p.fails + 1 by omega)]
    exact ⟨rfl, ((u.retrainFailed n).linkDown_lost n (by simpa [State.retrainFailed, State.setPort] using inside) real).port⟩
  · obtain ⟨port, others, twin, frame⟩ := u.linkDown_lost n inside real
    refine ⟨_, exec_linkDown_up s cyc n on up, port, others, twin, ?_⟩
    rw [frame]
    exact ⟨rfl, rfl, rfl, rfl, rfl, rfl⟩

end Sys2Proof.Machine

/-! PROOF. Forming a domain, joining it and departing from it: HELLO, MEMBER and ROUTE messages, leaders (R361 to R369, R380). -/
namespace Sys2Proof.Machine

/-! ## Fields that share a word -/

/-- A field beside the one written in the same word reads as before. -/
theorem fget_fset_beside (t : Tab) (f g : Field) (v : Nat) (wf : tabWf t = true) (same : g.off = f.off) (pos : 0 < f.w) (fits : f.lo + f.w ≤ 32)
    (nonempty : 0 < g.w) (inside : g.lo + g.w ≤ 32) (apart : g.lo + g.w ≤ f.lo ∨ f.lo + f.w ≤ g.lo) : fget (fset t f v) g = fget t g := by
  have wordF : f.words = 1 := by unfold Field.words; omega
  have wordG : g.words = 1 := by unfold Field.words; omega
  have stored : tGet (fset t f v) f.off = setBits (tGet t f.off) f.lo f.w v % 2 ^ 32 := by
    simp [fset, wordF, rdWords, wrWords, tGet_tSet t wf]
  refine Nat.eq_of_testBit_eq fun i => ?_
  simp only [fget, wordG, rdWords, Nat.mul_zero, Nat.add_zero, testBit_bits, same, stored, Nat.testBit_mod_two_pow, testBit_setBits]
  by_cases read : i < g.w
  · rw [if_neg (by omega), decide_eq_true (show g.lo + i < 32 by omega), Bool.true_and]
  · simp [read]

theorem State.seat_setSeat (s : State) (seat : Nat) (wf : tabWf s.regs = true) : (s.setSeat seat).seat = seat % 2 ^ 12 := by
  have beside (t : Tab) (f : Field) (v : Nat) := fget_fset_beside t f F.LD_SEAT_SEAT v
  simp only [State.seat, State.get, State.setSeat, State.set]
  rw [beside _ F.LD_SEAT_FORMED 1 (fset_wf _ _ _ (fset_wf _ _ _ wf)) rfl (by decide) (by decide) (by decide) (by decide) (by decide),
    beside _ F.LD_SEAT_COORD _ (fset_wf _ _ _ wf) rfl (by decide) (by decide) (by decide) (by decide) (by decide),
    fget_fset_word _ _ _ wf (by decide) (by decide), F.LD_SEAT_SEAT]

/-! ## Members -/

theorem State.draw_sends (s : State) : s.sends s.draw.2 := ⟨rfl, State.sends_of_ports rfl⟩
theorem State.tellMembers_sends (s : State) (op : Nat) : s.sends (s.tellMembers op) := by
  refine State.sends_foldl _ (fun t m => ?_) _ s
  extract_lets v p
  split
  · exact t.draw_sends
  · exact State.sends_trans t.draw_sends (State.sendFlit_sends ..)

/-- A state that came by forming the domain and sending its members their seats and routes. -/
def State.forms (s t : State) : Prop :=
  t = { s with free := t.free, regs := t.regs, fab := { s.fab with ports := t.fab.ports, formed := t.fab.formed, routeNext := t.fab.routeNext } }
    ∧ ∀ m, (s.port m).sends (t.port m)

theorem State.sends.forms {s t : State} (h : s.sends t) : s.forms t := ⟨by rw [h.1], h.2⟩
theorem State.forms_trans {s t u : State} (h : s.forms t) (k : t.forms u) : s.forms u :=
  ⟨by rw [k.1, h.1], fun m => Port.sends_trans (h.2 m) (k.2 m)⟩
theorem State.forms_members {s t : State} (h : s.forms t) : t.fab.members = s.fab.members := by rw [h.1]

theorem State.set_forms (s : State) (f : Field) (v : Nat) : s.forms (s.set f v) := ⟨rfl, State.sends_of_ports rfl⟩
theorem State.setSeat_forms (s : State) (seat : Nat) : s.forms (s.setSeat seat) :=
  State.forms_trans (State.forms_trans (s.set_forms _ _) (State.set_forms _ _ _)) (State.set_forms _ _ _)

theorem State.ownRoutes_forms (s : State) : s.forms s.ownRoutes :=
  State.forms_trans ⟨rfl, State.sends_of_ports rfl⟩
    (State.tellMembers_sends { s with fab := { s.fab with routeNext := [s.routeTable, s.routeTable] } } Op.route).forms

theorem State.tryForm_forms (s : State) : s.forms s.tryForm := by
  unfold State.tryForm
  split
  · extract_lets seated
    have taken : s.forms seated := State.forms_trans (s.setSeat_forms s.ownSeat) (State.set_forms _ _ _)
    clear_value seated
    have complete : seated.forms { seated with fab := { seated.fab with formed := true } } := ⟨rfl, State.sends_of_ports rfl⟩
    exact State.forms_trans (State.forms_trans (State.forms_trans taken complete) (State.tellMembers_sends _ Op.member).forms)
      (State.ownRoutes_forms _)
  · exact s.sends_refl.forms

/-- A state that came by adding members and forming the domain. -/
def State.admits (s t : State) : Prop :=
  t = { s with free := t.free, regs := t.regs
               fab := { s.fab with ports := t.fab.ports, members := t.fab.members, lost := t.fab.lost, joins := t.fab.joins
                                   pendingJoin := t.fab.pendingJoin, formed := t.fab.formed, routeNext := t.fab.routeNext } }
    ∧ ∀ m, (s.port m).sends (t.port m)

theorem State.forms.admits {s t : State} (h : s.forms t) : s.admits t := ⟨by rw [h.1], h.2⟩
theorem State.admits_trans {s t u : State} (h : s.admits t) (k : t.admits u) : s.admits u :=
  ⟨by rw [k.1, h.1], fun m => Port.sends_trans (h.2 m) (k.2 m)⟩

theorem State.tryForm_formed (s : State) (formed : s.fab.formed = true) : s.tryForm = s := if_neg (by simp [formed])

/-- The members with `seat` occupied by the device `serial`. -/
def Fabric.seated (f : Fabric) (seat serial : Nat) : List Member := (f.members.filter fun m => m.seat != seat) ++ [⟨seat, serial, true⟩]

theorem State.hasMember_seated {s : State} {f : Fabric} {seat serial : Nat} (members : s.fab.members = f.seated seat serial) : s.hasMember seat = true := by
  simp [State.hasMember, members, Fabric.seated]

/-- A member of a formed domain joins: the next build places it (R366). -/
theorem State.addMember_joins (s : State) (seat serial : Nat) (formed : s.fab.formed = true) (vacant : s.hasMember seat = false) :
    ∃ lost, s.addMember seat serial = { s with fab := { s.fab with
      lost := lost, members := s.fab.seated seat serial, joins := s.fab.joins ++ [seat], pendingJoin := true } } := by
  refine ⟨s.fab.lost.filter fun x => x.1 != seat && x.2.2 != seat, ?_⟩
  unfold State.addMember
  rw [if_neg (by simp [vacant]), State.tryForm_formed]
  · simp [formed, Fabric.seated]
  · exact formed

theorem State.addMember_known (s : State) (seat serial : Nat) (known : s.hasMember seat = true) : s.addMember seat serial = s := if_pos known

theorem State.addMember_admits (s : State) (seat serial : Nat) : s.admits (s.addMember seat serial) ∧ (s.addMember seat serial).hasMember seat = true := by
  unfold State.addMember
  by_cases known : s.hasMember seat = true
  · rw [if_pos known]
    exact ⟨s.sends_refl.forms.admits, known⟩
  · rw [if_neg known]
    extract_lets fab t
    have formed := t.tryForm_forms
    exact ⟨State.admits_trans ⟨rfl, State.sends_of_ports rfl⟩ formed.admits, State.hasMember_seated (f := s.fab) (State.forms_members formed)⟩

/-- After a departure the position is empty, and every member left was one before (R368). -/
theorem State.depart_members (s : State) (seat : Nat) : ∀ m ∈ (s.depart seat).fab.members, m.occupied = true →
    m ∈ s.fab.members ∧ m.seat ≠ seat := by
  unfold State.depart
  split
  · rw [State.flag_fab]
    intro m emptied occupied
    obtain ⟨x, member, rfl⟩ := List.mem_map.mp emptied
    split at occupied
    · contradiction
    · rw [if_neg ‹_›]
      exact ⟨member, ‹_›⟩
  · rename_i vacant
    intro m member occupied
    refine ⟨member, fun same => vacant ?_⟩
    exact List.any_eq_true.mpr ⟨m, member, by simp [same, occupied]⟩

theorem State.depart_vacant (s : State) (seat : Nat) (vacant : ∀ m ∈ s.fab.members, m.seat = seat → m.occupied = false) : s.depart seat = s :=
  if_neg (by simpa using vacant)

theorem State.depart_flags (s : State) {seat : Nat} {m : Member} (member : m ∈ s.fab.members) (same : m.seat = seat) (occupied : m.occupied = true) :
    (s.run.sealSent = false → (s.depart seat).run.flags.depart = true) ∧ (s.run.sealSent = true → (s.depart seat).run.nextFlags.depart = true) := by
  unfold State.depart
  rw [if_pos (List.any_eq_true.mpr ⟨m, member, by simp [same, occupied]⟩)]
  unfold State.flag
  exact ⟨fun early => by rw [if_neg (by simp [early])]; rfl, fun late => by rw [if_pos late]; rfl⟩

/-! ## Leaders -/

/-- The device may take the lead (R362). -/
def State.mayLead (u : State) : Prop := (u.dev = .running ∨ u.dev = .draining) ∧ u.fab.leader = false ∧ u.get F.LD_DOMAIN_CFG_ID ≠ 0
  ∧ u.fab.lowSerial = u.fuses.serial ∧ u.get F.LD_FORM_CFG_SETTLE ≤ u.fab.held

/-- The leader is gone: three edges without LDR (R369). -/
def State.leaderGone (u : State) : Prop := (u.dev = .running ∨ u.dev = .draining) ∧ u.fab.formed = true ∧ u.fab.leader = false ∧ 3 ≤ u.fab.noLdr

/-- The state of a new leader. -/
def State.elected (u : State) : State :=
  let v : State := { u with fab := { u.fab with leader := true } }
  ((v.set F.LD_SEAT_LEADER 1).addMember u.ownSeat u.fuses.serial).tryForm

/-- The domain without its leader, before it elects again. -/
def State.unled (u : State) : State :=
  match u.fab.members.find? fun m => m.serial == u.fab.lowSerial && m.occupied with
  | some m => u.depart m.seat
  | none => u.flag Flags.setDepart

theorem State.elected_admits (u : State) : State.admits { u with fab := { u.fab with leader := true } } u.elected ∧ u.elected.hasMember u.ownSeat = true := by
  unfold State.elected
  extract_lets fab v
  obtain ⟨added, own⟩ := (v.set F.LD_SEAT_LEADER 1).addMember_admits u.ownSeat u.fuses.serial
  have formed := ((v.set F.LD_SEAT_LEADER 1).addMember u.ownSeat u.fuses.serial).tryForm_forms
  refine ⟨State.admits_trans (v.set_forms _ _).admits (State.admits_trans added formed.admits), ?_⟩
  rw [State.hasMember, State.forms_members formed]
  exact own

theorem State.unled_spec (u : State) : (∃ members run, u.unled = { u with run := run, fab := { u.fab with members := members } })
    ∧ ∀ m ∈ u.unled.fab.members, m.occupied = true → m ∈ u.fab.members := by
  unfold State.unled
  split
  · exact ⟨u.depart_eq _, fun m member occupied => (u.depart_members _ m member occupied).1⟩
  · exact ⟨⟨_, _, u.flag_eq _⟩, fun m member _ => by rwa [State.flag_fab] at member⟩

section
variable (s : State) (cyc : Nat) (on : s.dev ≠ .off)
include on

theorem exec_leaderElected : ((s.tick cyc).mayLead → exec (.leaderElected cyc) s = .next (s.tick cyc).elected)
    ∧ (¬ (s.tick cyc).mayLead → exec (.leaderElected cyc) s = .next (s.tick cyc)) := by
  change (_ → execLeaderElected cyc s = _) ∧ (_ → execLeaderElected cyc s = _)
  generalize moved : s.tick cyc = u
  have may : (u.ringsOn && !u.fab.leader && u.get F.LD_DOMAIN_CFG_ID != 0 && u.fab.lowSerial == u.fuses.serial
      && decide (u.get F.LD_FORM_CFG_SETTLE ≤ u.fab.held)) = true ↔ u.mayLead := by
    simp [State.mayLead, State.ringsOn, and_assoc]
  unfold execLeaderElected
  rw [moved, if_neg (by simpa using on)]
  exact ⟨fun h => if_pos (may.mpr h), fun h => if_neg (mt may.mp h)⟩

theorem exec_leaderLost : ((s.tick cyc).leaderGone → exec (.leaderLost cyc) s = .next { (s.tick cyc).unled with
      fab := { (s.tick cyc).unled.fab with lowSerial := (s.tick cyc).unled.fuses.serial, held := 0, noLdr := 0 } })
    ∧ (¬ (s.tick cyc).leaderGone → exec (.leaderLost cyc) s = .next (s.tick cyc)) := by
  change (_ → execLeaderLost cyc s = _) ∧ (_ → execLeaderLost cyc s = _)
  generalize moved : s.tick cyc = u
  have gone : (u.ringsOn && u.fab.formed && !u.fab.leader && decide (3 ≤ u.fab.noLdr)) = true ↔ u.leaderGone := by
    simp [State.leaderGone, State.ringsOn, and_assoc]
  unfold execLeaderLost
  rw [moved, if_neg (by simpa using on)]
  exact ⟨fun h => if_pos (gone.mpr h), fun h => if_neg (mt gone.mp h)⟩

/-! ## MEMBER and ROUTE messages -/

theorem exec_memberReceived_idle (msg : MemberMsg) (off : (s.tick cyc).ringsOn = false) : exec (.memberReceived cyc msg) s = .next (s.tick cyc) :=
  (if_neg (by simpa using on)).trans (if_pos (by simp [off]))

theorem exec_memberReceived_present (seat serial : Nat) (rings : (s.tick cyc).ringsOn = true) : exec (.memberReceived cyc (.present seat serial)) s
    = .next (if (s.tick cyc).fab.leader = true then (s.tick cyc).addMember seat serial
      else if (s.tick cyc).fab.formed = true then (s.tick cyc).occupy seat serial else s.tick cyc) := by
  rw [apply_ite Host.Outcome.next, apply_ite Host.Outcome.next]
  exact (if_neg (by simpa using on)).trans (if_neg (by simp [rings]))

theorem exec_memberReceived_linkLoss (seat port peer : Nat) (rings : (s.tick cyc).ringsOn = true) :
    exec (.memberReceived cyc (.linkLoss seat port peer)) s
      = .next (if (s.tick cyc).fab.leader = true then (s.tick cyc).noteLoss seat port peer else s.tick cyc) := by
  rw [apply_ite Host.Outcome.next]
  exact (if_neg (by simpa using on)).trans (if_neg (by simp [rings]))

theorem exec_memberReceived_departed (seat : Nat) (rings : (s.tick cyc).ringsOn = true) :
    exec (.memberReceived cyc (.departed seat)) s = .next ((s.tick cyc).depart seat) :=
  (if_neg (by simpa using on)).trans (if_neg (by simp [rings]))

end

/-- The entries of a routing table from `first` on, numbered from `k`, written to it. -/
def routeEntries (first k : Nat) (entries : List Nat) (t : Tab) : Tab := (entries.zipIdx k).foldl (fun t e => tSet t (first + e.2) (e.1 % 32)) t

/-- The entries are read at their destinations, and every other destination as before. -/
theorem tGet_routeEntries (first j : Nat) (entries : List Nat) : ∀ (k : Nat) (t : Tab), tabWf t = true → tGet (routeEntries first k entries t) j
    = if first + k ≤ j ∧ j < first + k + entries.length then entries.getD (j - (first + k)) 0 % 32 else tGet t j := by
  induction entries with
  | nil => intro k t _; exact (if_neg (by simp)).symm
  | cons e es ih =>
    intro k t wf
    change tGet (routeEntries first (k + 1) es (tSet t (first + k) (e % 32))) j = _
    rw [ih (k + 1) _ (tSet_wf t _ _ wf), tGet_tSet t wf, List.length_cons]
    by_cases here : j = first + k
    · rw [if_neg (by omega), if_pos here, if_pos (by omega), here, Nat.sub_self, List.getD_cons_zero]
    · by_cases later : first + (k + 1) ≤ j ∧ j < first + (k + 1) + es.length
      · rw [if_pos later, if_pos (by omega), show j - (first + k) = j - (first + (k + 1)) + 1 by omega, List.getD_cons_succ]
      · rw [if_neg later, if_neg here, if_neg (by omega)]

theorem exec_routeReceived (s : State) (cyc ld first : Nat) (entries : List Nat) (on : s.dev ≠ .off) : exec (.routeReceived cyc ld first entries) s
    = .next (if (s.tick cyc).ringsOn = true then { s.tick cyc with fab := { (s.tick cyc).fab with
        routeNext := (s.tick cyc).fab.routeNext.set ld (routeEntries first 0 entries ((s.tick cyc).fab.routeNext.getD ld [])) } } else s.tick cyc) := by
  rw [apply_ite Host.Outcome.next]
  exact if_neg (by simpa using on)


/-! ## HELLO (R361 to R366) -/

/-- The state in which a HELLO on fabric port `n` is answered: its port was heard, and the peer's seat and port are in the register. -/
def State.heardHello (u : State) (n h : Nat) : State :=
  let v := u.setPort n { u.port n with heard := true, miss := 0, retrained := false, peerSerial := bits h 0 64 }
  (v.set (v.portField F.LD_PORT_n_PEER_SEAT n) (bits h 96 12)).set (v.portField F.LD_PORT_n_PEER_PORT n) (bits h 110 5)

/-- What hearing a HELLO leaves to those who answer it. -/
structure HelloHeard (u v : State) (n h : Nat) : Prop where
  port : v.port n = { u.port n with heard := true, miss := 0, retrained := false, peerSerial := bits h 0 64 }
  inside : n < v.fab.ports.length
  below : u.belowPorts v
  wf : tabWf v.regs = true
  refused : v.get (F.LD_JOIN_REFUSED_COUNT.ld (u.portLd n)) = u.get (F.LD_JOIN_REFUSED_COUNT.ld (u.portLd n))
  frame : v = { u with regs := v.regs, fab := { u.fab with ports := v.fab.ports } }

theorem State.heardHello_heard (u : State) (n h : Nat) (inside : n < u.fab.ports.length) (wf : tabWf u.regs = true) :
    HelloHeard u (u.heardHello n h) n h := by
  unfold State.heardHello
  extract_lets p v
  refine ⟨u.port_setPort_same _ inside, ?_, State.belowPorts_trans (v.set_port_belowPorts F.LD_PORT_n_PEER_SEAT n (bits h 96 12) (by decide)) ?_,
    fset_wf _ _ _ (fset_wf _ _ _ wf), ?_, rfl⟩
  · simpa [v, State.setPort] using inside
  · exact State.set_port_belowPorts _ F.LD_PORT_n_PEER_PORT n _ (by decide)
  · exact (State.get_counter_of_port _ F.LD_PORT_n_PEER_PORT F.LD_JOIN_REFUSED_COUNT n _ rfl (by decide)).trans
      (v.get_counter_of_port F.LD_PORT_n_PEER_SEAT F.LD_JOIN_REFUSED_COUNT n _ rfl (by decide))

/-- Compatibility rests on fuses and on registers below those of the ports (R363). -/
theorem State.incompatible_belowPorts {s t : State} (h : s.belowPorts t) (fuses : t.fuses = s.fuses) (x : Nat) : t.incompatible x = s.incompatible x := by
  have same (g : Field) (low : g.off + 4 * g.words ≤ 0x240100) := State.get_belowPorts h g low
  have dims : t.dimsField = s.dimsField :=
    congrArg (· % 2 ^ 16) (rdWords_congr t.regs s.regs 1 _ fun i hi => h _ (by simp only [F.LD_TOPO_CFG_DIM0]; omega))
  have accepted : t.acceptWord = s.acceptWord := rdWords_congr t.regs s.regs 8 _ fun i hi => h _ (by simp only [F.HUB_FEAT_ACCEPT_k_BITS]; omega)
  simp only [State.incompatible, fuses, same (F.CALLER_BEAT_CFG_STRICT.caller 14) (by decide), same F.PLC_LSCALE_CFG_FIXED (by decide),
    same F.PLC_LSCALE_CFG_INIT_EXP (by decide), dims, accepted]

section
variable (s : State) (cyc n : Nat) (payload : BitVec 896) (on : s.dev ≠ .off)
include on

theorem exec_helloReceived_down (down : ((s.tick cyc).port n).up = false) : exec (.helloReceived cyc n payload) s = .next (s.tick cyc) :=
  (if_neg (by simpa using on)).trans (if_pos (by simp [down]))

theorem exec_helloReceived_other (up : ((s.tick cyc).port n).up = true)
    (other : ((s.tick cyc).port n).retrained = true ∧ ((s.tick cyc).port n).peerSerial ≠ bits payload.toNat 0 64) :
    exec (.helloReceived cyc n payload) s = .next ((s.tick cyc).linkDown n) :=
  (if_neg (by simpa using on)).trans ((if_neg (by simp [up])).trans (if_pos (by simpa using other)))

/-- A HELLO on a fabric port that is up, of the device it had before, is heard and then answered. -/
theorem exec_helloReceived_fabric (up : ((s.tick cyc).port n).up = true)
    (same : ¬ (((s.tick cyc).port n).retrained = true ∧ ((s.tick cyc).port n).peerSerial ≠ bits payload.toNat 0 64)) (fabric : n < 16) :
    let v := (s.tick cyc).heardHello n payload.toNat
    exec (.helloReceived cyc n payload) s = if bits payload.toNat 64 32 ≠ v.get F.LD_DOMAIN_CFG_ID then .next (v.helloOnly n)
      else if v.portDim (bits payload.toNat 110 5) ≠ v.portDim n ∨ v.portPlus (bits payload.toNat 110 5) = v.portPlus n then .next (v.miscable n)
      else if v.incompatible payload.toNat ≠ 0 then .next (v.refuseJoin n (v.incompatible payload.toNat)) else .next (v.takeHello n payload.toNat) := by
  have notTwin : ¬ isTwin n = true := by simp [isTwin]; omega
  exact (if_neg (by simpa using on)).trans ((if_neg (by simp [up])).trans ((if_neg (by simpa using same)).trans (if_neg notTwin)))

end

section
variable {u v : State} {n h : Nat} (heard : HelloHeard u v n h)
include heard

theorem HelloHeard.fab : v.fab = { u.fab with ports := v.fab.ports } := congrArg State.fab heard.frame
theorem HelloHeard.way : v.portDim = u.portDim ∧ v.portPlus = u.portPlus := by
  rw [heard.frame]; exact ⟨rfl, rfl⟩
theorem HelloHeard.portLd : v.portLd n = u.portLd n := by rw [heard.frame]; rfl

/-- An answer that changes the port, registers and what the host is told, and nothing else. -/
theorem HelloHeard.answered {t : State} {q : Port} (answer : ∃ regs host, t = State.setPort { v with regs := regs, host := host } n q) :
    t.port n = q ∧ t.fab = { u.fab with ports := t.fab.ports } ∧ t.run = u.run ∧ t.dev = u.dev := by
  obtain ⟨regs, host, rfl⟩ := answer
  refine ⟨State.port_setPort_same _ _ heard.inside, ?_, (congrArg State.run heard.frame :), (congrArg State.dev heard.frame :)⟩
  exact congrArg (fun f : Fabric => { f with ports := v.fab.ports.set n q }) heard.fab

end

/-! ### Links held -/

theorem State.helloOnly_eq (v : State) (n : Nat) : ∃ regs, v.helloOnly n
    = State.setPort { v with regs := regs } n { v.port n with hello := true, held := true } := ⟨_, rfl⟩

/-- A miscabled fabric link is taken down and held, once (R364). -/
theorem State.miscable_fabric (v : State) (n : Nat) (fabric : n < 16) (fresh : (v.port n).held = false) : ∃ regs host, v.miscable n
    = State.setPort { v with regs := regs, host := host } n { v.port n with up := false, held := true } := by
  have notTwin : ¬ isTwin n = true := by simp [isTwin]; omega
  have told := v.linkEvent_facing Ev.miscable n 0
  unfold State.miscable
  rw [if_neg (by simp [fresh]), if_neg notTwin]
  generalize v.linkEvent Ev.miscable n 0 = w at told ⊢
  rw [told]
  exact ⟨_, _, rfl⟩

/-- A refused device is counted, and its link is held for HELLO flits alone (R363). -/
theorem State.refuseJoin_spec (v : State) (n cause : Nat) (wf : tabWf v.regs = true) (fresh : (v.port n).held = false) :
    (∃ regs host, v.refuseJoin n cause = State.setPort { v with regs := regs, host := host } n { v.port n with hello := true, held := true })
      ∧ (v.refuseJoin n cause).get (F.LD_JOIN_REFUSED_COUNT.ld (v.portLd n))
        = min (v.get (F.LD_JOIN_REFUSED_COUNT.ld (v.portLd n)) + 1) (2 ^ 32 - 1) := by
  have counted := v.get_count_ld F.LD_JOIN_REFUSED_COUNT (v.portLd n) 1 wf rfl rfl
  have told := (v.count (F.LD_JOIN_REFUSED_COUNT.ld (v.portLd n)) 1).linkEvent_facing Ev.joinRefused n cause
  have kept := ((v.count (F.LD_JOIN_REFUSED_COUNT.ld (v.portLd n)) 1).linkEvent_regs Ev.joinRefused n cause).2
    (F.LD_JOIN_REFUSED_COUNT.ld (v.portLd n)) (Nat.le_trans (by decide : 0x104 ≤ 0x24003C) (Nat.le_add_right _ _))
  unfold State.refuseJoin
  rw [if_neg (by simp [fresh])]
  generalize State.linkEvent _ Ev.joinRefused n cause = w at told kept ⊢
  have die : w.portLd n = v.portLd n := by rw [told]; rfl
  refine ⟨?_, ?_⟩
  · rw [told]; exact ⟨_, _, rfl⟩
  · rw [← counted, ← die]
    exact (State.get_counter_of_port (w.setPort n _) F.LD_PORT_n_WIDTH F.LD_JOIN_REFUSED_COUNT n 3 rfl (by decide)).trans (die ▸ kept)

/-! ### Devices that join -/

/-- A lower serial heard restarts the election of an unformed domain (R362). -/
def State.hearLow (s : State) (low : Nat) : State :=
  if low < s.fab.lowSerial then { s with fab := { s.fab with lowSerial := low, held := 0, leader := s.fab.leader && s.fab.formed } } else s

/-- A compatible link carries every flit, and a member's serial is known from its HELLO. -/
def State.openLink (s : State) (n h : Nat) : State :=
  let v := s.setPort n { s.port n with hello := false, held := false }
  (v.set (v.portField F.LD_PORT_n_WIDTH n) (v.port n).width).knowSerial (bits h 96 12) (bits h 0 64)

theorem State.openLink_port (s : State) (n h : Nat) (inside : n < s.fab.ports.length) :
    (s.openLink n h).port n = { s.port n with hello := false, held := false } := s.port_setPort_same _ inside
theorem State.openLink_belowPorts (s : State) (n h : Nat) : s.belowPorts (s.openLink n h) :=
  State.set_port_belowPorts (s.setPort n _) F.LD_PORT_n_WIDTH n _ (by decide)

/-- At a member all whose members' serials are known, opening a link changes none of them. -/
theorem State.openLink_members (s : State) (n h : Nat) (known : ∀ m ∈ s.fab.members, m.serial < 2 ^ 64) : (s.openLink n h).fab.members = s.fab.members :=
  (List.map_congr_left fun m member => if_neg fun unheard => by have := known m member; omega).trans (List.map_id _)

theorem State.takeHello_eq (s : State) (n h : Nat) : let v := (s.hearLow (bits h 192 64)).openLink n h
    let peer := v.neighbour v.ownSeat (v.portDim n) (v.portPlus n)
    s.takeHello n h = if v.fab.leader = true then (match v.fab.members.find? fun m => m.occupied && m.seat == peer with
        | some m => if m.serial = bits h 0 64 then v else if v.fab.formed = true then v.refuseJoin n 0 else v.miscable n
        | none => if (v.fab.members.any fun m => m.occupied && m.serial == bits h 0 64) = true then v.miscable n else v.addMember peer (bits h 0 64))
      else if v.seat = 0xFFF ∧ bits h 96 12 ≠ 0xFFF then v.adopt (bits h 96 12) (bits h 110 5) (bits h 0 64) else v := rfl

/-- A device at a vacant position next to the leader of a formed domain, of a serial no member has, becomes a member that joins (R366). -/
theorem State.takeHello_joins (s : State) (n h : Nat) (inside : n < s.fab.ports.length) (heard : s.fab.lowSerial ≤ bits h 192 64)
    (leader : s.fab.leader = true) (formed : s.fab.formed = true) (known : ∀ m ∈ s.fab.members, m.serial < 2 ^ 64)
    (vacant : ∀ m ∈ s.fab.members, m.occupied = true →
      m.seat ≠ s.neighbour s.ownSeat (s.portDim n) (s.portPlus n) ∧ m.serial ≠ bits h 0 64) : let t := s.takeHello n h
    let peer := s.neighbour s.ownSeat (s.portDim n) (s.portPlus n)
    (t.port n).hello = false ∧ t.fab.members = s.fab.seated peer (bits h 0 64) ∧ t.fab.joins = s.fab.joins ++ [peer] ∧ t.fab.pendingJoin = true := by
  intro t peer
  have same : s.hearLow (bits h 192 64) = s := if_neg (Nat.not_lt.mpr heard)
  have taken := s.takeHello_eq n h
  rw [same] at taken
  have port := s.openLink_port n h inside
  have members := s.openLink_members n h known
  have below := s.openLink_belowPorts n h
  have joins : (s.openLink n h).fab.joins = s.fab.joins := rfl
  have leads : (s.openLink n h).fab.leader = true := leader
  have forms : (s.openLink n h).fab.formed = true := formed
  have there : (s.openLink n h).neighbour (s.openLink n h).ownSeat ((s.openLink n h).portDim n) ((s.openLink n h).portPlus n) = peer := by
    rw [State.ownSeat_belowPorts below, State.neighbour_belowPorts below]; rfl
  generalize s.openLink n h = v at *
  have nobody : v.fab.members.find? (fun m => m.occupied && m.seat == peer) = none := by
    rw [members, List.find?_eq_none]; intro m member; simpa using fun occupied => (vacant m member occupied).1
  have unknown : v.fab.members.any (fun m => m.occupied && m.serial == bits h 0 64) = false := by
    rw [members, List.any_eq_false]; intro m member; simpa using fun occupied => (vacant m member occupied).2
  have free : v.hasMember peer = false := by
    rw [State.hasMember, members, List.any_eq_false]; intro m member; simpa using fun seat occupied => (vacant m member occupied).1 seat
  obtain ⟨lost, joined⟩ := v.addMember_joins peer (bits h 0 64) forms free
  simp only [leads, if_true, there, nobody, unknown, Bool.false_eq_true, if_false] at taken
  rw [show t = _ from taken.trans joined]
  refine ⟨?_, ?_, ?_, rfl⟩
  · exact congrArg Port.hello port
  · simp only [Fabric.seated, members]
  · simp only [joins]

/-- A device that adopts a domain calibrates in it at the position its link leads to, in the domain's epoch (R34, R366). -/
theorem State.adopt_spec (v : State) (seat port serial : Nat) (wf : tabWf v.regs = true) : let t := v.adopt seat port serial
    t.fab.formed = true ∧ t.fab.pendingJoin = true ∧ t.fab.calibrating = 64 ∧ t.clk = { v.clk with epoch := t.clk.epoch } ∧ t.fab.ports = v.fab.ports
      ∧ t.seat = v.neighbour seat (v.portDim port) (v.portPlus port) % 2 ^ 12 := by
  intro t
  have place := v.seat_setSeat (v.neighbour seat (v.portDim port) (v.portPlus port)) wf
  have clock : (v.setSeat (v.neighbour seat (v.portDim port) (v.portPlus port))).clk = v.clk := by simp only [State.setSeat, State.set_clk]
  have fab : (v.setSeat (v.neighbour seat (v.portDim port) (v.portPlus port))).fab = v.fab := by simp only [State.setSeat, State.set_fab]
  refine ⟨rfl, rfl, rfl, ?_⟩
  simp only [t, State.adopt]
  generalize v.setSeat _ = w at place clock fab ⊢
  rw [← clock, ← fab]
  exact ⟨rfl, rfl, place⟩

theorem State.hearLow_follower (s : State) (low : Nat) (follows : s.fab.leader = false) :
    ∃ lowSerial held, s.hearLow low = { s with fab := { s.fab with lowSerial := lowSerial, held := held } } := by
  unfold State.hearLow
  split
  · exact ⟨low, 0, by simp only [follows, Bool.false_and]⟩
  · exact ⟨_, _, rfl⟩

/-- A device without a seat takes the position that a formed member's link leads to (R366). -/
theorem State.takeHello_adopts (s : State) (n h : Nat) (inside : n < s.fab.ports.length) (wf : tabWf s.regs = true) (follows : s.fab.leader = false)
    (unseated : s.seat = 0xFFF) (member : bits h 96 12 ≠ 0xFFF) : let t := s.takeHello n h
    t.fab.formed = true ∧ t.fab.pendingJoin = true ∧ t.fab.calibrating = 64 ∧ t.clk = { s.clk with epoch := t.clk.epoch } ∧ (t.port n).hello = false
      ∧ t.seat = s.neighbour (bits h 96 12) (s.portDim (bits h 110 5)) (s.portPlus (bits h 110 5)) % 2 ^ 12 := by
  intro t
  obtain ⟨low, held, heard⟩ := s.hearLow_follower (bits h 192 64) follows
  have taken := s.takeHello_eq n h
  rw [heard] at taken
  generalize opened : State.openLink _ n h = v at taken
  have port : v.port n = { s.port n with hello := false, held := false } := by rw [← opened]; exact State.openLink_port _ n h inside
  have below : s.belowPorts v := by rw [← opened]; exact State.openLink_belowPorts _ n h
  have clock : v.clk = s.clk := by rw [← opened]; rfl
  have leads : ¬ v.fab.leader = true := by rw [← opened]; exact Bool.eq_false_iff.mp follows
  have way : v.portDim = s.portDim ∧ v.portPlus = s.portPlus := by rw [← opened]; exact ⟨rfl, rfl⟩
  have written : tabWf v.regs = true := by rw [← opened]; exact fset_wf _ _ _ wf
  have adopted : t = v.adopt (bits h 96 12) (bits h 110 5) (bits h 0 64) :=
    taken.trans ((if_neg leads).trans (if_pos ⟨(State.seat_belowPorts below).trans unseated, member⟩))
  obtain ⟨formed, pending, calibrating, epoch, ports, seat⟩ := v.adopt_spec (bits h 96 12) (bits h 110 5) (bits h 0 64) written
  rw [← adopted] at formed pending calibrating epoch ports seat
  refine ⟨formed, pending, calibrating, clock ▸ epoch, ?_, ?_⟩
  · rw [State.port, ports]; exact congrArg Port.hello port
  · rw [seat, State.neighbour_belowPorts below, way.1, way.2]

/-- A HELLO on a fabric port is answered by the first check that decides it, in the order of R363 and R364. -/
theorem helloReceived_fabric (s : State) (cyc n : Nat) (payload : BitVec 896) (on : s.dev ≠ .off) (up : ((s.tick cyc).port n).up = true)
    (same : ¬ (((s.tick cyc).port n).retrained = true ∧ ((s.tick cyc).port n).peerSerial ≠ bits payload.toNat 0 64)) (fabric : n < 16)
    (inside : n < (s.tick cyc).fab.ports.length) (wf : tabWf (s.tick cyc).regs = true) : ∃ v, HelloHeard (s.tick cyc) v n payload.toNat
      ∧ exec (.helloReceived cyc n payload) s = if bits payload.toNat 64 32 ≠ (s.tick cyc).get F.LD_DOMAIN_CFG_ID then .next (v.helloOnly n)
        else if (s.tick cyc).portDim (bits payload.toNat 110 5) ≠ (s.tick cyc).portDim n
          ∨ (s.tick cyc).portPlus (bits payload.toNat 110 5) = (s.tick cyc).portPlus n then .next (v.miscable n)
        else if (s.tick cyc).incompatible payload.toNat ≠ 0 then .next (v.refuseJoin n ((s.tick cyc).incompatible payload.toNat))
        else .next (v.takeHello n payload.toNat) := by
  have heard := (s.tick cyc).heardHello_heard n payload.toNat inside wf
  have answered := exec_helloReceived_fabric s cyc n payload on up same fabric
  refine ⟨_, heard, ?_⟩
  rw [answered, State.get_belowPorts heard.below F.LD_DOMAIN_CFG_ID (by decide), State.incompatible_belowPorts heard.below rfl]
  rfl

section
variable {u v : State} {n h : Nat} (heard : HelloHeard u v n h)
include heard

/-- A device at the leader's vacant neighbour position, heard by its HELLO, joins. -/
theorem HelloHeard.joins (low : u.fab.lowSerial ≤ bits h 192 64)
    (leader : u.fab.leader = true) (formed : u.fab.formed = true) (known : ∀ m ∈ u.fab.members, m.serial < 2 ^ 64)
    (vacant : ∀ m ∈ u.fab.members, m.occupied = true →
      m.seat ≠ u.neighbour u.ownSeat (u.portDim n) (u.portPlus n) ∧ m.serial ≠ bits h 0 64) : let t := v.takeHello n h
    let peer := u.neighbour u.ownSeat (u.portDim n) (u.portPlus n)
    (t.port n).hello = false ∧ t.fab.members = u.fab.seated peer (bits h 0 64) ∧ t.fab.joins = u.fab.joins ++ [peer] ∧ t.fab.pendingJoin = true := by
  have members : v.fab.members = u.fab.members := (congrArg Fabric.members heard.fab :)
  have joins : v.fab.joins = u.fab.joins := (congrArg Fabric.joins heard.fab :)
  have peer : v.neighbour v.ownSeat (v.portDim n) (v.portPlus n) = u.neighbour u.ownSeat (u.portDim n) (u.portPlus n) := by
    rw [State.ownSeat_belowPorts heard.below, State.neighbour_belowPorts heard.below, heard.way.1, heard.way.2]
  have joined := v.takeHello_joins n h heard.inside (by rw [heard.fab]; exact low) (by rw [heard.fab]; exact leader) (by rw [heard.fab]; exact formed)
    (by rwa [members]) (by rwa [members, peer])
  simp only [peer, Fabric.seated, members, joins] at joined
  exact joined

/-- A device without a seat that hears a member adopts its domain. -/
theorem HelloHeard.adopts (follows : u.fab.leader = false) (unseated : u.seat = 0xFFF) (member : bits h 96 12 ≠ 0xFFF) : let t := v.takeHello n h
    t.fab.formed = true ∧ t.fab.pendingJoin = true ∧ t.fab.calibrating = 64 ∧ t.clk = { u.clk with epoch := t.clk.epoch } ∧ (t.port n).hello = false
      ∧ t.seat = u.neighbour (bits h 96 12) (u.portDim (bits h 110 5)) (u.portPlus (bits h 110 5)) % 2 ^ 12 := by
  have adopted := v.takeHello_adopts n h heard.inside heard.wf (by rw [heard.fab]; exact follows)
    ((State.seat_belowPorts heard.below).trans unseated) member
  rwa [State.neighbour_belowPorts heard.below, heard.way.1, heard.way.2, show v.clk = u.clk from (congrArg State.clk heard.frame :)] at adopted

end

/-- Settles O52: each HELLO by the first check that decides it, then MEMBER messages, leaders and routes. -/
theorem membership : Obligations.Membership := by
  intro s cyc n payload u h p peer other on' on
  have on := s.tick_dev cyc ▸ on
  have rings : on' ↔ u.ringsOn = true := by simp [on', State.ringsOn]
  refine ⟨exec_helloReceived_down s cyc n payload on, exec_helloReceived_other s cyc n payload on, fun up same fabric ports wf => ?_,
    fun seat ring => ?_, fun idle => ?_, fun seat port peer ring => exec_memberReceived_linkLoss s cyc on seat port peer (rings.mp ring), ?_, ?_,
    fun ld first es ring inside wf => ?_⟩
  · have inside : n < u.fab.ports.length := by omega
    obtain ⟨v, heard, answered⟩ := helloReceived_fabric s cyc n payload on up same fabric inside wf
    intro dom wired
    have wires (h : wired) : ¬ (u.portDim (bits payload.toNat 110 5) ≠ u.portDim n ∨ u.portPlus (bits payload.toNat 110 5) = u.portPlus n) :=
      not_or.mpr ⟨not_not_intro h.1, h.2⟩
    have fresh (free : p.held = false) : (v.port n).held = false := by rw [heard.port]; exact free
    refine ⟨fun foreign => ?_, fun ours wrong free => ?_, fun ours right differs free => ?_,
      fun ours right fits low leads formed known vacant => ?_, fun ours right fits follows unseated member => ?_⟩
    · obtain ⟨regs, held⟩ := v.helloOnly_eq n
      obtain ⟨port, fab, -, -⟩ := heard.answered ⟨regs, v.host, held⟩
      refine ⟨_, answered.trans (if_pos foreign), by rw [port], by rw [port], fab, ?_⟩
      rw [held, heard.frame]
      rfl
    · obtain ⟨port, fab, run, dev⟩ := heard.answered (v.miscable_fabric n fabric (fresh free))
      refine ⟨_, answered.trans ((if_neg (not_not_intro ours)).trans (if_pos ?_)), by rw [port], by rw [port], fab, run, dev⟩
      exact (not_and_or.mp wrong).imp_right not_not.mp
    · obtain ⟨answer, counted⟩ := v.refuseJoin_spec n (u.incompatible payload.toNat) heard.wf (fresh free)
      obtain ⟨port, fab, run, dev⟩ := heard.answered answer
      rw [heard.portLd, heard.refused] at counted
      exact ⟨_, answered.trans ((if_neg (not_not_intro ours)).trans ((if_neg (wires right)).trans (if_pos differs))),
        by rw [port], by rw [port], counted, fab, run, dev⟩
    · exact ⟨_, answered.trans ((if_neg (not_not_intro ours)).trans ((if_neg (wires right)).trans (if_neg (not_not_intro fits)))),
        heard.joins low leads formed known vacant⟩
    · exact ⟨_, answered.trans ((if_neg (not_not_intro ours)).trans ((if_neg (wires right)).trans (if_neg (not_not_intro fits)))),
        heard.adopts follows unseated member⟩
  · have ring := rings.mp ring
    have departed := exec_memberReceived_departed s cyc on seat ring
    refine ⟨fun m member same occupied => ?_, fun vacant => departed.trans (congrArg _ (u.depart_vacant seat vacant)), fun serial => ?_⟩
    · obtain ⟨members, run, frame⟩ := u.depart_eq seat
      obtain ⟨early, late⟩ := u.depart_flags member same occupied
      exact ⟨_, departed, fun x left there => Bool.eq_false_iff.mpr fun full => (u.depart_members seat x left full).2 there, early, late,
        by rw [frame], by rw [frame]⟩
    · have present := exec_memberReceived_present s cyc on seat serial ring
      refine ⟨fun follows alone => ?_, fun follows formed => ?_, fun leads known => ?_, fun leads formed vacant => ?_⟩
      · rw [present, if_neg (Bool.eq_false_iff.mp follows), if_neg (Bool.eq_false_iff.mp alone)]
      · rw [present, if_neg (Bool.eq_false_iff.mp follows), if_pos formed]; rfl
      · rw [present, if_pos leads, State.addMember_known _ _ _ known]
      · obtain ⟨lost, joined⟩ := u.addMember_joins seat serial formed vacant
        rw [present, if_pos leads, joined]
        exact ⟨_, rfl, rfl, rfl, rfl, rfl⟩
  · have off : u.ringsOn = false := Bool.eq_false_iff.mpr (mt rings.mpr idle)
    refine ⟨fun msg => exec_memberReceived_idle s cyc on msg off, fun ld first es => ?_⟩
    rw [exec_routeReceived s cyc ld first es on, if_neg (Bool.eq_false_iff.mp off)]
  · obtain ⟨takes, stays⟩ := exec_leaderElected s cyc on
    obtain ⟨⟨frame, sent⟩, own⟩ := u.elected_admits
    exact ⟨fun elect => ⟨_, takes elect, by rw [frame], own, by rw [frame], by rw [frame], by rw [frame], fun m => by rw [(sent m).1]; rfl⟩, stays⟩
  · obtain ⟨goes, stays⟩ := exec_leaderLost s cyc on
    obtain ⟨⟨members, run, frame⟩, left⟩ := u.unled_spec
    refine ⟨fun gone => ⟨_, goes gone, ?_, rfl, rfl, left, ?_, ?_, ?_⟩, stays⟩
    all_goals rw [show (s.tick cyc).unled = _ from frame]
  · have entry (j : Nat) : tGet ((u.fab.routeNext.set ld (routeEntries first 0 es (u.fab.routeNext.getD ld []))).getD ld []) j = _ :=
      (congrArg (tGet · j) (by simp [inside])).trans (tGet_routeEntries first j es 0 _ wf)
    refine ⟨_, (exec_routeReceived s cyc ld first es on).trans (congrArg _ (if_pos (rings.mp ring))), rfl, fun i less => ?_,
      fun k beside => ?_, fun j apart => ?_⟩
    · exact (entry (first + i)).trans ((if_pos (by omega)).trans (by simp))
    · exact (entry k).trans (if_neg (by omega))
    · simp [List.getD_eq_getElem?_getD, List.getElem?_set_ne apart.symm, u]

end Sys2Proof.Machine

section
/-! PROOF. What every command of the table keeps: each answers a next state, takes nothing from the queue behind it, and
changes no fuse unless it commits the anti-rollback count (O2, O4). -/
namespace Sys2Proof.Machine

theorem Answers.mono {P Q : State → Prop} {o : Host.Outcome State Fault Refusal} (answered : Answers P o) (h : ∀ t, P t → Q t) :
    Answers Q o := by
  cases o with
  | next t => exact h t answered
  | fault _ => exact answered
  | refused _ => exact answered

theorem Answers.exists_next {P : State → Prop} {o : Host.Outcome State Fault Refusal} (answered : Answers P o) :
    ∃ t, o = .next t ∧ P t := by
  cases o with
  | next t => exact ⟨t, rfl, answered⟩
  | fault _ => exact answered.elim
  | refused _ => exact answered.elim

/-- What a commit makes of the fuses: the count goes up to the running image's SVN. -/
def State.committed (s : State) : Fuses := { s.fuses with arb := max s.fuses.arb (min s.boot.svn 64) }

/-- The command is one of the three that commit the anti-rollback count (R478). -/
def IsCommit (c : Instr) : Prop :=
  ∃ cyc, c = .secArbCommit cyc ∨ c = .pldmRequest cyc .arbCommit
    ∨ ∃ size v, v.getLsbD 7 = true ∧ c = .registerWrite cyc 0x40000 size v

/-- Command `c` leaves the queue alone, and the fuses too, but for a commit in UNCONFIGURED. -/
def State.AfterQueue (s : State) (c : Instr) (t : State) : Prop :=
  t.pending = s.pending ∧ (t.fuses = s.fuses ∨ (s.dev = .unconfigured ∧ IsCommit c ∧ t.fuses = s.committed))

theorem Answers.quiet {s : State} {c : Instr} {o : Host.Outcome State Fault Refusal}
    (kept : Answers (fun t => t.pending = s.pending ∧ t.fuses = s.fuses) o) : Answers (s.AfterQueue c) o :=
  kept.mono fun _ ⟨queue, fuses⟩ => ⟨queue, .inl fuses⟩

theorem State.tick_boot (s : State) (cyc : Nat) : (s.tick cyc).boot = s.boot :=
  congrArg (·.boot) (s.tick_besideBodies cyc)

theorem State.commitArb_fuses (s : State) : s.commitArb.fuses = s.committed := by
  simp [State.commitArb, State.committed]

theorem State.tick_committed (s : State) (cyc : Nat) : (s.tick cyc).committed = s.committed := by
  simp [State.committed, State.tick_boot]

theorem barAddr_sec {off : Nat} {a : BarAddr} (served : barAddr off = some a) (sec : a.blk = .sec) : off = 0x40000 + a.rel := by
  unfold barAddr at served
  split_ifs at served <;> simp only [Option.some.injEq] at served
  all_goals (subst served; simp at sec ⊢)
  omega

/-- A word write commits only at SEC_ARB, with COMMIT 1, in UNCONFIGURED. -/
theorem State.writeWord_fuses (s : State) (off v : Nat) : (s.writeWord off v).fuses = s.fuses
    ∨ (off = 0x40000 ∧ bit v 7 = true ∧ s.dev = .unconfigured ∧ (s.writeWord off v).fuses = s.committed) := by
  by_cases arb : off = 0x40000 ∧ bit v 7 = true ∧ s.dev = .unconfigured
  · obtain ⟨rfl, commit, dev⟩ := arb
    refine .inr ⟨rfl, commit, dev, ?_⟩
    simp [State.writeWord, State.barServed, barAddr, commit, dev, State.commitArb_fuses]
  · refine .inl ?_
    unfold State.writeWord
    simp only []
    split
    · rfl
    split
    · rfl
    next a served =>
    split
    · rfl
    split
    case h_11 blk rel =>
      have at0 : off = 0x40000 := by rw [barAddr_sec served blk, rel]
      rw [if_neg fun h => arb ⟨at0, by simpa using h⟩]
    all_goals ((repeat' split) <;> simp)

theorem execSecArbCommit_arb (cyc : Nat) (s : State) : Answers (s.AfterQueue (.secArbCommit cyc)) (execSecArbCommit cyc s) := by
  unfold execSecArbCommit
  simp only [answers_ite, answers_next]
  split
  · exact ⟨rfl, .inl rfl⟩
  split
  next dev =>
    refine ⟨by simp, .inr ⟨by simpa using dev, ⟨cyc, .inl rfl⟩, ?_⟩⟩
    rw [State.commitArb_fuses, State.tick_committed]
  · exact ⟨by simp, .inl (by simp)⟩

theorem execPldmRequest_arb (cyc : Nat) (req : PldmReq) (s : State) :
    Answers (s.AfterQueue (.pldmRequest cyc req)) (execPldmRequest cyc req s) := by
  unfold execPldmRequest
  simp only [answers_ite, answers_next]
  split
  · exact ⟨rfl, .inl rfl⟩
  split
  · exact ⟨by simp, .inl (by simp)⟩
  cases req with
  | arbCommit =>
    simp only [answers_ite, answers_next]
    split
    next dev =>
      refine ⟨by simp, .inr ⟨by simpa using dev, ⟨cyc, .inr (.inl rfl)⟩, ?_⟩⟩
      rw [State.commitArb_fuses, State.tick_committed]
    · exact ⟨by simp, .inl (by simp)⟩
  | discovery | numericSensor _ | stateSensor => exact ⟨by simp, .inl (by simp)⟩

/-- Of the words a write of BAR0 carries only the first can lie at SEC_ARB: the second has an odd word address. -/
theorem State.writeBar0_fuses (s : State) (off size v : Nat) : (s.writeBar0 off size v).fuses = s.fuses
    ∨ (off = 0x40000 ∧ v.testBit 7 = true ∧ s.dev = .unconfigured ∧ (s.writeBar0 off size v).fuses = s.committed) := by
  have low : bit (v % 2 ^ 32) 7 = v.testBit 7 := by
    rw [bit, Nat.testBit_mod_two_pow]
    rfl
  have first := s.writeWord_fuses off (v % 2 ^ 32)
  rw [low] at first
  unfold State.writeBar0
  split
  · exact first
  split
  next aligned =>
    obtain second | ⟨at0, -⟩ := (s.writeWord off (v % 2 ^ 32)).writeWord_fuses (off + 4) (v / 2 ^ 32 % 2 ^ 32)
    · rw [second]
      exact first
    · omega
  · exact .inl rfl

theorem execRegisterWrite_arb (cyc off size : Nat) (v : Word64) (s : State) :
    Answers (s.AfterQueue (.registerWrite cyc off size v)) (execRegisterWrite cyc off size v s) := by
  unfold execRegisterWrite
  simp only [answers_ite, answers_next]
  split
  · exact ⟨rfl, .inl rfl⟩
  refine ⟨by simp, ?_⟩
  obtain same | ⟨rfl, commit, dev, fuses⟩ := (s.tick cyc).writeBar0_fuses off size v.toNat
  · exact .inl (by simpa using same)
  · refine .inr ⟨by simpa using dev, ⟨cyc, .inr (.inr ⟨size, v, commit, rfl⟩)⟩, ?_⟩
    rw [fuses, State.tick_committed]

/-- Every command answers a next state with the queue as it was and the fuses too, but for a commit in UNCONFIGURED. -/
theorem exec_afterQueue (c : Instr) (s : State) : Answers (s.AfterQueue c) (exec c s) :=
  match c with
  | .powerOnReset cyc .. => (execPowerOnReset_keeps cyc ..).quiet
  | .bootComplete .. => (execBootComplete_keeps ..).quiet
  | .t1ClearDone .. => (execT1ClearDone_keeps ..).quiet
  | .pwrgdFall .. => (execPwrgdFall_keeps ..).quiet
  | .coldReset .. => (execColdReset_keeps ..).quiet
  | .perstRelease .. => (execPerstRelease_keeps ..).quiet
  | .hubResetCold .. => (execHubResetCold_keeps ..).quiet
  | .hubResetWarm .. => (execHubResetWarm_keeps ..).quiet
  | .pldmReset .. => (execPldmReset_keeps ..).quiet
  | .domainReset .. => (execDomainReset_keeps ..).quiet
  | .hostBootImage .. => (execHostBootImage_keeps ..).quiet
  | .inputVoltageFault .. => (execInputVoltageFault_keeps ..).quiet
  | .thermalShutdown .. => (execThermalShutdown_keeps ..).quiet
  | .inputPowerOverTdp .. => (execInputPowerOverTdp_keeps ..).quiet
  | .refclk156Loss .. => (execRefclk156Loss_keeps ..).quiet
  | .hostLinkLost .. => (execHostLinkLost_keeps ..).quiet
  | .hostLinkRetrain .. => (execHostLinkRetrain_keeps ..).quiet
  | .featAcceptWrite .. => (execFeatAcceptWrite_keeps ..).quiet
  | .start .. => (execStart_keeps ..).quiet
  | .secArbCommit .. => execSecArbCommit_arb ..
  | .debugUnlock .. => (execDebugUnlock_keeps ..).quiet
  | .starveFlagClear .. => (execStarveFlagClear_keeps ..).quiet
  | .vecStickyClear .. => (execVecStickyClear_keeps ..).quiet
  | .errStatusWrite .. => (execErrStatusWrite_keeps ..).quiet
  | .errLogHeadWrite .. => (execErrLogHeadWrite_keeps ..).quiet
  | .planCfgWrite .. => (execPlanCfgWrite_keeps ..).quiet
  | .lrMulWrite .. => (execLrMulWrite_keeps ..).quiet
  | .arbRankWrite .. => (execArbRankWrite_keeps ..).quiet
  | .celRegWrite .. => (execCelRegWrite_keeps ..).quiet
  | .registerWrite .. => execRegisterWrite_arb ..
  | .hostLineWrite .. => (execHostLineWrite_keeps ..).quiet
  | .hostLinePoll .. => (execHostLinePoll_keeps ..).quiet
  | .descriptorFetch .. => (execDescriptorFetch_keeps ..).quiet
  | .badOpcode .. => (execBadOpcode_keeps ..).quiet
  | .nop .. => (execNop_keeps ..).quiet
  | .loadGraph .. => (execLoadGraph_keeps ..).quiet
  | .loadCard .. => (execLoadCard_keeps ..).quiet
  | .kill .. => (execKill_keeps ..).quiet
  | .scrubDone .. => (execScrubDone_keeps ..).quiet
  | .restore .. => (execRestore_keeps ..).quiet
  | .restoreDone .. => (execRestoreDone_keeps ..).quiet
  | .ship .. => (execShip_keeps ..).quiet
  | .stop .. => (execStop_keeps ..).quiet
  | .drainToHalt .. => (execDrainToHalt_keeps ..).quiet
  | .setBeat .. => (execSetBeat_keeps ..).quiet
  | .setCap .. => (execSetCap_keeps ..).quiet
  | .setPhrase .. => (execSetPhrase_keeps ..).quiet
  | .replan .. => (execReplan_keeps ..).quiet
  | .syncSignal .. => (execSyncSignal_keeps ..).quiet
  | .syncRead .. => (execSyncRead_keeps ..).quiet
  | .syncArm .. => (execSyncArm_keeps ..).quiet
  | .ingestStream .. => (execIngestStream_keeps ..).quiet
  | .ingestMb .. => (execIngestMb_keeps ..).quiet
  | .ingPosRead .. => (execIngPosRead_keeps ..).quiet
  | .paramWrite .. => (execParamWrite_keeps ..).quiet
  | .paramRead .. => (execParamRead_keeps ..).quiet
  | .goResponse .. => (execGoResponse_keeps ..).quiet
  | .msixModerationExpiry .. => (execMsixModerationExpiry_keeps ..).quiet
  | .cxlMemAccess .. => (execCxlMemAccess_keeps ..).quiet
  | .hostReadError .. => (execHostReadError_keeps ..).quiet
  | .spdmRequest .. => (execSpdmRequest_keeps ..).quiet
  | .pldmRequest .. => execPldmRequest_arb ..
  | .pldmFirmwareUpdate .. => (execPldmFirmwareUpdate_keeps ..).quiet
  | .beatEdge .. => (execBeatEdge_keeps ..).quiet
  | .seatReady .. => (execSeatReady_keeps ..).quiet
  | .figureStart .. => (execFigureStart_keeps ..).quiet
  | .figureComplete .. => (execFigureComplete_keeps ..).quiet
  | .vatWaitResume .. => (execVatWaitResume_keeps ..).quiet
  | .vatExpectLoad .. => (execVatExpectLoad_keeps ..).quiet
  | .slotSel .. => (execSlotSel_keeps ..).quiet
  | .syncSetAt .. => (execSyncSetAt_keeps ..).quiet
  | .rindStart .. => (execRindStart_keeps ..).quiet
  | .bankPowerDown .. => (execBankPowerDown_keeps ..).quiet
  | .commitCheck .. => (execCommitCheck_keeps ..).quiet
  | .eventBeatClose .. => (execEventBeatClose_keeps ..).quiet
  | .errorDetected .. => (execErrorDetected_keeps ..).quiet
  | .errorLogged .. => (execErrorLogged_keeps ..).quiet
  | .errorHandling .. => (execErrorHandling_keeps ..).quiet
  | .errorHandled .. => (execErrorHandled_keeps ..).quiet
  | .tsPacket .. => (execTsPacket_keeps ..).quiet
  | .clipDraw .. => (execClipDraw_keeps ..).quiet
  | .linkUp .. => (execLinkUp_keeps ..).quiet
  | .helloReceived .. => (execHelloReceived_keeps ..).quiet
  | .leaderElected .. => (execLeaderElected_keeps ..).quiet
  | .linkRetrain .. => (execLinkRetrain_keeps ..).quiet
  | .linkDown .. => (execLinkDown_keeps ..).quiet
  | .memberReceived .. => (execMemberReceived_keeps ..).quiet
  | .leaderLost .. => (execLeaderLost_keeps ..).quiet
  | .routeReceived .. => (execRouteReceived_keeps ..).quiet
  | .delayMeasure .. => (execDelayMeasure_keeps ..).quiet
  | .markerReceived .. => (execMarkerReceived_keeps ..).quiet
  | .beatOffsetLimit .. => (execBeatOffsetLimit_keeps ..).quiet
  | .flitReceived .. => (execFlitReceived_keeps ..).quiet
  | .flitCrcFail .. => (execFlitCrcFail_keeps ..).quiet
  | .linkControlFlit .. => (execLinkControlFlit_keeps ..).quiet
  | .linkControlSend .. => (execLinkControlSend_keeps ..).quiet
  | .accumulateWrite .. => (execAccumulateWrite_keeps ..).quiet
  | .slotArbitration .. => (execSlotArbitration_keeps ..).quiet
  | .arbStarve .. => (execArbStarve_keeps ..).quiet
  | .mr4Report .. => (execMr4Report_keeps ..).quiet
  | .extraRefresh _ _ _ offered displaced => (execExtraRefresh_keeps _ _ _ offered displaced s).quiet
  | .t1InlineEcc .. => (execT1InlineEcc_keeps ..).quiet
  | .patrolScrub .. => (execPatrolScrub_keeps ..).quiet
  | .scratchpadEcc .. => (execScratchpadEcc_keeps ..).quiet
  | .snapDone .. => (execSnapDone_keeps ..).quiet
  | .snapDomain .. => (execSnapDomain_keeps ..).quiet
  | .nandProgramFail .. => (execNandProgramFail_keeps ..).quiet
  | .mirrorDone .. => (execMirrorDone_keeps ..).quiet
  | .dieToDieRetry .. => (execDieToDieRetry_keeps ..).quiet
  | .shipDone .. => (execShipDone_keeps ..).quiet
  | .configurationRequest .. => (execConfigurationRequest_keeps ..).quiet

/-- Settles O1: both equations are the definition of `step`. -/
theorem stepRunsFrontCommand : Obligations.StepRunsFrontCommand := by
  unfold Obligations.StepRunsFrontCommand
  refine ⟨fun s c rest queue => ?_, fun s queue => ?_⟩ <;> rw [step, queue]

/-- Settles O4: no arm of `exec` ends in a fault or a refusal. -/
theorem everyCommandAnswers : Obligations.EveryCommandAnswers := by
  unfold Obligations.EveryCommandAnswers
  intro c s
  obtain ⟨t, answered, -⟩ := (exec_afterQueue c s).exists_next
  exact ⟨t, answered⟩


/-- The check of an image, in order: its length, its head, its key, its signature, its SVN. -/
theorem State.verifyImage_of_svn (s : State) (b : Bytes) (high : 64 < imgSvn b) :
    s.verifyImage b = 4 ∨ s.verifyImage b ∈ [1, 2, 3, 6] := by
  unfold State.verifyImage
  simp only [high, or_true, if_true]
  (repeat' split) <;> simp

theorem State.committed_bounds (s : State) : s.fuses.arb ≤ s.committed.arb ∧ (s.fuses.arb ≤ 64 → s.committed.arb ≤ 64) :=
  ⟨Nat.le_max_left _ _, fun fit => Nat.max_le.mpr ⟨fit, Nat.min_le_right _ _⟩⟩

theorem execSecArbCommit_commits (s : State) (cyc : Nat) (dev : s.dev = .unconfigured) :
    execSecArbCommit cyc s = .next (s.tick cyc).commitArb := by
  simp [execSecArbCommit, dev]

theorem execPldmRequest_commits (s : State) (cyc : Nat) (dev : s.dev = .unconfigured) :
    execPldmRequest cyc .arbCommit s = .next (s.tick cyc).commitArb := by
  simp [execPldmRequest, State.powered, dev]

/-- Settles O2: `exec_afterQueue` for the front command; the count a commit leaves is `State.committed`. -/
theorem fusesRiseOnly : Obligations.FusesRiseOnly := by
  unfold Obligations.FusesRiseOnly
  refine ⟨fun s t stepped => ?_, fun s cyc rest dev front => ?_, State.verifyImage_of_svn⟩
  · rw [step] at stepped
    split at stepped
    next empty =>
      cases stepped
      simp [empty]
    next c rest front =>
      obtain ⟨u, answered, queue, fuses⟩ := (exec_afterQueue c { s with pending := rest }).exists_next
      cases answered.symm.trans stepped
      refine ⟨by rw [queue, front]; rfl, ?_⟩
      obtain same | ⟨dev, ⟨cyc, commit⟩, raised⟩ := fuses
      · exact ⟨by rw [same], by rw [same], by rw [same]; exact id, fun differs => (differs (by rw [same])).elim⟩
      · obtain ⟨low, high⟩ := s.committed_bounds
        have raised : t.fuses = s.committed := raised
        rw [raised]
        exact ⟨rfl, low, high, fun _ => ⟨dev, rfl, cyc, by simpa [front] using commit⟩⟩
  · have raises : (State.tick { s with pending := rest } cyc).commitArb.fuses.arb = max s.fuses.arb (min s.boot.svn 64) := by
      rw [State.commitArb_fuses, State.tick_committed]
      rfl
    obtain front | front := front <;> rw [step, front]
    · exact ⟨_, execSecArbCommit_commits _ cyc dev, raises⟩
    · exact ⟨_, execPldmRequest_commits _ cyc dev, raises⟩

end Sys2Proof.Machine
end

section
-- The default proofs of `Sound.same` are read from its declaration: elaborated at once, the lemmas would all wait for one another.
set_option Elab.async false
/-! PROOF. Every operation of the machine and every command keep the stores canonical, the register words within 32 bits and the
fuses within their words (O60): one lemma `Sound.f` for each operation `f`, chained in the order in which `f` applies others. -/
namespace Sys2Proof.Machine

/-- What `State.wordsFit` asks of the fuses that a reset copies into registers. -/
def Fuses.fit (f : Fuses) : Prop := f.arb ≤ 64 ∧ f.sku + 16 * f.stepping < 2 ^ 32 ∧ f.revoked + 16 < 2 ^ 32

namespace State

/-- Canonical stores, register words within 32 bits and fuses within their words: `State.canonical` and `State.wordsFit`, store by store. -/
structure Sound (s : State) : Prop where
  regs : tabWf s.regs = true
  fits : wordsFit32 s.regs
  fuse : s.fuses.fit
  hostMem : memWf s.host.mem = true
  t0Mem : memWf s.t0.mem = true
  t0Sync : tabWf s.t0.sync = true
  t0Hub : tabWf s.t0.hub = true
  t1Mem : memWf s.t1.mem = true
  t1Pair : memWf s.t1.pair = true
  t1Tag : tabWf s.t1.tag = true
  t1Cnt : tabWf s.t1.cnt = true
  t1Touch0 : tabWf s.t1.touch0 = true
  t1Touch1 : tabWf s.t1.touch1 = true
  next : s.fab.routeNext.all tabWf = true

theorem sound_iff (s : State) : s.Sound ↔ s.canonical = true ∧ s.wordsFit := by
  simp only [State.canonical, State.wordsFit, Bool.and_eq_true]
  constructor
  · rintro ⟨regs, fits, fuse, mem, m0, sync, hub, m1, pair, tag, cnt, u0, u1, next⟩
    exact ⟨⟨⟨⟨⟨⟨⟨⟨⟨⟨⟨⟨regs, mem⟩, m0⟩, m1⟩, pair⟩, tag⟩, cnt⟩, u0⟩, u1⟩, sync⟩, hub⟩, next⟩, fits, fuse⟩
  · rintro ⟨⟨⟨⟨⟨⟨⟨⟨⟨⟨⟨⟨regs, mem⟩, m0⟩, m1⟩, pair⟩, tag⟩, cnt⟩, u0⟩, u1⟩, sync⟩, hub⟩, next⟩, fits, fuse⟩
    exact ⟨regs, fits, fuse, mem, m0, sync, hub, m1, pair, tag, cnt, u0, u1, next⟩

/-- A change of other parts keeps the stores. -/
theorem Sound.same {s : State} (h : s.Sound) {pending dev halt free pins fuses flash boot regs clk host err sec plan run t0 t1 ing fab cel}
    (sameRegs : regs = s.regs := by rfl) (sameFuses : fuses = s.fuses := by rfl) (hostMem : host.mem = s.host.mem := by rfl)
    (t0Mem : t0.mem = s.t0.mem := by rfl) (t0Sync : t0.sync = s.t0.sync := by rfl) (t0Hub : t0.hub = s.t0.hub := by rfl)
    (t1Mem : t1.mem = s.t1.mem := by rfl) (t1Pair : t1.pair = s.t1.pair := by rfl) (t1Tag : t1.tag = s.t1.tag := by rfl)
    (t1Cnt : t1.cnt = s.t1.cnt := by rfl) (t1Touch0 : t1.touch0 = s.t1.touch0 := by rfl) (t1Touch1 : t1.touch1 = s.t1.touch1 := by rfl)
    (next : fab.routeNext = s.fab.routeNext := by rfl) :
    Sound ⟨pending, dev, halt, free, pins, fuses, flash, boot, regs, clk, host, err, sec, plan, run, t0, t1, ing, fab, cel⟩ where
  regs := sameRegs ▸ h.regs
  fits := sameRegs ▸ h.fits
  fuse := sameFuses ▸ h.fuse
  hostMem := hostMem ▸ h.hostMem
  t0Mem := t0Mem ▸ h.t0Mem
  t0Sync := t0Sync ▸ h.t0Sync
  t0Hub := t0Hub ▸ h.t0Hub
  t1Mem := t1Mem ▸ h.t1Mem
  t1Pair := t1Pair ▸ h.t1Pair
  t1Tag := t1Tag ▸ h.t1Tag
  t1Cnt := t1Cnt ▸ h.t1Cnt
  t1Touch0 := t1Touch0 ▸ h.t1Touch0
  t1Touch1 := t1Touch1 ▸ h.t1Touch1
  next := next ▸ h.next

theorem Sound.ite {c : Prop} [Decidable c] {s t : State} (hs : s.Sound) (ht : t.Sound) : (if c then s else t).Sound := by
  split <;> assumption

theorem Sound.foldl {α : Type} {g : State → α → State} {l : List α} {s : State} (h : s.Sound) (step : ∀ t x, t.Sound → (g t x).Sound) :
    (l.foldl g s).Sound := by
  induction l generalizing s with
  | nil => exact h
  | cons x l ih => exact ih (step s x h)

theorem Sound.foldlFst {α β : Type} {g : State × β → α → State × β} {l : List α} {s : State × β} (h : s.1.Sound)
    (step : ∀ t x, t.1.Sound → (g t x).1.Sound) : (l.foldl g s).1.Sound := by
  induction l generalizing s with
  | nil => exact h
  | cons x l ih => exact ih (step s x h)

theorem Sound.iteFst {β : Type} {c : Prop} [Decidable c] {a b : State × β} (ha : a.1.Sound) (hb : b.1.Sound) : (if c then a else b).1.Sound := by
  split <;> assumption

theorem Sound.iteSnd {β : Type} {c : Prop} [Decidable c] {a b : β × State} (ha : a.2.Sound) (hb : b.2.Sound) : (if c then a else b).2.Sound := by
  split <;> assumption

/-! ## Writes of the stores -/

theorem foldl_tSet_wf {α : Type} (key val : α → Nat) (l : List α) {t : Tab} (wf : tabWf t = true) :
    tabWf (l.foldl (fun t x => tSet t (key x) (val x)) t) = true :=
  List.foldlRecOn (motive := fun t => tabWf t = true) l _ wf fun _ wf _ _ => tSet_wf _ _ _ wf

theorem routeTable_wf (s : State) : tabWf s.routeTable = true := foldl_tSet_wf _ _ _ rfl

theorem sWfFrom_mem {t : Tab} : ∀ {lo : Nat}, sWfFrom 0 lo t = true → ∀ e ∈ t, lo ≤ e.1 ∧ tGet t e.1 = e.2 := by
  induction t with
  | nil => exact fun _ e he => absurd he (List.not_mem_nil)
  | cons x t ih =>
    intro lo wf e he
    simp [sWfFrom] at wf
    obtain ⟨⟨hlo, -⟩, tail⟩ := wf
    rcases List.mem_cons.mp he with rfl | he
    · exact ⟨hlo, by simp [tGet, sGet]⟩
    · obtain ⟨above, val⟩ := ih tail e he
      exact ⟨by omega, by rw [← val]; exact if_neg (by omega)⟩

theorem fit_of_mem {t : Tab} (h : ∀ e ∈ t, e.2 < 2 ^ 32) : wordsFit32 t := by
  intro k
  induction t with
  | nil => exact Nat.two_pow_pos 32
  | cons x t ih =>
    unfold tGet sGet
    split
    · exact h x List.mem_cons_self
    · exact ih fun e he => h e (List.mem_cons_of_mem x he)

theorem filter_fit {t : Tab} (p : Nat × Nat → Bool) (wf : tabWf t = true) (fits : wordsFit32 t) : wordsFit32 (t.filter p) :=
  fit_of_mem fun e he => (sWfFrom_mem wf e (List.mem_of_mem_filter he)).2 ▸ fits e.1

theorem tSet_fit {t : Tab} {k v : Nat} (wf : tabWf t = true) (fits : wordsFit32 t) (hv : v < 2 ^ 32) : wordsFit32 (tSet t k v) := fun j => by
  rw [tGet_tSet t wf]
  split
  exacts [hv, fits j]

theorem voidTags_wf (b : Nat) (t : Tab) (wf : tabWf t = true) : tabWf (t.map fun e => if b ≤ e.2 then (e.1, 0xFFFFFFFF) else e) = true := by
  have keep (lo : Nat) : ∀ t : Tab, sWfFrom 0 lo t = true → sWfFrom 0 lo (t.map fun e => if b ≤ e.2 then (e.1, 0xFFFFFFFF) else e) = true := by
    intro t
    induction t generalizing lo with
    | nil => exact id
    | cons e t ih =>
      intro wf
      simp only [List.map_cons, sWfFrom, Bool.and_eq_true] at wf ⊢
      split <;> simp_all
  exact keep 0 t wf

theorem setBits_lt {x lo w v n : Nat} (hx : x < 2 ^ n) (top : lo + w ≤ n) : setBits x lo w v < 2 ^ n :=
  Nat.lt_pow_two_of_testBit _ fun i hi => by
    rw [testBit_setBits, if_neg (by omega)]
    exact Nat.testBit_lt_two_pow (hx.trans_le (Nat.pow_le_pow_right (by decide) hi))

theorem fieldWrite_fit {locked : Bool} {base old v acc : Nat} {f : FieldRow} (fit : acc < 2 ^ 32) : fieldWrite locked base old v acc f < 2 ^ 32 := by
  unfold fieldWrite
  extract_lets lo hi
  have put {x : Nat} (in_ : ¬ hi ≤ lo) : setBits acc (lo - base) (hi - lo) x < 2 ^ 32 := setBits_lt fit (by omega)
  split
  · exact fit
  · rename_i inside
    split
    · exact fit
    · exact put inside
    · exact put inside
    · split
      exacts [fit, put inside]
    · exact put inside
    · split
      exacts [fit, put inside]

section
variable {s : State} (h : s.Sound)
include h

theorem Sound.withT0Mem {m} (wf : memWf m = true) : Sound { s with t0 := { s.t0 with mem := m } } := { h with t0Mem := wf }
theorem Sound.withT1Mem {m} (wf : memWf m = true) : Sound { s with t1 := { s.t1 with mem := m } } := { h with t1Mem := wf }
theorem Sound.setCnt {k n} : Sound { s with t1 := { s.t1 with cnt := tSet s.t1.cnt k n } } := { h with t1Cnt := tSet_wf _ _ _ h.t1Cnt }
theorem Sound.setTouch0 {k v} : Sound { s with t1 := { s.t1 with touch0 := tSet s.t1.touch0 k v } } := { h with t1Touch0 := tSet_wf _ _ _ h.t1Touch0 }
theorem Sound.setTouch1 {k v} : Sound { s with t1 := { s.t1 with touch1 := tSet s.t1.touch1 k v } } := { h with t1Touch1 := tSet_wf _ _ _ h.t1Touch1 }
theorem Sound.withTag {t} (wf : tabWf t = true) : Sound { s with t1 := { s.t1 with tag := t } } := { h with t1Tag := wf }
theorem Sound.withPairs {m t} (pair : memWf m = true) (tag : tabWf t = true) : Sound { s with t1 := { s.t1 with pair := m, tag := t } } :=
  { h with t1Pair := pair, t1Tag := tag }
theorem Sound.withNext {l} (wf : l.all tabWf = true) : Sound { s with fab := { s.fab with routeNext := l } } := { h with next := wf }
theorem Sound.withFuses {f} (fit : Fuses.fit f) : Sound { s with fuses := f } := { h with fuse := fit }
theorem Sound.clearHub : Sound { s with t0 := { s.t0 with hub := [] } } := { h with t0Hub := rfl }

end

/-! ## The register file of a reset -/

theorem tabOf_wfFrom : ∀ (l : List (Nat × Nat)) (lo : Nat), (∀ e ∈ l, lo ≤ e.1) → (l.map Prod.fst).Pairwise (· < ·) → sWfFrom 0 lo (tabOf l) = true
  | [], _, _, _ => rfl
  | (k, v) :: l, lo, above, sorted => by
    obtain ⟨first, rest⟩ := List.pairwise_cons.mp sorted
    have tail := fun lo h => tabOf_wfFrom l lo h rest
    by_cases zero : v = 0
    · simpa [tabOf, zero] using tail lo fun e he => above e (List.mem_cons_of_mem _ he)
    · have low : lo ≤ k := above _ List.mem_cons_self
      simpa [tabOf, zero, sWfFrom, low] using tail (k + 1) fun e he => first e.1 (List.mem_map_of_mem he)

theorem tabOf_wf (l : List (Nat × Nat)) (sorted : (l.map Prod.fst).Pairwise (· < ·)) : tabWf (tabOf l) = true :=
  tabOf_wfFrom l 0 (fun _ _ => Nat.zero_le _) sorted

theorem resetWords_sorted (straps sku stepping arb fuse : Nat) :
    ((resetWords straps sku stepping arb fuse).map Prod.fst).Pairwise (· < ·) := by
  have same : (resetWords straps sku stepping arb fuse).map Prod.fst = (resetWords 0 0 0 0 0).map Prod.fst := rfl
  rw [same, ← List.isChain_iff_pairwise]
  decide +kernel

theorem resetWords_fit {straps sku stepping arb fuse : Nat} (low : straps < 2 ^ 16) (dev : sku + 16 * stepping < 2 ^ 32) (svn : arb ≤ 64)
    (locks : fuse < 2 ^ 32) : ∀ e ∈ resetWords straps sku stepping arb fuse, e.2 < 2 ^ 32 := by
  have small (lo : Nat) {w : Nat} (fits : w ≤ 32) : bits straps lo w < 2 ^ 32 :=
    (Nat.mod_lt _ (Nat.two_pow_pos w)).trans_le (Nat.pow_le_pow_right (by decide) fits)
  have twin : strapTwin straps < 2 ^ 32 := by
    unfold strapTwin
    split
    exacts [by decide, small 3 (by decide)]
  have cap : strapCap straps < 2 ^ 32 := by
    unfold strapCap
    split <;> decide
  have beat : strapBeatUs straps < 2 ^ 32 := by
    unfold strapBeatUs
    split <;> decide
  have raw : straps + (if bits straps 3 2 = 3 then 0x10000 else 0) < 2 ^ 32 := by
    split <;> omega
  have bit11 := small 11 (w := 1) (by decide)
  have bit12 := small 12 (w := 1) (by decide)
  have bit15 := small 15 (w := 1) (by decide)
  have link := small 5 (w := 6) (by decide)
  simp only [resetWords, List.forall_mem_append, List.forall_mem_cons, List.forall_mem_map, List.mem_flatMap, forall_exists_index, and_imp,
    List.not_mem_nil, false_imp_iff, implies_true, and_true]
  refine ⟨⟨⟨⟨⟨?_, ?_⟩, ?_⟩, ?_⟩, ?_⟩, ?_⟩
  · exact ⟨by omega, fun _ _ => by omega⟩
  · omega
  · exact fun _ _ => bit11
  · rintro x n - value
    simp only [List.mem_cons, List.not_mem_nil, or_false] at value
    obtain rfl | rfl | rfl | rfl := value <;> simp
  · omega
  · rintro x n - value
    obtain ⟨k, -, rfl⟩ := List.mem_map.mp value
    simp

/-- A register file in canonical form whose words fit. -/
def goodRegs (t : Tab) : Prop := tabWf t = true ∧ wordsFit32 t

theorem fset_good {t : Tab} (good : goodRegs t) (f : Field) (v : Nat) : goodRegs (fset t f v) :=
  ⟨fset_wf _ _ _ good.1, fset_fit _ _ _ good.1 good.2⟩

theorem filter_good {t : Tab} (good : goodRegs t) (p : Nat × Nat → Bool) : goodRegs (t.filter p) :=
  ⟨tab_filter_wf _ _ good.1, filter_fit _ good.1 good.2⟩

theorem resetRegs_good {straps sku stepping arb fuse : Nat} (low : straps < 2 ^ 16) (dev : sku + 16 * stepping < 2 ^ 32) (svn : arb ≤ 64)
    (locks : fuse < 2 ^ 32) : goodRegs (tabOf (resetWords straps sku stepping arb fuse)) :=
  ⟨tabOf_wf _ (resetWords_sorted ..), fit_of_mem fun e he => resetWords_fit low dev svn locks e (List.mem_of_mem_filter he)⟩

theorem regsAfter_good {s : State} (h : s.Sound) (k : ResetKind) {straps : Nat} (low : straps < 2 ^ 16) : goodRegs (s.regsAfter k straps) := by
  obtain ⟨svn, dev, revoked⟩ := h.fuse
  have locks : s.fuses.revoked + (if s.fuses.dbgDis then 16 else 0) < 2 ^ 32 := by split <;> omega
  unfold State.regsAfter
  extract_lets fuse base base1 kept t1 t2 t3
  have good : goodRegs base := resetRegs_good low dev svn locks
  have good1 : goodRegs base1 := by
    dsimp only [base1]
    split
    exacts [good, filter_good good _]
  have goodT : goodRegs t1 := List.foldlRecOn (motive := goodRegs) kept _ good1 fun t g e he =>
    ⟨tSet_wf _ _ _ g.1, tSet_fit g.1 g.2 ((sWfFrom_mem h.regs e (List.mem_of_mem_filter he)).2 ▸ h.fits e.1)⟩
  have good2 : goodRegs t2 := fset_good goodT _ _
  have good3 : goodRegs t3 := by
    dsimp only [t3]
    split
    exacts [good2, fset_good (fset_good good2 _ _) _ _]
  split
  exacts [fset_good (fset_good good3 _ _) _ _, good3]

theorem sound_reset : State.reset.Sound := by
  obtain ⟨wf, fits⟩ := resetRegs_good (straps := 0) (sku := 1) (stepping := 0) (arb := 0) (fuse := 0) (by decide) (by decide) (by decide) (by decide)
  exact ⟨wf, fits, ⟨by decide, by decide, by decide⟩, rfl, rfl, rfl, rfl, rfl, rfl, rfl, rfl, rfl, rfl, rfl⟩

end State
end Sys2Proof.Machine

namespace Sys2Proof.Machine.State
section
variable {s : State} (h : s.Sound)
include h

theorem Sound.set {f v} : (s.set f v).Sound := { h with regs := fset_wf _ _ _ h.regs, fits := fset_fit _ _ _ h.regs h.fits }
theorem Sound.closeCut : s.closeCut.Sound := h.set.set.set.same
theorem Sound.count {f n} : (s.count f n).Sound := h.set
theorem Sound.hostPut {addr n v} : (s.hostPut addr n v).Sound := { h with hostMem := mWrite_wf _ _ _ h.hostMem }
theorem Sound.setGo {g} : (s.setGo g).Sound := h.same
theorem Sound.recorded {line vec} : (s.recorded line vec).Sound := h.setGo
theorem Sound.putEvent {e} : (s.putEvent e).Sound := h.hostPut.same.recorded

theorem Sound.writeEvent {e} : (s.writeEvent e).Sound :=
  have h1 := Sound.ite h h.putEvent.same
  .ite h1.count.same h1.putEvent

theorem Sound.emit {kind die payload} : (s.emit kind die payload).Sound := .ite h (.ite h.writeEvent h.same)

theorem Sound.abandonCut {cause} : (s.abandonCut cause).Sound := by
  unfold State.abandonCut
  split
  · exact h
  · exact h.count.emit.same.same.closeCut

theorem Sound.clearCounters : s.clearCounters.Sound := { h with regs := tab_filter_wf _ _ h.regs, fits := filter_fit _ h.regs h.fits }
theorem Sound.enter {d cause} : (s.enter d cause).Sound := .ite h.same.emit.recorded h.same
theorem Sound.formAlone : s.formAlone.Sound := .ite h (.ite h.set.set.set.set.same h)
theorem Sound.setMeas {i v} : (s.setMeas i v).Sound := h.same

theorem Sound.accept : s.accept.Sound := by
  unfold State.accept
  extract_lets +onlyGivenNames s1 s2 s3
  have h3 : s3.Sound := h.clearCounters.set.set.set.set.set.set
  clear_value s3
  extract_lets +onlyGivenNames len rind link _ _ _ _ _ _ _ s4
  have h4 : s4.Sound := h3.clearHub.same
  clear_value s4
  exact h4.setMeas.setMeas.enter.formAlone

theorem Sound.setRing {n r} : (s.setRing n r).Sound := h.same
theorem Sound.activate {n d datum} : (s.activate n d datum).Sound := h.setRing
theorem Sound.setPart {x} : (s.setPart x).Sound := h.same
theorem Sound.addB {q gi} : (s.addB q gi).Sound := .ite h h.setPart
theorem Sound.draw : s.draw.2.Sound := h.same
theorem Sound.setPort {n p} : (s.setPort n p).Sound := h.same
theorem Sound.sendFlit {n f} : (s.sendFlit n f).Sound := .ite h (.ite h.setPort h.setPort)
theorem Sound.tellMembers {op} : (s.tellMembers op).Sound := h.foldl (fun _ _ g1 => .ite g1.draw g1.draw.sendFlit)
theorem Sound.ownRoutes : s.ownRoutes.Sound := (h.withNext (by simp [routeTable_wf])).tellMembers
theorem Sound.setSeat {seat} : (s.setSeat seat).Sound := h.set.set.set
theorem Sound.tryForm : s.tryForm.Sound := .ite h.setSeat.set.same.tellMembers.ownRoutes h
theorem Sound.addMember {seat serial} : (s.addMember seat serial).Sound := .ite h h.same.tryForm
theorem Sound.adopt {peerSeat peerPort peerSerial} : (s.adopt peerSeat peerPort peerSerial).Sound := h.setSeat.draw.same

theorem Sound.bankEdge : s.bankEdge.Sound := { h with
    t0Mem := by dsimp only [State.bankEdge]; split; exacts [h.t0Mem, mem_filter_wf _ _ h.t0Mem] }

theorem Sound.openEvents {b} : (s.openEvents b).Sound := h.same.foldl (fun _ _ g1 => g1.writeEvent)
theorem Sound.powerCheck {uj} : (s.powerCheck uj).Sound := .ite h.emit h
theorem Sound.settleWaits {mu} : (s.settleWaits mu).Sound := .ite h ((h.foldl (fun _ _ g1 => .ite g1 g1.count)).same)
theorem Sound.syncEdge {len} : (s.syncEdge len).Sound := { h with t0Sync := foldl_tSet_wf _ _ _ (tab_filter_wf _ _ h.t0Sync) }
theorem Sound.setStat {x} : (s.setStat x).Sound := h.same
theorem Sound.issue {f e el} : (s.issue f e el).Sound := h.same
theorem Sound.noteWrite {fid space old new keys} : (s.noteWrite fid space old new keys).Sound := h.same
theorem Sound.vMark {f key} : (s.vMark f key).Sound := .ite h.same h
theorem Sound.vPut {f r w codes} : (s.vPut f r w codes).Sound := h.same.noteWrite.foldl (fun _ _ g2 => g2.vMark)
theorem Sound.vSticky {f perm} : (s.vSticky f perm).Sound := (Sound.ite h.same.count.set h.same.count.set).set.set
theorem Sound.poisonFid {fid} : (s.poisonFid fid).Sound := .ite h h.setStat.count
theorem Sound.poisonFig {f} : (s.poisonFig f).Sound := h.poisonFid
theorem Sound.vTouch {f rs} : (s.vTouch f rs).Sound := .ite h.poisonFig h
theorem Sound.vTouch2 {f v rs} : (s.vTouch2 f v rs).Sound := h.vTouch

theorem Sound.vArg {f v} : (s.vArg f v).Sound :=
  have h1 := h.vTouch2
  .ite h1.vPut.vSticky h1.vPut

theorem Sound.maskPut {f m l} : (s.maskPut f m l).Sound := h.same.noteWrite.vMark
theorem Sound.vCompare {f v} : (s.vCompare f v).Sound := h.vTouch2.maskPut
theorem Sound.flag {f} : (s.flag f).Sound := .ite h.same h.same

theorem Sound.setNonfinite {f unit} : (s.setNonfinite f unit).Sound :=
  have h1 := h.setStat
  .ite (Sound.ite h1 h1.same.emit).flag (Sound.ite h1 h1.same.emit)

theorem Sound.tally {f unit t} : (s.tally f unit t).Sound :=
  have h1 := h.count.count.count
  have h2 := Sound.ite h1 h1.set.set.set
  .ite h2 h2.setNonfinite

theorem Sound.vWrite {f v w res} : (s.vWrite f v w res).Sound := h.vPut

theorem Sound.vRound {f v vals} : (s.vRound f v vals).Sound := by
  unfold State.vRound
  split
  exacts [h.vWrite.tally, h.draw.vWrite]

theorem Sound.vDecode {f v} : (s.vDecode f v).Sound := by
  unfold State.vDecode
  extract_lets w cb s1
  have h1 : s1.Sound := h.vTouch2
  exact h1.vRound.tally

theorem Sound.vElem {f v} : (s.vElem f v).Sound := h.vTouch2.vRound

theorem Sound.vEncode {f v} : (s.vEncode f v).Sound :=
  have h1 := h.vTouch2
  (Sound.ite h1.vPut h1).vWrite.tally

theorem Sound.vFma {f v} : (s.vFma f v).Sound := h.vTouch2.vRound
theorem Sound.useT0 {f off n} : (s.useT0 f off n).2.Sound := .ite h.poisonFig h
theorem Sound.vLoad {f v} : (s.vLoad f v).Sound := h.useT0.vPut
theorem Sound.vMLoad {f v} : (s.vMLoad f v).Sound := h.useT0.maskPut
theorem Sound.t0Mark {die cl line n p} : (s.t0Mark die cl line n p).Sound := h.same

theorem Sound.putT0 {f off b} : (s.putT0 f off b).Sound :=
  have h1 := (h.withT0Mem (t0Put_wf f.die f.group b s.t0.mem off h.t0Mem)).noteWrite
  .ite h (.ite h1.t0Mark (.ite h1.t0Mark h1))

theorem Sound.vMStore {f v} : (s.vMStore f v).Sound := h.vTouch.putT0

theorem Sound.vPerm {f v} : (s.vPerm f v).Sound :=
  have h1 := h.vTouch2
  have h2 := Sound.ite h1.vWrite h1.vRound
  .ite h2.vSticky h2

theorem Sound.vReduce {f v} : (s.vReduce f v).Sound := by
  unfold State.vReduce
  extract_lets s1 xs ws
  have h1 : s1.Sound := h.vTouch2
  split
  · exact .ite h1.draw.vPut.vSticky h1.draw.vPut
  · exact .ite h1.vPut.tally.vSticky h1.vPut.tally

theorem Sound.vPairs {f v rows} : (s.vPairs f v rows).Sound := by
  unfold State.vPairs
  split
  · exact .ite h.draw.vPut.tally.vSticky h.draw.vPut.tally
  · exact .ite h.vPut.tally.vSticky h.vPut.tally

theorem Sound.vRowNorm {f v} : (s.vRowNorm f v).Sound := h.vTouch2.vPairs
theorem Sound.vRowSmax {f v} : (s.vRowSmax f v).Sound := h.vTouch2.vPairs
theorem Sound.vSelect {f v} : (s.vSelect f v).Sound := .ite h.vTouch.vWrite h.vTouch.vRound
theorem Sound.vSoftmax {f v} : (s.vSoftmax f v).Sound := h.vTouch2.vRound
theorem Sound.vStore {f v} : (s.vStore f v).Sound := h.vTouch.putT0
theorem Sound.vTransc {f v} : (s.vTransc f v).Sound := h.vTouch2.vRound

theorem Sound.vRun {f v} : (s.vRun f v).Sound := by
  unfold State.vRun
  split
  · exact h.vLoad
  · exact h.vStore
  · exact .ite h (by
      split
      · exact h.vMLoad
      · exact h.vMStore
      · exact h.vFma
      · exact h.vSelect
      · exact h.vCompare
      · exact h.vCompare
      · exact h.vCompare
      · exact h.vCompare
      · exact h.vTouch2.vRound
      · exact h.vEncode
      · exact h.vDecode
      · exact h.vTransc
      · exact h.vTransc
      · exact h.vTransc
      · exact h.vTransc
      · exact h.vTransc
      · exact h.vReduce
      · exact h.vReduce
      · exact h.vReduce
      · exact h.vReduce
      · exact h.vArg
      · exact h.vArg
      · exact h.vPerm
      · exact h.vRowNorm
      · exact h.vRowSmax
      · exact h.vSoftmax
      · exact h.vElem)

theorem Sound.vBody {f w el k l} : (s.vBody f w el k l).1.Sound := by
  induction l generalizing s el k with
  | nil => exact h
  | cons x l ih =>
    unfold State.vBody
    split
    · exact ih h.vRun
    · exact ih h.issue
    · split
      · exact ih h
      · exact h

theorem Sound.vecRun {f prog w} : (s.vecRun f prog w).Sound := h.vBody.setStat

theorem Sound.resumeOne {x} : (s.resumeOne x).Sound := by
  unfold State.resumeOne
  split
  · exact .ite (by
      split
      · exact h.vecRun
      · exact h) h
  · exact h

theorem Sound.resume : s.resume.Sound := .ite (h.foldl (fun _ _ g1 => g1.resumeOne)) h

theorem Sound.armFire {obj} : (s.armFire obj).Sound := by
  unfold State.armFire
  split
  · exact h
  · exact .ite h.same.emit h

theorem Sound.chargeWhey {direct dur} : (s.chargeWhey direct dur).Sound := .ite h.same h.same
theorem Sound.dropMb {f} : (s.dropMb f).Sound := .ite h h.count.same

theorem Sound.dropCost {f} : (s.dropCost f).Sound :=
  have h2 := Sound.ite h.dropMb.flag h.dropMb
  .ite h2.same h2

theorem Sound.unsend {fid} : (s.unsend fid).Sound := .ite h h.same
theorem Sound.keepWrites {fid} : (s.keepWrites fid).Sound := h.same
theorem Sound.unqueue {mu off n} : (s.unqueue mu off n).Sound := h.same

theorem Sound.t1Write {mu off b} : (s.t1Write mu off b).Sound :=
  Sound.unqueue (h.withT1Mem (List.foldlRecOn (motive := fun m => memWf m = true) _ _ (mWrite_wf _ _ _ h.t1Mem) fun _ wf _ _ =>
      List.foldlRecOn (motive := fun m => memWf m = true) _ _ wf fun _ wf _ _ => mSet_wf _ _ _ wf))

theorem Sound.unwriteOne {u} : (s.unwriteOne u).Sound := by
  unfold State.unwriteOne
  split
  · exact { h with t0Mem := unwrite_wf _ _ h.t0Mem }
  · exact h.same
  · exact h.same
  · exact h.foldl fun _ _ ht => .ite ht.t1Write ht

theorem Sound.unwrite {fid} : (s.unwrite fid).Sound := .ite h ((h.same.foldl (fun _ _ g1 => g1.unwriteOne)).keepWrites)

theorem Sound.resource {f} : (s.resource f).2.Sound := by
  unfold State.resource
  split
  · exact h
  split
  · split
    · exact h
    split
    · split
      exacts [h, h.draw]
    split
    · exact h
    split
    exacts [h, h.draw, h.draw, h.draw, h, h]
  · exact h

theorem Sound.wheyEvent {f cause} : (s.wheyEvent f cause).Sound := .ite h.resource.emit.same h.count

theorem Sound.dropOne {f k} : (s.dropOne f k).Sound := by
  unfold State.dropOne
  refine Sound.dropCost ?_
  split
  · exact h.same.same.unwrite.unsend.setStat.count.chargeWhey.wheyEvent
  · exact h.same.same.unwrite.unsend.setStat.count.chargeWhey

theorem Sound.dropFig {n f k} : (s.dropFig n f k).Sound := by
  induction n generalizing s f k with
  | zero => exact .ite h h.dropOne
  | succ n ih => exact .ite h (h.dropOne.foldl fun _ _ ht => ih ht)

theorem Sound.drop {f k} : (s.drop f k).Sound := h.dropFig

theorem Sound.stamp : s.stamp.2.Sound := by
  unfold State.stamp
  split
  exacts [h.draw, h]

theorem Sound.detect {e} : (s.detect e).Sound := by
  unfold State.detect
  extract_lets +onlyGivenNames fid st rec_ _ _ s1
  have h1 : s1.Sound := h.stamp.same
  clear_value s1 rec_ fid
  split
  · split
    exacts [h1.poisonFid, h1]
  · extract_lets s2
    have h2 : s2.Sound := by
      dsimp only [s2]
      split
      exacts [.ite h1.drop h1, h1]
    exact .ite h2.flag h2
  · exact h1

theorem Sound.detectAt {code die unit index detail} : (s.detectAt code die unit index detail).Sound := h.detect

theorem Sound.syncPut {key v} : (s.syncPut key v).Sound :=
  .ite { h with t0Hub := tSet_wf _ _ _ h.t0Hub } { h with t0Sync := tSet_wf _ _ _ h.t0Sync }

theorem Sound.syncAdd {key n} : (s.syncAdd key n).Sound :=
  have h1 := h.syncPut
  have h2 := Sound.ite h1 (.ite h1.detectAt ((Sound.ite h1.count h1).detectAt))
  .ite h2.armFire h2

theorem Sound.syncCycle {key due} : (s.syncCycle key due).Sound :=
  have h2 := by
      split
      · exact h.same.syncPut
      · exact h.same
  .ite h2 h2.syncAdd

theorem Sound.syncUpTo {n c} : (State.syncUpTo n c s).Sound := by
  induction n generalizing s with
  | zero => exact h
  | succ n ih =>
    unfold State.syncUpTo
    split
    · exact h
    · exact .ite (ih h.same.syncCycle.resume) h

theorem Sound.tick {cyc} : (s.tick cyc).Sound :=
  have h1 := Sound.ite h h.syncUpTo
  .ite h1.same (h1.same.foldl (fun _ _ g3 => g3.settleWaits))

theorem Sound.advance {uj} : (s.advance uj).Sound :=
  ((h.tick.openEvents.foldl (fun _ _ g2 => g2.count)).syncEdge.bankEdge.same.foldl (fun _ _ g6 => g6.settleWaits)).powerCheck

theorem Sound.copyBefore {k loc} : (s.copyBefore k loc).Sound := by
  unfold State.copyBefore
  split
  · exact h
  · exact .ite h (have h2 := Sound.ite h.count.set h.count
    .ite h2.count.set.same h2.same.abandonCut)

theorem Sound.locWrite {k loc off b} : (s.locWrite k loc off b).Sound := { h with t1Pair := mWrite_wf _ _ _ h.t1Pair }
theorem Sound.markT1 {key p} : (s.markT1 key p).Sound := h.same
theorem Sound.markLoc {k loc p} : (s.markLoc k loc p).Sound := h.foldl (fun _ _ g1 => g1.markT1)

theorem Sound.complete {n tag irq status result} : (s.complete n tag irq status result).Sound :=
  have h3 := h.hostPut.setRing.recorded
  .ite h3 h3.count

theorem Sound.finish {n d status result} : (s.finish n d status result).Sound := h.complete

theorem Sound.finishTag {n op tag status result} : (s.finishTag n op tag status result).Sound := by
  unfold State.finishTag
  split
  · exact h
  · exact h.setRing.finish

theorem Sound.staleReads {k loc} : (s.staleReads k loc).Sound := h.same.foldl (fun _ _ g1 => g1.finishTag)
theorem Sound.sumNonfinite {mu fid} : (s.sumNonfinite mu fid).Sound := .ite (Sound.ite h h.same.emit).flag (Sound.ite h h.same.emit)
theorem Sound.touch {k} : (s.touch k).Sound := .ite h.setTouch1 h.setTouch0

theorem Sound.applyAcc {a1} : (s.applyAcc a1).Sound :=
  have h2 := (Sound.ite h h.staleReads).copyBefore.locWrite.setCnt.touch.markLoc
  .ite h2 h2.count.sumNonfinite

theorem Sound.pairLost {mu fid} : (s.pairLost mu fid).Sound := h.count.detect
theorem Sound.setDirty {k} : (s.setDirty k).Sound := h.same
theorem Sound.setLocWord {k loc i v} : (s.setLocWord k loc i v).Sound := h.locWrite

theorem Sound.hostWord {k i v} : (s.hostWord k i v).Sound := by
  unfold State.hostWord
  split
  · exact h.pairLost
  · exact h.copyBefore.setLocWord.setDirty

theorem Sound.wcPut {mu base w idx code} : (s.wcPut mu base w idx code).Sound := .ite h.t1Write h.t1Write

theorem Sound.applyStaged {g} : (s.applyStaged g).Sound := by
  unfold State.applyStaged
  refine Sound.finishTag ?_
  split
  · refine .ite (h.foldl fun t _ ht => ?_) (Sound.same (h.foldl fun _ _ ht => .ite (Sound.ite ht.count ht).hostWord ht.hostWord))
    dsimp only
    split
    exacts [ht.wcPut, ht]
  · exact h

theorem Sound.applyAllStaged : s.applyAllStaged.Sound := h.same.foldl (fun _ _ g1 => g1.applyStaged)

theorem Sound.arrayCounts {f env} : (s.arrayCounts f env).Sound :=
  have h1 := h.count.count.count
  .ite h1 h1.set.set.set

theorem Sound.beginExchange : s.beginExchange.Sound := .ite h.same h

theorem Sound.packDone {mb} : (s.packDone mb).Sound :=
  .ite (by
    split
    · exact h
    · exact (Sound.ite h.same.count.detectAt h.same).finishTag) (by
    split
    · exact h
    · exact h.count.same)

theorem Sound.postProcess {p first n} : (s.postProcess p first n).Sound := h.foldl (fun _ _ g1 => .ite g1 g1.count.detectAt)

theorem Sound.ingestPart {part mb first n} : (s.ingestPart part mb first n).Sound := by
  unfold State.ingestPart
  split
  · exact by
      split
      · exact h.postProcess
      · exact h
  · exact by
      split
      · exact h.foldl (fun _ _ g1 => g1.count)
      · exact h
  · exact h.packDone
  · exact h

theorem Sound.vatDone {f} : (s.vatDone f).Sound := by
  unfold State.vatDone
  extract_lets +onlyGivenNames _ s1
  have h1 : s1.Sound := by
    dsimp only [s1]
    split
    exacts [h.same, h]
  split
  exacts [h1.same, h1]

theorem Sound.bodyEnd {f} : (s.bodyEnd f).Sound := by
  unfold State.bodyEnd
  split
  · exact h.vatDone
  · exact .ite h.same (.ite h.count (.ite (have h2 := (Sound.ite h.setStat h).ingestPart
    .ite h2.setNonfinite h2) h))
  · exact h

theorem Sound.detectFor {code die unit index fid} : (s.detectFor code die unit index fid).Sound := h.detect

theorem Sound.dmRead {f d} : (s.dmRead f d).2.2.Sound := by
  unfold State.dmRead
  dsimp only
  split
  · exact h
  · exact h
  · exact h
  · split
    exacts [h.pairLost, .ite h.same h]
  · exact h

theorem Sound.t0Write {die cl line b} : (s.t0Write die cl line b).Sound := { h with t0Mem := t0Put_wf _ _ _ _ _ h.t0Mem }
theorem Sound.sliceWrite {die cl line b p} : (s.sliceWrite die cl line b p).Sound := h.t0Write.t0Mark
theorem Sound.dmSlice {f die cl line b p} : (s.dmSlice f die cl line b p).Sound := h.sliceWrite.noteWrite
theorem Sound.dmT1 {f mu line b p} : (s.dmT1 f mu line b p).Sound := (h.t1Write.foldl (fun _ _ g1 => g1.markT1)).noteWrite
theorem Sound.sendAcc {f mu gran vals tokens nonfin} : (s.sendAcc f mu gran vals tokens nonfin).Sound := h.same

theorem Sound.vatPush {f key b p} : (s.vatPush f key b p).Sound :=
  (h.withT0Mem (List.foldlRecOn (motive := fun m => memWf m = true) _ _ h.t0Mem fun _ wf _ _ => mSet_wf _ _ _ wf)).noteWrite.foldl
    fun _ _ ht => ht.t0Mark

theorem Sound.dmWrite {f d b p} : (s.dmWrite f d b p).Sound := by
  unfold State.dmWrite
  split
  · exact h.vatPush
  · exact h.dmSlice
  · exact h.dmT1
  · exact h.foldl (fun _ _ g1 => g1.sendAcc)
  · exact h.same
  · exact h.vatPush
  · exact h.dmSlice

theorem Sound.dmMove {f d} : (s.dmMove f d).Sound := .ite h.detectFor (Sound.ite h.dmRead.poisonFig h.dmRead).dmWrite

theorem Sound.dmaRun {f d} : (s.dmaRun f d).Sound := by
  unfold State.dmaRun
  split
  · exact h.dmMove
  · exact .ite h.count.drop h.same

theorem Sound.gmeLast {f kind} : (s.gmeLast f kind).Sound := h.set.set
theorem Sound.gmeCase {f kind} : (s.gmeCase f kind).Sound := .ite h.count.gmeLast.same (.ite h.count.gmeLast h.count.gmeLast.detectFor)
theorem Sound.gmeCases {f kinds} : (s.gmeCases f kinds).Sound := h.foldl (fun _ _ g1 => g1.gmeCase)
theorem Sound.curdChecks {f c} : (s.curdChecks f c).Sound := h.gmeCases
theorem Sound.putCode {f base w idx code} : (s.putCode f base w idx code).Sound := .ite h.putT0 h.putT0

theorem Sound.drainOut {f fmt line sline cols i j0 codes sc} : (s.drainOut f fmt line sline cols i j0 codes sc).Sound :=
  have h2 := h.foldl (fun _ _ g1 => g1.putCode)
  .ite h2.putT0 h2

theorem Sound.gStore {f d m n val} : (s.gStore f d m n val).Sound := h.foldl (fun _ _ g1 => g1.drainOut.tally)
theorem Sound.setQuantity {f n} : (s.setQuantity f n).Sound := h.setStat
theorem Sound.useCurd {f off} : (s.useCurd f off).Sound := h.useT0.useT0.useT0.useT0
theorem Sound.curdExpand {f d} : (s.curdExpand f d).Sound := h.useCurd.tally.gStore.curdChecks.setQuantity
theorem Sound.readOper {f o} : (s.readOper f o).Sound := h.useT0
theorem Sound.curdMm {f d} : (s.curdMm f d).Sound := h.readOper.useCurd.tally.gStore.curdChecks.setQuantity
theorem Sound.maskBuild {f d} : (s.maskBuild f d).Sound := h.putT0.putT0.gmeCases.setQuantity

theorem Sound.raggedPack {f d} : (s.raggedPack f d).Sound :=
  (Sound.foldlFst (s := (s, _)) h fun _ _ ht => ht.useT0.putT0).putT0.gmeCases.setQuantity

theorem Sound.raggedUnpack {f d} : (s.raggedUnpack f d).Sound :=
  (Sound.foldlFst (s := (s, _)) h fun _ _ ht => ht.useT0.putT0).gmeCases.setQuantity

theorem Sound.routeGather {f d} : (s.routeGather f d).Sound :=
  ((h.useT0.useT0.useT0.foldl (fun _ _ g2 => by
    split
    · exact g2.putT0
    · exact g2.putT0)).foldl (fun _ _ g4 => g4.putT0)).gmeCases.tally.setQuantity

theorem Sound.routeMerge {f d} : (s.routeMerge f d).Sound :=
  (h.useT0.useT0.foldl (fun _ _ g1 => g1.useT0)).gmeCases.tally.foldl (fun _ _ g4 => .ite g4 (have h6 := g4.foldl (fun _ _ g5 => g5.putCode)
  (Sound.ite h6.putT0 h6).tally))

theorem Sound.spsp {f d} : (s.spsp f d).Sound := h.useCurd.useCurd.tally.putT0.putT0.putT0.tally.gmeCases.setQuantity

theorem Sound.gmeRun {f d} : (s.gmeRun f d).Sound := by
  unfold State.gmeRun
  split
  · exact h.curdMm
  · exact h.spsp
  · exact h.curdExpand
  · exact h.routeGather
  · exact h.routeMerge
  · exact h.raggedPack
  · exact h.raggedUnpack
  · exact h.maskBuild

theorem Sound.chargeMeta {f n} : (s.chargeMeta f n).Sound := .ite h h.count.gmeLast.detectFor
theorem Sound.putZero {f d reg rows} : (s.putZero f d reg rows).Sound := .ite h h.putT0.setStat

theorem Sound.diagRun {f d unit} : (s.diagRun f d unit).Sound :=
  (h.tally.foldl (fun _ _ g1 => have h3 := g1.foldl (fun _ _ g2 => g2.putCode)
  (Sound.ite h3.putT0 h3).tally)).foldl (fun _ _ g6 => g6.putZero)

theorem Sound.sendSg {f x tokens l} : (s.sendSg f x tokens l).Sound := h.foldl (fun _ _ g1 => g1.sendAcc)

theorem Sound.matAcc {f d x unit} : (s.matAcc f d x unit).Sound :=
  have h1 := Sound.foldlFst (s := (s.tally f Unit.feeder _, _)) h.tally fun _ _ ht => .iteFst ht ht.putZero.tally.sendAcc
  .ite h1.sendSg h1

theorem Sound.matStore {f d unit} : (s.matStore f d unit).Sound :=
  h.tally.foldl (fun _ _ g1 => (g1.foldl (fun _ _ g2 => g2.drainOut)).putZero.tally)

theorem Sound.thinRun {f d} : (s.thinRun f d).Sound :=
  have h2 := h.readOper.chargeMeta
  (Sound.ite h2.poisonFig h2).same.noteWrite.tally

theorem Sound.matrixRun {f d ext env} : (s.matrixRun f d ext env).Sound := by
  unfold State.matrixRun
  extract_lets +onlyGivenNames unit s1
  have h1 : s1.Sound := .ite h h.arrayCounts
  refine .ite (.ite h1 h1.thinRun) (.ite h1.readOper.readOper.diagRun (.ite h1 ?_))
  extract_lets +onlyGivenNames p s2 s3 _ _ s4
  have h3 : s3.Sound := h1.readOper.readOper.chargeMeta
  have h4 : s4.Sound := .ite h3.setStat h3
  split
  exacts [h4.matAcc, h4.matStore]

theorem Sound.setColl {c} : (s.setColl c).Sound := h.same
theorem Sound.contribute : s.contribute.Sound := h.setColl
theorem Sound.migrateAt {m} : (s.migrateAt m).Sound := ((h.withT1Mem (mWrite_wf _ _ _ h.t1Mem)).unqueue.foldl fun _ _ ht => ht.markT1).same

theorem Sound.migrateOne {mu} : (s.migrateOne mu).Sound := by
  unfold State.migrateOne
  split
  · exact h
  · exact h.migrateAt

theorem Sound.migrate {mu n} : (s.migrate mu n).Sound := by
  induction n generalizing s with
  | zero => exact h
  | succ n ih => exact ih h.migrateOne

theorem Sound.noteReady : s.noteReady.Sound := .ite h.same h

theorem Sound.readCutAt {kind k} : (s.readCutAt kind k).Sound := by
  unfold State.readCutAt
  split
  · exact h
  · exact h.same

theorem Sound.readCut {mu kind} : (s.readCut mu kind).Sound := by
  unfold State.readCut
  split
  · exact h.readCutAt
  · exact h

theorem Sound.stageFlit {d n} : (s.stageFlit d n).2.Sound := h.draw.draw
theorem Sound.sendStage {f d} : (s.sendStage f d).Sound := .ite h (h.draw.foldl (fun _ _ g1 => g1.draw.stageFlit.sendFlit))
theorem Sound.sendTwin : s.sendTwin.Sound := .ite h (h.draw.foldl (fun _ _ g1 => g1.draw.sendFlit))
theorem Sound.shipCut {mu} : (s.shipCut mu).Sound := h.foldl (fun _ _ g1 => .ite g1.readCut.sendTwin g1)

theorem Sound.ownWork {f d} : (s.ownWork f d).Sound :=
  .ite h (.ite (by
    split
    · exact h.foldl (fun _ _ g1 => g1.readCut)
    · exact h.migrate.noteReady
    · exact h.foldl (fun _ _ g2 => g2.shipCut)
    · exact h) (.ite h.contribute.sendStage h))

theorem Sound.redSink {f q d} : (s.redSink f q d).Sound :=
  h.foldl fun t g ht => by
    dsimp only
    split
    · exact ht
    · exact .ite ht.copyBefore.locWrite.markLoc.setCnt ht.copyBefore.locWrite.markLoc.setCnt.touch

theorem Sound.redSource {q d} : (s.redSource q d).Sound := h.foldl (fun _ _ g1 => .ite (.ite g1.setColl g1.setColl) g1.setColl)

theorem Sound.granFault {f mu k t} (e : s.granFault f mu k = some t) : t.Sound := by
  unfold State.granFault at e
  split at e
  · exact Option.some.inj e ▸ h.pairLost
  · split at e
    · exact Option.some.inj e ▸ h.same.detectFor
    · split at e
      · exact Option.some.inj e ▸ h.detectFor
      · cases e

theorem Sound.overGrans {f q l} {step : State → Nat → State × Bool} (hstep : ∀ t gi, t.Sound → (step t gi).1.Sound) :
    (s.overGrans f q step l).Sound := by
  induction l generalizing s with
  | nil => exact h
  | cons gi l ih =>
    unfold State.overGrans
    refine .ite (ih h) (.ite h.pairLost ?_)
    split
    · exact h.granFault ‹_›
    · exact .ite (ih (hstep s gi h)) (hstep s gi h)

theorem Sound.setTag {k loc v} : (s.setTag k loc v).Sound := { h with t1Tag := tSet_wf _ _ _ h.t1Tag }

theorem Sound.copySpare {k} : (s.copySpare k).Sound := by
  unfold State.copySpare
  extract_lets l c s1
  have h1 : s1.Sound := h.copyBefore.locWrite.setTag
  clear_value s1
  exact .ite h h1.same.markLoc

theorem Sound.putSpare {k i v} : (s.putSpare k i v).Sound := h.copyBefore.setLocWord

theorem Sound.results {f mu lane l} {put : State → Nat → Word32 → State} (hput : ∀ t w v, t.Sound → (put t w v).Sound) :
    (s.results f mu lane put l).1.Sound := by
  unfold State.results
  split
  · exact h.foldl fun t x ht => hput t _ _ ht
  · exact (h.foldl fun t x ht => hput t _ _ ht).count.detectFor

theorem Sound.writeStats {f q l} : (s.writeStats f q l).1.Sound := h.results fun _ _ _ ht => ht.copySpare.putSpare
theorem Sound.factor1 {f q d} : (s.factor1 f q d).Sound := h.overGrans fun _ _ ht => .iteFst ht.writeStats ht.setPart

theorem Sound.formAcc {f q} : (s.formAcc f q).1.Sound := by
  unfold State.formAcc
  dsimp only
  refine .iteFst h (.iteFst h.setPart (.iteFst h.pairLost ?_))
  have h1 {rows} {keys : List Nat} : ((keys.foldl State.copySpare s).writeStats f q rows).1.Sound := (h.foldl fun _ _ ht => ht.copySpare).writeStats
  exact .iteFst h1 h1.setPart

theorem Sound.factor2 {f q d} : (s.factor2 f q d).Sound :=
  have h1 := Sound.iteFst (a := (s, true)) h h.formAcc
  .ite h1 (h1.overGrans fun _ _ ht => ht.setPart)

theorem Sound.countClip {q k} : (s.countClip q k).Sound := .ite h.count h
theorem Sound.formClip {q} : (s.formClip q).Sound := .ite h h.setPart.countClip
theorem Sound.putScale {q g dir} : (s.putScale q g dir).Sound := (Sound.ite h.count h).copySpare.putSpare

theorem Sound.updateScales {f q} : (s.updateScales f q).Sound :=
  .ite h (.ite h.pairLost (.ite (.ite h.writeStats (h.writeStats.countClip.foldl (fun _ _ g1 => g1.putScale))) (h.foldl (fun _ _ g2 => g2.putScale))))

theorem Sound.tagSpare {k} : (s.tagSpare k).Sound := h.setTag

theorem Sound.writeUpdate {f mu k l} : (s.writeUpdate f mu k l).1.Sound :=
  have h1 := h.results fun _ _ _ ht => ht.putSpare
  .iteFst h1.tagSpare h1

theorem Sound.factor3 {f q d} : (s.factor3 f q d).Sound :=
  have h2 := h.formClip.overGrans fun _ _ ht => ht.addB.writeUpdate
  .ite h2.updateScales h2

theorem Sound.tieGran {f mu k others} : (s.tieGran f mu k others).Sound := by
  unfold State.tieGran
  refine .ite h ?_
  extract_lets +onlyGivenNames vals n l s1 bad bp
  have h1 : s1.Sound := h.copyBefore.locWrite
  clear_value s1 bad bp n vals
  extract_lets +onlyGivenNames _ s2 s3 inf
  have h2 : s2.Sound := h1.setCnt.touch.markLoc
  have h3 : s3.Sound := .ite h2.poisonFig h2
  clear_value s3 inf
  exact .ite h3 h3.count.setNonfinite.sumNonfinite

theorem Sound.gatherAdd {f q d} : (s.gatherAdd f q d).Sound :=
  have h2 := h.foldl (fun _ _ g1 => g1.tieGran)
  .ite (h2.foldl (fun _ _ g3 => g3.tieGran)) h2

theorem Sound.firstScales {q} : (s.firstScales q).Sound :=
  .ite h (.ite h.pairLost ((Sound.ite h (h.foldl (fun _ _ g1 => have h2 := g1.copyBefore.setLocWord
  .ite h2.count h2))).same))

theorem Sound.setBlock {q i j n} : (s.setBlock q i j n).Sound := h.t1Write

theorem Sound.choose {q src first i j} : (s.choose q src first i j).Sound :=
  .ite (by
    split
    · exact h.count.setBlock
    · exact h.count.count.setBlock) (.ite ((Sound.ite h h.count).setBlock) h)

theorem Sound.reencode {q gi reprune first} : (s.reencode q gi reprune first).Sound := by
  unfold State.reencode
  refine .ite h ?_
  extract_lets w mu src s1 mask r
  have h1 : s1.Sound := .ite (h.foldl fun _ _ ht => ht.choose) h
  refine Sound.count (Sound.foldlFst h1 fun t e ht => .iteFst ?_ ht.wcPut)
  split
  exacts [.iteFst ht.wcPut ht, ht]

theorem Sound.encodeGran {q gi reprune} : (s.encodeGran q gi reprune).Sound := .ite h.reencode h.same.reencode
theorem Sound.prologueGran {q rp gi} : (s.prologueGran q rp gi).Sound := .ite h.pairLost (.ite h.encodeGran h)
theorem Sound.prologue {q d} : (s.prologue q d).Sound := h.firstScales.foldl (fun _ _ g1 => g1.prologueGran)

theorem Sound.signSlice {f q d} : (s.signSlice f q d).Sound :=
  have h1 := h.overGrans fun _ _ ht => ht.addB.writeUpdate
  .ite h1.updateScales h1

theorem Sound.updateRun {f d} : (s.updateRun f d).Sound := by
  unfold State.updateRun
  split
  · exact h
  · exact .ite (.ite h.count h) (by
      split
      · exact h.signSlice
      · exact h.factor1
      · exact h.factor2
      · exact h.factor3
      · exact h.prologue
      · exact h.gatherAdd
      · exact h)

theorem Sound.tplRun {f d} : (s.tplRun f d).Sound :=
  .ite h.ownWork (.ite (.ite (by
    split
    · exact .ite h.redSource h.redSink
    · exact h) h.updateRun) (.ite h.sendStage h))

theorem Sound.bodyRun {f env} : (s.bodyRun f env).Sound := by
  unfold State.bodyRun
  split
  · exact h.matrixRun
  · exact h.vecRun
  · exact h.gmeRun
  · exact h.dmaRun
  · exact h.tplRun

theorem Sound.deriveAlias : s.deriveAlias.Sound := h.same
theorem Sound.haltQuiet {cause} : (s.haltQuiet cause).Sound := h.same
theorem Sound.linkOff : s.linkOff.Sound := h.same
theorem Sound.portsDown : s.portsDown.Sound := h.same.foldl (fun _ _ g2 => g2.set)
theorem Sound.stopCallers : s.stopCallers.Sound := h.same
theorem Sound.doubleFault : s.doubleFault.Sound := h.haltQuiet.stopCallers.set.portsDown.linkOff
theorem Sound.setSlot {k l} : (s.setSlot k l).Sound := h.same

theorem Sound.placeEntry {cls entry} : (s.placeEntry cls entry).1.Sound := by
  unfold State.placeEntry
  split
  · exact h.setSlot.set
  extract_lets s1
  have h1 : s1.Sound := h.set
  split
  · exact h1
  split
  exacts [h1.setSlot, h1]

theorem Sound.toHandler {k} : (s.toHandler k).Sound := by
  unfold State.toHandler
  extract_lets +onlyGivenNames _ s1
  have h1 : s1.Sound := h.same
  split
  exacts [h1, .ite h1.same h1]

theorem Sound.logError {e} : (s.logError e).Sound := by
  unfold State.logError
  extract_lets cls s1 entry
  have h1 : s1.Sound := h.count.set
  split
  · split
    exacts [h1.setSlot, h1]
  · exact .ite h1.placeEntry.doubleFault h1.placeEntry.toHandler

theorem Sound.bootDies {b} : (s.bootDies b).Sound := by
  unfold State.bootDies
  extract_lets +onlyGivenNames _ s0 s1 s2 c s3
  have h1 : s1.Sound := (h.same : s0.Sound).setMeas.setMeas.deriveAlias
  have h2 : s2.Sound := h1.foldl fun _ _ ht => ht.set.set
  have h3 : s3.Sound := .ite h2 (h2.foldl fun _ _ ht => ht.set.set.set)
  clear_value s3
  split
  exacts [h3, h3.stamp.logError.haltQuiet]

theorem Sound.bootFlash : s.bootFlash.Sound := .ite h.set.set.bootDies (.ite h.set.set.bootDies h.set.same)
theorem Sound.drawNonce : s.drawNonce.Sound := h.same.set

theorem Sound.bootSteps : s.bootSteps.Sound :=
  have h1 := h.setMeas.setMeas.drawNonce
  .ite h1.set.same h1.bootFlash

theorem Sound.refuseCut {measure cause} : (s.refuseCut measure cause).Sound := h.count.emit

theorem Sound.openCut {m} : (s.openCut m).Sound :=
  have h1 := h.abandonCut
  .ite h1.count.same.refuseCut (by
    split
    · exact h1.count.same.refuseCut
    · exact h1.count.same.same.set.set.set.set)

theorem Sound.boundaryCut {m commit limit} : (s.boundaryCut m commit limit).Sound := .ite h (.ite h.openCut (.ite h h.same.count))
theorem Sound.boundaryPos {m} : (s.boundaryPos m).Sound := h.same

theorem Sound.startBuild : s.startBuild.Sound := by
  unfold State.startBuild
  refine .ite h ?_
  extract_lets s1 link
  have h1 : s1.Sound := by
    dsimp only [s1]
    split
    exacts [h.set, h]
  exact h1.same

theorem Sound.buildIfDue : s.buildIfDue.Sound := .ite h.startBuild h
theorem Sound.commitSeal : s.commitSeal.Sound := ((h.foldl (fun _ _ g1 => g1.setDirty)).set).count

theorem Sound.dropSeal {cause} : (s.dropSeal cause).Sound := by
  unfold State.dropSeal
  split
  · exact h
  · exact .ite h (Sound.set (h.withTag (voidTags_wf _ _ h.t1Tag)))

theorem Sound.flipTouched : s.flipTouched.Sound :=
  { h with
    t1Touch0 := by dsimp only [State.flipTouched]; split; exacts [h.t1Touch0, rfl]
    t1Touch1 := by dsimp only [State.flipTouched]; split; exacts [rfl, h.t1Touch1] }

theorem Sound.freshMeasure : s.freshMeasure.Sound := h.flipTouched.same
theorem Sound.freshRecords : s.freshRecords.Sound := h.same
theorem Sound.freshRun {m commit idle} : (s.freshRun m commit idle).Sound := h.same

theorem Sound.lossEvent {m} : (s.lossEvent m).Sound := by
  unfold State.lossEvent
  split
  · exact h
  · exact h.emit

theorem Sound.lossScale {commit cause} : (s.lossScale commit cause).Sound :=
  .ite h (.ite (.ite h.set (.ite h.set.set.count h.set)) (.ite (.ite h.set.set.count h.set.emit) h))

theorem Sound.noteEnergy {mj} : (s.noteEnergy mj).Sound := .ite h h.same
theorem Sound.persistFault : s.persistFault.Sound := h.same.foldl (fun _ _ g1 => g1.detectAt)
theorem Sound.phaseRecord {m commit} : (s.phaseRecord m commit).Sound := .ite h.same (.ite h.same.count h.same.hostPut.same.recorded)
theorem Sound.replanLate : s.replanLate.Sound := h.emit
theorem Sound.sendData {dest} : (s.sendData dest).Sound := .ite h.draw (h.draw.foldl (fun _ _ g1 => g1.draw.sendFlit))

theorem Sound.sendClips {before} : (s.sendClips before).Sound := by
  unfold State.sendClips
  split
  · exact .ite h.sendData h
  · exact h

theorem Sound.starve : s.starve.Sound := .ite h h.same.emit

theorem Sound.finishWhere {p status result} : (s.finishWhere p status result).Sound :=
  h.foldl (fun _ _ g1 => (Sound.ite g1 g1.setRing).foldl (fun _ _ g3 => g3.finish))

theorem Sound.formSets {g} : (s.formSets g).Sound := (Sound.iteSnd (a := (0, s)) h h.draw).same
theorem Sound.setInterval {measCycles} : (s.setInterval measCycles).Sound := .ite h.set.emit h.set
theorem Sound.syncLoad : s.syncLoad.Sound := { h with t0Sync := foldl_tSet_wf _ _ _ rfl }

theorem Sound.writeCaps {c} : (s.writeCaps c).Sound :=
  .ite h (h.foldl (fun _ _ g1 => by
    split
    · exact .ite g1.t0Write g1
    · exact g1))

theorem Sound.swapCard {c} : (s.swapCard c).Sound := by
  unfold State.swapCard
  have h0 : (s.writeCaps c).Sound := h.writeCaps
  generalize s.writeCaps c = t at h0
  extract_lets +onlyGivenNames _ _ _ _ _ _ _ _ s1 s2 s3
  have h1 : s1.Sound := h0.same
  have h3 : s3.Sound := (h1.foldl fun _ _ ht => ht.set).setInterval
  clear_value s3
  refine Sound.finishWhere (Sound.finishWhere (Sound.syncLoad ?_))
  split
  exacts [h3.formSets, h3]

theorem Sound.phraseBoundary : s.phraseBoundary.Sound := by
  unfold State.phraseBoundary
  extract_lets +onlyGivenNames _ _ _ _ _ s1 _ s2
  have h1 : s1.Sound := h.same
  clear_value s1
  have h2 : s2.Sound := by
    dsimp only [s2]
    split
    exacts [.ite h1.swapCard (.ite h1.same h1.replanLate), h1.replanLate]
  exact h2.beginExchange.sendClips.starve

theorem Sound.syncRealign : s.syncRealign.Sound := h.foldl (fun _ _ g1 => .ite g1 g1.syncPut.count)
theorem Sound.verdictEvent {commit cause} : (s.verdictEvent commit cause).Sound := .ite h.emit h.emit.count

theorem Sound.boundary {m} : (s.boundary m).Sound :=
  have h1 := Sound.ite h.commitSeal (.ite h.dropSeal h)
  have h2 := Sound.ite h1.lossScale h1
  have h5 := (Sound.ite h2.verdictEvent h2).lossEvent.phaseRecord.persistFault.syncRealign.boundaryPos
  have h7 := (Sound.ite h5.boundaryCut h5).freshMeasure.freshRun.applyAllStaged
  .ite (.ite h7.same.noteEnergy.startBuild h7.same.noteEnergy) (.ite h7.same.noteEnergy.phraseBoundary.buildIfDue.freshRecords h7.same.noteEnergy.same.buildIfDue)

theorem Sound.starveEvent {mu req ch wait} : (s.starveEvent mu req ch wait).Sound := h.same.emit
theorem Sound.w1c {f v setNow} : (s.w1c f v setNow).1.Sound := h.set

theorem Sound.clearStarve {k v setNow} : (s.clearStarve k v setNow).Sound := by
  unfold State.clearStarve
  refine .ite h (Sound.foldl h.w1c fun t r ht => ?_)
  split
  exacts [ht.starveEvent, ht]

theorem Sound.clearSticky {k v setNow} : (s.clearSticky k v setNow).Sound := h.w1c.same
theorem Sound.foreignClip {c} : (s.foreignClip c).2.Sound := h.draw.draw

theorem Sound.repeatExchange {n l} : (Machine.repeatExchange n l s).Sound := by
  induction l generalizing n s with
  | nil => cases n <;> exact h
  | cons j l ih =>
    cases n with
    | zero => exact h
    | succ n =>
      unfold Machine.repeatExchange
      split
      · exact ih h
      next c _ => exact ih (h.foreignClip (c := c)).same

theorem Sound.refillClip {j} : (s.refillClip j).Sound := by
  unfold State.refillClip
  split
  · exact h
  · exact .ite h.same.same (.ite h.same h.same.repeatExchange.same)

theorem Sound.switchDeck {drawn} : (s.switchDeck drawn).Sound := h.same

theorem Sound.closeClip {dur} : (s.closeClip dur).Sound := by
  unfold State.closeClip
  split
  · exact h
  next c _ =>
  extract_lets +onlyGivenNames _ s1
  have h1 : s1.Sound := h.same
  refine .ite h1.count.detectAt (.ite h1.count ?_)
  clear_value s1
  dsimp only
  split
  · exact .ite h1.same (Sound.same (Sound.switchDeck (.ite h1.same.same h1.same.same.repeatExchange)))
  · exact h1.same.refillClip

theorem Sound.record {f time quantity} : (s.record f time quantity).Sound := h.same

theorem Sound.dropLate {f} : (s.dropLate f).Sound :=
  .ite h (have h1 := h.dropOne.record
  .ite h1.flag h1)

theorem Sound.skipFig {f} : (s.skipFig f).Sound := h.setStat

theorem Sound.closeFigs : s.closeFigs.Sound :=
  .ite h ((((h.foldl (fun _ _ g1 => g1.skipFig)).foldl (fun _ _ g2 => g2.drop)).foldl (fun _ _ g4 => g4.dropLate)).foldl (fun _ _ g6 => g6.foldl (fun _ _ g7 => g7.drop)))

theorem Sound.closePack {pos} : (s.closePack pos).Sound := h.same

theorem Sound.commitArb : s.commitArb.Sound := by
  have fit : Fuses.fit { s.fuses with arb := max s.fuses.arb (min s.boot.svn 64) } := ⟨max_le h.fuse.1 (Nat.min_le_right _ _), h.fuse.2⟩
  exact (h.withFuses fit).set

theorem Sound.signalAt {key n lat isSet} : (s.signalAt key n lat isSet).Sound := h.same

theorem Sound.dmSignal {f} : (s.dmSignal f).Sound := by
  unfold State.dmSignal
  split
  · exact .ite h.signalAt h
  · exact h

theorem Sound.noteMb {f} : (s.noteMb f).Sound :=
  .ite h (by
    split
    · exact h
    · exact .ite h.same h)

theorem Sound.completeFig {f} : (s.completeFig f).Sound :=
  ((h.setStat.keepWrites.bodyEnd.foldl (fun _ _ g2 => g2.issue)).dmSignal).record.noteMb

theorem Sound.copyOn {n page} : (State.copyOn n s page).Sound := by
  induction n generalizing s with
  | zero => exact h
  | succ n ih =>
    unfold State.copyOn
    split
    · exact h
    · exact .ite (ih h.same.migrateAt) h

theorem Sound.exchangeAt {margin l grow} : (Machine.exchangeAt margin l grow s).Sound := by
  induction l generalizing grow s with
  | nil => exact h
  | cons j l ih =>
    unfold Machine.exchangeAt
    split
    · exact ih h
    next c _ =>
      have h1 := h.foreignClip (c := c)
      exact .ite (ih h1) (ih h1.same)

theorem Sound.endExchange : s.endExchange.Sound := h.draw.exchangeAt.same
theorem Sound.flitIndex {port f} : (s.flitIndex port f).2.Sound := .iteSnd h.same h
theorem Sound.stale {port} : (s.stale port).Sound := .ite h.count h.count.same.detectAt

theorem Sound.sendVoid {f} : (s.sendVoid f).Sound := by
  unfold State.sendVoid
  split
  · exact .ite h h.draw.stageFlit.sendFlit
  · exact h

theorem Sound.stepSeen {op seen} : (s.stepSeen op seen).Sound :=
  .ite h (have h1 := h.setColl
  .ite h1 h1.same.count.emit)

theorem Sound.takePlanned {port f g} : (s.takePlanned port f g).Sound := by
  unfold State.takePlanned
  split
  refine .ite (.ite h h.drop.sendVoid) ?_
  extract_lets +onlyGivenNames s0
  have h0 : (s0.flitIndex port f).2.Sound := (Sound.ite h.detectFor h : s0.Sound).flitIndex
  clear_value s0
  split
  next i0 s1 e =>
  have h1 : s1.Sound := by rw [e] at h0; exact h0
  dsimp only
  exact .ite h1.setColl (.ite (.ite h1.setColl.stepSeen.flag h1.setColl.stepSeen) (.ite h1.setColl.stepSeen (Sound.setColl h1.same)))

theorem Sound.wearBytes {n} : (s.wearBytes n).Sound := h.same.set

theorem Sound.deliver {port f} : (s.deliver port f).Sound := by
  unfold State.deliver
  extract_lets ld
  refine .ite h (.ite (.ite h h.sendFlit) (.ite ?_ (.ite h.stale ?_)))
  · exact .ite h.same.endExchange (.ite h.same.wearBytes h.same)
  · split
    exacts [h.stale, h.takePlanned]

theorem Sound.demuxTo {rest sync} : (s.demuxTo rest sync).Sound := h.same
theorem Sound.syncLost : s.syncLost.Sound := h.same.count

theorem Sound.endClip : s.endClip.Sound := by
  unfold State.endClip
  split
  · exact h.closeClip
  · exact h

theorem Sound.overflowClip {c} : (s.overflowClip c).Sound := .ite h.same.count (.ite h.same.closeClip.count h.same.closeClip.same)

theorem Sound.takeAu {st off pts au bad} : (s.takeAu st off pts au bad).Sound := by
  unfold State.takeAu
  refine .ite h ?_
  split
  · exact .ite h.same h
  · have h0 {demux} : Sound { s with ing := { s.ing with demux := demux } } := h.same
    exact .ite h0.closeClip.same (.ite h0.same.overflowClip h0.same)

theorem Sound.endPes {st} : (s.endPes st).Sound :=
  .ite h.same (by
    split
    · exact h.same.takeAu
    · exact h.same)

theorem Sound.takePat {st off b} : (s.takePat st off b).Sound := .ite h h.same
theorem Sound.takePmt {st b} : (s.takePmt st b).Sound := .ite h ((Sound.ite h.endClip h).same)

theorem Sound.takePacket {st off p} : (s.takePacket st off p).Sound :=
  .ite (.ite h.same h) (.ite (h.same.foldl (fun _ _ g1 => .ite g1.takePat g1.takePmt)) (have h2 := Sound.ite h.endClip h
  .ite h2 (.ite h2.same (have h4 := Sound.ite h2.same.count h2.same
  .ite h4 (.ite (Sound.ite h4.same h4).endPes.same (.ite (Sound.ite h4.same h4) (Sound.ite h4.same h4).same))))))

theorem Sound.demuxOnce {st off} : (s.demuxOnce st off).2.1.Sound := by
  unfold State.demuxOnce
  extract_lets b
  split
  · split
    · exact h
    split
    exacts [h.demuxTo.takePacket, h.syncLost]
  · split
    exacts [h.demuxTo, h.demuxTo]

theorem Sound.demux {st n off} : (State.demux st n off s).Sound := by
  induction n generalizing off s with
  | zero => exact h
  | succ n ih => exact .ite (ih h.demuxOnce) h.demuxOnce

theorem Sound.depart {seat} : (s.depart seat).Sound := .ite h.same.flag h
theorem Sound.drainPort {n} : (s.drainPort n).Sound := h.setPort.count

theorem Sound.killCommands : s.killCommands.Sound := by
  unfold State.killCommands
  extract_lets s1
  have h1 : s1.Sound := h.finishWhere
  clear_value s1
  exact h1.same

theorem Sound.dropGraph : s.dropGraph.Sound := by
  unfold State.dropGraph
  have h1 : (s.killCommands.abandonCut 5).Sound := h.killCommands.abandonCut
  generalize s.killCommands.abandonCut 5 = s1 at h1
  exact h1.clearHub.same

theorem Sound.dropStream {ring tag} : (s.dropStream ring tag).Sound := by
  unfold State.dropStream
  split
  · exact h
  · exact h.same.finishTag

theorem Sound.formLocal : s.formLocal.Sound := by
  unfold State.formLocal
  split
  · exact h.flag.same
  · exact (Sound.ite h.stepSeen h).same

theorem Sound.idleEdge : s.idleEdge.Sound := by
  unfold State.idleEdge
  split
  · refine .ite ?_ h
    extract_lets +onlyGivenNames join s1
    have h1 : s1.Sound := .ite h.draw.same h
    clear_value s1
    extract_lets +onlyGivenNames _ _ s2 s3
    have h2 : s2.Sound := h1.same
    have h3 : s3.Sound := h2.swapCard.buildIfDue.freshRecords
    clear_value s3
    exact h3.same
  · exact h

theorem Sound.nextPos {m} : (s.nextPos m).Sound := by
  unfold State.nextPos
  split
  · exact h.idleEdge
  · exact .ite h (.ite h.same.idleEdge (.ite h.boundary h.same))

theorem Sound.partition : s.partition.Sound := .ite h (.ite h.same (.ite h.same h.same.same.emit))

theorem Sound.endReader {kind} : (s.endReader kind).Sound := by
  unfold State.endReader
  split
  · exact h
  · exact h.same

theorem Sound.linkEvent {kind n cause} : (s.linkEvent kind n cause).Sound := h.emit
theorem Sound.noteLoss {seat n peer} : (s.noteLoss seat n peer).Sound := .ite (h.same.depart.foldl (fun _ _ g3 => g3.sendFlit)) h.same

theorem Sound.reportLoss {n peer} : (s.reportLoss n peer).Sound :=
  .ite h (by
    split
    · exact h.sendFlit
    · exact h)

theorem Sound.linkDown {n} : (s.linkDown n).Sound :=
  have h3 := h.count.linkEvent.setPort.set.set
  .ite (.ite h3 h3.endReader.set) (have h4 := h3.reportLoss
  .ite h4 h4.noteLoss)

theorem Sound.portEdges : s.portEdges.Sound :=
  h.foldl (fun _ _ g1 => .ite g1 (.ite g1.setPort (have h2 := g1.setPort.count
  .ite h2.linkDown h2)))

theorem Sound.reroute : s.reroute.Sound := .ite h.ownRoutes h
theorem Sound.sendHello {n} : (s.sendHello n).Sound := h.sendFlit
theorem Sound.sendHellos : s.sendHellos.Sound := h.foldl (fun _ _ g1 => g1.sendHello)

theorem Sound.fabricEdge {sealing} : (s.fabricEdge sealing).Sound := by
  unfold State.fabricEdge
  extract_lets +onlyGivenNames alone ldr s1
  have h1 : s1.Sound := h.portEdges
  clear_value s1
  extract_lets +onlyGivenNames _ s2 own _ s3 s4 s5
  have h2 : s2.Sound := h1.same
  clear_value own
  have h3 : s3.Sound := h2.same
  have h4 : s4.Sound := h3.partition.reroute
  have h5 : s5.Sound := .ite h4 h4.sendHellos
  exact h5.foldl fun _ _ ht => .ite ht.sendFlit ht

theorem Sound.setSwap : s.setSwap.Sound := .ite h.same (.ite h.same h.draw.same)

theorem Sound.stepLimit : s.stepLimit.Sound :=
  .ite (have h1 := h.detectAt
  .ite h1 h1.same.emit) h

theorem Sound.openBeat : s.openBeat.Sound := h.stepLimit.setSwap.fabricEdge.same

theorem Sound.edge {m} : (s.edge m).Sound :=
  have h1 := h.advance.closeFigs
  (Sound.ite h1.formLocal h1).nextPos.openBeat

theorem Sound.emitStamped {kind die beat cyc payload} : (s.emitStamped kind die beat cyc payload).Sound := .ite h (.ite h.writeEvent h.same)
theorem Sound.endStream {st} : (s.endStream st).Sound := h.endPes.endClip.same.finishWhere
theorem Sound.errorEvent {l} : (s.errorEvent l).Sound := h.emitStamped

theorem Sound.evalMasters {q} : (s.evalMasters q).Sound :=
  h.foldl (fun _ _ g1 => g1.foldl (fun _ _ g2 => by
    split
    · exact g2.wcPut
    · exact g2))

theorem Sound.evalEncode {q m} (pairs : memWf m = true) : (s.evalEncode q m).Sound := by
  unfold State.evalEncode
  extract_lets +onlyGivenNames _ u w
  have hu : u.Sound := h.withPairs pairs rfl
  have hw : w.Sound := .ite hu.evalMasters (hu.foldl fun _ _ ht => ht.reencode)
  clear_value w
  exact hw.withPairs h.t1Pair h.t1Tag

theorem Sound.evalScales {x o p} : (s.evalScales x o p).Sound := h.foldl (fun _ _ g1 => g1.locWrite)

theorem Sound.evalParam {x y p} : (State.evalParam x y s p).Sound := by
  unfold State.evalParam
  split
  · refine .ite h (.ite (.ite (h.withT1Mem (mWrite_wf _ _ _ h.t1Mem)) h) (Sound.evalScales (Sound.evalEncode h ?_)))
    exact List.foldlRecOn (motive := fun m => memWf m = true) _ _ rfl fun _ wf _ _ => mWrite_wf _ _ _ wf
  · exact h

theorem Sound.evalStart : s.evalStart.Sound := .ite h.accept (.ite h.same.set.enter h.same.set)
theorem Sound.fatalStop : s.fatalStop.Sound := h.same.portsDown
theorem Sound.firstTags : s.firstTags.Sound := h.foldl (fun _ _ g1 => g1.setTag.setTag)
theorem Sound.floodReset : s.floodReset.Sound := .ite h.draw.tellMembers h
theorem Sound.flushEvents : s.flushEvents.Sound := h.same.foldl (fun _ _ g1 => g1.writeEvent)
theorem Sound.winEarly {x} : (s.winEarly x).Sound := h.count.same
theorem Sound.flushWin : s.flushWin.Sound := .ite h (h.same.foldl (fun _ _ g1 => g1.winEarly))
theorem Sound.movePiece {req k places i} : (s.movePiece req k places i).1.Sound := h.same

theorem Sound.serveCut {mu ch kind} : (s.serveCut mu ch kind).Sound := by
  unfold State.serveCut
  split
  · exact h
  dsimp only
  split
  · exact h
  · exact .ite h.movePiece (.ite h.movePiece.readCutAt h.movePiece.readCutAt.sendTwin)

theorem Sound.readGran {r p t kl} : (s.readGran r p t kl).Sound := by
  unfold State.readGran
  refine .ite (.ite h.hostPut h) (h.foldl fun u i hu => ?_)
  dsimp only
  split
  exacts [.ite hu.hostPut hu, hu]

theorem Sound.serveWin {x} : (s.serveWin x).Sound := .ite h.t1Write.markT1 h.same

theorem Sound.serveHost {mu ch} : (s.serveHost mu ch).Sound :=
  .ite (h.same.foldl (fun _ _ g1 => g1.serveWin)) (by
    split
    · exact h
    · exact by
        split
        · exact have h2 := h.readGran
          .ite h2.same.finishTag h2.same
        · exact h)

theorem Sound.serveMigr {mu ch} : (s.serveMigr mu ch).Sound := by
  unfold State.serveMigr
  split
  · exact h
  · exact h.same.copyOn.noteReady

theorem Sound.repairGran {mu k} : (s.repairGran mu k).Sound := by
  unfold State.repairGran
  extract_lets +onlyGivenNames again _ s1
  have h1 : s1.Sound := h.same
  clear_value s1
  split
  · exact h1
  · exact .ite h1.pairLost h1.firstScales.encodeGran.same

theorem Sound.serveRepair {mu ch} : (s.serveRepair mu ch).Sound := by
  unfold State.serveRepair
  split
  · exact h
  · exact .ite h.movePiece.repairGran h.movePiece

theorem Sound.serveScrub {mu ch} : (s.serveScrub mu ch).Sound := h.same

theorem Sound.serve {mu ch req} : (s.serve mu ch req).Sound := by
  unfold State.serve
  split
  · exact h.serveHost
  · exact h.serveCut
  · exact .ite h.serveCut h.serveCut
  · exact h.serveScrub
  · exact h.serveMigr
  · exact h.serveRepair
  · exact h

theorem Sound.grant {mu r counted} : (s.grant mu r counted).Sound := by
  have h2 {f v moved req} : (State.set { s with t1 := { s.t1 with moved := moved, req := req } } f v).Sound := Sound.set h.same
  exact (Sound.ite (Sound.count (h2.same)) h2).serve

theorem Sound.halted {cause} : (s.halted cause).Sound := h.enter.flushWin.same

theorem Sound.handled : s.handled.Sound := by
  unfold State.handled
  split
  · exact h
  · exact have h2 := h.same.set.set
    have h3 := by
        split
        · exact by
            split
            · exact h2.setSlot
            · exact h2
        · exact h2
    .ite (.ite h3 (.ite h3.flushEvents.errorEvent.halted.recorded h3.haltQuiet)) h3

theorem Sound.lateSwap {m} : (s.lateSwap m).Sound := by
  unfold State.lateSwap
  refine .ite h ?_
  dsimp only
  split
  exacts [h.same.swapCard, h.same.replanLate, h.same]

theorem Sound.heedLeader {m} : (s.heedLeader m).Sound :=
  .ite h.same.set.set.set (have h2 := Sound.ite h.lateSwap h
  .ite (Sound.ite h2 h2.same).detectAt (Sound.ite h2 h2.same))

theorem Sound.helloOnly {n} : (s.helloOnly n).Sound := h.setPort.set
theorem Sound.knowSerial {seat serial} : (s.knowSerial seat serial).Sound := h.same
theorem Sound.leaderDigest {g} : (s.leaderDigest g).2.Sound := .iteSnd h h.draw

theorem Sound.loadEval {src} : (s.loadEval src).Sound := by
  unfold State.loadEval
  split
  · exact h
  · exact by
      split
      · exact h
      · exact h.same.foldl (fun _ _ g1 => g1.evalParam)

theorem Sound.logNext : s.logNext.Sound := by
  unfold State.logNext
  split
  · exact h
  · exact h.same.logError

theorem Sound.miscable {n} : (s.miscable n).Sound :=
  .ite h (have h1 := h.linkEvent
  .ite h1.helloOnly h1.setPort.set)

theorem Sound.occupy {seat serial} : (s.occupy seat serial).Sound := h.same

theorem Sound.writeMasks {g} : (s.writeMasks g).Sound :=
  h.foldl (fun _ _ g1 => by
    split
    · exact g1
    · exact g1.foldl (fun _ _ g2 => g2.count.setBlock))

theorem Sound.placeGraph {g measure} : (s.placeGraph g measure).Sound := by
  unfold State.placeGraph
  extract_lets +onlyGivenNames ph s1
  have h1 : s1.Sound := by
    clear_value ph
    dsimp only [s1]
    split
    exacts [h.set, h]
  exact Sound.writeMasks h1.same

theorem Sound.placePiece {pos c r} : (s.placePiece pos c r).Sound := by
  unfold State.placePiece
  split
  · exact have h1 := Sound.ite h.count h
    have h2 := Sound.ite h1.count h1
    have h3 := Sound.ite h2.closePack h2
    .ite h3.same.closePack h3.same

theorem Sound.popCmd {n} : (s.popCmd n).Sound := h.setRing

theorem Sound.start {n op dr ng} {f : BitVec 512 → State → State} (hf : ∀ d t, t.Sound → (f d t).Sound) : (s.start n op dr ng f).Sound := by
  unfold State.start
  split
  · exact h
  · exact .ite h.popCmd.finish (.ite h.popCmd.finish (hf _ _ h.popCmd))

theorem Sound.planCommand {ring op check put} : (s.planCommand ring op check put).Sound :=
  h.start fun _ t ht => .ite ht.finish (.ite ht.finish (.ite ht.same.activate ht.same.activate))

theorem Sound.poisonLine {mu line} : (s.poisonLine mu line).Sound := by
  unfold State.poisonLine
  split
  · exact .ite h.markT1.same h.markT1
  · dsimp only
    split
    exacts [h.markT1, .ite h.markT1.same h.markT1.same]

theorem Sound.powerOff : s.powerOff.Sound := h.same
theorem Sound.putIf {f ok v} : (s.putIf f ok v).Sound := .ite h.set h
theorem Sound.quietEdge : s.quietEdge.Sound := .ite h.same.fabricEdge h.same

theorem Sound.rateSwitch : s.rateSwitch.Sound := by
  unfold State.rateSwitch
  split
  · exact .ite h.same h
  · exact h

theorem Sound.rawUnits {st n off} : (State.rawUnits st n off s).Sound := by
  induction n generalizing off s with
  | zero => exact h
  | succ n ih =>
    unfold State.rawUnits
    extract_lets b
    split
    · exact h
    · exact .ite h (ih h.same.takeAu)

theorem Sound.realign {shuffle} : (s.realign shuffle).Sound := .ite h.count.emit h

theorem Sound.reencodeAll : s.reencodeAll.Sound := by
  unfold State.reencodeAll
  split
  · exact h
  · exact h.foldl (fun _ _ g1 => by
      split
      · exact g1
      · exact .ite g1 (g1.foldl (fun _ _ g2 => g2.encodeGran)))

theorem Sound.refuseJoin {n cause} : (s.refuseJoin n cause).Sound := .ite h h.count.linkEvent.helloOnly
theorem Sound.refuseReg {off status} : (s.refuseReg off status).Sound := h.set.set.count.emit
theorem Sound.reply {v} : (s.reply v).Sound := h.same

theorem Sound.reset_ {k : ResetKind} {straps : Nat} {test : BootTest} (low : straps < 2 ^ 16) :
    (s.reset_ k straps test).Sound := by
  obtain ⟨wf, fits⟩ := s.regsAfter_good h k low
  unfold State.reset_
  extract_lets +onlyGivenNames fab link clk trained _ _ _ _ _ s1 s2 s3
  have next : fab.routeNext.all tabWf = true := by
    dsimp only [fab]
    split
    exacts [h.next, rfl]
  clear_value fab
  have h1 : s1.Sound := ⟨wf, fits, h.fuse, h.hostMem, rfl, rfl, rfl, rfl, rfl, rfl, rfl, rfl, rfl, next⟩
  have h2 : s2.Sound := .ite h1.count h1
  have h3 : s3.Sound := .ite h2.set.set h2
  exact h3.bootSteps

theorem Sound.resetKept {k test} : (s.resetKept k test).Sound := h.reset_ (s.get_lt _)

theorem Sound.restorePairs {x} : (s.restorePairs x).Sound :=
  Sound.foldl (h.withT1Mem (List.foldlRecOn (motive := fun m => memWf m = true) _ _ h.t1Mem fun _ wf _ _ => mSet_wf _ _ _ wf)) fun _ _ ht => ht.locWrite.setTag.setTag

theorem Sound.restoreRoutes {x} : (s.restoreRoutes x).Sound := .ite h.same.same (.ite h.same.ownRoutes.emit h.same)

theorem Sound.scrub : s.scrub.Sound :=
  { h with
    t0Mem := rfl, t0Sync := rfl, t1Mem := mem_filter_wf _ _ h.t1Mem, t1Pair := rfl, t1Tag := rfl, t1Cnt := rfl, t1Touch0 := rfl, t1Touch1 := rfl }

theorem Sound.restoreFrom {x own} : (s.restoreFrom x own).Sound :=
  h.killCommands.abandonCut.scrub.placeGraph.restorePairs.set.set.set.restoreRoutes.same.realign

theorem Sound.setFlash {k f} : (s.setFlash k f).Sound := .ite h.same h.same
theorem Sound.signal {v} : (s.signal v).Sound := .ite h.same (.ite (.ite h h.same) h.same)
theorem Sound.signalAll {vs} : (s.signalAll vs).Sound := h.foldl (fun _ _ g1 => g1.signal)
theorem Sound.startMove {m} : (s.startMove m).Sound := h.same
theorem Sound.stageCard {c free} : (s.stageCard c free).Sound := (h.same.foldl (fun _ _ g2 => g2.startMove)).noteReady

theorem Sound.startFig {f env} : (s.startFig f env).Sound :=
  .ite h.skipFig (.ite h.drop.sendVoid (.ite h.drop (have h1 := h.setStat.bodyRun
  .ite h1.completeFig h1)))

theorem Sound.steer {port off} : (s.steer port off).Sound := by
  unfold State.steer
  extract_lets +onlyGivenNames ld a s1
  have h1 : s1.Sound := h.set.set
  clear_value s1
  extract_lets +onlyGivenNames _ s2
  have h2 : s2.Sound := .ite (Sound.emit h1.same) h1
  exact h2.same

theorem Sound.stopRing {n} : (s.stopRing n).Sound := h.setRing.count.emit

theorem Sound.storeWord {a1 v} : (s.storeWord a1 v).Sound := by
  unfold State.storeWord
  split
  · exact h
  · exact { h with
      regs := tSet_wf _ _ _ h.regs
      fits := tSet_fit h.regs h.fits (List.foldlRecOn (motive := (· < 2 ^ 32)) _ _ (h.fits _) fun _ fit _ _ => fieldWrite_fit fit) }

theorem Sound.submitToken : s.submitToken.Sound := (Sound.ite h.set.setMeas.deriveAlias h.count).drawNonce

theorem Sound.syncSetNow {key v} : (s.syncSetNow key v).Sound :=
  have h1 := h.syncPut
  .ite h1 h1.syncAdd

theorem Sound.takeDraw : s.takeDraw.2.Sound := by
  unfold State.takeDraw
  extract_lets s1
  have h1 : s1.Sound := .ite h (.ite h (Sound.ite h h.count).switchDeck)
  split
  exacts [h1.same, h1]

theorem Sound.takeHello {n hello} : (s.takeHello n hello).Sound :=
  have h3 := (Sound.ite h.same h).setPort.set.knowSerial
  .ite (by
    split
    · exact .ite h3 (.ite h3.refuseJoin h3.miscable)
    · exact .ite h3.miscable h3.addMember) (.ite h3.adopt h3)

theorem Sound.takeLine {l} : (s.takeLine l).Sound := by
  unfold State.takeLine
  split
  · exact .ite h (.ite h.stopRing h.setRing)
  · exact h.same

theorem Sound.takeUp : s.takeUp.Sound := by
  unfold State.takeUp
  split
  · exact h
  · exact by
      split
      · exact h
      · exact have h2 := h.same.set.set
        .ite h2 (.ite h2.fatalStop h2.errorEvent)

theorem Sound.trainLink {cxl width speed} : (s.trainLink cxl width speed).Sound := Sound.same h.set

theorem Sound.vatExpect {key head tail} : (s.vatExpect key head tail).Sound := by
  unfold State.vatExpect
  extract_lets +onlyGivenNames e v _ s1
  have h1 : s1.Sound := h.same
  exact .ite h1 h1.count

theorem Sound.vatSet {key entry} : (s.vatSet key entry).Sound := h.same
theorem Sound.vatEntry {x} : (s.vatEntry x).Sound := .ite h.vatSet (.ite (.ite h.vatExpect h) h)
theorem Sound.writeArbCfg {k v} : (s.writeArbCfg k v).Sound := h.putIf.putIf.putIf
theorem Sound.writeArbRank {w v} : (s.writeArbRank w v).Sound := .ite h (.ite (h.foldl (fun _ _ g1 => g1.storeWord)) h.refuseReg)
theorem Sound.writeCelCfg {v} : (s.writeCelCfg v).Sound := .ite h (.ite h.storeWord h.refuseReg)
theorem Sound.writeCelRing {v} : (s.writeCelRing v).Sound := .ite h.storeWord h.refuseReg
theorem Sound.writeErrStatus {v} : (s.writeErrStatus v).Sound := .ite h h.set.set

theorem Sound.writeFeat {k v} : (s.writeFeat k v).Sound :=
  .ite h (have h1 := h.storeWord
  .ite h1.enter h1)

theorem Sound.writeLogHead {v} : (s.writeLogHead v).Sound := .ite h.set h
theorem Sound.writeLrMul {v} : (s.writeLrMul v).Sound := .ite h.storeWord h.refuseReg
theorem Sound.writeMargin {v} : (s.writeMargin v).Sound := .ite h.storeWord h.refuseReg
theorem Sound.writePlanCfg {v} : (s.writePlanCfg v).Sound := .ite h.same.storeWord h.refuseReg
theorem Sound.writeScrubCfg {k v} : (s.writeScrubCfg k v).Sound := h.putIf
theorem Sound.writeStart {go} : (s.writeStart go).Sound := .ite (.ite h.evalStart h.same) h

theorem Sound.writeWord {off v} : (s.writeWord off v).Sound :=
  .ite h (by
    split
    · exact h
    · exact .ite h (by
        split
        · exact .ite h.resetKept (.ite h.resetKept h)
        · exact h.writeStart
        · exact .ite h.writeFeat h.storeWord
        · exact h.writePlanCfg
        · exact h.writeMargin
        · exact h.writeLrMul
        · exact h.writeCelCfg
        · exact h.writeCelRing
        · exact h.writeErrStatus
        · exact h.writeLogHead
        · exact .ite h.commitArb h
        · exact .ite h.submitToken h
        · exact h.writeArbRank
        · exact h.foldl (fun _ _ g1 => g1.writeArbCfg)
        · exact h.foldl (fun _ _ g2 => g2.clearStarve)
        · exact h.foldl (fun _ _ g3 => g3.writeScrubCfg)
        · exact h.foldl (fun _ _ g4 => g4.clearSticky)
        · exact .ite h (h.foldl (fun _ _ g5 => g5.storeWord))
        · exact h.foldl (fun _ _ g6 => g6.storeWord)))

theorem Sound.writeBar0 {off size v} : (s.writeBar0 off size v).Sound := .ite h.writeWord (.ite h.writeWord.writeWord h)
theorem Sound.writeStatus {line} : (s.writeStatus line).Sound := .ite h.hostPut h.hostPut

end
end Sys2Proof.Machine.State

namespace Sys2Proof.Machine

theorem Answers.ite {P : State → Prop} {c : Prop} [Decidable c] {a b : Host.Outcome State Fault Refusal} (ha : Answers P a) (hb : Answers P b) :
    Answers P (if c then a else b) := by
  split <;> assumption

open State
section
variable {s : State} (h : s.Sound)
include h

theorem execAccumulateWrite_sound {cyc src mu} : Answers Sound (execAccumulateWrite cyc src mu s) :=
  .ite h (.ite h.tick (by
    split
    · exact h.tick
    · exact .ite h.tick.same.applyAcc h.tick.same.count))

theorem execArbRankWrite_sound {cyc mu v} : Answers Sound (execArbRankWrite cyc mu v s) := .ite h (.ite h.tick.writeArbRank h.tick)

theorem execArbStarve_sound {cyc mu ch req} : Answers Sound (execArbStarve cyc mu ch req s) := by
  refine .ite h ?_
  dsimp only
  split
  exacts [h.tick, .ite h.tick (.ite h.tick h.tick.set.starveEvent)]

theorem execBadOpcode_sound {cyc ring} : Answers Sound (execBadOpcode cyc ring s) := by
  refine .ite h ?_
  dsimp only
  split
  exacts [h.tick.popCmd.finish, h.tick]

theorem execBankPowerDown_sound {cyc bank writeFid a1} : Answers Sound (execBankPowerDown cyc bank writeFid a1 s) := by
  refine .ite h (.ite ?_ h.tick)
  dsimp only
  split
  · exact h.tick.same
  · split
    exacts [(Sound.count h.tick.same).drop, Sound.count h.tick.same]

theorem execBeatEdge_sound {m} : Answers Sound (execBeatEdge m s) := .ite h (.ite h.edge h.quietEdge)
theorem execBeatOffsetLimit_sound {cyc} : Answers Sound (execBeatOffsetLimit cyc s) := .ite h (.ite h.tick.detectAt h.tick)

theorem execBootComplete_sound {cyc} : Answers Sound (execBootComplete cyc s) := by
  refine .ite ?_ h
  extract_lets +onlyGivenNames s1 s2
  have h2 : s2.Sound := h.tick.set.set
  clear_value s2
  extract_lets +onlyGivenNames _ s3 s4 s5
  have h3 : s3.Sound := h2.same
  have h5 : s5.Sound := h3.set.set.set
  clear_value s5
  exact h5.enter.same

theorem execCelRegWrite_sound {cyc ring v} : Answers Sound (execCelRegWrite cyc ring v s) :=
  .ite h (.ite h.tick (.ite h.tick.writeCelRing h.tick.writeCelCfg))

theorem execClipDraw_sound {cyc} : Answers Sound (execClipDraw cyc s) := by
  refine .ite h (.ite h.tick ?_)
  dsimp only
  split
  · exact h.tick.placePiece
  have drawn := h.tick (cyc := cyc).takeDraw
  split
  next s2 e => exact (by rw [e] at drawn; exact drawn : s2.Sound)
  next c s2 e => exact (by rw [e] at drawn; exact drawn : s2.Sound).placePiece

theorem execColdReset_sound {cyc test} : Answers Sound (execColdReset cyc test s) := .ite h.tick.same.resetKept h

theorem execCommitCheck_sound {cyc} : Answers Sound (execCommitCheck cyc s) :=
  .ite h (.ite h.tick (by
    split
    · exact h.tick.same
    · exact h.tick.same))

theorem execConfigurationRequest_sound {cyc} : Answers Sound (execConfigurationRequest cyc s) :=
  .ite h (.ite (.ite h.tick (.ite h.tick.same (.ite h.tick.same (.ite h.tick.same h.tick.same)))) (.ite h.tick.same h.tick))

theorem execCxlMemAccess_sound {cyc write line data} : Answers Sound (execCxlMemAccess cyc write line data s) :=
  .ite h (.ite h.tick (.ite h.tick.winEarly (.ite h.tick h.tick.same)))

theorem execDebugUnlock_sound {cyc} : Answers Sound (execDebugUnlock cyc s) := .ite h (.ite h.tick.submitToken h.tick)

theorem execDelayMeasure_sound {cyc port roundTripQns} : Answers Sound (execDelayMeasure cyc port roundTripQns s) :=
  .ite h (.ite h.tick.set h.tick)

theorem execDescriptorFetch_sound {cyc ring desc} : Answers Sound (execDescriptorFetch cyc ring desc s) :=
  .ite h (.ite h.tick.setRing.same.hostPut h.tick)

theorem execDieToDieRetry_sound {cyc die port lanes retrained} : Answers Sound (execDieToDieRetry cyc die port lanes retrained s) :=
  .ite h (.ite h.tick h.tick.detectAt)

theorem execDomainReset_sound {cyc test} : Answers Sound (execDomainReset cyc test s) := .ite h.tick.floodReset.resetKept h

theorem execDrainToHalt_sound {cyc} : Answers Sound (execDrainToHalt cyc s) :=
  .ite h (.ite ((Sound.ite h.tick.scrub h.tick).finishWhere.halted.portsDown) h.tick)

theorem execErrLogHeadWrite_sound {cyc v} : Answers Sound (execErrLogHeadWrite cyc v s) := .ite h (.ite h.tick.writeLogHead h.tick)
theorem execErrStatusWrite_sound {cyc v} : Answers Sound (execErrStatusWrite cyc v s) := .ite h (.ite h.tick.writeErrStatus h.tick)
theorem execErrorDetected_sound {cyc e} : Answers Sound (execErrorDetected cyc e s) := .ite h h.tick.detect
theorem execErrorHandled_sound {cyc} : Answers Sound (execErrorHandled cyc s) := .ite h h.tick.handled
theorem execErrorHandling_sound {cyc} : Answers Sound (execErrorHandling cyc s) := .ite h h.tick.takeUp
theorem execErrorLogged_sound {cyc} : Answers Sound (execErrorLogged cyc s) := .ite h h.tick.logNext
theorem execEventBeatClose_sound {cyc} : Answers Sound (execEventBeatClose cyc s) := .ite h h.tick.openEvents

theorem execExtraRefresh_sound {cyc mu ch a1 a2} : Answers Sound (execExtraRefresh cyc mu ch a1 a2 s) :=
  .ite h (.ite h.tick (.ite h.tick.count h.tick.count.same.detectAt))

theorem execFeatAcceptWrite_sound {cyc k v} : Answers Sound (execFeatAcceptWrite cyc k v s) := .ite h h.tick.writeFeat

theorem execFigureComplete_sound {cyc fid} : Answers Sound (execFigureComplete cyc fid s) := by
  unfold execFigureComplete
  refine .ite h ?_
  dsimp only
  split
  · exact h.tick
  refine .ite h.tick ?_
  split
  exacts [.ite h.tick.vecRun.completeFig h.tick.vecRun, .ite h.tick.completeFig h.tick]

theorem execFigureStart_sound {cyc fid env} : Answers Sound (execFigureStart cyc fid env s) := by
  refine .ite h ?_
  dsimp only
  split
  exacts [h.tick, .ite h.tick (.ite h.tick.startFig h.tick)]

theorem execFlitCrcFail_sound {cyc port} : Answers Sound (execFlitCrcFail cyc port s) := .ite h (.ite h.tick.setPort h.tick)

theorem execFlitReceived_sound {cyc port flit trailer} : Answers Sound (execFlitReceived cyc port flit trailer s) :=
  .ite h (.ite h.tick (.ite h.tick h.tick.setPort.deliver))

theorem execGoResponse_sound {cyc line} : Answers Sound (execGoResponse cyc line s) :=
  .ite h (.ite h.tick (.ite h.tick.setGo.signalAll (.ite h.tick.writeStatus.setGo h.tick)))

theorem execHelloReceived_sound {cyc port payload} : Answers Sound (execHelloReceived cyc port payload s) :=
  .ite h (.ite h.tick (.ite h.tick.linkDown (have h3 := h.tick.setPort.set.set
  .ite (.ite h3.setPort.set h3.miscable) (.ite h3.helloOnly (.ite h3.miscable (.ite h3.refuseJoin h3.takeHello))))))

theorem execHostBootImage_sound {cyc image test} : Answers Sound (execHostBootImage cyc image test s) :=
  .ite (.ite h.tick.same.set.bootDies h.tick.same.set.same) h

theorem execHostLinePoll_sound {cyc lines} : Answers Sound (execHostLinePoll cyc lines s) :=
  .ite h (.ite (h.tick.foldl (fun _ _ g2 => g2.takeLine)) h.tick)

theorem execHostLineWrite_sound {cyc line} : Answers Sound (execHostLineWrite cyc line s) := .ite h (.ite h.tick.takeLine h.tick)

theorem execHostLinkLost_sound {cyc recovered} : Answers Sound (execHostLinkLost cyc recovered s) :=
  .ite h (.ite h.tick (.ite h.tick.same.detectAt h.tick.same))

theorem execHostLinkRetrain_sound {cyc width speed} : Answers Sound (execHostLinkRetrain cyc width speed s) :=
  .ite h (.ite h.tick.trainLink h.tick)

theorem execHostReadError_sound {cyc what} : Answers Sound (execHostReadError cyc what s) :=
  .ite h (by
    split
    · exact .ite h.tick.dropStream (by
        split
        · exact .ite h.tick.popCmd.finish h.tick
        · exact h.tick)
    · exact .ite h.tick.detectFor h.tick)

theorem execHubResetCold_sound {cyc test} : Answers Sound (execHubResetCold cyc test s) := .ite h.tick.resetKept h
theorem execHubResetWarm_sound {cyc test} : Answers Sound (execHubResetWarm cyc test s) := .ite h.tick.resetKept h

theorem execIngPosRead_sound {cyc ring} : Answers Sound (execIngPosRead cyc ring s) :=
  .ite h (h.tick.start (fun _ _ g1 => g1.hostPut.finish))

theorem execIngestMb_sound {cyc ring} : Answers Sound (execIngestMb cyc ring s) :=
  .ite h (h.tick.start (fun _ _ g1 => .ite g1.finish (.ite g1.finish (.ite g1.finish g1.same.activate))))

theorem execIngestStream_sound {cyc ring sd} : Answers Sound (execIngestStream cyc ring sd s) :=
  .ite h (h.tick.start (fun _ _ g1 => .ite g1.finish (.ite g1.finish g1.same.activate)))

theorem execInputPowerOverTdp_sound {cyc watts us} : Answers Sound (execInputPowerOverTdp cyc watts us s) :=
  .ite h (.ite h.tick.detectAt h.tick)

theorem execInputVoltageFault_sound {cyc mv ns} : Answers Sound (execInputVoltageFault cyc mv ns s) :=
  have h1 := Sound.ite h.tick h
  .ite h1.same.powerOff h1.same

theorem execKill_sound {cyc ring} : Answers Sound (execKill cyc ring s) :=
  .ite h (h.tick.start (fun _ _ g1 => .ite g1.finish (.ite g1.dropGraph.finish g1.dropGraph.activate)))

theorem execLeaderElected_sound {cyc} : Answers Sound (execLeaderElected cyc s) := .ite h (.ite h.tick.same.set.addMember.tryForm h.tick)

theorem execLeaderLost_sound {cyc} : Answers Sound (execLeaderLost cyc s) := by
  refine .ite h (.ite ?_ h.tick)
  dsimp only
  split
  exacts [h.tick.depart.same, h.tick.flag.same]

theorem execLinkControlFlit_sound {cyc port lastGood nak credits} : Answers Sound (execLinkControlFlit cyc port lastGood nak credits s) :=
  .ite h (.ite h.tick h.tick.setPort.count.drainPort)

theorem execLinkControlSend_sound {cyc port} : Answers Sound (execLinkControlSend cyc port s) := .ite h (.ite h.tick.setPort h.tick)
theorem execLinkDown_sound {cyc port} : Answers Sound (execLinkDown cyc port s) := .ite h (.ite h.tick.linkDown h.tick)

theorem execLinkRetrain_sound {cyc port width} : Answers Sound (execLinkRetrain cyc port width s) :=
  .ite h (.ite
    (Sound.ite h.tick.setPort.count.linkDown h.tick.setPort.count)
    (.ite (Sound.sendHello (Sound.ite h.tick.setPort.count (Sound.ite h.tick.setPort.count h.tick.setPort.count.set).linkEvent)) h.tick))

theorem execLinkUp_sound {cyc port width} : Answers Sound (execLinkUp cyc port width s) :=
  .ite h (.ite h.tick.same.setPort.set.set.sendHello h.tick)

theorem execLoadCard_sound {cyc ring card side} : Answers Sound (execLoadCard cyc ring card side s) :=
  .ite h (h.tick.start (fun _ _ g1 => .ite g1.finish (by
    split
    · exact g1.stageCard.finish
    · exact g1.finish)))

theorem execLoadGraph_sound {cyc ring image mask places src} : Answers Sound (execLoadGraph cyc ring image mask places src s) :=
  .ite h (h.tick.start (fun _ _ g1 => .ite g1.finish (.ite g1.finish (.ite g1.leaderDigest.finish g1.leaderDigest.placeGraph.firstTags.loadEval.activate))))

theorem execLrMulWrite_sound {cyc v} : Answers Sound (execLrMulWrite cyc v s) := .ite h (.ite h.tick.writeLrMul h.tick)

theorem execMarkerReceived_sound {cyc port mk offsetQns} : Answers Sound (execMarkerReceived cyc port mk offsetQns s) :=
  .ite h (.ite h.tick (have h2 := h.tick.setPort
  have h4 := Sound.ite h2.same h2.same.steer
  .ite h4.heedLeader h4))

theorem execMemberReceived_sound {cyc msg} : Answers Sound (execMemberReceived cyc msg s) :=
  .ite h (.ite h.tick (by
    split
    · exact .ite h.tick.addMember (.ite h.tick.occupy h.tick)
    · exact .ite h.tick.noteLoss h.tick
    · exact h.tick.depart))

theorem execMirrorDone_sound {cyc} : Answers Sound (execMirrorDone cyc s) := by
  refine .ite h ?_
  dsimp only
  split
  exacts [h.tick, .ite (Sound.endReader h.tick.same).set h.tick.same]

theorem execMr4Report_sound {cyc mu rate hot} : Answers Sound (execMr4Report cyc mu rate hot s) :=
  .ite h (.ite h.tick (.ite h.tick.same.detectAt h.tick.same))

theorem execMsixModerationExpiry_sound {cyc vec} : Answers Sound (execMsixModerationExpiry cyc vec s) :=
  .ite h (.ite (.ite h.tick.same.same.signal h.tick.same) h.tick)

theorem execNandProgramFail_sound {cyc} : Answers Sound (execNandProgramFail cyc s) :=
  .ite h (.ite h.tick (have h2 := h.tick.count.detectAt
  .ite h2.same.same.set h2.same))

theorem execNop_sound {cyc ring} : Answers Sound (execNop cyc ring s) := .ite h (h.tick.start (fun _ _ g1 => g1.finish))

theorem execParamRead_sound {cyc ring} : Answers Sound (execParamRead cyc ring s) :=
  .ite h (h.tick.start (fun _ _ g1 => by
    split
    · exact g1.finish
    · exact have h2 := Sound.ite g1.pairLost g1
      .ite h2.finish h2.same.activate))

theorem execParamWrite_sound {cyc ring src} : Answers Sound (execParamWrite cyc ring src s) :=
  .ite h (h.tick.start (fun _ _ g1 => by
    split
    · exact g1.finish
    · exact .ite g1.finish g1.same.activate))

theorem execPatrolScrub_sound {cyc mu line corrected} : Answers Sound (execPatrolScrub cyc mu line corrected s) := by
  refine .ite h (.ite h.tick (.ite ?_ h.tick.same))
  have h2 {patrol} : Sound { s.tick cyc with t1 := { (s.tick cyc).t1 with patrol := patrol } } := h.tick.same
  exact h2.count.detect.same

theorem execPerstRelease_sound {cyc cxl width speed} : Answers Sound (execPerstRelease cyc cxl width speed s) :=
  .ite h.tick.same.trainLink h.same

theorem execPlanCfgWrite_sound {cyc margin v} : Answers Sound (execPlanCfgWrite cyc margin v s) :=
  .ite h (.ite h.tick (.ite h.tick.writeMargin h.tick.writePlanCfg))

theorem execPldmFirmwareUpdate_sound {cyc op} : Answers Sound (execPldmFirmwareUpdate cyc op s) :=
  .ite h (.ite h.tick (by
    split
    · exact h.tick.setFlash.same
    · exact by
        split
        · exact .ite h.tick h.tick.same
        · exact h.tick
    · exact by
        split
        · exact .ite h.tick (have h3 := h.tick.setFlash
          .ite h3.same.same.bootFlash h3.same)
        · exact h.tick
    · exact by
        split
        · exact .ite h.tick.set.same h.tick
        · exact h.tick))

theorem execPldmRequest_sound {cyc req} : Answers Sound (execPldmRequest cyc req s) :=
  .ite h (.ite h.tick (by
    split
    · exact h.tick.reply
    · exact h.tick.reply
    · exact h.tick.reply
    · exact .ite h.tick.commitArb h.tick))

theorem execPldmReset_sound {cyc test} : Answers Sound (execPldmReset cyc test s) := .ite h.tick.resetKept h

theorem execPowerOnReset_sound {a1 straps test} : Answers Sound (execPowerOnReset a1 straps test s) :=
  .ite h (Sound.reset_ h.same straps.isLt)

theorem execPwrgdFall_sound {cyc} : Answers Sound (execPwrgdFall cyc s) := (Sound.ite h.tick h).same.powerOff
theorem execRefclk156Loss_sound {cyc} : Answers Sound (execRefclk156Loss cyc s) := .ite h h.tick.same
theorem execRegisterWrite_sound {cyc off size v} : Answers Sound (execRegisterWrite cyc off size v s) := .ite h h.tick.writeBar0
theorem execReplan_sound {cyc ring} : Answers Sound (execReplan cyc ring s) := .ite h h.tick.planCommand

theorem execRestore_sound {cyc ring others twin} : Answers Sound (execRestore cyc ring others twin s) :=
  .ite h (h.tick.start (fun _ _ g1 => .ite g1.finish (.ite g1.finish (.ite ((Sound.ite g1.count g1).finish) (by
    split
    · exact g1.restoreFrom.activate
    · exact g1.finish)))))

theorem execRestoreDone_sound {cyc} : Answers Sound (execRestoreDone cyc s) := .ite h (.ite h.tick.reencodeAll.finishWhere h.tick)
theorem execRindStart_sound {cyc inFlight} : Answers Sound (execRindStart cyc inFlight s) := .ite h (.ite h.tick.same.rateSwitch h.tick)

theorem execRouteReceived_sound {cyc ld first entries} : Answers Sound (execRouteReceived cyc ld first entries s) := by
  refine .ite h (.ite (h.tick.withNext ?_) h.tick)
  have tables := List.all_eq_true.mp (h.tick (cyc := cyc)).next
  have old : tabWf ((s.tick cyc).fab.routeNext.getD ld []) = true := by
    rw [List.getD_eq_getElem?_getD]
    cases e : (s.tick cyc).fab.routeNext[ld]? with
    | none => rfl
    | some t => exact tables t (List.mem_of_getElem? e)
  refine List.all_eq_true.mpr fun t ht => ?_
  obtain there | rfl := List.mem_or_eq_of_mem_set ht
  exacts [tables t there, foldl_tSet_wf _ _ _ old]

theorem execScratchpadEcc_sound {cyc die cluster line fatal fid} : Answers Sound (execScratchpadEcc cyc die cluster line fatal fid s) :=
  .ite h (.ite h.tick (.ite h.tick.t0Mark.detect h.tick.count.detect))

theorem execScrubDone_sound {cyc nonZero} : Answers Sound (execScrubDone cyc nonZero s) := by
  refine .ite h (.ite (Sound.finishWhere ?_) h.tick)
  split
  exacts [h.tick.scrub.detect, h.tick.scrub]

theorem execSeatReady_sound {cyc card side beatsNeeded} : Answers Sound (execSeatReady cyc card side beatsNeeded s) :=
  .ite h (.ite h.tick (have h2 := h.tick.same.emit
  .ite h2 (by
    split
    · exact h2
    · exact by
        split
        · exact .ite h.tick.stageCard h.tick
        · exact h.tick)))

theorem execSecArbCommit_sound {cyc} : Answers Sound (execSecArbCommit cyc s) := .ite h (.ite h.tick.commitArb h.tick)
theorem execSetBeat_sound {cyc ring} : Answers Sound (execSetBeat cyc ring s) := .ite h h.tick.planCommand
theorem execSetCap_sound {cyc ring} : Answers Sound (execSetCap cyc ring s) := .ite h h.tick.planCommand
theorem execSetPhrase_sound {cyc ring} : Answers Sound (execSetPhrase cyc ring s) := .ite h h.tick.planCommand

theorem execShip_sound {cyc ring} : Answers Sound (execShip cyc ring s) :=
  .ite h (h.tick.start (fun _ _ g1 => .ite g1.same.activate (.ite g1.same.activate g1.finish)))

theorem execShipDone_sound {cyc measure} : Answers Sound (execShipDone cyc measure s) :=
  .ite h (.ite ((Sound.ite h.tick.same.endReader h.tick.same).finishWhere) h.tick)

theorem execSlotArbitration_sound {cyc mu ch requests slot} : Answers Sound (execSlotArbitration cyc mu ch requests slot s) := by
  refine .ite h (.ite h.tick ?_)
  extract_lets +onlyGivenNames s1 key held add _ s2 all n nth open_
  have h2 : s2.Sound := h.tick.settleWaits.same
  have granted : open_.Sound := by
    clear_value s2 n nth all
    dsimp only [open_]
    split
    exacts [h2.grant, h2]
  clear_value s2 open_ all
  split
  · exact Sound.ite h2 granted
  · split
    exacts [h2.grant, granted]
  · exact granted

theorem execSlotSel_sound {cyc die cluster} : Answers Sound (execSlotSel cyc die cluster s) := by
  refine .ite h ?_
  dsimp only
  split
  exacts [.ite h.tick.same h.tick, h.tick]

theorem execSnapDomain_sound {cyc} : Answers Sound (execSnapDomain cyc s) := by
  refine .ite h ?_
  dsimp only
  split
  exacts [h.tick, .ite (Sound.set h.tick.same).emit h.tick]

theorem execSnapDone_sound {cyc} : Answers Sound (execSnapDone cyc s) := by
  refine .ite h ?_
  dsimp only
  split
  · exact h.tick
  next c _ =>
    refine .ite h.tick (Sound.closeCut (Sound.same (Sound.emit (Sound.set ?_))))
    exact h.tick.wearBytes.count.same

theorem execSpdmRequest_sound {cyc req} : Answers Sound (execSpdmRequest cyc req s) := by
  have say {t : State} (ht : t.Sound) {req : SpdmReq} : (t.reply (Config.spdmPayload (spdmCode req) t.sec.replies.length)).Sound := ht.reply
  refine .ite h (.ite h.tick (.ite h.tick (.ite h.tick.reply ?_)))
  dsimp only
  split
  exacts [say h.tick.same, say h.tick.same, say h.tick.same, .ite h.tick.reply h.tick.reply, say h.tick.same, say h.tick.same,
    .ite (say h.tick) h.tick.reply, say h.tick, say h.tick, say h.tick, say h.tick, say h.tick, h.tick.reply]

theorem execStart_sound {cyc go} : Answers Sound (execStart cyc go s) := .ite h h.tick.writeStart

theorem execStarveFlagClear_sound {cyc mu v setNow} : Answers Sound (execStarveFlagClear cyc mu v setNow s) :=
  .ite h (.ite (h.tick.foldl (fun _ _ g2 => g2.clearStarve)) h.tick)

theorem execStop_sound {cyc ring} : Answers Sound (execStop cyc ring s) :=
  .ite h (h.tick.start (fun _ _ g1 => g1.killCommands.activate.enter))

theorem execSyncArm_sound {cyc ring} : Answers Sound (execSyncArm cyc ring s) :=
  .ite h (h.tick.start (fun _ _ g1 => g1.same.finish.armFire))

theorem execSyncRead_sound {cyc ring} : Answers Sound (execSyncRead cyc ring s) := .ite h (h.tick.start (fun _ _ g1 => g1.finish))

theorem execSyncSetAt_sound {cyc die obj} : Answers Sound (execSyncSetAt cyc die obj s) := by
  refine .ite h ?_
  have h0 : Sound (if cyc = 0 then s else s.tick (cyc - 1)) := .ite h h.tick
  generalize (if cyc = 0 then s else s.tick (cyc - 1)) = s0 at h0
  dsimp only
  split
  exacts [.ite h0.syncSetNow (.ite (Sound.tick h0.same) h0.tick), h0.tick]

theorem execSyncSignal_sound {cyc ring} : Answers Sound (execSyncSignal cyc ring s) :=
  .ite h (h.tick.start (fun _ _ g1 => .ite g1.finish g1.finish.syncAdd))

theorem execT1ClearDone_sound {cyc} : Answers Sound (execT1ClearDone cyc s) := by
  refine .ite h (.ite ?_ h.tick)
  have h3 : Sound { (s.tick cyc).set F.HUB_BOOT_STATUS_T1_CLEAR 1 with
      t1 := { ((s.tick cyc).set F.HUB_BOOT_STATUS_T1_CLEAR 1).t1 with mem := [], pair := [] } } :=
    { h.tick.set with t1Mem := rfl, t1Pair := rfl }
  exact Sound.ite h3.evalStart h3

theorem execT1InlineEcc_sound {cyc mu ch line check fid} : Answers Sound (execT1InlineEcc cyc mu ch line check fid s) :=
  .ite h (.ite h.tick (by
    split
    · exact h.tick.count.detect.same
    · exact h.tick.same
    · exact .ite h.tick h.tick.same.count.poisonLine.detect
    · exact h.tick.count))

theorem execThermalShutdown_sound {cyc tempC} : Answers Sound (execThermalShutdown cyc tempC s) := .ite h.tick.same.powerOff h

theorem execTsPacket_sound {cyc pkt} : Answers Sound (execTsPacket cyc pkt s) := by
  refine .ite h ?_
  dsimp only
  split
  · exact h.tick
  next st rest _ =>
    refine .ite h.tick ?_
    have read {st1 streams demux n base} : Sound (if sdKind st.desc = 0 then
        State.demux st1 (n + 1) base { s.tick cyc with ing := { (s.tick cyc).ing with streams := streams, demux := demux } }
        else State.rawUnits st1 n base { s.tick cyc with ing := { (s.tick cyc).ing with streams := streams, demux := demux } }) :=
      .ite (Sound.demux h.tick.same) (Sound.rawUnits h.tick.same)
    exact .ite read.endStream read

theorem execVatExpectLoad_sound {cyc} : Answers Sound (execVatExpectLoad cyc s) :=
  .ite h (.ite (h.tick.foldl (fun _ _ g2 => g2.vatEntry)) h.tick)

theorem execVatWaitResume_sound {cyc die cluster vat} : Answers Sound (execVatWaitResume cyc die cluster vat s) := by
  refine .ite h ?_
  dsimp only
  split
  · exact h.tick
  split
  · exact h.tick
  refine .ite h.tick ?_
  split
  exacts [Sound.dmaRun h.tick.count.same, h.tick.count.same]

theorem execVecStickyClear_sound {cyc cd v setNow} : Answers Sound (execVecStickyClear cyc cd v setNow s) :=
  .ite h (.ite (h.tick.foldl (fun _ _ g2 => g2.clearSticky)) h.tick)

end

/-- Every command keeps the stores canonical and the register words within 32 bits. -/
theorem exec_sound {s : State} (h : s.Sound) (c : Instr) : Answers Sound (exec c s) :=
  match c with
  | .powerOnReset cyc .. => execPowerOnReset_sound (a1 := cyc) h
  | .bootComplete .. => execBootComplete_sound h
  | .t1ClearDone .. => execT1ClearDone_sound h
  | .pwrgdFall .. => execPwrgdFall_sound h
  | .coldReset .. => execColdReset_sound h
  | .perstRelease .. => execPerstRelease_sound h
  | .hubResetCold .. => execHubResetCold_sound h
  | .hubResetWarm .. => execHubResetWarm_sound h
  | .pldmReset .. => execPldmReset_sound h
  | .domainReset .. => execDomainReset_sound h
  | .hostBootImage .. => execHostBootImage_sound h
  | .inputVoltageFault .. => execInputVoltageFault_sound h
  | .thermalShutdown .. => execThermalShutdown_sound h
  | .inputPowerOverTdp .. => execInputPowerOverTdp_sound h
  | .refclk156Loss .. => execRefclk156Loss_sound h
  | .hostLinkLost .. => execHostLinkLost_sound h
  | .hostLinkRetrain .. => execHostLinkRetrain_sound h
  | .featAcceptWrite .. => execFeatAcceptWrite_sound h
  | .start .. => execStart_sound h
  | .secArbCommit .. => execSecArbCommit_sound h
  | .debugUnlock .. => execDebugUnlock_sound h
  | .starveFlagClear .. => execStarveFlagClear_sound h
  | .vecStickyClear .. => execVecStickyClear_sound h
  | .errStatusWrite .. => execErrStatusWrite_sound h
  | .errLogHeadWrite .. => execErrLogHeadWrite_sound h
  | .planCfgWrite .. => execPlanCfgWrite_sound h
  | .lrMulWrite .. => execLrMulWrite_sound h
  | .arbRankWrite .. => execArbRankWrite_sound h
  | .celRegWrite .. => execCelRegWrite_sound h
  | .registerWrite .. => execRegisterWrite_sound h
  | .hostLineWrite .. => execHostLineWrite_sound h
  | .hostLinePoll .. => execHostLinePoll_sound h
  | .descriptorFetch .. => execDescriptorFetch_sound h
  | .badOpcode .. => execBadOpcode_sound h
  | .nop .. => execNop_sound h
  | .loadGraph .. => execLoadGraph_sound h
  | .loadCard .. => execLoadCard_sound h
  | .kill .. => execKill_sound h
  | .scrubDone .. => execScrubDone_sound h
  | .restore .. => execRestore_sound h
  | .restoreDone .. => execRestoreDone_sound h
  | .ship .. => execShip_sound h
  | .stop .. => execStop_sound h
  | .drainToHalt .. => execDrainToHalt_sound h
  | .setBeat .. => execSetBeat_sound h
  | .setCap .. => execSetCap_sound h
  | .setPhrase .. => execSetPhrase_sound h
  | .replan .. => execReplan_sound h
  | .syncSignal .. => execSyncSignal_sound h
  | .syncRead .. => execSyncRead_sound h
  | .syncArm .. => execSyncArm_sound h
  | .ingestStream .. => execIngestStream_sound h
  | .ingestMb .. => execIngestMb_sound h
  | .ingPosRead .. => execIngPosRead_sound h
  | .paramWrite .. => execParamWrite_sound h
  | .paramRead .. => execParamRead_sound h
  | .goResponse .. => execGoResponse_sound h
  | .msixModerationExpiry .. => execMsixModerationExpiry_sound h
  | .cxlMemAccess .. => execCxlMemAccess_sound h
  | .hostReadError .. => execHostReadError_sound h
  | .spdmRequest .. => execSpdmRequest_sound h
  | .pldmRequest .. => execPldmRequest_sound h
  | .pldmFirmwareUpdate .. => execPldmFirmwareUpdate_sound h
  | .beatEdge .. => execBeatEdge_sound h
  | .seatReady .. => execSeatReady_sound h
  | .figureStart .. => execFigureStart_sound h
  | .figureComplete .. => execFigureComplete_sound h
  | .vatWaitResume .. => execVatWaitResume_sound h
  | .vatExpectLoad .. => execVatExpectLoad_sound h
  | .slotSel .. => execSlotSel_sound h
  | .syncSetAt .. => execSyncSetAt_sound h
  | .rindStart .. => execRindStart_sound h
  | .bankPowerDown .. => execBankPowerDown_sound h
  | .commitCheck .. => execCommitCheck_sound h
  | .eventBeatClose .. => execEventBeatClose_sound h
  | .errorDetected .. => execErrorDetected_sound h
  | .errorLogged .. => execErrorLogged_sound h
  | .errorHandling .. => execErrorHandling_sound h
  | .errorHandled .. => execErrorHandled_sound h
  | .tsPacket .. => execTsPacket_sound h
  | .clipDraw .. => execClipDraw_sound h
  | .linkUp .. => execLinkUp_sound h
  | .helloReceived .. => execHelloReceived_sound h
  | .leaderElected .. => execLeaderElected_sound h
  | .linkRetrain .. => execLinkRetrain_sound h
  | .linkDown .. => execLinkDown_sound h
  | .memberReceived .. => execMemberReceived_sound h
  | .leaderLost .. => execLeaderLost_sound h
  | .routeReceived .. => execRouteReceived_sound h
  | .delayMeasure .. => execDelayMeasure_sound h
  | .markerReceived .. => execMarkerReceived_sound h
  | .beatOffsetLimit .. => execBeatOffsetLimit_sound h
  | .flitReceived .. => execFlitReceived_sound h
  | .flitCrcFail .. => execFlitCrcFail_sound h
  | .linkControlFlit .. => execLinkControlFlit_sound h
  | .linkControlSend .. => execLinkControlSend_sound h
  | .accumulateWrite .. => execAccumulateWrite_sound h
  | .slotArbitration .. => execSlotArbitration_sound h
  | .arbStarve .. => execArbStarve_sound h
  | .mr4Report .. => execMr4Report_sound h
  | .extraRefresh _ _ _ offered displaced => execExtraRefresh_sound (a1 := offered) (a2 := displaced) h
  | .t1InlineEcc .. => execT1InlineEcc_sound h
  | .patrolScrub .. => execPatrolScrub_sound h
  | .scratchpadEcc .. => execScratchpadEcc_sound h
  | .snapDone .. => execSnapDone_sound h
  | .snapDomain .. => execSnapDomain_sound h
  | .nandProgramFail .. => execNandProgramFail_sound h
  | .mirrorDone .. => execMirrorDone_sound h
  | .dieToDieRetry .. => execDieToDieRetry_sound h
  | .shipDone .. => execShipDone_sound h
  | .configurationRequest .. => execConfigurationRequest_sound h

/-- What holds of a state that idles and after every command it may run holds after its step. -/
theorem step_induct {P : State → Prop} {s t : State} (stepped : step s = .next t) (idle : s.pending = [] → P s)
    (run : ∀ c rest, s.pending = c :: rest → Answers P (exec c { s with pending := rest })) : P t := by
  rw [step] at stepped
  split at stepped
  next empty =>
    cases stepped
    exact idle empty
  next c rest front =>
    obtain ⟨u, answered, holds⟩ := (run c rest front).exists_next
    cases answered.symm.trans stepped
    exact holds

/-- Settles O60: `exec_sound` for the front command; an empty queue leaves the state. -/
theorem storesStayCanonical : Obligations.StoresStayCanonical := by
  unfold Obligations.StoresStayCanonical
  refine ⟨(sound_iff _).mp sound_reset, fun s t canonical fits stepped => (sound_iff t).mp ?_⟩
  have h : s.Sound := (sound_iff s).mpr ⟨canonical, fits⟩
  exact step_induct stepped (fun _ => h) fun c rest _ => exec_sound h.same c

end Sys2Proof.Machine
end

section
/-! PROOF. Which commands change the device state, and along which edges (O59): first the operations that do, then every command. -/
namespace Sys2Proof.Machine

/-! ## What an operation makes of the device state -/

@[simp] theorem State.enter_dev (s : State) (d : DevState) (h : Nat) : (s.enter d h).dev = d := by
  rw [State.enter_eq]

@[simp] theorem State.accept_dev (s : State) : s.accept.dev = .running := by
  simp [State.accept]

@[simp] theorem State.halted_dev (s : State) (cause : Nat) : (s.halted cause).dev = .halted := by
  simp [State.halted]

@[simp] theorem State.haltQuiet_dev (s : State) (cause : Nat) : (s.haltQuiet cause).dev = .halted := rfl

@[simp] theorem State.doubleFault_dev (s : State) : s.doubleFault.dev = .halted := by
  simp [State.doubleFault, State.haltQuiet]

/-- The device state is as before, or the device has halted. -/
def staysOrHalts (a b : DevState) : Prop := b = a ∨ b = .halted

theorem State.logError_dev (s : State) (e : ErrRec) : staysOrHalts s.dev (s.logError e).dev := by
  unfold State.logError
  extract_lets +onlyGivenNames cls s1 entry
  have same : s1.dev = s.dev := by simp [s1]
  clear_value s1
  split
  · split
    · exact .inl ((State.setSlot_dev ..).trans same)
    · exact .inl same
  · have placed : (s1.placeEntry cls entry).1.dev = s.dev := by simp [same]
    dsimp only
    generalize s1.placeEntry cls entry = r at placed
    split
    · exact .inr (State.doubleFault_dev _)
    · exact .inl (by simp [placed])

theorem State.logNext_dev (s : State) : staysOrHalts s.dev s.logNext.dev := by
  unfold State.logNext
  split
  · exact .inl rfl
  next e _ => exact State.logError_dev { s with err := { s.err with inFlight := s.err.inFlight.erase e } } e

theorem State.handled_dev (s : State) : staysOrHalts s.dev s.handled.dev := by
  unfold State.handled
  (simp only []; repeat' split) <;> simp [staysOrHalts]

/-- A boot that reached the dies' steps has passed the self-test or halts. -/
theorem State.bootDies_dev (s : State) (b : Bytes) : staysOrHalts s.dev (s.bootDies b).dev := by
  unfold State.bootDies
  dsimp only
  split
  · exact .inl (by simp)
  · exact .inr rfl

theorem State.bootFlash_dev (s : State) : staysOrHalts s.dev s.bootFlash.dev := by
  have image (slot r : Nat) (b : Bytes) :
      staysOrHalts s.dev (((s.set F.HUB_BOOT_STATUS_SLOT slot).set F.HUB_BOOT_STATUS_CODE r).bootDies b).dev := by
    simpa using State.bootDies_dev ((s.set F.HUB_BOOT_STATUS_SLOT slot).set F.HUB_BOOT_STATUS_CODE r) b
  unfold State.bootFlash
  dsimp only
  split
  · exact image ..
  split
  · exact image ..
  · exact .inl (by simp)

theorem State.bootSteps_dev (s : State) : staysOrHalts s.dev s.bootSteps.dev := by
  unfold State.bootSteps
  dsimp only
  split
  · exact .inl (by simp)
  · simpa using State.bootFlash_dev ((s.setMeas 1 Config.romMeasure).setMeas 4 (measure512 s.fuseBytes)).drawNonce

theorem State.reset_dev (s : State) (k : ResetKind) (straps : Nat) (test : BootTest) :
    (s.reset_ k straps test).dev = .boot ∨ (s.reset_ k straps test).dev = .halted := by
  unfold State.reset_
  extract_lets +onlyGivenNames fab link clk trained _ _ _ _ _ s1 s2 s3
  have boot : s3.dev = .boot := by simp [s3, s2, s1]
  have steps := s3.bootSteps_dev
  rwa [boot] at steps

theorem State.resetKept_dev (s : State) (k : ResetKind) (test : BootTest) :
    (s.resetKept k test).dev = .boot ∨ (s.resetKept k test).dev = .halted := s.reset_dev k _ test

theorem State.writeFeat_dev (s : State) (k v : Nat) :
    (s.writeFeat k v).dev = s.dev ∨ (s.dev = .unconfigured ∧ (s.writeFeat k v).dev = .negotiated) := by
  unfold State.writeFeat
  (simp only []; repeat' split) <;> simp_all

theorem State.evalStart_dev (s : State) :
    s.evalStart.dev = s.dev ∨ s.evalStart.dev = .running ∨ (s.dev = .unconfigured ∧ s.evalStart.dev = .negotiated) := by
  unfold State.evalStart
  (simp only []; repeat' split) <;> simp_all

theorem State.writeStart_dev (s : State) (go : Bool) : (s.writeStart go).dev = s.dev
    ∨ ((s.dev = .unconfigured ∨ s.dev = .negotiated) ∧ (s.writeStart go).dev = .running)
    ∨ (s.dev = .unconfigured ∧ (s.writeStart go).dev = .negotiated) := by
  unfold State.writeStart
  split
  next may =>
    simp only [Bool.and_eq_true, Bool.or_eq_true, beq_iff_eq] at may
    obtain ⟨⟨-, before⟩, -⟩ := may
    split
    · obtain same | run | neg := s.evalStart_dev
      · exact .inl same
      · exact .inr (.inl ⟨before, run⟩)
      · exact .inr (.inr neg)
    · exact .inl rfl
  · exact .inl rfl

/-- What writes of one register, or of two in turn, may make of the device state: a reset, START or a negotiation. -/
def registerEdge (a b : DevState) : Prop :=
  b = a ∨ (a ≠ .off ∧ (b = .boot ∨ b = .halted)) ∨ ((a = .unconfigured ∨ a = .negotiated) ∧ b = .running)
    ∨ (a = .unconfigured ∧ b = .negotiated)

theorem registerEdge_trans {a b c : DevState} (first : registerEdge a b) (second : registerEdge b c) : registerEdge a c := by
  unfold registerEdge at *
  cases a <;> simp_all <;> grind

theorem State.writeWord_dev (s : State) (off v : Nat) : registerEdge s.dev (s.writeWord off v).dev := by
  have reset (k : ResetKind) (test : BootTest) (on : s.dev ≠ .off) : registerEdge s.dev (s.resetKept k test).dev :=
    .inr (.inl ⟨on, s.resetKept_dev k test⟩)
  have still {t : State} (same : t.dev = s.dev) : registerEdge s.dev t.dev := .inl same
  unfold State.writeWord
  split
  · exact .inl rfl
  next served =>
  have on : s.dev ≠ .off := fun off => served (by simp [State.barServed, off])
  split
  · exact .inl rfl
  dsimp only
  split
  · exact .inl rfl
  split
  · split
    · exact reset _ _ on
    · split
      · exact reset _ _ on
      · exact .inl rfl
  · obtain same | run | neg := s.writeStart_dev (bit v 0)
    exacts [.inl same, .inr (.inr (.inl run)), .inr (.inr (.inr neg))]
  · split
    · obtain same | neg := s.writeFeat_dev _ v
      exacts [.inl same, .inr (.inr (.inr neg))]
    · exact still (by simp)
  all_goals exact still (by (repeat' split) <;> simp)

theorem State.writeBar0_dev (s : State) (off size v : Nat) : registerEdge s.dev (s.writeBar0 off size v).dev := by
  unfold State.writeBar0
  split
  · exact s.writeWord_dev ..
  split
  · exact registerEdge_trans (s.writeWord_dev ..) (State.writeWord_dev ..)
  · exact .inl rfl

/-! ## The edges of R441 -/

/-- The edge that command `c` takes from `s` to `t`, if it changes the device state. -/
def State.Edge (s : State) (c : Instr) (t : State) : Prop :=
  t.dev ≠ s.dev → (t.dev = .off → c.cutsPower = true ∧ t.run.stopped = true ∧ t.host.link = false)
    ∧ (t.dev = .boot → c.resets = true)
    ∧ (t.dev = .unconfigured → s.dev = .boot ∧ ∃ cyc, c = .bootComplete cyc)
    ∧ (t.dev = .negotiated → s.dev = .unconfigured ∧ c.configures = true)
    ∧ (t.dev = .running → (s.dev = .unconfigured ∨ s.dev = .negotiated) ∧ c.configures = true)
    ∧ (t.dev = .draining → s.dev = .running ∧ ∃ cyc n, c = .stop cyc n)
    ∧ (t.dev = .halted → (s.dev = .draining ∧ ∃ cyc, c = .drainToHalt cyc) ∨ c.handlesErrors = true ∨ c.resets = true ∨ c.boots = true)
    ∧ (s.dev = .halted → t.dev = .boot ∨ t.dev = .off)
    ∧ (s.dev = .off → ∃ cyc straps test, c = .powerOnReset cyc straps test)

section
variable {s t : State} {c : Instr}

theorem Answers.still {o : Host.Outcome State Fault Refusal} (same : Answers (fun t => t.dev = s.dev) o) : Answers (s.Edge c) o :=
  same.mono fun _ same differs => (differs same).elim

theorem State.edge_same (same : t.dev = s.dev) : s.Edge c t := fun differs => (differs same).elim

theorem State.edge_off (cuts : c.cutsPower = true) : s.Edge c t.powerOff := by
  intro differs
  have on : s.dev ≠ .off := fun off => differs off.symm
  simp_all [State.powerOff]

theorem State.edge_reset (resets : c.resets = true) (on : s.dev = .off → ∃ cyc straps test, c = .powerOnReset cyc straps test)
    (ends : t.dev = .boot ∨ t.dev = .halted) : s.Edge c t := by
  intro differs
  obtain boot | halted := ends
  · simp_all
  · have : s.dev ≠ .halted := fun h => differs (halted.trans h.symm)
    simp_all

theorem State.edge_boots (boots : c.boots = true) (boot : s.dev = .boot) (ends : staysOrHalts s.dev t.dev) : s.Edge c t := by
  obtain same | halted := ends
  · exact State.edge_same same
  · intro
    simp_all

theorem State.edge_handles (handles : c.handlesErrors = true) (on : s.dev ≠ .off) (ends : staysOrHalts s.dev t.dev) : s.Edge c t := by
  obtain same | halted := ends
  · exact State.edge_same same
  · intro differs
    have : s.dev ≠ .halted := fun h => differs (halted.trans h.symm)
    simp_all

theorem State.edge_configures (configures : c.configures = true)
    (ends : t.dev = s.dev ∨ ((s.dev = .unconfigured ∨ s.dev = .negotiated) ∧ t.dev = .running) ∨ (s.dev = .unconfigured ∧ t.dev = .negotiated)) :
    s.Edge c t := by
  obtain same | ⟨before, run⟩ | ⟨before, neg⟩ := ends
  · exact State.edge_same same
  · intro
    obtain before | before := before <;> simp_all
  · intro
    simp_all

end

/-! ## The commands that change the device state -/

section
variable (s : State) (cyc : Nat)

theorem execPowerOnReset_edge (straps : BitVec 16) (test : BootTest) :
    Answers (s.Edge (.powerOnReset cyc straps test)) (execPowerOnReset cyc straps test s) := by
  unfold execPowerOnReset
  split
  · exact State.edge_same rfl
  · exact State.edge_reset rfl (fun _ => ⟨cyc, straps, test, rfl⟩) (State.reset_dev ..)

theorem execColdReset_edge (test : BootTest) : Answers (s.Edge (.coldReset cyc test)) (execColdReset cyc test s) := by
  unfold execColdReset
  split
  next on => exact State.edge_reset rfl (fun off => by simp [State.powered, off] at on) (State.resetKept_dev ..)
  · exact State.edge_same rfl

theorem execPldmReset_edge (test : BootTest) : Answers (s.Edge (.pldmReset cyc test)) (execPldmReset cyc test s) := by
  unfold execPldmReset
  split
  next on => exact State.edge_reset rfl (fun off => by simp [State.powered, off] at on) (State.resetKept_dev ..)
  · exact State.edge_same rfl

theorem execDomainReset_edge (test : BootTest) : Answers (s.Edge (.domainReset cyc test)) (execDomainReset cyc test s) := by
  unfold execDomainReset
  split
  next on => exact State.edge_reset rfl (fun off => by simp [State.powered, off] at on) (State.resetKept_dev ..)
  · exact State.edge_same rfl

theorem execHubResetCold_edge (test : BootTest) : Answers (s.Edge (.hubResetCold cyc test)) (execHubResetCold cyc test s) := by
  unfold execHubResetCold
  split
  next on => exact State.edge_reset rfl (fun off => by simp [State.mayHubReset, State.powered, off] at on) (State.resetKept_dev ..)
  · exact State.edge_same rfl

theorem execHubResetWarm_edge (test : BootTest) : Answers (s.Edge (.hubResetWarm cyc test)) (execHubResetWarm cyc test s) := by
  unfold execHubResetWarm
  split
  next on => exact State.edge_reset rfl (fun off => by simp [State.mayHubReset, State.powered, off] at on) (State.resetKept_dev ..)
  · exact State.edge_same rfl

theorem execPwrgdFall_edge : Answers (s.Edge (.pwrgdFall cyc)) (execPwrgdFall cyc s) := by
  unfold execPwrgdFall
  exact State.edge_off rfl

theorem execInputVoltageFault_edge (mv ns : Nat) : Answers (s.Edge (.inputVoltageFault cyc mv ns)) (execInputVoltageFault cyc mv ns s) := by
  unfold execInputVoltageFault
  dsimp only
  split
  · exact State.edge_off rfl
  · exact State.edge_same (by simp)

theorem execThermalShutdown_edge (tempC : Nat) : Answers (s.Edge (.thermalShutdown cyc tempC)) (execThermalShutdown cyc tempC s) := by
  unfold execThermalShutdown
  split
  · exact State.edge_off rfl
  · exact State.edge_same rfl

theorem execBootComplete_edge : Answers (s.Edge (.bootComplete cyc)) (execBootComplete cyc s) := by
  unfold execBootComplete
  split
  next boot =>
    simp only [Bool.and_eq_true, beq_iff_eq] at boot
    obtain ⟨⟨boot, -⟩, -⟩ := boot
    intro
    simp [boot]
  · exact State.edge_same rfl

theorem execHostBootImage_edge (image : Bytes) (test : BootTest) :
    Answers (s.Edge (.hostBootImage cyc image test)) (execHostBootImage cyc image test s) := by
  unfold execHostBootImage
  split
  next boot =>
    simp only [Bool.and_eq_true, beq_iff_eq] at boot
    obtain ⟨boot, -⟩ := boot
    dsimp only
    split
    · refine State.edge_boots rfl boot ?_
      have ends := State.bootDies_dev (State.set { s.tick cyc with boot :=
        { (s.tick cyc).boot with delay := (s.tick cyc).clk.cyc, waitHost := false, test := test } } F.HUB_BOOT_STATUS_CODE
        (State.verifyImage { s.tick cyc with boot :=
          { (s.tick cyc).boot with delay := (s.tick cyc).clk.cyc, waitHost := false, test := test } } image)) image
      simpa using ends
    · exact State.edge_same (by simp)
  · exact State.edge_same rfl

theorem execPldmFirmwareUpdate_edge (op : PldmFw) : Answers (s.Edge (.pldmFirmwareUpdate cyc op)) (execPldmFirmwareUpdate cyc op s) := by
  have same {t : State} (h : t.dev = (s.tick cyc).dev) : s.Edge (.pldmFirmwareUpdate cyc op) t := State.edge_same (by simpa using h)
  unfold execPldmFirmwareUpdate
  split
  · exact State.edge_same rfl
  dsimp only
  split
  · exact same rfl
  cases op with
  | start => exact same (by simp)
  | data b =>
    dsimp only
    (repeat' split) <;> exact same rfl
  | activate =>
    dsimp only
    (repeat' split) <;> exact same (by simp)
  | done =>
    dsimp only
    split
    next x _ =>
      split
      · exact same rfl
      split
      next recovering =>
        simp only [Bool.and_eq_true, beq_iff_eq, State.setFlash_dev, State.tick_dev] at recovering
        obtain ⟨boot, -⟩ := recovering
        refine State.edge_boots rfl boot ?_
        have ends (u : State) (h : u.dev = s.dev) : staysOrHalts s.dev u.bootFlash.dev := h ▸ u.bootFlash_dev
        exact ends _ (by simp)
      · exact same (by simp)
    · exact same rfl

theorem execStart_edge (go : Bool) : Answers (s.Edge (.start cyc go)) (execStart cyc go s) := by
  unfold execStart
  split
  · exact State.edge_same rfl
  · exact State.edge_configures rfl (by simpa using (s.tick cyc).writeStart_dev go)

theorem execFeatAcceptWrite_edge (k : Nat) (v : Word32) : Answers (s.Edge (.featAcceptWrite cyc k v)) (execFeatAcceptWrite cyc k v s) := by
  unfold execFeatAcceptWrite
  split
  · exact State.edge_same rfl
  · refine State.edge_configures rfl ?_
    obtain same | neg := (s.tick cyc).writeFeat_dev k v.toNat
    exacts [.inl (by simpa using same), .inr (.inr (by simpa using neg))]

theorem execT1ClearDone_edge : Answers (s.Edge (.t1ClearDone cyc)) (execT1ClearDone cyc s) := by
  unfold execT1ClearDone
  split
  · exact State.edge_same rfl
  extract_lets +onlyGivenNames s1
  have same : s1.dev = s.dev := by simp [s1]
  clear_value s1
  split
  next before =>
    simp only [Bool.and_eq_true, Bool.or_eq_true, beq_iff_eq, same] at before
    obtain ⟨before, -⟩ := before
    extract_lets +onlyGivenNames s2 _ s3
    have same3 : s3.dev = s.dev := by simp [s3, s2, same]
    clear_value s3
    refine State.edge_configures rfl ?_
    rw [State.dev_ite, ← same3]
    split
    · obtain same | run | neg := s3.evalStart_dev
      exacts [.inl same, .inr (.inl ⟨same3 ▸ before, run⟩), .inr (.inr neg)]
    · exact .inl rfl
  · exact State.edge_same same

theorem execRegisterWrite_edge (off size : Nat) (v : Word64) :
    Answers (s.Edge (.registerWrite cyc off size v)) (execRegisterWrite cyc off size v s) := by
  unfold execRegisterWrite
  split
  · exact State.edge_same rfl
  next on =>
  have ends := (s.tick cyc).writeBar0_dev off size v.toNat
  rw [State.tick_dev] at ends
  obtain same | ⟨on, reset⟩ | run | neg := ends
  · exact State.edge_same same
  · exact State.edge_reset rfl (fun off => (on off).elim) reset
  · exact State.edge_configures rfl (.inr (.inl run))
  · exact State.edge_configures rfl (.inr (.inr neg))

theorem execStop_edge (ring : Nat) : Answers (s.Edge (.stop cyc ring)) (execStop cyc ring s) := by
  unfold execStop
  split
  · exact State.edge_same rfl
  obtain ⟨-, idle⟩ | ⟨d, -, ⟨-, -, refused⟩ | ⟨-, -, refused⟩ | ⟨run, -, stops⟩⟩ := (s.tick cyc).start_cases ring 6 false false
    fun d t => (t.killCommands.activate ring d 0).enter .draining 0
  · rw [idle]
    exact State.edge_same (by simp)
  · rw [refused]
    exact State.edge_same (by simp)
  · rw [refused]
    exact State.edge_same (by simp)
  · rw [stops]
    have run : s.dev = .running := by simpa using run
    intro
    simp [run]

theorem execDrainToHalt_edge : Answers (s.Edge (.drainToHalt cyc)) (execDrainToHalt cyc s) := by
  unfold execDrainToHalt
  split
  · exact State.edge_same rfl
  dsimp only
  split
  next drained =>
    simp only [Bool.and_eq_true, beq_iff_eq, State.tick_dev] at drained
    obtain ⟨⟨draining, -⟩, -⟩ := drained
    intro
    simp [draining]
  · exact State.edge_same (by simp)

theorem execErrorLogged_edge : Answers (s.Edge (.errorLogged cyc)) (execErrorLogged cyc s) := by
  unfold execErrorLogged
  split
  · exact State.edge_same rfl
  next on => exact State.edge_handles rfl (by simpa using on) (by simpa using (s.tick cyc).logNext_dev)

theorem execErrorHandled_edge : Answers (s.Edge (.errorHandled cyc)) (execErrorHandled cyc s) := by
  unfold execErrorHandled
  split
  · exact State.edge_same rfl
  next on => exact State.edge_handles rfl (by simpa using on) (by simpa using (s.tick cyc).handled_dev)

end

/-- Every command keeps the device state or takes one of the edges of R441. -/
theorem exec_edge (c : Instr) (s : State) : Answers (s.Edge c) (exec c s) :=
  match c with
  | .powerOnReset cyc .. => execPowerOnReset_edge s cyc ..
  | .bootComplete .. => execBootComplete_edge ..
  | .t1ClearDone .. => execT1ClearDone_edge ..
  | .pwrgdFall cyc => execPwrgdFall_edge s cyc
  | .coldReset .. => execColdReset_edge ..
  | .perstRelease .. => .still (execPerstRelease_dev ..)
  | .hubResetCold .. => execHubResetCold_edge ..
  | .hubResetWarm .. => execHubResetWarm_edge ..
  | .pldmReset .. => execPldmReset_edge ..
  | .domainReset .. => execDomainReset_edge ..
  | .hostBootImage .. => execHostBootImage_edge ..
  | .inputVoltageFault .. => execInputVoltageFault_edge ..
  | .thermalShutdown .. => execThermalShutdown_edge ..
  | .inputPowerOverTdp .. => .still (execInputPowerOverTdp_dev ..)
  | .refclk156Loss .. => .still (execRefclk156Loss_dev ..)
  | .hostLinkLost .. => .still (execHostLinkLost_dev ..)
  | .hostLinkRetrain .. => .still (execHostLinkRetrain_dev ..)
  | .featAcceptWrite .. => execFeatAcceptWrite_edge ..
  | .start .. => execStart_edge ..
  | .secArbCommit .. => .still (execSecArbCommit_dev ..)
  | .debugUnlock .. => .still (execDebugUnlock_dev ..)
  | .starveFlagClear .. => .still (execStarveFlagClear_dev ..)
  | .vecStickyClear .. => .still (execVecStickyClear_dev ..)
  | .errStatusWrite .. => .still (execErrStatusWrite_dev ..)
  | .errLogHeadWrite .. => .still (execErrLogHeadWrite_dev ..)
  | .planCfgWrite .. => .still (execPlanCfgWrite_dev ..)
  | .lrMulWrite .. => .still (execLrMulWrite_dev ..)
  | .arbRankWrite .. => .still (execArbRankWrite_dev ..)
  | .celRegWrite .. => .still (execCelRegWrite_dev ..)
  | .registerWrite .. => execRegisterWrite_edge ..
  | .hostLineWrite .. => .still (execHostLineWrite_dev ..)
  | .hostLinePoll .. => .still (execHostLinePoll_dev ..)
  | .descriptorFetch .. => .still (execDescriptorFetch_dev ..)
  | .badOpcode .. => .still (execBadOpcode_dev ..)
  | .nop .. => .still (execNop_dev ..)
  | .loadGraph .. => .still (execLoadGraph_dev ..)
  | .loadCard .. => .still (execLoadCard_dev ..)
  | .kill .. => .still (execKill_dev ..)
  | .scrubDone .. => .still (execScrubDone_dev ..)
  | .restore .. => .still (execRestore_dev ..)
  | .restoreDone .. => .still (execRestoreDone_dev ..)
  | .ship .. => .still (execShip_dev ..)
  | .stop .. => execStop_edge ..
  | .drainToHalt .. => execDrainToHalt_edge ..
  | .setBeat .. => .still (execSetBeat_dev ..)
  | .setCap .. => .still (execSetCap_dev ..)
  | .setPhrase .. => .still (execSetPhrase_dev ..)
  | .replan .. => .still (execReplan_dev ..)
  | .syncSignal .. => .still (execSyncSignal_dev ..)
  | .syncRead .. => .still (execSyncRead_dev ..)
  | .syncArm .. => .still (execSyncArm_dev ..)
  | .ingestStream .. => .still (execIngestStream_dev ..)
  | .ingestMb .. => .still (execIngestMb_dev ..)
  | .ingPosRead .. => .still (execIngPosRead_dev ..)
  | .paramWrite .. => .still (execParamWrite_dev ..)
  | .paramRead .. => .still (execParamRead_dev ..)
  | .goResponse .. => .still (execGoResponse_dev ..)
  | .msixModerationExpiry .. => .still (execMsixModerationExpiry_dev ..)
  | .cxlMemAccess .. => .still (execCxlMemAccess_dev ..)
  | .hostReadError .. => .still (execHostReadError_dev ..)
  | .spdmRequest .. => .still (execSpdmRequest_dev ..)
  | .pldmRequest .. => .still (execPldmRequest_dev ..)
  | .pldmFirmwareUpdate .. => execPldmFirmwareUpdate_edge ..
  | .beatEdge .. => .still (execBeatEdge_dev ..)
  | .seatReady .. => .still (execSeatReady_dev ..)
  | .figureStart .. => .still (execFigureStart_dev ..)
  | .figureComplete .. => .still (execFigureComplete_dev ..)
  | .vatWaitResume .. => .still (execVatWaitResume_dev ..)
  | .vatExpectLoad .. => .still (execVatExpectLoad_dev ..)
  | .slotSel .. => .still (execSlotSel_dev ..)
  | .syncSetAt .. => .still (execSyncSetAt_dev ..)
  | .rindStart .. => .still (execRindStart_dev ..)
  | .bankPowerDown .. => .still (execBankPowerDown_dev ..)
  | .commitCheck .. => .still (execCommitCheck_dev ..)
  | .eventBeatClose .. => .still (execEventBeatClose_dev ..)
  | .errorDetected .. => .still (execErrorDetected_dev ..)
  | .errorLogged .. => execErrorLogged_edge ..
  | .errorHandling .. => .still (execErrorHandling_dev ..)
  | .errorHandled .. => execErrorHandled_edge ..
  | .tsPacket .. => .still (execTsPacket_dev ..)
  | .clipDraw .. => .still (execClipDraw_dev ..)
  | .linkUp .. => .still (execLinkUp_dev ..)
  | .helloReceived .. => .still (execHelloReceived_dev ..)
  | .leaderElected .. => .still (execLeaderElected_dev ..)
  | .linkRetrain .. => .still (execLinkRetrain_dev ..)
  | .linkDown .. => .still (execLinkDown_dev ..)
  | .memberReceived .. => .still (execMemberReceived_dev ..)
  | .leaderLost .. => .still (execLeaderLost_dev ..)
  | .routeReceived .. => .still (execRouteReceived_dev ..)
  | .delayMeasure .. => .still (execDelayMeasure_dev ..)
  | .markerReceived .. => .still (execMarkerReceived_dev ..)
  | .beatOffsetLimit .. => .still (execBeatOffsetLimit_dev ..)
  | .flitReceived .. => .still (execFlitReceived_dev ..)
  | .flitCrcFail .. => .still (execFlitCrcFail_dev ..)
  | .linkControlFlit .. => .still (execLinkControlFlit_dev ..)
  | .linkControlSend .. => .still (execLinkControlSend_dev ..)
  | .accumulateWrite .. => .still (execAccumulateWrite_dev ..)
  | .slotArbitration .. => .still (execSlotArbitration_dev ..)
  | .arbStarve .. => .still (execArbStarve_dev ..)
  | .mr4Report .. => .still (execMr4Report_dev ..)
  | .extraRefresh _ _ _ offered displaced => .still (execExtraRefresh_dev _ _ _ offered displaced s)
  | .t1InlineEcc .. => .still (execT1InlineEcc_dev ..)
  | .patrolScrub .. => .still (execPatrolScrub_dev ..)
  | .scratchpadEcc .. => .still (execScratchpadEcc_dev ..)
  | .snapDone .. => .still (execSnapDone_dev ..)
  | .snapDomain .. => .still (execSnapDomain_dev ..)
  | .nandProgramFail .. => .still (execNandProgramFail_dev ..)
  | .mirrorDone .. => .still (execMirrorDone_dev ..)
  | .dieToDieRetry .. => .still (execDieToDieRetry_dev ..)
  | .shipDone .. => .still (execShipDone_dev ..)
  | .configurationRequest .. => .still (execConfigurationRequest_dev ..)

/-- Settles O59: `exec_edge` for the front command. -/
theorem deviceStates : Obligations.DeviceStates := by
  unfold Obligations.DeviceStates
  intro s t stepped differs
  rw [step] at stepped
  split at stepped
  next => exact (differs (by cases stepped; rfl)).elim
  next c rest front =>
    obtain ⟨u, answered, edge⟩ := (exec_edge c { s with pending := rest }).exists_next
    cases answered.symm.trans stepped
    exact ⟨c, by rw [front]; rfl, edge differs⟩

end Sys2Proof.Machine
end

section
/-! PROOF. The lines that wait for GO and the bytes of host memory a record fills: completions (O18). -/
namespace Sys2Proof.Machine

/-! ## Lines that wait for GO -/

theorem State.goLine_line (s : State) (l : Nat) : (s.goLine l).line = l := by
  unfold State.goLine
  cases found : s.host.go.find? fun g => g.line == l with
  | none => rfl
  | some g => simpa using List.find?_some found

theorem State.goLine_setGo_same (s : State) (g : GoLine) (waits : (g.recWait || g.statWait) = true) : (s.setGo g).goLine g.line = g := by
  have none_ : (s.host.go.filter fun x => x.line != g.line).find? (fun x => x.line == g.line) = none := by simp
  simp [State.goLine, State.setGo, waits, List.find?_append, none_]

theorem State.goLine_setGo_ne (s : State) (g : GoLine) {l : Nat} (other : l ≠ g.line) : (s.setGo g).goLine l = s.goLine l := by
  have kept : (s.host.go.filter fun x => x.line != g.line).find? (fun x => x.line == l) = s.host.go.find? fun x => x.line == l := by
    rw [List.find?_filter]
    congr 1
    funext x
    by_cases h : x.line = l <;> simp [h, other]
  unfold State.goLine State.setGo
  dsimp only
  split
  · simp [List.find?_append, kept, other.symm]
  · rw [kept]

/-- A record makes its line wait for GO and asks for its vector. -/
theorem State.recorded_goLine (s : State) (l : Nat) (vec : Option Nat) : ((s.recorded l vec).goLine l).recWait = true
    ∧ (∀ v, vec = some v → v ∈ ((s.recorded l vec).goLine l).vecs) ∧ (vec = none → ((s.recorded l vec).goLine l).vecs = (s.goLine l).vecs) := by
  have same (vs : List Nat) : (s.setGo { s.goLine l with recWait := true, vecs := vs }).goLine l = { s.goLine l with recWait := true, vecs := vs } := by
    have at_ := s.goLine_setGo_same { s.goLine l with recWait := true, vecs := vs } rfl
    rwa [show ({ s.goLine l with recWait := true, vecs := vs } : GoLine).line = l from s.goLine_line l] at at_
  unfold State.recorded
  rw [same]
  refine ⟨rfl, fun v h => ?_, fun h => by rw [h]⟩
  subst h
  dsimp only
  split
  next there => simpa using there
  · simp

/-! ## Completions (R428, R434) -/

/-- `s` with the 16 bytes of `x` written at `a` for ring `n`, which becomes `r` and waits for GO. -/
def State.answered (s : State) (n : Nat) (r : Ring) (a x : Nat) (vec : Option Nat) : State := ((s.hostPut a 16 x).setRing n r).recorded n vec

section
variable (s : State) (n : Nat) (r : Ring) (a x : Nat) (vec : Option Nat)

theorem State.answered_frame : s.answered n r a x vec = { s with host := { s.host with
    mem := mWrite s.host.mem a (leBytes 16 x), rings := s.host.rings.set n r, go := (s.answered n r a x vec).host.go } } := rfl

theorem State.answered_regs : (s.answered n r a x vec).regs = s.regs := rfl

theorem State.answered_goLine : ((s.answered n r a x vec).goLine n).recWait = true ∧ ∀ v, vec = some v → v ∈ ((s.answered n r a x vec).goLine n).vecs := by
  obtain ⟨waits, asks, -⟩ := ((s.hostPut a 16 x).setRing n r).recorded_goLine n vec
  exact ⟨waits, asks⟩

end

theorem State.count_of_regs {s t : State} (same : t.regs = s.regs) (f : Field) (n : Nat) :
    t.count f n = { t with regs := (s.count f n).regs } := by
  unfold State.count State.set State.get
  rw [same]

theorem State.ite_count_eq {s t : State} (same : t.regs = s.regs) (c : Prop) [Decidable c] (f : Field) (n : Nat) :
    (if c then t else t.count f n) = { t with regs := if c then s.regs else (s.count f n).regs } := by
  split
  · rw [← same]
  · exact State.count_of_regs same f n

/-- A completion is its record, and a count of the refusals if it is one. -/
theorem State.complete_eq (s : State) (n tag : Nat) (irq : Bool) (status result : Nat) : s.complete n tag irq status result =
    { s.answered n { s.ring n with completed := cntAdd (s.ring n).completed 1 }
        (s.get (F.HUB_CRING_n_CPL_ADDR.at 64 n) + 16 * ((s.ring n).completed % s.ringSize n)) (cplRecord tag status n result)
        (if irq then some (s.get (F.HUB_CRING_n_CFG_VEC.at 64 n)) else none) with
      regs := if status = 0 then s.regs else (s.count F.HUB_CMD_REFUSED_COUNT 1).regs } :=
  State.ite_count_eq (State.answered_regs ..) (status = 0) F.HUB_CMD_REFUSED_COUNT 1

/-- Bytes past those a record fills read as before it. -/
theorem mGet_put_apart {m : Mem} (wf : memWf m = true) (a n x : Nat) {b : Nat} (apart : b < a ∨ a + n ≤ b) :
    mGet (mWrite m a (leBytes n x)) b = mGet m b := by
  rw [mGet_mWrite _ _ _ _ wf, length_leBytes, if_neg (by omega)]

/-- What an answer leaves: its ring, its bytes, its line that waits, and nothing else but the registers given. -/
theorem State.answered_spec (s : State) {n : Nat} (r : Ring) (a x : Nat) (vec : Option Nat) (regs : Tab) (ring : n < s.host.rings.length)
    (wf : memWf s.host.mem = true) : let t : State := { s.answered n r a x vec with regs := regs }
    t.ring n = r ∧ (∀ m, m ≠ n → t.ring m = s.ring m) ∧ mRead t.host.mem a 16 = leBytes 16 x
      ∧ (∀ b, b < a ∨ a + 16 ≤ b → mGet t.host.mem b = mGet s.host.mem b)
      ∧ (t.goLine n).recWait = true ∧ (∀ v, vec = some v → v ∈ (t.goLine n).vecs)
      ∧ t = { s with regs := regs, host := { s.host with rings := t.host.rings, mem := t.host.mem, go := t.host.go } } := by
  have frame := s.answered_frame n r a x vec
  obtain ⟨waits, asks⟩ := s.answered_goLine n r a x vec
  generalize s.answered n r a x vec = u at frame waits asks
  have mem : u.host.mem = mWrite s.host.mem a (leBytes 16 x) := congrArg (·.host.mem) frame
  have rings : u.host.rings = s.host.rings.set n r := congrArg (·.host.rings) frame
  refine ⟨State.ring_set (s := s) rings ring, fun m other => ?_, ?_, fun b apart => ?_, waits, asks, ?_⟩
  · show u.host.rings.getD m Ring.reset = s.host.rings.getD m Ring.reset
    simp [rings, List.getD_eq_getElem?_getD, List.getElem?_set_ne other.symm]
  · exact (congrArg (mRead · a 16) mem).trans (mRead_mWrite_same wf a (length_leBytes 16 x))
  · exact (congrArg (mGet · b) mem).trans (mGet_put_apart wf a 16 x apart)
  · rw [frame]

/-- Settles O18: `State.complete_eq`, whose parts `State.answered_spec` reads. -/
theorem completionRecords : Obligations.CompletionRecords := by
  unfold Obligations.CompletionRecords
  intro s n tag irq status result ring size wf
  dsimp only
  rw [State.complete_eq]
  obtain ⟨own, others, record, apart, waits, asks, frame⟩ := s.answered_spec { s.ring n with completed := cntAdd (s.ring n).completed 1 }
    (s.get (F.HUB_CRING_n_CPL_ADDR.at 64 n) + 16 * ((s.ring n).completed % s.ringSize n)) (cplRecord tag status n result)
    (if irq then some (s.get (F.HUB_CRING_n_CFG_VEC.at 64 n)) else none) (if status = 0 then s.regs else (s.count F.HUB_CMD_REFUSED_COUNT 1).regs)
    (size ▸ ring) wf
  exact ⟨own, others, record, apart, waits, fun asked => asks _ (if_pos asked), rfl, frame⟩

end Sys2Proof.Machine
end

section
/-! PROOF. Event records: what `State.putEvent` writes, and which of its cases an event takes (O19). -/
namespace Sys2Proof.Machine

/-! ## One record written (R436, R456) -/

/-- Where event record `k` goes in the event ring. -/
def State.evSlot (s : State) (k : Nat) : Nat := s.get F.HUB_EVQ_BASE_ADDR + 32 * (k % s.evqSize)

/-- `s` with the 32 bytes of `x` written at `a` for the event ring, which counts them and waits for GO. -/
def State.told (s : State) (a x : Nat) (vec : Option Nat) : State :=
  State.recorded { s.hostPut a 32 x with host := { (s.hostPut a 32 x).host with evTail := cntAdd (s.hostPut a 32 x).host.evTail 1 } } 64 vec

theorem State.told_frame (s : State) (a x : Nat) (vec : Option Nat) : s.told a x vec = { s with host := { s.host with
    mem := mWrite s.host.mem a (leBytes 32 x), evTail := cntAdd s.host.evTail 1, go := (s.told a x vec).host.go } } := rfl

/-- Bytes past those a store writes read as before it. -/
theorem mRead_mWrite_apart {m : Mem} (wf : memWf m = true) (a x n : Nat) {b k : Nat} (apart : b + k ≤ a ∨ a + n ≤ b) :
    mRead (mWrite m a (leBytes n x)) b k = mRead m b k := by
  rw [mRead_eq_map, mRead_eq_map]
  refine List.map_congr_left fun i less => ?_
  have less := List.mem_range.mp less
  exact mGet_put_apart wf a n x (by omega)

/-- What a record leaves, beside the line that waits. -/
structure State.Told (s : State) (a x : Nat) (vec : Option Nat) (t : State) : Prop where
  bytes : mRead t.host.mem a 32 = leBytes 32 x
  mem : t.host.mem = mWrite s.host.mem a (leBytes 32 x)
  tail : t.host.evTail = cntAdd s.host.evTail 1
  waits : (t.goLine 64).recWait = true
  asks : ∀ v, vec = some v → v ∈ (t.goLine 64).vecs
  silent : vec = none → (t.goLine 64).vecs = (s.goLine 64).vecs
  frame : t = { s with host := { s.host with mem := t.host.mem, evTail := t.host.evTail, go := t.host.go } }

theorem State.told_spec (s : State) (a x : Nat) (vec : Option Nat) (wf : memWf s.host.mem = true) : s.Told a x vec (s.told a x vec) := by
  have frame := s.told_frame a x vec
  obtain ⟨waits, asks, silent⟩ :=
    State.recorded_goLine { s.hostPut a 32 x with host := { (s.hostPut a 32 x).host with evTail := cntAdd (s.hostPut a 32 x).host.evTail 1 } } 64 vec
  change ((s.told a x vec).goLine 64).recWait = true at waits
  change ∀ v, vec = some v → v ∈ ((s.told a x vec).goLine 64).vecs at asks
  change vec = none → ((s.told a x vec).goLine 64).vecs = (s.goLine 64).vecs at silent
  generalize s.told a x vec = t at frame waits asks silent
  have mem : t.host.mem = mWrite s.host.mem a (leBytes 32 x) := congrArg (·.host.mem) frame
  have tail : t.host.evTail = cntAdd s.host.evTail 1 := congrArg (·.host.evTail) frame
  refine ⟨(congrArg (mRead · a 32) mem).trans (mRead_mWrite_same wf a (length_leBytes 32 x)), mem, tail, waits, asks, silent, ?_⟩
  rw [mem, tail]
  exact frame

section
variable {s t : State} {a x : Nat} {vec : Option Nat} (told : s.Told a x vec t)
include told

theorem State.Told.regs : t.regs = s.regs := congrArg (·.regs) told.frame
theorem State.Told.head : t.host.evHead = s.host.evHead := congrArg (·.host.evHead) told.frame
theorem State.Told.lost : t.host.evLost = s.host.evLost := congrArg (·.host.evLost) told.frame

end

theorem State.putEvent_told (s : State) (e : EvtRec) : s.putEvent e = s.told (s.evSlot s.host.evTail) e.encode
    (if bit (s.get F.HUB_EVT_IRQ_MASK) e.kind then some (s.get F.HUB_EVQ_CFG_VEC) else none) := by
  unfold State.putEvent State.told State.evSlot
  rfl

theorem State.putEvent_spec (s : State) (e : EvtRec) (wf : memWf s.host.mem = true) : s.Told (s.evSlot s.host.evTail) e.encode
    (if bit (s.get F.HUB_EVT_IRQ_MASK) e.kind then some (s.get F.HUB_EVQ_CFG_VEC) else none) (s.putEvent e) :=
  s.putEvent_told e ▸ s.told_spec _ _ _ wf

/-! ## Which case an event takes (R436, R458) -/

/-- The record of an event of now. -/
def State.evRec (s : State) (kind die payload : Nat) : EvtRec := ⟨kind, die, s.seat, s.clk.beat, s.clk.cyc, payload⟩

theorem State.emit_off (s : State) (kind die payload : Nat) (off : s.evqOn = false) : s.emit kind die payload = s := by
  simp [State.emit, off]

theorem State.emit_early (s : State) (kind die payload : Nat) (on : s.evqOn = true) (early : s.host.evOpen < s.clk.beat) :
    s.emit kind die payload = { s with host := { s.host with evHeld := s.host.evHeld ++ [s.evRec kind die payload] } } := by
  simp [State.emit, on, Nat.not_le.mpr early, State.evRec]

theorem State.emit_open (s : State) (kind die payload : Nat) (on : s.evqOn = true) (late : s.clk.beat ≤ s.host.evOpen) :
    s.emit kind die payload = s.writeEvent (s.evRec kind die payload) := by
  simp [State.emit, on, late, State.evRec]

theorem State.writeEvent_room (s : State) (e : EvtRec) (none : s.host.evLost = 0) (room : s.evqUsed < s.evqSize) :
    s.writeEvent e = s.putEvent e := by
  simp [State.writeEvent, none, room]

theorem State.writeEvent_full (s : State) (e : EvtRec) (full : s.evqSize ≤ s.evqUsed) :
    s.writeEvent e = { s.count F.HUB_EVT_LOST_COUNT 1 with host := { s.host with evLost := satAdd 32 s.host.evLost 1 } } := by
  simp [State.writeEvent, full]

/-- `s` with no record counted as lost. -/
def State.noneLost (s : State) : State := { s with host := { s.host with evLost := 0 } }

section
variable (s : State)
theorem State.noneLost_regs : s.noneLost.regs = s.regs := rfl
theorem State.noneLost_lost : s.noneLost.host.evLost = 0 := rfl
theorem State.noneLost_tail : s.noneLost.host.evTail = s.host.evTail := rfl
theorem State.noneLost_head : s.noneLost.host.evHead = s.host.evHead := rfl
theorem State.noneLost_mem : s.noneLost.host.mem = s.host.mem := rfl
end

/-- `s` with the records lost so far told by an EVT_LOST record. -/
def State.lostTold (s : State) : State := (s.putEvent ⟨Ev.lost, 14, s.seat, s.clk.beat, s.clk.cyc, s.host.evLost⟩).noneLost

theorem State.writeEvent_lost (s : State) (e : EvtRec) (lost : s.host.evLost ≠ 0) (room : s.evqUsed < s.evqSize)
    (more : s.lostTold.evqUsed < s.lostTold.evqSize) : s.writeEvent e = s.lostTold.putEvent e := by
  have tells : ¬ (s.host.evLost = 0 ∨ s.evqUsed ≥ s.evqSize) := by omega
  unfold State.writeEvent
  rw [if_neg tells]
  exact if_neg (Nat.not_le.mpr more)

theorem State.evqSize_congr {s t : State} (regs : t.regs = s.regs) : t.evqSize = s.evqSize := by
  rw [State.evqSize, State.evqSize, State.get, State.get, regs]

/-- The record that tells of the lost ones leaves room for the next if the ring had room for two. -/
theorem State.lostTold_spec (s : State) (wf : memWf s.host.mem = true) (room : s.evqUsed + 1 < s.evqSize) :
    s.lostTold.evqUsed < s.lostTold.evqSize ∧ s.lostTold.regs = s.regs ∧ s.lostTold.host.evLost = 0
      ∧ s.lostTold.host.evTail = cntAdd s.host.evTail 1
      ∧ s.lostTold.host.mem = mWrite s.host.mem (s.evSlot s.host.evTail)
          (leBytes 32 (EvtRec.encode ⟨Ev.lost, 14, s.seat, s.clk.beat, s.clk.cyc, s.host.evLost⟩)) := by
  have told := s.putEvent_spec ⟨Ev.lost, 14, s.seat, s.clk.beat, s.clk.cyc, s.host.evLost⟩ wf
  unfold State.lostTold
  generalize s.putEvent ⟨Ev.lost, 14, s.seat, s.clk.beat, s.clk.cyc, s.host.evLost⟩ = t at told ⊢
  refine ⟨?_, t.noneLost_regs.trans told.regs, t.noneLost_lost, t.noneLost_tail.trans told.tail, t.noneLost_mem.trans told.mem⟩
  rw [State.evqSize_congr (t.noneLost_regs.trans told.regs), State.evqUsed, State.noneLost_tail, State.noneLost_head, told.head, told.tail]
  unfold State.evqUsed cntSub at room
  unfold cntSub cntAdd
  omega

/-- An event ring has at most 2^31 entries, so a slot is that of the count modulo 2^32. -/
theorem State.evSlot_cntAdd (s : State) (k n : Nat) : s.evSlot (cntAdd k n) = s.evSlot (k + n) := by
  have width : s.get F.HUB_EVQ_CFG_LOG2 < 2 ^ 5 := s.get_lt _
  have div : s.evqSize ∣ 2 ^ 32 := Nat.pow_dvd_pow 2 (by omega)
  rw [State.evSlot, State.evSlot, cntAdd, Nat.mod_mod_of_dvd _ div]

theorem State.evSlot_congr {s t : State} (regs : t.regs = s.regs) (k : Nat) : t.evSlot k = s.evSlot k := by
  rw [State.evSlot, State.evSlot, State.evqSize, State.evqSize, State.get, State.get, State.get, State.get, regs]

/-- The slots of two records in turn lie apart in a ring of two entries or more. -/
theorem State.evSlot_succ_apart (s : State) (k : Nat) (two : 1 < s.evqSize) :
    s.evSlot k + 32 ≤ s.evSlot (k + 1) ∨ s.evSlot (k + 1) + 32 ≤ s.evSlot k := by
  have differ : (k + 1) % s.evqSize ≠ k % s.evqSize := fun same => by
    have := (Nat.modEq_iff_dvd' (Nat.le_succ k)).mp same.symm
    simp at this
    omega
  unfold State.evSlot
  omega

/-- Two records in turn where some were lost: EVT_LOST, and the record itself behind it. -/
theorem State.writeEvent_two (s : State) (e : EvtRec) (wf : memWf s.host.mem = true) (lost : s.host.evLost ≠ 0) (room : s.evqUsed + 1 < s.evqSize) :
    mRead (s.writeEvent e).host.mem (s.evSlot s.host.evTail) 32
        = leBytes 32 (EvtRec.encode ⟨Ev.lost, 14, s.seat, s.clk.beat, s.clk.cyc, s.host.evLost⟩)
      ∧ mRead (s.writeEvent e).host.mem (s.evSlot (s.host.evTail + 1)) 32 = leBytes 32 e.encode
      ∧ (s.writeEvent e).host.evTail = (s.host.evTail + 2) % 2 ^ 32 ∧ (s.writeEvent e).host.evLost = 0 := by
  obtain ⟨more, regs, none, tail, mem⟩ := s.lostTold_spec wf room
  rw [s.writeEvent_lost e lost (by omega) more]
  generalize s.lostTold = u at regs none tail mem
  have wfu : memWf u.host.mem = true := mem ▸ mWrite_wf _ _ _ wf
  have told := u.putEvent_spec e wfu
  have slot : u.evSlot u.host.evTail = s.evSlot (s.host.evTail + 1) := by
    rw [tail, State.evSlot_congr regs, State.evSlot_cntAdd]
  rw [slot] at told
  refine ⟨?_, told.bytes, ?_, told.lost.trans none⟩
  · rw [told.mem, mRead_mWrite_apart wfu _ _ _ (s.evSlot_succ_apart s.host.evTail (by omega)), mem]
    exact mRead_mWrite_same wf _ (length_leBytes ..)
  · rw [told.tail, tail]
    unfold cntAdd
    omega

theorem State.facing_beside {s t : State} (h : s.facing t) :
    t.dev = s.dev ∧ t.clk = s.clk ∧ t.run = s.run ∧ t.t0 = s.t0 ∧ t.t1 = s.t1 ∧ t.plan = s.plan ∧ t.fab = s.fab := by
  unfold State.facing at h
  rw [h]
  exact ⟨rfl, rfl, rfl, rfl, rfl, rfl, rfl⟩

theorem exec_eventBeatClose (s : State) (cyc : Nat) (on : (s.tick cyc).dev ≠ .off) :
    exec (.eventBeatClose cyc) s = .next ((s.tick cyc).openEvents (s.tick cyc).clk.beat) := by
  rw [State.tick_dev] at on
  simp [exec, execEventBeatClose, on]

/-- Settles O19: the cases of `State.emit` and `State.writeEvent`; what a record leaves is `State.Told`. -/
theorem eventRecords : Obligations.EventRecords := by
  unfold Obligations.EventRecords
  refine ⟨fun s kind die payload wf => ⟨s.emit_off _ _ _, s.emit_early _ _ _, s.emit_open _ _ _, fun on late none room => ?_,
    fun on late lost room => ?_, fun on late full => ?_⟩, fun s cyc on => ?_⟩
  · dsimp only
    rw [s.emit_open _ _ _ on late, s.writeEvent_room _ none room]
    have told := s.putEvent_spec (s.evRec kind die payload) wf
    refine ⟨told.bytes, fun b apart => ?_, told.tail, told.waits, fun asked => told.asks _ (if_pos asked),
      fun quiet => told.silent (if_neg (by rw [show (s.evRec kind die payload).kind = kind from rfl, quiet]; simp)), told.frame⟩
    exact (congrArg (mGet · b) told.mem).trans (mGet_put_apart wf _ _ _ apart)
  · dsimp only
    rw [s.emit_open _ _ _ on late]
    exact s.writeEvent_two _ wf lost room
  · exact (s.emit_open _ _ _ on late).trans (s.writeEvent_full _ full)
  · exact ⟨_, exec_eventBeatClose s cyc on, rfl, State.facing_beside (State.openEvents_facing _ _)⟩

end Sys2Proof.Machine
end

section
/-! PROOF. What the device reads of the host (O20, O21), and what GO on a line signals (O25). -/
namespace Sys2Proof.Machine

/-! ## Host lines (R418 to R422) -/

theorem State.hostUp_iff (u : State) : u.hostUp = true ↔ (u.dev = .running ∨ u.dev = .draining) ∧ u.host.link = true := by
  simp [State.hostUp, State.ringsOn_iff]

theorem State.hostUp_powered {u : State} (up : u.hostUp = true) : u.dev ≠ .off := by
  obtain ⟨run | drain, -⟩ := u.hostUp_iff.mp up <;> simp [*]

theorem exec_hostLineWrite (s : State) (cyc : Nat) (line : HostLine) (on : (s.tick cyc).dev ≠ .off) :
    exec (.hostLineWrite cyc line) s =
      .next (if (s.tick cyc).hostUp && (s.tick cyc).feat 32 then (s.tick cyc).takeLine line else s.tick cyc) := by
  rw [State.tick_dev] at on
  refine (if_neg (by simpa using on)).trans ?_
  split <;> rfl

theorem exec_hostLinePoll (s : State) (cyc : Nat) (lines : List HostLine) (on : (s.tick cyc).dev ≠ .off) :
    exec (.hostLinePoll cyc lines) s =
      .next (if (s.tick cyc).hostUp && !(s.tick cyc).feat 32 then lines.foldl State.takeLine (s.tick cyc) else s.tick cyc) := by
  rw [State.tick_dev] at on
  refine (if_neg (by simpa using on)).trans ?_
  split <;> rfl

theorem State.takeLine_ignored (u : State) (n tail head : Nat) (idle : 64 ≤ n ∨ u.get (F.HUB_CRING_n_CFG_EN.at 64 n) ≠ 1 ∨ (u.ring n).stopped = true) :
    u.takeLine (.doorbell n tail head) = u := by
  refine if_pos ?_
  obtain far | off | stopped := idle
  · simp [Nat.not_lt.mpr far]
  · simp [State.ringOn, off]
  · simp [stopped]

theorem State.takeLine_doorbell (u : State) (n tail head : Nat) (near : n < 64) (on : u.get (F.HUB_CRING_n_CFG_EN.at 64 n) = 1)
    (runs : (u.ring n).stopped = false) : u.takeLine (.doorbell n tail head) =
      if cntSub tail (u.ring n).fetched ≤ u.ringSize n ∧ cntSub (u.ring n).completed head ≤ u.ringSize n
      then u.setRing n { u.ring n with tail := tail % 2 ^ 32, cplHead := head % 2 ^ 32 } else u.stopRing n := by
  have serves : ¬ (!decide (n < 64) || !u.ringOn n || (u.ring n).stopped) = true := by simp [near, State.ringOn, on, runs]
  unfold State.takeLine
  dsimp only
  rw [if_neg serves]
  by_cases good : cntSub tail (u.ring n).fetched ≤ u.ringSize n ∧ cntSub (u.ring n).completed head ≤ u.ringSize n
  · rw [if_pos good, if_neg (by omega)]
  · rw [if_neg good, if_pos (by omega)]

/-- Settles O20: both commands read lines by `State.takeLine`, whose cases the doorbell lemmas state. -/
theorem hostLines : Obligations.HostLines := by
  unfold Obligations.HostLines
  refine ⟨fun s cyc => ⟨fun line => ⟨fun up cache => ?_, fun on down => ?_⟩, fun lines => ⟨fun up polled => ?_, fun on down => ?_⟩⟩,
    fun u n tail head e p => ⟨u.takeLine_doorbell n tail head, u.takeLine_ignored n tail head, rfl⟩⟩
  · have up := (s.tick cyc).hostUp_iff.mpr up
    rw [exec_hostLineWrite s cyc line (State.hostUp_powered up), if_pos (by rw [up, cache]; rfl)]
  · rw [exec_hostLineWrite s cyc line on, if_neg]
    obtain down | uncached := down
    · simp [mt (s.tick cyc).hostUp_iff.mp down]
    · simp [uncached]
  · have up := (s.tick cyc).hostUp_iff.mpr up
    rw [exec_hostLinePoll s cyc lines (State.hostUp_powered up), if_pos (by rw [up, polled]; rfl)]
  · rw [exec_hostLinePoll s cyc lines on, if_neg]
    obtain down | cached := down
    · simp [mt (s.tick cyc).hostUp_iff.mp down]
    · simp [cached]

/-! ## Descriptor fetches (R422, R423) -/

theorem State.mayFetch_iff (u : State) (k : Nat) : u.mayFetch k = true ↔ u.get (F.HUB_CRING_n_CFG_EN.at 64 k) = 1 ∧ (u.ring k).stopped = false
    ∧ cntSub (u.ring k).tail (u.ring k).fetched ≠ 0 ∧ cntSub (u.ring k).fetched (u.ring k).cplHead < u.ringSize k := by
  simp [State.mayFetch, State.ringOn, and_assoc]

/-- The ring whose turn it is stands first, from the pointer on, among those that may fetch. -/
theorem State.nextRing_iff (u : State) (n : Nat) : u.nextRing = some n ↔
    ∃ j, j < 64 ∧ (u.host.rr + j) % 64 = n ∧ u.mayFetch n = true ∧ ∀ i, i < j → u.mayFetch ((u.host.rr + i) % 64) = false := by
  unfold State.nextRing upTo
  rw [List.find?_map, Option.map_eq_some_iff]
  simp only [List.find?_range_eq_some, List.mem_range, Function.comp_apply, Bool.not_eq_true']
  constructor
  · rintro ⟨j, ⟨may, less, first⟩, rfl⟩
    exact ⟨j, less, rfl, may, first⟩
  · rintro ⟨j, less, rfl, may, first⟩
    exact ⟨j, ⟨may, less, first⟩, rfl⟩

/-- `s` with descriptor `d` fetched for ring `n`. -/
def State.fetched (u : State) (n : Nat) (d : BitVec 512) : State :=
  { u with host := { u.host with
      rings := u.host.rings.set n { u.ring n with fetched := cntAdd (u.ring n).fetched 1, queue := (u.ring n).queue ++ [⟨d⟩] }
      rr := (n + 1) % 64
      mem := mWrite u.host.mem (u.get (F.HUB_CRING_n_STAT_ADDR.at 64 n)) (leBytes 4 (cntAdd (u.ring n).fetched 1)) } }

theorem exec_descriptorFetch (s : State) (cyc n : Nat) (d : BitVec 512) (on : (s.tick cyc).dev ≠ .off) :
    exec (.descriptorFetch cyc n d) s =
      .next (if (s.tick cyc).hostUp && (s.tick cyc).nextRing == some n then (s.tick cyc).fetched n d else s.tick cyc) := by
  rw [State.tick_dev] at on
  refine (if_neg (by simpa using on)).trans ?_
  dsimp only
  split <;> rfl

/-- A ring that is not the next one is left alone. -/
theorem exec_descriptorFetch_other (s : State) (cyc n : Nat) (d : BitVec 512) (on : (s.tick cyc).dev ≠ .off)
    (other : (s.tick cyc).hostUp = true → (s.tick cyc).nextRing ≠ some n) : exec (.descriptorFetch cyc n d) s = .next (s.tick cyc) := by
  rw [exec_descriptorFetch s cyc n d on, if_neg]
  simpa using other

/-- Settles O21: the command fetches for `State.nextRing` alone. -/
theorem descriptorFetches : Obligations.DescriptorFetches := by
  unfold Obligations.DescriptorFetches
  intro s cyc n d u r may up
  have mays (k : Nat) : u.mayFetch k = true ↔ may k := u.mayFetch_iff k
  refine ⟨fun j less turn => ⟨fun on ready first => ?_, fun earlier on => ?_⟩, fun on not => ?_⟩
  · have next : u.nextRing = some n := (u.nextRing_iff n).mpr ⟨j, less, turn.symm, (mays n).mpr ready, fun i before =>
      Bool.eq_false_iff.mpr (mt (mays _).mp (first i before))⟩
    have up := u.hostUp_iff.mpr on
    refine ⟨u.fetched n d, ?_, rfl, rfl, rfl, rfl⟩
    rw [exec_descriptorFetch s cyc n d (State.hostUp_powered up), if_pos (by simp [u, up, next])]
  · obtain ⟨i, before, ready⟩ := earlier
    refine exec_descriptorFetch_other s cyc n d on fun _ next => ?_
    obtain ⟨k, near, turn', -, first⟩ := (u.nextRing_iff n).mp next
    have same : k = j := by omega
    exact Bool.eq_false_iff.mp (first i (same ▸ before)) ((mays _).mpr ready)
  · refine exec_descriptorFetch_other s cyc n d on fun isUp next => ?_
    obtain ⟨k, near, turn, ready, -⟩ := (u.nextRing_iff n).mp next
    obtain idle | far | down := not
    · exact idle ((mays n).mp ready)
    · omega
    · exact down (u.hostUp_iff.mp isUp)

/-! ## GO and vectors (R417, R435) -/

theorem State.signal_cases (u : State) (v : Nat) : u.signal v =
    if v = 0 ∨ u.get F.HUB_IRQ_CFG_MOD_US = 0 then { u with host := { u.host with irqSent := u.host.irqSent ++ [v] } }
    else if v ∉ u.host.irqHot then { u with host := { u.host with irqSent := u.host.irqSent ++ [v], irqHot := u.host.irqHot ++ [v] } }
    else if v ∈ u.host.irqCause then u else { u with host := { u.host with irqCause := u.host.irqCause ++ [v] } } := by
  unfold State.signal
  simp only [List.contains_iff_mem, ite_not]

theorem exec_goResponse (s : State) (cyc l : Nat) (on : (s.tick cyc).dev ≠ .off) : let u := s.tick cyc
    let g := u.goLine l
    exec (.goResponse cyc l) s = if !u.host.link then .next u
      else if g.statWait then .next ((u.setGo { g with statWait := false, covered := [] }).signalAll g.covered)
      else if g.recWait then .next ((u.writeStatus l).setGo { g with recWait := false, statWait := true, vecs := [], covered := g.vecs })
      else .next u := by
  rw [State.tick_dev] at on
  exact if_neg (by simpa using on)

theorem exec_msixModerationExpiry (s : State) (cyc v : Nat) (on : (s.tick cyc).dev ≠ .off) : let u := s.tick cyc
    exec (.msixModerationExpiry cyc v) s = if v ∈ u.host.irqHot then
        if v ∈ u.host.irqCause then .next (State.signal { u with host := { u.host with
          irqHot := u.host.irqHot.filter (· != v), irqCause := u.host.irqCause.filter (· != v) } } v)
        else .next { u with host := { u.host with irqHot := u.host.irqHot.filter (· != v) } }
      else .next u := by
  rw [State.tick_dev] at on
  refine (if_neg (by simpa using on)).trans ?_
  simp only [List.contains_iff_mem]

/-- The status line of a ring, or of the device, as host memory holds it. -/
theorem State.writeStatus_eq (u : State) (l : Nat) : u.writeStatus l = { u with host := { u.host with mem := (if l < 64 then
      mWrite u.host.mem (u.get (F.HUB_CRING_n_STAT_ADDR.at 64 l)) (leBytes 8 ((u.ring l).fetched + (u.ring l).completed * 2 ^ 32))
    else mWrite u.host.mem (u.get F.HUB_HLINE_OUT_ADDR)
      (leBytes 9 (u.host.evTail + u.host.phTail * 2 ^ 32 + (u.dev.code + u.halt * 8) * 2 ^ 64))) } } := by
  unfold State.writeStatus State.hostPut
  split <;> rfl

/-- `s` with the status line of `l` written, which waits for GO with the vectors its records asked for. -/
def State.statusSent (u : State) (l : Nat) : State :=
  (u.writeStatus l).setGo { u.goLine l with recWait := false, statWait := true, vecs := [], covered := (u.goLine l).vecs }

theorem State.writeStatus_goLine (u : State) (l m : Nat) : (u.writeStatus l).goLine m = u.goLine m := by
  rw [State.writeStatus_eq]
  rfl

theorem State.statusSent_goLine (u : State) (l : Nat) :
    (u.statusSent l).goLine l = { u.goLine l with recWait := false, statWait := true, vecs := [], covered := (u.goLine l).vecs } := by
  have sent := (u.writeStatus l).goLine_setGo_same
    { u.goLine l with recWait := false, statWait := true, vecs := [], covered := (u.goLine l).vecs } rfl
  rwa [show GoLine.line { u.goLine l with recWait := false, statWait := true, vecs := [], covered := (u.goLine l).vecs } = l from u.goLine_line l]
    at sent

theorem State.statusSent_goLine_ne (u : State) {l m : Nat} (other : m ≠ l) : (u.statusSent l).goLine m = u.goLine m := by
  rw [State.statusSent, State.goLine_setGo_ne, State.writeStatus_goLine]
  exact (u.goLine_line l).symm ▸ other

theorem State.statusSent_frame (u : State) (l : Nat) : (u.statusSent l).host.mem = (u.writeStatus l).host.mem
    ∧ u.statusSent l = { u with host := { u.host with mem := (u.statusSent l).host.mem, go := (u.statusSent l).host.go } } := by
  refine ⟨rfl, ?_⟩
  unfold State.statusSent
  rw [State.writeStatus_eq]
  rfl

/-- An interval that ends with a cause sends one message, and opens the next where the vector is moderated. -/
theorem State.signal_cool (u : State) (v : Nat) (cold : v ∉ u.host.irqHot) : u.signal v = { u with host := { u.host with
    irqSent := u.host.irqSent ++ [v], irqHot := u.host.irqHot ++ (if v = 0 ∨ u.get F.HUB_IRQ_CFG_MOD_US = 0 then [] else [v]) } } := by
  rw [State.signal_cases, if_pos cold]
  split
  · rw [List.append_nil]
  · rfl

/-- Settles O25: the branches of the two commands, and `State.signal_cases`. -/
theorem goAndVectors : Obligations.GoAndVectors := by
  unfold Obligations.GoAndVectors
  refine ⟨fun s cyc l v => ?_, State.signal_cases⟩
  have go := exec_goResponse s cyc l
  have expiry := exec_msixModerationExpiry s cyc v
  dsimp only at go expiry ⊢
  generalize s.tick cyc = u at go expiry ⊢
  intro on
  have go := go on
  have expiry := expiry on
  refine ⟨fun link waits => ?_, fun link idle waits => ?_, fun idle => ?_, fun cold => ?_, fun hot clear => ?_, fun hot cause => ?_⟩
  · rw [go, link, if_pos waits]
    rfl
  · have line := u.statusSent_goLine l
    obtain ⟨mem, frame⟩ := u.statusSent_frame l
    refine ⟨u.statusSent l, ?_, by rw [line], by rw [line], by rw [line], by rw [line], fun m other => u.statusSent_goLine_ne other, ?_, frame⟩
    · rw [go, link, idle, waits]
      rfl
    · rw [mem, State.writeStatus_eq]
  · rw [go]
    obtain down | ⟨sent, written⟩ := idle
    · rw [down]
      rfl
    · rw [sent, written]
      exact ite_self _
  · rw [expiry, if_neg cold]
  · rw [expiry, if_pos hot, if_neg clear]
  · rw [expiry, if_pos hot, if_pos cause, State.signal_cool _ v (by simp)]
    rfl

end Sys2Proof.Machine
end

section
/-! PROOF. Host-memory reads that fail (R433, O33). -/
namespace Sys2Proof.Machine

/-- A ring may start its front command if the ring is served, the command is of the kind asked for and R425 lets it. -/
theorem State.startable_iff (u : State) (n : Nat) (p : Nat → Bool) (d : BitVec 512) :
    u.startable n p = some d ↔ u.ringsOn = true ∧ p (dOpcode d) = true ∧ u.frontIs n (dOpcode d) d := by
  have asks : u.startable n p = some d ↔ p (dOpcode d) = true ∧ u.startable n (fun o => o == dOpcode d) = some d := by
    unfold State.startable
    cases (u.ring n).queue with
    | nil => simp
    | cons c rest =>
      simp only [Bool.and_eq_true, Option.ite_none_right_eq_some, Option.some.injEq, beq_iff_eq]
      constructor
      · rintro ⟨⟨⟨⟨⟨on, near⟩, kind⟩, fence⟩, busy⟩, rfl⟩
        exact ⟨kind, ⟨⟨⟨⟨on, near⟩, rfl⟩, fence⟩, busy⟩, rfl⟩
      · rintro ⟨kind, ⟨⟨⟨⟨on, near⟩, -⟩, fence⟩, busy⟩, rfl⟩
        exact ⟨⟨⟨⟨⟨on, near⟩, kind⟩, fence⟩, busy⟩, rfl⟩
  rw [asks]
  constructor
  · rintro ⟨kind, starts⟩
    obtain ⟨on, front⟩ := State.startable_eq_some starts
    exact ⟨on, kind, front⟩
  · rintro ⟨on, kind, front⟩
    exact ⟨kind, State.startable_of_frontIs on front⟩

theorem readsHost_iff (op : Nat) : readsHost op = true ↔ op = 1 ∨ op = 2 ∨ op = 0x30 ∨ op = 0x40 := by
  simp [readsHost, or_assoc]

/-- The front command of ring `n` is one that reads host memory. -/
def State.readsFront (u : State) (n : Nat) (e : BitVec 512) : Prop :=
  u.frontIs n 0x01 e ∨ u.frontIs n 0x02 e ∨ u.frontIs n 0x30 e ∨ u.frontIs n 0x40 e

theorem State.startable_reads (u : State) (n : Nat) (e : BitVec 512) :
    u.startable n readsHost = some e ↔ u.ringsOn = true ∧ u.readsFront n e := by
  have opcode {op : Nat} (front : u.frontIs n op e) : dOpcode e = op := front.2.2.1
  rw [State.startable_iff, readsHost_iff]
  refine and_congr_right fun _ => ⟨?_, ?_⟩
  · rintro ⟨kind | kind | kind | kind, front⟩ <;> rw [kind] at front
    exacts [.inl front, .inr (.inl front), .inr (.inr (.inl front)), .inr (.inr (.inr front))]
  · rintro (front | front | front | front) <;> rw [opcode front] <;> exact ⟨by simp, front⟩

/-- The stream that command `tag` of ring `n` opened. -/
def State.streamOf (u : State) (n tag : Nat) : Option Stream := u.ing.streams.find? fun x => x.ring == n && x.tag == tag

theorem exec_hostReadError_command (s : State) (cyc n tag : Nat) (on : (s.tick cyc).dev ≠ .off) : let u := s.tick cyc
    exec (.hostReadError cyc (.command n tag)) s =
      if u.ringsOn && u.ing.streams.any fun x => x.ring == n && x.tag == tag then .next (u.dropStream n tag)
      else match u.startable n readsHost with
        | some d => if dTag d = tag ∧ u.dev = .running then .next ((u.popCmd n).finish n d St.hostErr 0) else .next u
        | none => .next u := by
  rw [State.tick_dev] at on
  exact if_neg (by simpa using on)

theorem exec_hostReadError_figure (s : State) (cyc fid : Nat) (on : (s.tick cyc).dev ≠ .off) : let u := s.tick cyc
    exec (.hostReadError cyc (.t2Figure fid)) s =
      if u.ringsOn && (u.stat fid).phase == .running then .next (u.detectFor Er.hostRead 14 6 0 fid) else .next u := by
  rw [State.tick_dev] at on
  exact if_neg (by simpa using on)

/-- With no stream of the command, its front command completes if it is running, and is left alone otherwise. -/
theorem exec_hostReadError_front (s : State) (cyc n tag : Nat) (on : (s.tick cyc).dev ≠ .off) (none : (s.tick cyc).streamOf n tag = none) :
    let u := s.tick cyc
    (∀ d, u.dev = .running → u.readsFront n d → dTag d = tag →
        exec (.hostReadError cyc (.command n tag)) s = .next ((u.popCmd n).finish n d St.hostErr 0))
      ∧ (u.dev ≠ .running ∨ (∀ e, u.readsFront n e → dTag e ≠ tag) → exec (.hostReadError cyc (.command n tag)) s = .next u) := by
  have run := exec_hostReadError_command s cyc n tag on
  dsimp only at run ⊢
  generalize s.tick cyc = u at run none ⊢
  have streamless : (u.ing.streams.any fun x => x.ring == n && x.tag == tag) = false := List.any_eq_false.mpr (List.find?_eq_none.mp none)
  rw [streamless, Bool.and_false, if_neg (by simp)] at run
  refine ⟨fun d running front tagged => ?_, fun idle => ?_⟩
  · have starts := (u.startable_reads n d).mpr ⟨u.ringsOn_iff.mpr (.inl running), front⟩
    rw [run, starts]
    exact if_pos ⟨tagged, running⟩
  · rw [run]
    split
    next d starts =>
      obtain ⟨-, front⟩ := (u.startable_reads n d).mp starts
      refine if_neg fun ⟨tagged, running⟩ => ?_
      exact idle.elim (· running) fun other => other d front tagged
    · rfl

/-- A stream that ends without its data takes the clip under cutting with it if it was the one being filled from. -/
theorem State.dropStream_eq (u : State) {n tag : Nat} {x : Stream} (found : u.streamOf n tag = some x) :
    u.dropStream n tag = State.finishTag { u with ing := { u.ing with
      streams := u.ing.streams.erase x
      clip := if u.ing.streams.head? = some x then none else u.ing.clip
      demux := if u.ing.streams.head? = some x then Demux.reset else u.ing.demux } } n 0x30 tag St.hostErr 0 := by
  rw [State.streamOf] at found
  unfold State.dropStream
  rw [found]
  simp only [beq_iff_eq]

/-- An error of class D charges the figure it names, and poisons it (R446). -/
theorem State.detectFor_hostRead (u : State) (fid : Nat) (past : u.dev ≠ .boot) : u.detectFor Er.hostRead 14 6 0 fid =
    State.poisonFid { u with err := { u.err with inFlight := u.err.inFlight ++ [⟨0x0203, ⟨14, 6, 0⟩, u.clk.beat, u.clk.cyc, fid, 0⟩] } } fid := by
  rw [State.detectFor, State.detect_classD _ _ (show errClass Er.hostRead = 1 by decide)]
  show State.poisonFid (u.sent _) fid = _
  rw [State.sent, u.stamp_past_boot past]
  rfl

/-- Settles O33: a command's read by its stream or its front command, a figure's as an error of class D. -/
theorem hostReadErrors : Obligations.HostReadErrors := by
  unfold Obligations.HostReadErrors
  intro s cyc n tag fid d u mine front
  have powered (run : u.dev = .running ∨ u.dev = .draining) : u.dev ≠ .off := by obtain h | h := run <;> simp [h]
  have figure (on : u.dev ≠ .off) := exec_hostReadError_figure s cyc fid on
  refine ⟨fun run reads tagged none => ?_, fun on none idle => ?_, fun x run found => ?_, fun run active => ?_, fun on idle => ?_⟩
  · exact (exec_hostReadError_front s cyc n tag (powered (.inl run)) none).1 d run reads tagged
  · exact (exec_hostReadError_front s cyc n tag on none).2 idle
  · have of : mine x = true := List.find?_some found
    have any : (u.ing.streams.any fun x => x.ring == n && x.tag == tag) = true :=
      List.any_eq_true.mpr ⟨x, List.mem_of_find?_eq_some found, of⟩
    refine (exec_hostReadError_command s cyc n tag (powered run)).trans ?_
    rw [if_pos (Bool.and_eq_true _ _ ▸ ⟨u.ringsOn_iff.mpr run, any⟩), State.dropStream_eq u found]
    rfl
  · have past : u.dev ≠ .boot := by obtain h | h := run <;> simp [h]
    refine (figure (powered run)).trans ((if_pos ?_).trans (congrArg _ (u.detectFor_hostRead fid past)))
    exact Bool.and_eq_true _ _ ▸ ⟨u.ringsOn_iff.mpr run, beq_iff_eq.mpr active⟩
  · refine (figure on).trans (if_neg fun serves => ?_)
    obtain ⟨run, active⟩ := (Bool.and_eq_true _ _).mp serves
    obtain ⟨still, drained⟩ | other := idle
    · exact (u.ringsOn_iff.mp run).elim still drained
    · exact other (beq_iff_eq.mp active)

end Sys2Proof.Machine
end

section
/-! PROOF. Power that goes off, and a device that is off (R469, R519, R524, R527; O9). -/
namespace Sys2Proof.Machine

theorem State.powered_iff (s : State) : s.powered = true ↔ s.dev ≠ .off := by simp [State.powered]

theorem State.unpowered {s : State} (off : s.dev = .off) : s.powered = false := by simp [State.powered, off]

/-- Command `c` leaves everything but the pins of `s` as it is. -/
def State.Rests (s : State) (c : Instr) : Prop := ∃ t, exec c s = .next t ∧ t = { s with pins := t.pins }

theorem State.Rests.of_same {s : State} {c : Instr} (same : exec c s = .next s) : s.Rests c := ⟨s, same, rfl⟩

/-- A device that is off and stopped, with its link down, has no more to lose. -/
theorem State.powerOff_off (s : State) (p : Pins) (off : s.dev = .off) (stopped : s.run.stopped = true) (down : s.host.link = false) :
    State.powerOff { s with pins := p } = { s with pins := p } := by
  rw [State.powerOff]
  simp only [← off, ← stopped, ← down]

theorem pwrgdFall_rests (s : State) (cyc : Nat) (off : s.dev = .off) (stopped : s.run.stopped = true) (down : s.host.link = false) :
    s.Rests (.pwrgdFall cyc) := by
  have start : (if s.powered then s.tick cyc else s) = s := if_neg (by simp [State.unpowered off])
  refine ⟨{ s with pins := { s.pins with pwrgd := false, latched := false } }, ?_, rfl⟩
  exact (congrArg (fun u : State => Host.Outcome.next (State.powerOff { u with pins := { u.pins with pwrgd := false, latched := false } }))
    start).trans (congrArg Host.Outcome.next (State.powerOff_off s _ off stopped down))

theorem inputVoltageFault_rests (s : State) (cyc mv ns : Nat) (off : s.dev = .off) : s.Rests (.inputVoltageFault cyc mv ns) := by
  have start : (if s.powered then s.tick cyc else s) = s := if_neg (by simp [State.unpowered off])
  refine ⟨{ s with pins := { s.pins with vin := inRange 40000 60000 mv } }, ?_, rfl⟩
  refine (if_neg fun fault => ?_).trans ?_
  · simp [State.unpowered off] at fault
  · rw [start]

/-- In OFF a command acts on nothing but the pins, but for POWER_ON_RESET with the power stages not latched off. -/
theorem exec_rests_in_off (c : Instr) (s : State) (off : s.dev = .off) (stopped : s.run.stopped = true) (down : s.host.link = false)
    (latched : (∃ cyc straps test, c = .powerOnReset cyc straps test) → s.pins.latched = true) : s.Rests c := by
  have dark : ¬ s.powered = true := by simp [State.unpowered off]
  have isOff : (s.dev == .off) = true := by simp [off]
  have notBoot : (s.dev == .boot) = false := by simp [off]
  cases c with
  | powerOnReset cyc straps test => exact .of_same (if_pos (latched ⟨cyc, straps, test, rfl⟩))
  | pwrgdFall cyc => exact pwrgdFall_rests s cyc off stopped down
  | inputVoltageFault cyc mv ns => exact inputVoltageFault_rests s cyc mv ns off
  | thermalShutdown => exact .of_same (if_neg fun hot => dark hot.2)
  | bootComplete | hostBootImage => exact .of_same (if_neg (by simp [notBoot]))
  | perstRelease => exact ⟨_, if_neg dark, rfl⟩
  | coldReset | pldmReset | domainReset => exact .of_same (if_neg dark)
  | hubResetCold | hubResetWarm => exact .of_same (if_neg (by simp [State.mayHubReset, State.unpowered off]))
  | configurationRequest => exact .of_same (if_pos (by simp [State.unpowered off]))
  | beatEdge => exact .of_same (if_pos (by simp [off]))
  | _ => exact .of_same (if_pos isOff)

theorem State.tick_unless_off (s : State) (cyc : Nat) : (if s.powered then s.tick cyc else s) = if s.dev = .off then s else s.tick cyc := by
  by_cases off : s.dev = .off <;> simp [State.powered, off]

/-- Settles O9: what each of the three does out of OFF, and that a device in OFF rests. -/
theorem powerGoesOff : Obligations.PowerGoesOff := by
  unfold Obligations.PowerGoesOff
  refine ⟨fun s cyc => ?_, exec_rests_in_off⟩
  intro u
  have start : (if s.powered then s.tick cyc else s) = u := s.tick_unless_off cyc
  refine ⟨?_, fun mv ns far long on => ?_, fun mv ns mild => ?_, fun temp hot on => ?_, fun temp cool => ?_⟩
  · exact congrArg (fun u : State => Host.Outcome.next (State.powerOff { u with pins := { u.pins with pwrgd := false, latched := false } })) start
  · refine (if_pos ⟨far, long, s.powered_iff.mpr on⟩).trans ?_
    rw [start]
    rfl
  · refine (if_neg fun fault => mild ⟨fault.1, fault.2.1, s.powered_iff.mp fault.2.2⟩).trans ?_
    rw [start]
    rw [Bool.decide_and]
    rfl
  · refine (if_pos ⟨hot, s.powered_iff.mpr on⟩).trans ?_
    rw [← (if_neg on : u = s.tick cyc)]
    rfl
  · exact if_neg fun fault => absurd fault.1 (by omega)

end Sys2Proof.Machine
end

section
/-! PROOF. The anti-rollback commit and the debug unlock (R478, R482, R483; O13). -/
namespace Sys2Proof.Machine

theorem exec_secArbCommit (s : State) (cyc : Nat) (on : (s.tick cyc).dev ≠ .off) : exec (.secArbCommit cyc) s =
    if (s.tick cyc).dev == .unconfigured then .next (s.tick cyc).commitArb else .next (s.tick cyc) := by
  rw [State.tick_dev] at on
  exact if_neg (by simpa using on)

theorem exec_debugUnlock (s : State) (cyc : Nat) (on : (s.tick cyc).dev ≠ .off) :
    exec (.debugUnlock cyc) s = .next (s.tick cyc).submitToken := by
  have powered := (s.tick cyc).powered_iff.mpr on
  rw [State.tick_dev] at on
  exact (if_neg (by simpa using on)).trans (if_pos powered)

/-- A commit command acts in UNCONFIGURED only. -/
theorem exec_commit (c : Instr) (s : State) (cyc : Nat) (commit : c = .secArbCommit cyc ∨ c = .pldmRequest cyc .arbCommit) :
    ((s.tick cyc).dev = .unconfigured → exec c s = .next (s.tick cyc).commitArb)
      ∧ ((s.tick cyc).dev ≠ .unconfigured → (s.tick cyc).dev ≠ .off → exec c s = .next (s.tick cyc)) := by
  have elsewhere (dev : (s.tick cyc).dev ≠ .unconfigured) : ¬ ((s.tick cyc).dev == .unconfigured) = true := by simpa using dev
  refine ⟨fun dev => ?_, fun dev on => ?_⟩
  · rw [State.tick_dev] at dev
    obtain rfl | rfl := commit
    · exact execSecArbCommit_commits s cyc dev
    · exact execPldmRequest_commits s cyc dev
  · have offNot : ¬ (s.dev == .off) = true := by rw [State.tick_dev] at on; simpa using on
    obtain rfl | rfl := commit
    · exact (if_neg offNot).trans (if_neg (elsewhere dev))
    · refine (if_neg offNot).trans ?_
      dsimp only
      split
      · rfl
      · exact if_neg (elsewhere dev)

/-- The device may take an unlock token: in UNCONFIGURED or NEGOTIATED, with fewer than 8 failures and unlock not fused off. -/
def State.mayUnlock (u : State) : Bool :=
  (u.dev == .unconfigured || u.dev == .negotiated) && decide (u.get F.SEC_DBG_CTL_FAILS < 8) && !u.fuses.dbgDis

theorem State.submitToken_eq (u : State) : u.submitToken = State.drawNonce (if (u.mayUnlock && u.tokenOk) = true then
    (State.setMeas (u.set F.SEC_DBG_CTL_LEVEL (leNat (bytesAt u.token 28 1))) 4
      (measure512 (u.set F.SEC_DBG_CTL_LEVEL (leNat (bytesAt u.token 28 1))).fuseBytes)).deriveAlias
    else u.count F.SEC_DBG_CTL_FAILS 1) := rfl

/-- Settles O13: the commit by its state, the token by whether it may be taken and verifies. -/
theorem antiRollbackAndDebug : Obligations.AntiRollbackAndDebug := by
  unfold Obligations.AntiRollbackAndDebug
  intro s cyc u n nonce
  refine ⟨fun c commit => exec_commit c s cyc commit, fun on bars => ?_, fun ok fused fails dev => ?_⟩
  · refine (exec_debugUnlock s cyc on).trans ?_
    rw [State.submitToken_eq, if_neg]
    · rfl
    · rintro taken
      simp only [State.mayUnlock, Bool.and_eq_true, Bool.or_eq_true, beq_iff_eq, decide_eq_true_eq, Bool.not_eq_true'] at taken
      obtain ⟨⟨⟨dev, fails⟩, fused⟩, ok⟩ := taken
      obtain bad | bad | bad | ⟨b1, b2⟩ := bars
      · exact absurd (ok.symm.trans bad) (by decide)
      · exact absurd (bad.symm.trans fused) (by decide)
      · exact absurd bad (Nat.not_le.mpr fails)
      · exact dev.elim b1 b2
  · intro w m
    have on : u.dev ≠ .off := by obtain h | h := dev <;> simp [h]
    refine ⟨w.get F.SEC_DBG_CTL_LEVEL == 0, (exec_debugUnlock s cyc on).trans ?_⟩
    rw [State.submitToken_eq, if_pos]
    · rfl
    · simp only [State.mayUnlock, Bool.and_eq_true, Bool.or_eq_true, beq_iff_eq, decide_eq_true_eq, Bool.not_eq_true']
      exact ⟨⟨⟨dev, fails⟩, fused⟩, ok⟩

end Sys2Proof.Machine
end

section
/-! PROOF. Shipments and mirrors (R406, R408; O30). -/
namespace Sys2Proof.Machine

theorem exec_shipDone (s : State) (cyc m : Nat) (on : (s.tick cyc).dev ≠ .off) : let u := s.tick cyc
    exec (.shipDone cyc m) s =
      if u.ringsOn && u.cel.shipping.contains m then .next
        (State.finishWhere
          (if u.cel.open_.any fun c => c.measure == m then
            State.endReader { u with cel := { u.cel with
              shipping := u.cel.shipping.filter (· != m), ships := u.cel.ships.filter fun x => x.2.2 != m } } 2
          else { u with cel := { u.cel with
              shipping := u.cel.shipping.filter (· != m), ships := u.cel.ships.filter fun x => x.2.2 != m } })
          (fun c => dOpcode c.desc == 5 && (u.cel.ships.filter fun x => x.2.2 == m).any fun x => x.2.1 == dTag c.desc) St.ok fun _ => m)
      else .next u := by
  rw [State.tick_dev] at on
  exact if_neg (by simpa using on)

/-- A reader that ends changes nothing but the open cut. -/
theorem State.endReader_eq (u : State) (kind : Nat) : ∃ cut, u.endReader kind = { u with cel := { u.cel with open_ := cut } } := by
  unfold State.endReader
  split
  · exact ⟨u.cel.open_, rfl⟩
  · exact ⟨_, rfl⟩

theorem State.endReader_open (u : State) (kind : Nat) {c : Cut} (cut : u.cel.open_ = some c) : u.endReader kind =
    { u with cel := { u.cel with open_ := some (Cut.trim { c with readers := c.readers.filter fun r => r.kind != kind }) } } := by
  unfold State.endReader
  rw [cut]

theorem exec_mirrorDone (s : State) (cyc : Nat) (on : (s.tick cyc).dev ≠ .off) : let u := s.tick cyc
    (u.cel.mirrors = [] → exec (.mirrorDone cyc) s = .next u)
      ∧ (∀ m rest, u.cel.mirrors = m :: rest → exec (.mirrorDone cyc) s =
          if u.cel.open_.any fun c => c.measure == m then
            .next ((State.endReader { u with cel := { u.cel with mirrors := rest } } 1).set F.CEL_STATUS_MIRROR_UP 0)
          else .next { u with cel := { u.cel with mirrors := rest } }) := by
  intro u
  have powered : ¬ (s.dev == .off) = true := by
    rw [State.tick_dev] at on
    simpa using on
  refine ⟨fun none => (if_neg powered).trans ?_, fun m rest some => (if_neg powered).trans ?_⟩ <;> dsimp only
  · rw [show (s.tick cyc).cel.mirrors = [] from none]
  · rw [show (s.tick cyc).cel.mirrors = m :: rest from some]

/-- Of the commands that wait, a finished shipment ends those of it. -/
theorem State.finishWhere_ships (u v : State) (m : Nat) (len : v.host.rings.length = 64) :
    ∀ r ∈ (v.finishWhere (fun c => dOpcode c.desc == 5 && (u.cel.ships.filter fun x => x.2.2 == m).any fun x => x.2.1 == dTag c.desc)
      St.ok fun _ => m).host.rings, ∀ c ∈ r.active, dOpcode c.desc = 5 → ∀ x ∈ u.cel.ships, x.2.2 = m → x.2.1 ≠ dTag c.desc := by
  intro r ring c active ship x mem named same
  have other := State.finishWhere_active v _ St.ok (fun _ => m) len r ring c active
  simp only [ship, beq_self_eq_true, Bool.true_and, List.any_eq_false, List.mem_filter, beq_iff_eq] at other
  exact other x ⟨mem, named⟩ same

theorem exec_ship (s : State) (cyc n : Nat) (on : (s.tick cyc).dev ≠ .off) : exec (.ship cyc n) s =
    .next ((s.tick cyc).start n 0x05 false true fun d t =>
      if dFlag d then
        State.activate { t with cel := { t.cel with ships := t.cel.ships ++ [(n, dTag d, 2 ^ 48)] } } n d (2 ^ 48)
      else if t.ownSnaps.any fun x => x.measure == bits (dW d 1) 0 48 then
        State.activate { t with cel := { t.cel with
          ships := t.cel.ships ++ [(n, dTag d, bits (dW d 1) 0 48)], shipping := t.cel.shipping ++ [bits (dW d 1) 0 48] } } n d (bits (dW d 1) 0 48)
      else t.finish n d St.badArg 0) := by
  rw [State.tick_dev] at on
  exact if_neg (by simpa using on)

theorem State.ownSnaps_any (u : State) (m : Nat) :
    (u.ownSnaps.any fun x => x.measure == m) = true ↔ ∃ x ∈ u.cel.snaps, x.role = 0 ∧ x.complete = true ∧ x.measure = m := by
  simp [State.ownSnaps, and_assoc]

/-- What a shipment that has ended leaves of its measure. -/
theorem exec_shipDone_forgets (s : State) (cyc m : Nat) : let u := s.tick cyc
    (u.dev = .running ∨ u.dev = .draining) ∧ m ∈ u.cel.shipping → u.host.rings.length = 64 → ∃ t, exec (.shipDone cyc m) s = .next t
      ∧ m ∉ t.cel.shipping ∧ (∀ x ∈ t.cel.ships, x.2.2 ≠ m) ∧ (∀ x ∈ u.cel.ships, x.2.2 ≠ m → x ∈ t.cel.ships)
      ∧ (∀ r ∈ t.host.rings, ∀ c ∈ r.active, dOpcode c.desc = 5 → ∀ x ∈ u.cel.ships, x.2.2 = m → x.2.1 ≠ dTag c.desc)
      ∧ t.dev = u.dev ∧ t.cel.snaps = u.cel.snaps ∧ t.t0 = u.t0 ∧ t.t1 = u.t1 := by
  intro u ⟨run, shipping⟩ len
  have on : u.dev ≠ .off := by obtain h | h := run <;> simp [h]
  have done := exec_shipDone s cyc m on
  dsimp only at done
  rw [if_pos (Bool.and_eq_true _ _ ▸ ⟨u.ringsOn_iff.mpr run, List.contains_iff_mem.mpr shipping⟩)] at done
  refine ⟨_, done, ?_⟩
  change u.host.rings.length = 64 at len
  generalize h : (if u.cel.open_.any fun c => c.measure == m then _ else _ : State) = v
  obtain ⟨cut, v_eq⟩ : ∃ cut, v = { u with cel := { u.cel with
      open_ := cut, shipping := u.cel.shipping.filter (· != m), ships := u.cel.ships.filter fun x => x.2.2 != m } } := by
    rw [← h]
    split
    · exact (State.endReader_eq ..).imp fun _ eq => eq
    · exact ⟨u.cel.open_, rfl⟩
  have waits := State.finishWhere_ships u v m (by rw [v_eq]; exact len)
  have facing := State.finishWhere_facing v
    (fun c => dOpcode c.desc == 5 && (u.cel.ships.filter fun x => x.2.2 == m).any fun x => x.2.1 == dTag c.desc) St.ok fun _ => m
  generalize v.finishWhere _ _ _ = t at waits facing
  subst v_eq
  rw [State.facing] at facing
  refine ⟨?_, ?_, ?_, waits, ?_⟩
  all_goals rw [facing]
  · simp
  · simp
  · intro x mem other
    simpa using ⟨mem, other⟩
  · exact ⟨rfl, rfl, rfl, rfl⟩

/-- Settles O30: SHIP by the flag and the snapshots held, SHIP_DONE by the commands that wait, MIRROR_DONE by the open cut. -/
theorem shipments : Obligations.Shipments := by
  unfold Obligations.Shipments
  refine ⟨fun s cyc n d => ?_, fun s cyc m => ⟨exec_shipDone_forgets s cyc m, fun idle on => ?_⟩, fun s cyc => ?_⟩
  · intro u p m own running front graph
    have powered : u.dev ≠ .off := by simp [running]
    have run := (exec_ship s cyc n powered).trans (congrArg Host.Outcome.next
      (State.start_of_frontIs running front false true _ fun _ => graph))
    have unflagged (plain : dFlag d = false) : ¬ dFlag d = true := by simp [plain]
    refine ⟨fun flag => run.trans (congrArg _ (if_pos flag)), fun plain held => ?_, fun plain missing => ?_⟩
    · exact run.trans (congrArg _ ((if_neg (unflagged plain)).trans (if_pos ((u.ownSnaps_any m).mpr held))))
    · exact run.trans (congrArg _ ((if_neg (unflagged plain)).trans (if_neg (mt (u.ownSnaps_any m).mp missing))))
  · refine (exec_shipDone s cyc m on).trans (if_neg ?_)
    simpa [State.ringsOn_iff] using idle
  · intro u on
    obtain ⟨none, some⟩ := exec_mirrorDone s cyc on
    refine ⟨none, fun m rest first => ⟨fun other => ?_, fun c cut same => ?_⟩⟩
    · refine (some m rest first).trans (if_neg ?_)
      simpa [Option.any_eq_true] using other
    · refine (some m rest first).trans ((if_pos ?_).trans ?_)
      · rw [cut]
        simpa using same
      · exact congrArg (fun v : State => Host.Outcome.next (v.set F.CEL_STATUS_MIRROR_UP 0))
          (State.endReader_open { u with cel := { u.cel with mirrors := rest } } 1 cut)

end Sys2Proof.Machine
end

section
/-! PROOF. Snapshots that complete (R385, R386, R399; O56). -/
namespace Sys2Proof.Machine

/-- A field reads what was written to it in any canonical register file. -/
theorem fget_fset_own (t : Tab) (f : Field) (v : Nat) (wf : tabWf t = true) : fget (fset t f v) f = v % 2 ^ f.w := by
  rw [fget, fset, rdWords_wrWords _ _ _ _ wf]
  refine Nat.eq_of_testBit_eq fun i => ?_
  rw [testBit_bits, Nat.testBit_mod_two_pow, testBit_setBits, Nat.testBit_mod_two_pow]
  by_cases inside : i < f.w
  · have read : f.lo + i < 32 * f.words := by unfold Field.words; omega
    simp [inside, read]
  · simp [inside]

/-- The state with the snapshot of cut `c` in the cellar. -/
def State.withSnap (u : State) (c : Cut) : State :=
  let v := (u.wearBytes (u.snapOf c).bytes).count F.CEL_COMPLETE_COUNT 1
  { v with cel := { v.cel with
      snaps := v.cel.snaps ++ [u.snapOf c]
      wheeled := (v.cel.wheeled ++ c.wheels).eraseDups
      base := some (u.snapOf c)
      drainCyc := max v.cel.drainCyc (v.clk.base + v.clk.cyc - c.opened)
      reports := v.cel.reports ++ [(v.seat, c.measure)] } }

/-- The state after the last block of a cut of measure `m`: the host told, the cut closed. -/
def State.sealCut (v : State) (m : Nat) : State :=
  let told := (v.set F.CEL_LAST_MEASURE m).emit Ev.snapDone 14 (m % 2 ^ 48)
  State.closeCut { told with t1 := { told.t1 with sealedMap := [] } }

theorem State.set_eq (v : State) (f : Field) (n : Nat) : ∃ regs, v.set f n = { v with regs := regs } := ⟨_, rfl⟩

theorem State.closeCut_eq (v : State) : ∃ regs, v.closeCut = { v with regs := regs, cel := { v.cel with open_ := none } } := by
  obtain ⟨r1, status⟩ := v.set_eq F.CEL_STATUS_OPEN 0
  obtain ⟨r2, mirror⟩ := State.set_eq { v with regs := r1 } F.CEL_STATUS_MIRROR_UP 0
  obtain ⟨r3, measure⟩ := State.set_eq { v with regs := r2 } F.CEL_OPEN_MEASURE 0
  refine ⟨r3, ?_⟩
  rw [State.closeCut, status, mirror, measure]

theorem State.sealCut_eq (v : State) (m : Nat) : ∃ regs host, v.sealCut m =
    { v with regs := regs, host := host, t1 := { v.t1 with sealedMap := [] }, cel := { v.cel with open_ := none } } := by
  have facing := (v.set F.CEL_LAST_MEASURE m).emit_facing Ev.snapDone 14 (m % 2 ^ 48)
  unfold State.sealCut
  generalize (v.set F.CEL_LAST_MEASURE m).emit Ev.snapDone 14 (m % 2 ^ 48) = told at facing
  obtain ⟨regs, closed⟩ := State.closeCut_eq { told with t1 := { told.t1 with sealedMap := [] } }
  refine ⟨regs, told.host, closed.trans ?_⟩
  rw [facing]
  rfl

/-- A field past the registers of the open cut reads as before the cut closed. -/
theorem State.get_closeCut (v : State) (g : Field) (past : 0x30018 ≤ g.off) : v.closeCut.get g = v.get g := by
  have status : F.CEL_STATUS_OPEN.off + 4 * F.CEL_STATUS_OPEN.words ≤ g.off := le_trans (by decide) past
  have mirror : F.CEL_STATUS_MIRROR_UP.off + 4 * F.CEL_STATUS_MIRROR_UP.words ≤ g.off := le_trans (by decide) past
  have measure : F.CEL_OPEN_MEASURE.off + 4 * F.CEL_OPEN_MEASURE.words ≤ g.off := le_trans (by decide) past
  calc v.closeCut.get g
      = (((v.set F.CEL_STATUS_OPEN 0).set F.CEL_STATUS_MIRROR_UP 0).set F.CEL_OPEN_MEASURE 0).get g := rfl
    _ = ((v.set F.CEL_STATUS_OPEN 0).set F.CEL_STATUS_MIRROR_UP 0).get g := fget_fset_apart _ F.CEL_OPEN_MEASURE g 0 (.inr measure)
    _ = (v.set F.CEL_STATUS_OPEN 0).get g := fget_fset_apart _ F.CEL_STATUS_MIRROR_UP g 0 (.inr mirror)
    _ = v.get g := fget_fset_apart _ F.CEL_STATUS_OPEN g 0 (.inr status)

/-- An event leaves a field past HUB_EVT_LOST that was just written as it was written. -/
theorem State.get_emit_set (v : State) (f : Field) (m k d p : Nat) (wf : tabWf v.regs = true)
    (past : F.HUB_EVT_LOST_COUNT.off + 4 * F.HUB_EVT_LOST_COUNT.words ≤ f.off) : ((v.set f m).emit k d p).get f = m % 2 ^ f.w :=
  (((v.set f m).emit_regs k d p).2 f past).trans (fget_fset_own v.regs f m wf)

theorem State.sealCut_last (v : State) (m : Nat) (wf : tabWf v.regs = true) :
    (v.sealCut m).get F.CEL_LAST_MEASURE = m % 2 ^ F.CEL_LAST_MEASURE.w :=
  (State.get_closeCut _ F.CEL_LAST_MEASURE (by decide)).trans
    (v.get_emit_set F.CEL_LAST_MEASURE m Ev.snapDone 14 (m % 2 ^ 48) wf (by decide))

theorem exec_snapDone (s : State) (cyc : Nat) (on : (s.tick cyc).dev ≠ .off) : let u := s.tick cyc
    (u.cel.open_ = none → exec (.snapDone cyc) s = .next u)
      ∧ (∀ c, u.cel.open_ = some c → exec (.snapDone cyc) s = if c.readers.any fun r => r.kind == 0 && !r.left.isEmpty then .next u
          else .next ((u.withSnap c).sealCut c.measure)) := by
  have powered : ¬ (s.dev == .off) = true := by
    rw [State.tick_dev] at on
    simpa using on
  intro u
  refine ⟨fun closed => (if_neg powered).trans ?_, fun c cut => (if_neg powered).trans ?_⟩ <;> dsimp only
  · rw [show (s.tick cyc).cel.open_ = none from closed]
  · rw [show (s.tick cyc).cel.open_ = some c from cut]
    rfl

theorem exec_snapDomain (s : State) (cyc : Nat) (on : (s.tick cyc).dev ≠ .off) : let u := s.tick cyc
    (u.cel.reports = [] ∨ u.fab.leader = false → exec (.snapDomain cyc) s = .next u)
      ∧ (∀ r, u.fab.leader = true → u.cel.reports.getLast? = some r → exec (.snapDomain cyc) s =
          .next ((State.set { u with cel := { u.cel with reports := [] } } F.CEL_DOMAIN_LAST_MEASURE r.2).emit
            Ev.snapDomain 14 (r.2 % 2 ^ 48))) := by
  have powered : ¬ (s.dev == .off) = true := by
    rw [State.tick_dev] at on
    simpa using on
  intro u
  refine ⟨fun idle => (if_neg powered).trans ?_, fun r leads last => (if_neg powered).trans ?_⟩ <;> dsimp only
  · split
    · rfl
    next r last =>
      obtain none | follows := idle
      · rw [show (s.tick cyc).cel.reports = [] from none] at last
        exact absurd last (by simp)
      · exact if_neg (by simp [show (s.tick cyc).fab.leader = false from follows])
  · rw [show (s.tick cyc).cel.reports.getLast? = some r from last]
    exact if_pos leads

/-- A register write the host is told of changes what the host sees, and the register reads it. -/
theorem State.emit_set_told (v : State) (f : Field) (m k d p : Nat) (past : F.HUB_EVT_LOST_COUNT.off + 4 * F.HUB_EVT_LOST_COUNT.words ≤ f.off) :
    v.facing ((v.set f m).emit k d p) ∧ (tabWf v.regs = true → ((v.set f m).emit k d p).get f = m % 2 ^ f.w) :=
  ⟨State.facing_trans (t := v.set f m) rfl ((v.set f m).emit_facing k d p), fun wf => v.get_emit_set f m k d p wf past⟩

/-- A NAND block whose programming failed takes one spare. -/
def State.retireBlock (v : State) : State :=
  if v.cel.spare - 1 = 0 then State.set { v with cel := { v.cel with spare := v.cel.spare - 1, readOnly := true } } F.CEL_STATUS_RO 1
  else { v with cel := { v.cel with spare := v.cel.spare - 1 } }

theorem State.retireBlock_eq (v : State) (writable : v.cel.readOnly = false) : ∃ regs, v.retireBlock =
    { v with regs := regs, cel := { v.cel with spare := v.cel.spare - 1, readOnly := decide (v.cel.spare ≤ 1) } } := by
  unfold State.retireBlock
  split
  next last =>
    have few : v.cel.spare ≤ 1 := by omega
    rw [decide_eq_true few]
    exact ⟨_, rfl⟩
  next more =>
    have many : ¬ v.cel.spare ≤ 1 := by omega
    rw [decide_eq_false many, ← writable]
    exact ⟨v.regs, rfl⟩

theorem exec_nandProgramFail (s : State) (cyc : Nat) (on : (s.tick cyc).dev ≠ .off) : let u := s.tick cyc
    exec (.nandProgramFail cyc) s = if u.dev == .boot || u.cel.readOnly then .next u
      else .next ((u.count F.CEL_NAND_RETIRE_COUNT 1).detectAt Er.cellarBlock 14 8 0 0).retireBlock := by
  have powered := (s.tick cyc).powered_iff.mpr on
  rw [State.tick_dev] at on
  refine (if_neg (by simpa using on)).trans ?_
  dsimp only
  rw [powered, State.retireBlock, apply_ite Host.Outcome.next]
  rfl

/-- An error with no effect but its record, out of BOOT. -/
theorem State.detectAt_logged (v : State) (code die unit index detail : Nat) (quiet : errClass code ≠ 1 ∧ errClass code ≠ 2)
    (past : v.dev ≠ .boot) : ∃ x : ErrRec, x.code = code ∧ x.src = ⟨die, unit, index⟩
      ∧ v.detectAt code die unit index detail = { v with err := { v.err with inFlight := v.err.inFlight ++ [x] } } := by
  refine ⟨⟨code, ⟨die, unit, index⟩, v.clk.beat, v.clk.cyc, (v.charged ⟨code, ⟨die, unit, index⟩, none, detail⟩).getD 0xFFFFFFFF, detail⟩,
    rfl, rfl, ?_⟩
  rw [State.detectAt, v.detect_quiet _ quiet.1 quiet.2, State.sent, v.stamp_past_boot past]

/-- Settles O56: the cut that drained, the report a leader takes, the block that failed. -/
theorem snapshotsComplete : Obligations.SnapshotsComplete := by
  unfold Obligations.SnapshotsComplete
  intro s cyc u on
  obtain ⟨closed, sealed⟩ := exec_snapDone s cyc on
  obtain ⟨rests, leads⟩ := exec_snapDomain s cyc on
  have fails := exec_nandProgramFail s cyc on
  refine ⟨closed, fun c cut left => ?_, fun c cut drained => ?_, rests, fun r leader last => ?_, fun refused => ?_, fun past writable => ?_⟩
  · refine (sealed c cut).trans (if_pos ?_)
    simpa using left
  · have done := (sealed c cut).trans (if_neg (by simpa using drained))
    obtain ⟨regs, host, shape⟩ := (u.withSnap c).sealCut_eq c.measure
    have wf (canonical : tabWf u.regs = true) : tabWf (u.withSnap c).regs = true := fset_wf _ _ _ (fset_wf _ _ _ canonical)
    refine ⟨_, done, ?_⟩
    have reads (canonical : tabWf u.regs = true) := (u.withSnap c).sealCut_last c.measure (wf canonical)
    generalize (u.withSnap c).sealCut c.measure = t at shape reads
    exact ⟨congrArg (·.cel.snaps) shape, rfl, rfl, rfl, rfl, rfl, rfl, congrArg (·.cel.open_) shape, congrArg (·.cel.wear) shape,
      congrArg (·.t1) shape, reads, congrArg (·.dev) shape, congrArg (·.clk) shape, congrArg (·.plan) shape, congrArg (·.t0) shape,
      congrArg (·.fab) shape, congrArg (·.run) shape⟩
  · obtain ⟨facing, reads⟩ := State.emit_set_told { u with cel := { u.cel with reports := [] } } F.CEL_DOMAIN_LAST_MEASURE r.2
      Ev.snapDomain 14 (r.2 % 2 ^ 48) (by decide)
    refine ⟨_, leads r leader last, ?_⟩
    generalize (State.set { u with cel := { u.cel with reports := [] } } F.CEL_DOMAIN_LAST_MEASURE r.2).emit
      Ev.snapDomain 14 (r.2 % 2 ^ 48) = t at facing reads
    rw [State.facing] at facing
    refine ⟨by rw [facing], reads, ?_⟩
    rw [facing]
  · exact fails.trans (if_pos ((Bool.or_eq_true _ _).mpr (refused.imp_left beq_iff_eq.mpr)))
  · have done := fails.trans (if_neg fun refused =>
      ((Bool.or_eq_true _ _).mp refused).elim (past <| beq_iff_eq.mp ·) fun full => absurd (full.symm.trans writable) (by decide))
    obtain ⟨x, code, src, logged⟩ := (u.count F.CEL_NAND_RETIRE_COUNT 1).detectAt_logged Er.cellarBlock 14 8 0 0 (by decide) past
    generalize State.detectAt _ _ _ _ _ _ = v at done logged
    have cel : v.cel = u.cel := congrArg (·.cel) logged
    obtain ⟨regs, retired⟩ := v.retireBlock_eq ((congrArg (·.readOnly) cel).trans writable)
    rw [retired] at done
    refine ⟨_, done, ?_, ⟨x, code, src, ?_⟩, ?_⟩
    · rw [cel]
    · rw [logged]
      rfl
    · rw [logged]
      rfl

end Sys2Proof.Machine
end

section
/-! PROOF. The error handler (R441, R443, R450 to R452; O48). -/
namespace Sys2Proof.Machine

/-! ## What the host hears (the registers from the error block on stay as they read) -/

/-- From `u` to `t` the host was told something: no register from the error block on reads differently, and nothing else changed. -/
def State.Heard (u t : State) : Prop := u.facing t ∧ ∀ g : Field, 0x50000 ≤ g.off → t.get g = u.get g

theorem State.Heard.refl (u : State) : u.Heard u := ⟨u.facing_refl, fun _ _ => rfl⟩

theorem State.Heard.trans {u v w : State} (h : u.Heard v) (k : v.Heard w) : u.Heard w :=
  ⟨State.facing_trans h.1 k.1, fun g past => (k.2 g past).trans (h.2 g past)⟩

theorem State.Heard.foldl {α : Type} (f : State → α → State) (told : ∀ t x, State.Heard t (f t x)) :
    ∀ (l : List α) (u : State), u.Heard (l.foldl f u)
  | [], u => .refl u
  | x :: l, u => (told u x).trans (foldl f told l _)

theorem State.Heard.of_keepsPastLost {u t : State} (facing : u.facing t) (kept : keepsPastLost u.regs t.regs) : u.Heard t :=
  ⟨facing, fun g past => kept.2 g (le_trans (by decide) past)⟩

theorem State.writeEvent_heard (u : State) (e : EvtRec) : u.Heard (u.writeEvent e) :=
  .of_keepsPastLost (u.writeEvent_facing e) (u.writeEvent_regs e)

theorem State.flushEvents_heard (u : State) : u.Heard u.flushEvents :=
  State.Heard.trans (v := { u with host := { u.host with evOpen := max u.clk.beat u.host.evOpen, evHeld := [] } })
    ⟨rfl, fun _ _ => rfl⟩ (State.Heard.foldl _ State.writeEvent_heard _ _)

theorem State.errorEvent_heard (u : State) (l : LogEntry) : u.Heard (u.errorEvent l) := by
  unfold State.errorEvent State.emitStamped
  split
  · exact .refl u
  dsimp only
  split
  · exact u.writeEvent_heard _
  · exact ⟨rfl, fun _ _ => rfl⟩

theorem State.recorded_heard (u : State) (line : Nat) (vec : Option Nat) : u.Heard (u.recorded line vec) := ⟨rfl, fun _ _ => rfl⟩

theorem State.winEarly_heard (u : State) (x : CxlReq) : u.Heard (u.winEarly x) :=
  ⟨rfl, fun g past => u.get_count_apart F.HUB_WIN_EARLY_COUNT g 1 (.inr (le_trans (by decide) past))⟩

/-- What entering HALTED leaves of the rest of the state (R413, R441). -/
def State.stilled (u : State) (cause : Nat) : State :=
  { u with dev := .halted, halt := cause, run := { u.run with stopped := true }, t1 := { u.t1 with cxl := [] } }

theorem State.halted_heard (u : State) (cause : Nat) : (u.stilled cause).Heard (u.halted cause) := by
  have entered := u.enter_eq .halted cause
  have kept := (u.enter_regs .halted cause).2
  have ended := State.Heard.foldl State.winEarly State.winEarly_heard (u.enter .halted cause).t1.cxl
    { u.enter .halted cause with t1 := { (u.enter .halted cause).t1 with cxl := [] } }
  have flush : (u.enter .halted cause).flushWin = _ := if_neg (by rw [entered]; simp [State.ringsOn])
  rw [State.halted, flush]
  generalize u.enter .halted cause = w at entered kept ended
  generalize List.foldl _ _ _ = v at ended
  obtain ⟨facing, reads⟩ := ended
  refine ⟨?_, fun g past => (reads g past).trans (kept g (le_trans (by decide) past))⟩
  rw [State.facing] at facing ⊢
  rw [facing, entered]
  rfl

/-! ## The entry in hand (R450) -/

/-- ERR_STATUS shows whether an entry is in hand, and its class. -/
def State.showHand (u : State) (busy cls : Nat) : State := (u.set F.ERR_STATUS_BUSY busy).set F.ERR_STATUS_CUR cls

theorem State.showHand_reads (u : State) (busy cls : Nat) (wf : tabWf u.regs = true) (fit : wordsFit32 u.regs) :
    (u.showHand busy cls).get F.ERR_STATUS_BUSY = busy % 2 ∧ (u.showHand busy cls).get F.ERR_STATUS_CUR = cls % 4 := by
  have wf' := fset_wf u.regs F.ERR_STATUS_BUSY busy wf
  have fit' := fset_fit u.regs F.ERR_STATUS_BUSY busy wf fit
  exact ⟨(fget_fset_disjoint _ F.ERR_STATUS_CUR F.ERR_STATUS_BUSY cls wf' fit' rfl (by decide)).trans (fget_fset_own u.regs _ _ wf),
    fget_fset_own _ F.ERR_STATUS_CUR cls wf'⟩

/-- The entry taken up is one of those that wait, and none outranks it. -/
theorem topHandling_spec : ∀ (l : List Handling) (h : Handling), topHandling l = some h →
    h ∈ l ∧ ∀ x ∈ l, errClass x.entry.err.code ≤ errClass h.entry.err.code
  | [], _, top => by simp [topHandling] at top
  | x :: l, h, top => by
      rw [topHandling] at top
      split at top
      next none =>
        have : l = [] := by
          cases l with
          | nil => rfl
          | cons y m => rw [topHandling] at none; split at none <;> simp at none
        obtain rfl : x = h := by simpa using top
        simp [this]
      next y some =>
        obtain ⟨mem, highest⟩ := topHandling_spec l y some
        split at top <;> obtain rfl := Option.some.inj top
        · refine ⟨List.mem_cons_of_mem _ mem, fun z => ?_⟩
          rw [List.mem_cons]
          rintro (rfl | z)
          · omega
          · exact highest _ z
        · refine ⟨List.mem_cons_self, fun z => ?_⟩
          rw [List.mem_cons]
          rintro (rfl | z)
          · omega
          · have := highest _ z; omega

theorem topHandling_isSome : ∀ l : List Handling, l ≠ [] → ∃ h, topHandling l = some h
  | [], nonempty => absurd rfl nonempty
  | x :: l, _ => by
      rw [topHandling]
      split <;> exact ⟨_, rfl⟩

/-- Ports down: none is up, and what they held is gone. -/
def Fabric.down (f : Fabric) : Fabric :=
  { f with ports := f.ports.map fun p => { p with up := false, hello := false, out := [], replay := [] } }

/-- Showing ports down writes no register before the port registers. -/
theorem State.foldl_portDown (ld : Nat → Nat) : ∀ (l : List Nat) (v : State), ∃ regs,
    l.foldl (fun t n => t.set ((F.LD_PORT_n_UP.at 4 n).ld (ld n)) 0) v = { v with regs := regs }
      ∧ ∀ g : Field, g.off + 4 * g.words ≤ 0x240100 → fget regs g = v.get g
  | [], v => ⟨v.regs, rfl, fun _ _ => rfl⟩
  | n :: l, v => by
      obtain ⟨regs, eq, kept⟩ := foldl_portDown ld l (v.set ((F.LD_PORT_n_UP.at 4 n).ld (ld n)) 0)
      refine ⟨regs, eq, fun g before => (kept g before).trans ?_⟩
      have place : ((F.LD_PORT_n_UP.at 4 n).ld (ld n)).off = 0x240100 + n * 4 + ld n * 0x10000 := rfl
      exact fget_fset_apart v.regs _ g 0 (.inl (by omega))

/-- Ports that go down change the fabric side and the ports' own registers. -/
theorem State.portsDown_spec (u : State) : ∃ regs, u.portsDown = { u with regs := regs, fab := u.fab.down }
    ∧ ∀ g : Field, g.off + 4 * g.words ≤ 0x240100 → fget regs g = u.get g := by
  obtain ⟨regs, eq, kept⟩ := State.foldl_portDown u.portLd (upTo 18) { u with fab := u.fab.down }
  exact ⟨regs, eq, kept⟩

theorem Fabric.down_ports (f : Fabric) : ∀ p ∈ f.down.ports, p.up = false := by
  intro p mem
  obtain ⟨q, -, rfl⟩ := List.mem_map.mp mem
  rfl

theorem errClass_fatal (code : Nat) : errClass code = 3 ↔ code / 256 = 4 := by unfold errClass; omega

theorem exec_errorHandling (s : State) (cyc : Nat) (on : (s.tick cyc).dev ≠ .off) :
    exec (.errorHandling cyc) s = .next (s.tick cyc).takeUp := by
  rw [State.tick_dev] at on
  exact if_neg (by simpa using on)

theorem exec_errorHandled (s : State) (cyc : Nat) (on : (s.tick cyc).dev ≠ .off) :
    exec (.errorHandled cyc) s = .next (s.tick cyc).handled := by
  rw [State.tick_dev] at on
  exact if_neg (by simpa using on)

theorem State.takeUp_busy (u : State) {h : Handling} (busy : u.err.cur = some h) : u.takeUp = u := by
  rw [State.takeUp, busy]

theorem State.takeUp_none (u : State) (idle : u.err.cur = none) (none : topHandling (u.err.susp ++ u.err.wait) = none) :
    u.takeUp = u := by
  rw [State.takeUp, idle, none]

/-- The state with entry `h` in hand. -/
def State.withHand (u : State) (h : Handling) : State :=
  State.showHand { u with err := { u.err with susp := u.err.susp.erase h, wait := u.err.wait.erase h, cur := some { h with begun := true } } }
    1 (errClass h.entry.err.code)

theorem State.takeUp_top (u : State) {h : Handling} (idle : u.err.cur = none) (top : topHandling (u.err.susp ++ u.err.wait) = some h) :
    u.takeUp = if h.begun then u.withHand h
      else if errClass h.entry.err.code = 3 then (u.withHand h).fatalStop else (u.withHand h).errorEvent h.entry := by
  rw [State.takeUp, idle, top]
  rfl

theorem State.showHand_eq (u : State) (busy cls : Nat) : ∃ regs, u.showHand busy cls = { u with regs := regs } := by
  obtain ⟨r1, first⟩ := u.set_eq F.ERR_STATUS_BUSY busy
  obtain ⟨r2, second⟩ := State.set_eq { u with regs := r1 } F.ERR_STATUS_CUR cls
  exact ⟨r2, by rw [State.showHand, first, second]⟩

theorem State.withHand_eq (u : State) (h : Handling) : ∃ regs, u.withHand h = { u with regs := regs, err := { u.err with
    susp := u.err.susp.erase h, wait := u.err.wait.erase h, cur := some { h with begun := true } } } :=
  State.showHand_eq _ _ _

/-- A handled error of class F stops every Caller and takes the ports down. -/
theorem State.fatalStop_spec (u : State) : ∃ regs, u.fatalStop = { u with regs := regs, run := { u.run with stopped := true }, fab := u.fab.down }
    ∧ ∀ g : Field, g.off + 4 * g.words ≤ 0x240100 → fget regs g = u.get g :=
  State.portsDown_spec { u with run := { u.run with stopped := true } }

/-- What taking up entry `h` does: the class F entry stops the module, any other tells the host. -/
theorem State.takeUp_spec (u : State) {h : Handling} (wf : tabWf u.regs = true) (fit : wordsFit32 u.regs) (idle : u.err.cur = none)
    (top : topHandling (u.err.susp ++ u.err.wait) = some h) : let t := u.takeUp
    t.err = (u.withHand h).err ∧ t.get F.ERR_STATUS_BUSY = 1 ∧ t.get F.ERR_STATUS_CUR = errClass h.entry.err.code % 4
      ∧ (errClass h.entry.err.code = 3 → h.begun = false → t.run = { u.run with stopped := true } ∧ ∀ p ∈ t.fab.ports, p.up = false)
      ∧ (errClass h.entry.err.code ≠ 3 ∨ h.begun = true → t.run = u.run ∧ t.fab = u.fab)
      ∧ t.dev = u.dev ∧ t.t0 = u.t0 ∧ t.t1 = u.t1 ∧ t.clk = u.clk := by
  obtain ⟨busy, cur⟩ := State.showHand_reads { u with err := { u.err with
    susp := u.err.susp.erase h, wait := u.err.wait.erase h, cur := some { h with begun := true } } } 1 (errClass h.entry.err.code) wf fit
  change (u.withHand h).get _ = _ at busy cur
  obtain ⟨regs, hand⟩ := u.withHand_eq h
  rw [u.takeUp_top idle top]
  generalize u.withHand h = v at busy cur hand ⊢
  intro t
  by_cases begun : h.begun = true
  · have same : t = v := if_pos begun
    rw [same]
    refine ⟨rfl, busy, cur, fun _ new => absurd (begun.symm.trans new) (by decide), fun _ => ?_, ?_⟩ <;> rw [hand]
    exacts [⟨rfl, rfl⟩, ⟨rfl, rfl, rfl, rfl⟩]
  by_cases fatal : errClass h.entry.err.code = 3
  · have same : t = v.fatalStop := (if_neg begun).trans (if_pos fatal)
    obtain ⟨r, stop, kept⟩ := v.fatalStop_spec
    rw [same, State.get, State.get, stop]
    refine ⟨rfl, (kept _ (by decide)).trans busy, (kept _ (by decide)).trans cur, fun _ _ => ⟨?_, Fabric.down_ports _⟩,
      fun other => absurd other (by simp [fatal, begun]), ?_⟩ <;> rw [hand]
    exact ⟨rfl, rfl, rfl, rfl⟩
  · have same : t = v.errorEvent h.entry := (if_neg begun).trans (if_neg fatal)
    obtain ⟨facing, reads⟩ := v.errorEvent_heard h.entry
    rw [← same, State.facing, hand] at facing
    rw [← same] at reads
    refine ⟨(congrArg (·.err) facing).trans (congrArg (·.err) hand).symm, (reads _ (by decide)).trans busy, (reads _ (by decide)).trans cur,
      fun f => absurd f fatal, fun _ => ⟨congrArg (·.run) facing, congrArg (·.fab) facing⟩, ?_⟩
    exact ⟨congrArg (·.dev) facing, congrArg (·.t0) facing, congrArg (·.t1) facing, congrArg (·.clk) facing⟩

/-! ## The end of an entry (R441, R451) -/

/-- An entry that has a slot is marked as handled there. -/
def State.markHandled (u : State) (slot : Option Nat) : State :=
  match slot with
  | some k => match u.logSlot k with
    | some l => u.setSlot k { l with handled := true }
    | none => u
  | none => u

theorem State.setSlot_same (u : State) {k : Nat} (l : LogEntry) (inside : k < u.err.log.length) : (u.setSlot k l).logSlot k = some l := by
  simp [State.logSlot, State.setSlot, inside]

theorem State.setSlot_ne (u : State) {k j : Nat} (l : LogEntry) (other : j ≠ k) : (u.setSlot k l).logSlot j = u.logSlot j := by
  simp [State.logSlot, State.setSlot, List.getElem?_set_ne (Ne.symm other)]

theorem State.markHandled_spec (u : State) (slot : Option Nat) : ∃ log, u.markHandled slot = { u with err := { u.err with log := log } }
    ∧ (∀ k l, slot = some k → u.logSlot k = some l → k < u.err.log.length → (u.markHandled slot).logSlot k = some { l with handled := true })
    ∧ ∀ j, slot ≠ some j → (u.markHandled slot).logSlot j = u.logSlot j := by
  cases slot with
  | none => exact ⟨u.err.log, rfl, by simp, fun _ _ => rfl⟩
  | some k =>
    cases found : u.logSlot k with
    | none =>
      have same : u.markHandled (some k) = u := by simp only [State.markHandled, found]
      rw [same]
      exact ⟨u.err.log, rfl, fun j l at_j held => (by cases at_j; simp [found] at held), fun _ _ => rfl⟩
    | some l =>
      have marked : u.markHandled (some k) = u.setSlot k { l with handled := true } := by simp only [State.markHandled, found]
      rw [marked]
      refine ⟨_, rfl, fun j m at_j held inside => ?_, fun j other => u.setSlot_ne _ fun same => other (congrArg some same.symm)⟩
      cases at_j
      obtain rfl : l = m := Option.some.inj (found.symm.trans held)
      exact u.setSlot_same _ inside

/-- The state with no entry in hand, and `h` marked in its slot. -/
def State.letGo (u : State) (h : Handling) : State :=
  (State.showHand { u with err := { u.err with cur := none } } 0 0).markHandled h.slot

/-- What ends an error of class F in a device that is not HALTED: the host is told if its link is up (R441). -/
def State.haltFor (u : State) (l : LogEntry) : State :=
  if u.host.link then ((u.flushEvents.errorEvent l).halted (haltOf l.err.code)).recorded 64 (some 0) else u.haltQuiet (haltOf l.err.code)

theorem State.handled_none (u : State) (idle : u.err.cur = none) : u.handled = u := by
  rw [State.handled, idle]

theorem State.handled_some (u : State) {h : Handling} (cur : u.err.cur = some h) : u.handled =
    if errClass h.entry.err.code = 3 then if (u.letGo h).dev == .halted then u.letGo h else (u.letGo h).haltFor h.entry
    else u.letGo h := by
  rw [State.handled, cur]
  rfl

theorem State.haltFor_spec (u : State) (l : LogEntry) : let t := u.haltFor l
    t.dev = .halted ∧ t.halt = haltOf l.err.code ∧ t.err = u.err ∧ (∀ g : Field, 0x50000 ≤ g.off → t.get g = u.get g)
      ∧ (u.host.link = true → t.run.stopped = true) ∧ (u.host.link = false → t.host = u.host)
      ∧ t.t0 = u.t0 ∧ t.t1 = { u.t1 with cxl := t.t1.cxl } ∧ (u.host.link = true → t.t1.cxl = []) ∧ t.cel = u.cel := by
  intro t
  by_cases link : u.host.link = true
  · have told : t = ((u.flushEvents.errorEvent l).halted (haltOf l.err.code)).recorded 64 (some 0) := if_pos link
    obtain ⟨facing, reads⟩ := u.flushEvents_heard.trans (State.errorEvent_heard _ l)
    rw [told]
    generalize u.flushEvents.errorEvent l = v at facing reads
    obtain ⟨still, kept⟩ := (v.halted_heard (haltOf l.err.code)).trans (State.recorded_heard _ 64 (some 0))
    generalize (v.halted (haltOf l.err.code)).recorded 64 (some 0) = w at still kept
    rw [State.facing] at facing still
    rw [facing] at still
    refine ⟨congrArg (·.dev) still, congrArg (·.halt) still, congrArg (·.err) still, fun g past => (kept g past).trans (reads g past),
      fun _ => congrArg (·.run.stopped) still, fun down => absurd (link.symm.trans down) (by decide), congrArg (·.t0) still, ?_,
      fun _ => congrArg (·.t1.cxl) still, congrArg (·.cel) still⟩
    rw [still]
    rfl
  · have quiet : t = u.haltQuiet (haltOf l.err.code) := if_neg link
    rw [quiet]
    exact ⟨rfl, rfl, rfl, fun _ _ => rfl, fun up => absurd up link, fun _ => rfl, rfl, rfl, fun up => absurd up link, rfl⟩

theorem State.letGo_spec (u : State) (h : Handling) (wf : tabWf u.regs = true) (fit : wordsFit32 u.regs) : let v := u.letGo h
    v.get F.ERR_STATUS_BUSY = 0 ∧ v.get F.ERR_STATUS_CUR = 0
      ∧ (∃ regs log, v = { u with regs := regs, err := { u.err with cur := none, log := log } })
      ∧ (∀ k l, h.slot = some k → u.logSlot k = some l → k < u.err.log.length → v.logSlot k = some { l with handled := true })
      ∧ (∀ j, h.slot ≠ some j → v.logSlot j = u.logSlot j) := by
  obtain ⟨busy, cur⟩ := State.showHand_reads { u with err := { u.err with cur := none } } 0 0 wf fit
  obtain ⟨regs, shown⟩ := State.showHand_eq { u with err := { u.err with cur := none } } 0 0
  unfold State.letGo
  generalize State.showHand _ _ _ = w at busy cur shown ⊢
  obtain ⟨log, marked, here, elsewhere⟩ := w.markHandled_spec h.slot
  have log_eq : w.err.log = u.err.log := congrArg (·.err.log) shown
  have slots : w.logSlot = u.logSlot := by
    funext k
    rw [State.logSlot, log_eq, State.logSlot]
  rw [slots, log_eq] at here
  rw [slots] at elsewhere
  refine ⟨?_, ?_, ⟨regs, log, ?_⟩, here, elsewhere⟩ <;> rw [marked]
  exacts [busy, cur, by rw [shown]]

/-- Settles O48: ERROR_HANDLING by what waits, ERROR_HANDLED by the class of the entry in hand. -/
theorem errorsAreHandled : Obligations.ErrorsAreHandled := by
  unfold Obligations.ErrorsAreHandled
  intro s cyc u on wf fit
  have up := exec_errorHandling s cyc on
  have ends := exec_errorHandled s cyc on
  refine ⟨fun h busy => ?_, fun idle noSusp noWait => ?_, topHandling_isSome _, fun h idle top => ?_, fun idle => ?_, fun h cur => ?_⟩
  · rw [up, State.takeUp_busy _ busy]
  · rw [up, State.takeUp_none _ idle]
    rw [show (s.tick cyc).err.susp = [] from noSusp, show (s.tick cyc).err.wait = [] from noWait]
    rfl
  · obtain ⟨mem, highest⟩ := topHandling_spec _ h top
    obtain ⟨err, busy, hand, fatal, other, frame⟩ := u.takeUp_spec wf fit idle top
    obtain ⟨regs, shape⟩ := u.withHand_eq h
    refine ⟨_, up, mem, highest, err.trans (congrArg (·.err) shape), busy, fun small => hand.trans ?_, fun f => fatal ((errClass_fatal _).mpr f),
      fun o => other (o.imp_left (mt (errClass_fatal _).mp)), frame⟩
    rw [errClass]
    omega
  · rw [ends, State.handled_none _ idle]
  · obtain ⟨busy, hand, ⟨regs, log, shape⟩, here, elsewhere⟩ := u.letGo_spec h wf fit
    have done := ends.trans (congrArg Host.Outcome.next (State.handled_some u cur))
    have dev : (u.letGo h).dev = u.dev := congrArg (·.dev) shape
    generalize u.letGo h = v at done busy hand shape here elsewhere dev
    by_cases quiet : errClass h.entry.err.code ≠ 3 ∨ u.dev = .halted
    · have same : (if errClass h.entry.err.code = 3 then if v.dev == .halted then v else v.haltFor h.entry else v) = v := by
        split
        next fatal => exact if_pos (beq_iff_eq.mpr (dev.trans (quiet.resolve_left fun o => o fatal)))
        · rfl
      refine ⟨v, done.trans (congrArg _ same), congrArg (·.err.cur) shape, busy, hand, here, elsewhere, fun _ => ⟨?_, dev⟩, fun fatal alive => ?_⟩
      · rw [shape]
      · exact absurd ((errClass_fatal _).mpr fatal) (quiet.resolve_right alive)
    · obtain ⟨fatal, alive⟩ : errClass h.entry.err.code = 3 ∧ u.dev ≠ .halted := by simpa using quiet
      have halts : (if errClass h.entry.err.code = 3 then if v.dev == .halted then v else v.haltFor h.entry else v) = v.haltFor h.entry :=
        (if_pos fatal).trans (if_neg fun halted => alive (dev.symm.trans (beq_iff_eq.mp halted)))
      obtain ⟨isHalted, cause, err, reads, stops, host, t0, t1, win, cel⟩ := v.haltFor_spec h.entry
      have slots : (v.haltFor h.entry).logSlot = v.logSlot := by
        funext k
        rw [State.logSlot, err, State.logSlot]
      refine ⟨_, done.trans (congrArg _ halts), (congrArg (·.cur) err).trans (congrArg (·.err.cur) shape), (reads _ (by decide)).trans busy,
        (reads _ (by decide)).trans hand, ?_, ?_, fun o => absurd o ?_, fun _ _ => ⟨isHalted, cause, ?_, ?_, ?_, ?_, ?_, ?_⟩⟩
      · rwa [slots]
      · rwa [slots]
      · exact not_or.mpr ⟨not_not.mpr ((errClass_fatal _).mp fatal), alive⟩
      · exact fun link => stops ((congrArg (·.host.link) shape).trans link)
      · exact fun link => (host ((congrArg (·.host.link) shape).trans link)).trans (congrArg (·.host) shape)
      · exact t0.trans (congrArg (·.t0) shape)
      · rw [t1, show v.t1 = u.t1 from congrArg (·.t1) shape]
      · exact fun link => win ((congrArg (·.host.link) shape).trans link)
      · exact cel.trans (congrArg (·.cel) shape)

end Sys2Proof.Machine
end

section
/-! PROOF. The error log (R448 to R452, R463; O47). -/
namespace Sys2Proof.Machine

/-! ## The order of errors (R452) -/

theorem ErrRec.before_iff (x y : ErrRec) : x.before y = true ↔ x.beat < y.beat ∨ (x.beat = y.beat ∧ (x.cyc < y.cyc ∨ (x.cyc = y.cyc
    ∧ (errClass y.code < errClass x.code ∨ (errClass x.code = errClass y.code ∧ x.src.die < y.src.die))))) := by
  simp [ErrRec.before]

theorem ErrRec.before_asymm {x y : ErrRec} (h : x.before y = true) : y.before x = false := by
  rw [← Bool.not_eq_true, ErrRec.before_iff]
  rw [ErrRec.before_iff] at h
  grind

theorem ErrRec.not_before_trans {x y z : ErrRec} (h : x.before y = false) (k : y.before z = false) : x.before z = false := by
  rw [← Bool.not_eq_true, ErrRec.before_iff] at h k ⊢
  grind

/-- The error taken first is one of those on their way, and none stands before it. -/
theorem firstErr_spec : ∀ (l : List ErrRec) (e : ErrRec), firstErr l = some e → e ∈ l ∧ ∀ x ∈ l, x.before e = false
  | [], _, first => by simp [firstErr] at first
  | x :: l, e, first => by
      have irrefl : x.before x = false := by simp [ErrRec.before]
      rw [firstErr] at first
      split at first
      next none =>
        have nil : l = [] := by
          cases l with
          | nil => rfl
          | cons y m => rw [firstErr] at none; split at none <;> simp at none
        obtain rfl : x = e := Option.some.inj first
        simpa [nil] using irrefl
      next y some =>
        obtain ⟨mem, least⟩ := firstErr_spec l y some
        split at first <;> obtain rfl := Option.some.inj first
        next earlier =>
          refine ⟨List.mem_cons_of_mem _ mem, fun z => ?_⟩
          rw [List.mem_cons]
          rintro (rfl | later)
          · exact ErrRec.before_asymm earlier
          · exact least z later
        next notEarlier =>
          refine ⟨List.mem_cons_self, fun z => ?_⟩
          rw [List.mem_cons]
          rintro (rfl | later)
          · exact irrefl
          · exact ErrRec.not_before_trans (least z later) (by simpa using notEarlier)

/-! ## The counters of an error (R448) -/

/-- An error counts by its class and raises the class ERR_STATUS shows. -/
def State.counted (u : State) (c : Nat) : State :=
  (u.count (errCounter c) 1).set F.ERR_STATUS_MAX (max (u.get F.ERR_STATUS_MAX) c)

theorem errCounter_place (c : Nat) : (errCounter c).lo = 0 ∧ (errCounter c).w = 32 ∧ 0x50010 ≤ (errCounter c).off
    ∧ (errCounter c).off + 4 * (errCounter c).words ≤ 0x50020 := by
  unfold errCounter
  split <;> decide

theorem State.counted_eq (u : State) (c : Nat) : ∃ regs, u.counted c = { u with regs := regs } := by
  obtain ⟨r1, first⟩ : ∃ regs, u.count (errCounter c) 1 = { u with regs := regs } := u.set_eq _ _
  obtain ⟨r2, second⟩ := State.set_eq { u with regs := r1 } F.ERR_STATUS_MAX (max (u.get F.ERR_STATUS_MAX) c)
  exact ⟨r2, by rw [State.counted, first, second]⟩

theorem State.counted_reads (u : State) (c : Nat) (wf : tabWf u.regs = true) (fit : wordsFit32 u.regs) (small : c ≤ 3) :
    tabWf (u.counted c).regs = true ∧ wordsFit32 (u.counted c).regs
      ∧ (u.counted c).get (errCounter c) = min (u.get (errCounter c) + 1) (2 ^ 32 - 1)
      ∧ (u.counted c).get F.ERR_STATUS_MAX = max (u.get F.ERR_STATUS_MAX) c
      ∧ ∀ g : Field, 0x50004 ≤ g.off → g.off + 4 * g.words ≤ 0x50010 → (u.counted c).get g = u.get g := by
  obtain ⟨lo, w, low, high⟩ := errCounter_place c
  have wf1 : tabWf (u.count (errCounter c) 1).regs = true := fset_wf _ _ _ wf
  have fit1 : wordsFit32 (u.count (errCounter c) 1).regs := fset_fit _ _ _ wf fit
  have status : F.ERR_STATUS_MAX.off + 4 * F.ERR_STATUS_MAX.words = 0x50004 := by decide
  have old : u.get F.ERR_STATUS_MAX < 2 ^ 2 := u.get_lt _
  refine ⟨fset_wf _ _ _ wf1, fset_fit _ _ _ wf1 fit1, ?_, ?_, fun g above below => ?_⟩
  · refine (fget_fset_apart _ F.ERR_STATUS_MAX _ _ (.inr (by omega))).trans ?_
    have counts := u.get_count_word (errCounter c) 1 wf (by omega) (by omega)
    rwa [w] at counts
  · exact (fget_fset_own _ F.ERR_STATUS_MAX _ wf1).trans (Nat.mod_eq_of_lt (max_lt old (by show c < 2 ^ 2; omega)))
  · exact (fget_fset_apart _ F.ERR_STATUS_MAX g _ (.inr (by omega))).trans (u.get_count_apart (errCounter c) g 1 (.inl (by omega)))

/-! ## Where an entry goes (R448, R449) -/

theorem State.logSlot_inside {u : State} {k : Nat} {l : LogEntry} (held : u.logSlot k = some l) : k < u.err.log.length := by
  by_contra outside
  rw [State.logSlot, List.getD_eq_default _ _ (by omega)] at held
  simp at held

/-- Two states whose log reads alike. -/
def State.SameLog (u v : State) : Prop := v.err.log = u.err.log ∧ v.logTail = u.logTail ∧ v.logHead = u.logHead

theorem State.SameLog.slots {u v : State} (same : u.SameLog v) : v.logSlot = u.logSlot := by
  funext k
  rw [State.logSlot, same.1, State.logSlot]

theorem State.SameLog.unread {u v : State} (same : u.SameLog v) : v.logUnread = u.logUnread := by
  obtain ⟨-, tail, head⟩ := same
  rw [State.logUnread, tail, head, State.logUnread]

theorem State.SameLog.unreadSlots {u v : State} (same : u.SameLog v) : v.unreadSlots = u.unreadSlots := by
  rw [State.unreadSlots, same.unread, same.2.1, State.unreadSlots]

theorem State.SameLog.coalesce {u v : State} (same : u.SameLog v) (e : ErrRec) : v.coalesce e = u.coalesce e := by
  rw [State.coalesce, same.unreadSlots, same.slots, State.coalesce]

/-- An entry that coalesces has a slot that holds one. -/
theorem State.coalesce_held {u : State} {e : ErrRec} {k : Nat} (joins : u.coalesce e = some k) : ∃ l, u.logSlot k = some l := by
  unfold State.coalesce at joins
  dsimp only at joins
  split at joins
  next j _ =>
    split at joins
    next same =>
      obtain rfl := Option.some.inj joins
      have held := ((Bool.and_eq_true _ _).mp same).1
      obtain ⟨l, at_k, -⟩ := (Option.any_eq_true ..).mp held
      exact ⟨l, at_k⟩
    · simp at joins
  · simp at joins

/-- The oldest unread entry of class C. -/
def State.oldestC (u : State) : Option Nat := u.unreadSlots.reverse.find? fun k => (u.logSlot k).any fun l => errClass l.err.code == 0

/-- The slot a new entry of class `c` is written to. -/
def State.slotFor (u : State) (c : Nat) : Option Nat :=
  if u.logUnread < 256 then some (u.logTail % 256) else if c < 2 then none else u.oldestC

theorem State.SameLog.oldestC {u v : State} (same : u.SameLog v) : v.oldestC = u.oldestC := by
  rw [State.oldestC, same.unreadSlots, same.slots, State.oldestC]

theorem State.SameLog.slotFor {u v : State} (same : u.SameLog v) (c : Nat) : v.slotFor c = u.slotFor c := by
  rw [State.slotFor, same.unread, same.2.1, same.oldestC, State.slotFor]

theorem State.slotFor_inside {u : State} {c k : Nat} (len : u.err.log.length = 256) (goes : u.slotFor c = some k) : k < u.err.log.length := by
  unfold State.slotFor at goes
  split at goes
  · obtain rfl := Option.some.inj goes
    omega
  split at goes
  · simp at goes
  · unfold State.oldestC at goes
    have held := List.find?_some goes
    obtain ⟨l, at_k, -⟩ := (Option.any_eq_true ..).mp held
    exact State.logSlot_inside at_k

/-- The entry in its slot, if it has one. -/
def State.intoSlot (u : State) (slot : Option Nat) (x : LogEntry) : State :=
  match slot with
  | some k => u.setSlot k x
  | none => u

/-- The log after an entry: ERR_LOG_TAIL advances, or with the log full the overflow counts. -/
def State.advanced (u : State) : State :=
  if u.logUnread < 256 then u.set F.ERR_LOG_TAIL_COUNT (cntAdd u.logTail 1)
  else u.set F.ERR_OVERFLOW_COUNT (satAdd 32 (u.get F.ERR_OVERFLOW_COUNT) 1)

theorem State.placeEntry_eq (u : State) (c : Nat) (x : LogEntry) : u.placeEntry c x = (u.advanced.intoSlot (u.slotFor c) x, u.slotFor c) := by
  unfold State.placeEntry State.advanced State.slotFor
  split
  · rfl
  next full =>
    have same : u.SameLog (u.set F.ERR_OVERFLOW_COUNT (satAdd 32 (u.get F.ERR_OVERFLOW_COUNT) 1)) :=
      ⟨rfl, fget_fset_apart _ F.ERR_OVERFLOW_COUNT F.ERR_LOG_TAIL_COUNT _ (.inl (by decide)),
        fget_fset_apart _ F.ERR_OVERFLOW_COUNT F.ERR_LOG_HEAD_COUNT _ (.inl (by decide))⟩
    dsimp only
    split
    · rfl
    · have oldest := same.oldestC
      rw [State.oldestC] at oldest
      rw [oldest]
      split <;> next h => rw [h]; rfl

/-- A field of the error block no word of which is ERR_LOG_TAIL or ERR_OVERFLOW. -/
def besideLog (g : Field) : Prop :=
  g.off + 4 * g.words ≤ 0x50004 ∨ (0x50008 ≤ g.off ∧ g.off + 4 * g.words ≤ 0x5000C) ∨ 0x50010 ≤ g.off

theorem State.advanced_spec (u : State) (wf : tabWf u.regs = true) (fit : wordsFit32 u.regs) : let v := u.advanced
    (∃ regs, v = { u with regs := regs }) ∧ tabWf v.regs = true ∧ wordsFit32 v.regs ∧ (∀ g : Field, besideLog g → v.get g = u.get g)
      ∧ (u.logUnread < 256 → v.logTail = (u.logTail + 1) % 2 ^ 32 ∧ v.get F.ERR_OVERFLOW_COUNT = u.get F.ERR_OVERFLOW_COUNT)
      ∧ (256 ≤ u.logUnread → v.logTail = u.logTail ∧ v.get F.ERR_OVERFLOW_COUNT = min (u.get F.ERR_OVERFLOW_COUNT + 1) (2 ^ 32 - 1)) := by
  have tail : F.ERR_LOG_TAIL_COUNT.off = 0x50004 ∧ F.ERR_LOG_TAIL_COUNT.words = 1 ∧ F.ERR_LOG_TAIL_COUNT.w = 32 := by decide
  have overflow : F.ERR_OVERFLOW_COUNT.off = 0x5000C ∧ F.ERR_OVERFLOW_COUNT.words = 1 ∧ F.ERR_OVERFLOW_COUNT.w = 32 := by decide
  unfold State.advanced
  split
  next room =>
    refine ⟨⟨_, rfl⟩, fset_wf _ _ _ wf, fset_fit _ _ _ wf fit, fun g beside => ?_, fun _ => ⟨?_, ?_⟩, fun full => absurd room (by omega)⟩
    · exact fget_fset_apart _ F.ERR_LOG_TAIL_COUNT g _ (by unfold besideLog at beside; omega)
    · exact (fget_fset_own _ F.ERR_LOG_TAIL_COUNT _ wf).trans (by rw [tail.2.2, cntAdd, Nat.mod_mod])
    · exact fget_fset_apart _ F.ERR_LOG_TAIL_COUNT F.ERR_OVERFLOW_COUNT _ (.inr (by decide))
  next full =>
    refine ⟨⟨_, rfl⟩, fset_wf _ _ _ wf, fset_fit _ _ _ wf fit, fun g beside => ?_, fun room => absurd room full, fun _ => ⟨?_, ?_⟩⟩
    · exact fget_fset_apart _ F.ERR_OVERFLOW_COUNT g _ (by unfold besideLog at beside; omega)
    · exact fget_fset_apart _ F.ERR_OVERFLOW_COUNT F.ERR_LOG_TAIL_COUNT _ (.inl (by decide))
    · exact u.get_count_word F.ERR_OVERFLOW_COUNT 1 wf (by decide) (by decide)

theorem State.intoSlot_spec (u : State) (slot : Option Nat) (x : LogEntry) (inside : ∀ k, slot = some k → k < u.err.log.length) :
    (∃ log, u.intoSlot slot x = { u with err := { u.err with log := log } })
      ∧ (∀ k, slot = some k → (u.intoSlot slot x).logSlot k = some x ∧ ∀ j, j ≠ k → (u.intoSlot slot x).logSlot j = u.logSlot j)
      ∧ (slot = none → ∀ j, (u.intoSlot slot x).logSlot j = u.logSlot j) := by
  cases slot with
  | none => exact ⟨⟨_, rfl⟩, by simp, fun _ _ => rfl⟩
  | some k =>
    refine ⟨⟨_, rfl⟩, fun i at_i => ?_, by simp⟩
    obtain rfl := Option.some.inj at_i
    exact ⟨u.setSlot_same x (inside k rfl), fun j other => u.setSlot_ne x other⟩

/-! ## The handler and the double fault (R450, R452) -/

theorem State.doubleFault_spec (u : State) (wf : tabWf u.regs = true) (fit : wordsFit32 u.regs) : let t := u.doubleFault
    t.dev = .halted ∧ t.halt = 4 ∧ t.run.stopped = true ∧ t.host.link = false ∧ t.get F.ERR_STATUS_DOUBLE = 1
      ∧ (∀ p ∈ t.fab.ports, p.up = false) ∧ t.err = u.err ∧ t.get F.ERR_STATUS_MAX = u.get F.ERR_STATUS_MAX
      ∧ ∀ g : Field, 0x50004 ≤ g.off → g.off + 4 * g.words ≤ 0x240100 → t.get g = u.get g := by
  have status : F.ERR_STATUS_DOUBLE.off + 4 * F.ERR_STATUS_DOUBLE.words = 0x50004 := by decide
  obtain ⟨r1, shown⟩ := State.set_eq (u.haltQuiet 4).stopCallers F.ERR_STATUS_DOUBLE 1
  have double : fget r1 F.ERR_STATUS_DOUBLE = 1 :=
    (congrArg (State.get · F.ERR_STATUS_DOUBLE) shown).symm.trans (fget_fset_own u.regs F.ERR_STATUS_DOUBLE 1 wf)
  have highest : fget r1 F.ERR_STATUS_MAX = u.get F.ERR_STATUS_MAX :=
    (congrArg (State.get · F.ERR_STATUS_MAX) shown).symm.trans
      (fget_fset_disjoint u.regs F.ERR_STATUS_DOUBLE F.ERR_STATUS_MAX 1 wf fit rfl (by decide))
  have past (g : Field) (above : 0x50004 ≤ g.off) : fget r1 g = u.get g :=
    (congrArg (State.get · g) shown).symm.trans (fget_fset_apart u.regs F.ERR_STATUS_DOUBLE g 1 (.inr (by omega)))
  obtain ⟨r2, down, kept⟩ := State.portsDown_spec { (u.haltQuiet 4).stopCallers with regs := r1 }
  have shape : u.doubleFault = State.linkOff { { (u.haltQuiet 4).stopCallers with regs := r1 } with regs := r2, fab := u.fab.down } := by
    rw [State.doubleFault, shown, down]
    rfl
  rw [shape]
  exact ⟨rfl, rfl, rfl, rfl, (kept _ (by decide)).trans double, Fabric.down_ports _, rfl, (kept _ (by decide)).trans highest,
    fun g above below => (kept g below).trans (past g above)⟩

theorem State.toHandler_spec (u : State) (h : Handling) : let t := u.toHandler h
    let nc := errClass h.entry.err.code
    t.err.wait = u.err.wait ++ [h] ∧ t = { u with err := { u.err with wait := t.err.wait, cur := t.err.cur, susp := t.err.susp } }
      ∧ (u.err.cur = none → t.err.cur = none ∧ t.err.susp = u.err.susp)
      ∧ (∀ x, u.err.cur = some x → nc ≤ errClass x.entry.err.code → t.err.cur = some x ∧ t.err.susp = u.err.susp)
      ∧ (∀ x, u.err.cur = some x → errClass x.entry.err.code < nc → t.err.cur = none ∧ t.err.susp = if nc = 3 then [] else x :: u.err.susp) := by
  unfold State.toHandler
  dsimp only
  split
  next none => exact ⟨rfl, rfl, fun _ => ⟨none, rfl⟩, fun x some => absurd (none.symm.trans some) (by simp),
    fun x some => absurd (none.symm.trans some) (by simp)⟩
  next y cur =>
    have own {x : Handling} (some : u.err.cur = some x) : y = x := Option.some.inj (cur.symm.trans some)
    split
    next lower =>
      refine ⟨rfl, rfl, fun none => absurd (none.symm.trans cur) (by simp), fun x some higher => ?_, fun x some _ => ?_⟩ <;> obtain rfl := own some
      · exact absurd lower (by omega)
      · exact ⟨rfl, rfl⟩
    next notLower =>
      refine ⟨rfl, rfl, fun none => absurd (none.symm.trans cur) (by simp), fun x some _ => ?_, fun x some lower => ?_⟩ <;> obtain rfl := own some
      · exact ⟨cur, rfl⟩
      · exact absurd lower notLower

/-! ## Logging an error -/

theorem State.counted_sameLog (u : State) (c : Nat) (wf : tabWf u.regs = true) (fit : wordsFit32 u.regs) (small : c ≤ 3) :
    u.SameLog (u.counted c) := by
  obtain ⟨-, -, -, -, kept⟩ := u.counted_reads c wf fit small
  obtain ⟨regs, shape⟩ := u.counted_eq c
  exact ⟨congrArg (·.err.log) shape, kept F.ERR_LOG_TAIL_COUNT (by decide) (by decide), kept F.ERR_LOG_HEAD_COUNT (by decide) (by decide)⟩

/-- An error that coalesces adds to the count of its entry. -/
theorem State.logError_joins (u : State) {e : ErrRec} {k : Nat} (same : u.SameLog (u.counted (errClass e.code))) (joins : u.coalesce e = some k) :
    ∃ l, u.logSlot k = some l
      ∧ u.logError e = (u.counted (errClass e.code)).setSlot k { l with count := satAdd 16 l.count 1, lastBeat := e.beat } := by
  obtain ⟨l, held⟩ := State.coalesce_held joins
  refine ⟨l, held, ?_⟩
  have joins' : (u.counted (errClass e.code)).coalesce e = some k := (same.coalesce e).trans joins
  have held' : (u.counted (errClass e.code)).logSlot k = some l := (congrFun same.slots k).trans held
  unfold State.logError
  extract_lets cls v entry
  have counted : v = u.counted (errClass e.code) := rfl
  clear_value v
  rw [counted, joins']
  dsimp only
  rw [held']

/-- The state with an entry of its own for error `e`. -/
def State.entered (u : State) (e : ErrRec) : State :=
  (u.counted (errClass e.code)).advanced.intoSlot ((u.counted (errClass e.code)).slotFor (errClass e.code)) ⟨false, e, 1, e.beat⟩

/-- An error that does not coalesce waits for the handler or is a double fault. -/
theorem State.logError_enters (u : State) {e : ErrRec} (same : u.SameLog (u.counted (errClass e.code))) (alone : u.coalesce e = none) :
    u.logError e =
      if errClass e.code = 3 ∧ (u.entered e).err.cur.any (fun c => errClass c.entry.err.code == 3) then (u.entered e).doubleFault
      else (u.entered e).toHandler ⟨u.slotFor (errClass e.code), ⟨false, e, 1, e.beat⟩, false⟩ := by
  have alone' : (u.counted (errClass e.code)).coalesce e = none := (same.coalesce e).trans alone
  rw [← same.slotFor, State.entered]
  unfold State.logError
  extract_lets cls v entry r
  have counted : v = u.counted (errClass e.code) := rfl
  have placed : r = _ := v.placeEntry_eq cls entry
  clear_value r v
  rw [← counted] at alone'
  rw [← counted, alone', placed]

/-- The log of `t` reads as that of `r`, and so do the counters of class `c`. -/
def State.KeepsLog (r t : State) (c : Nat) : Prop := r.SameLog t ∧ t.err.inFlight = r.err.inFlight
  ∧ t.get (errCounter c) = r.get (errCounter c) ∧ t.get F.ERR_STATUS_MAX = r.get F.ERR_STATUS_MAX
  ∧ t.get F.ERR_OVERFLOW_COUNT = r.get F.ERR_OVERFLOW_COUNT

theorem State.doubleFault_keepsLog (r : State) (c : Nat) (wf : tabWf r.regs = true) (fit : wordsFit32 r.regs) : r.KeepsLog r.doubleFault c := by
  obtain ⟨-, -, -, -, -, -, err, highest, kept⟩ := r.doubleFault_spec wf fit
  obtain ⟨-, -, low, high⟩ := errCounter_place c
  exact ⟨⟨congrArg (·.log) err, kept F.ERR_LOG_TAIL_COUNT (by decide) (by decide), kept F.ERR_LOG_HEAD_COUNT (by decide) (by decide)⟩,
    congrArg (·.inFlight) err, kept _ (by omega) (by omega), highest, kept _ (by decide) (by decide)⟩

theorem State.toHandler_keepsLog (r : State) (h : Handling) (c : Nat) : r.KeepsLog (r.toHandler h) c := by
  obtain ⟨-, shape, -⟩ := r.toHandler_spec h
  generalize r.toHandler h = t at shape
  have regs (g : Field) : t.get g = r.get g := congrArg (fget · g) (congrArg (·.regs) shape)
  exact ⟨⟨congrArg (·.err.log) shape, regs _, regs _⟩, congrArg (·.err.inFlight) shape, regs _, regs _, regs _⟩

/-- What a state with an entry of its own for an error shows. -/
theorem State.entered_spec (u : State) (e : ErrRec) (wf : tabWf u.regs = true) (fit : wordsFit32 u.regs) (small : errClass e.code ≤ 3)
    (len : u.err.log.length = 256) : let r := u.entered e
    let c := errClass e.code
    (∃ regs log, r = { u with regs := regs, err := { u.err with log := log } }) ∧ tabWf r.regs = true ∧ wordsFit32 r.regs
      ∧ r.logHead = u.logHead ∧ r.get (errCounter c) = min (u.get (errCounter c) + 1) (2 ^ 32 - 1)
      ∧ r.get F.ERR_STATUS_MAX = max (u.get F.ERR_STATUS_MAX) c
      ∧ (∀ k, u.slotFor c = some k → r.logSlot k = some ⟨false, e, 1, e.beat⟩ ∧ ∀ j, j ≠ k → r.logSlot j = u.logSlot j)
      ∧ (u.slotFor c = none → ∀ j, r.logSlot j = u.logSlot j)
      ∧ (u.logUnread < 256 → r.logTail = (u.logTail + 1) % 2 ^ 32 ∧ r.get F.ERR_OVERFLOW_COUNT = u.get F.ERR_OVERFLOW_COUNT)
      ∧ (256 ≤ u.logUnread → r.logTail = u.logTail ∧ r.get F.ERR_OVERFLOW_COUNT = min (u.get F.ERR_OVERFLOW_COUNT + 1) (2 ^ 32 - 1)) := by
  obtain ⟨-, -, low, high⟩ := errCounter_place (errClass e.code)
  have same := u.counted_sameLog _ wf fit small
  obtain ⟨wf1, fit1, count, highest, kept⟩ := u.counted_reads _ wf fit small
  obtain ⟨r1, counted⟩ := u.counted_eq (errClass e.code)
  rw [State.entered, same.slotFor]
  have inside := fun k (goes : u.slotFor (errClass e.code) = some k) => State.slotFor_inside len goes
  generalize u.counted (errClass e.code) = v at same wf1 fit1 count highest kept counted ⊢
  obtain ⟨⟨r2, shape⟩, wf2, fit2, beside, room, full⟩ := v.advanced_spec wf1 fit1
  rw [same.unread, same.2.1, kept F.ERR_OVERFLOW_COUNT (by decide) (by decide)] at room full
  have overflowOf := kept F.ERR_OVERFLOW_COUNT (by decide) (by decide)
  generalize v.advanced = a at shape wf2 fit2 beside room full ⊢
  have log : a.err.log = u.err.log := (congrArg (·.err.log) shape).trans same.1
  have slots : a.logSlot = u.logSlot := by funext k; rw [State.logSlot, log, State.logSlot]
  obtain ⟨⟨log', placed⟩, into, out⟩ := a.intoSlot_spec (u.slotFor (errClass e.code)) ⟨false, e, 1, e.beat⟩ fun k goes => by rw [log]; exact inside k goes
  rw [slots] at into out
  generalize a.intoSlot _ _ = r at placed into out ⊢
  have regs : r.regs = a.regs := congrArg (·.regs) placed
  have reads (g : Field) : r.get g = a.get g := congrArg (fget · g) regs
  refine ⟨⟨r2, log', ?_⟩, by rwa [regs], by rwa [regs], ?_, ?_, ?_, into, out, fun below => ?_, fun above => ?_⟩
  · rw [placed, shape, counted]
  · exact (reads _).trans ((beside _ (by unfold besideLog; decide)).trans same.2.2)
  · exact (reads _).trans ((beside _ (by unfold besideLog; omega)).trans count)
  · exact (reads _).trans ((beside _ (by unfold besideLog; decide)).trans highest)
  · exact (room below).imp ((reads _).trans ·) ((reads _).trans ·)
  · exact (full above).imp ((reads _).trans ·) ((reads _).trans ·)

theorem exec_errorLogged (s : State) (cyc : Nat) (on : (s.tick cyc).dev ≠ .off) :
    exec (.errorLogged cyc) s = .next (s.tick cyc).logNext := by
  rw [State.tick_dev] at on
  exact if_neg (by simpa using on)

/-- The state with error `e` no longer on its way. -/
def State.without (u : State) (e : ErrRec) : State := { u with err := { u.err with inFlight := u.err.inFlight.erase e } }

theorem State.logNext_some (u : State) {e : ErrRec} (first : firstErr u.err.inFlight = some e) : u.logNext = (u.without e).logError e := by
  rw [State.logNext, first]
  rfl

theorem State.without_sameLog (u : State) (e : ErrRec) : u.SameLog (u.without e) := ⟨rfl, rfl, rfl⟩

/-- What logging leaves of an error that coalesces. -/
theorem State.logError_joined (w : State) (e : ErrRec) (wf : tabWf w.regs = true) (fit : wordsFit32 w.regs) (small : errClass e.code ≤ 3)
    {k : Nat} (joins : w.coalesce e = some k) : let t := w.logError e
    let c := errClass e.code
    t.err.inFlight = w.err.inFlight ∧ t.logHead = w.logHead ∧ t.get (errCounter c) = min (w.get (errCounter c) + 1) (2 ^ 32 - 1)
      ∧ t.get F.ERR_STATUS_MAX = max (w.get F.ERR_STATUS_MAX) c
      ∧ ∃ l, w.logSlot k = some l ∧ t.logSlot k = some { l with count := min (l.count + 1) 65535, lastBeat := e.beat }
        ∧ (∀ j, j ≠ k → t.logSlot j = w.logSlot j) ∧ t.logTail = w.logTail
        ∧ t = { w with regs := t.regs, err := { w.err with inFlight := t.err.inFlight, log := t.err.log } } := by
  have same := w.counted_sameLog _ wf fit small
  obtain ⟨wf1, fit1, count, highest, kept⟩ := w.counted_reads _ wf fit small
  obtain ⟨regs, counted⟩ := w.counted_eq (errClass e.code)
  obtain ⟨l, held, joined⟩ := w.logError_joins same joins
  have inside := State.logSlot_inside held
  rw [joined]
  generalize w.counted (errClass e.code) = v at same count highest counted
  rw [← same.1] at inside
  refine ⟨congrArg (·.err.inFlight) counted, same.2.2, count, highest, l, held, v.setSlot_same _ inside,
    fun j other => (v.setSlot_ne _ other).trans (congrFun same.slots j), same.2.1, ?_⟩
  rw [State.setSlot, counted]

/-- What logging leaves of an error with an entry of its own. -/
theorem State.logError_entered (w : State) (e : ErrRec) (wf : tabWf w.regs = true) (fit : wordsFit32 w.regs) (small : errClass e.code ≤ 3)
    (alone : w.coalesce e = none) : let t := w.logError e
    let r := w.entered e
    let h : Handling := ⟨w.slotFor (errClass e.code), ⟨false, e, 1, e.beat⟩, false⟩
    let double := errClass e.code = 3 ∧ r.err.cur.any (fun c => errClass c.entry.err.code == 3)
    (double → t = r.doubleFault) ∧ (¬ double → t = r.toHandler h) :=
  have entered := w.logError_enters (w.counted_sameLog _ wf fit small) alone
  ⟨fun double => entered.trans (if_pos double), fun single => entered.trans (if_neg single)⟩

/-- Settles O47: an error joins its entry, or takes the slot of `State.slotFor` and waits for the handler, or is the double fault. -/
theorem errorsAreLogged : Obligations.ErrorsAreLogged := by
  unfold Obligations.ErrorsAreLogged
  refine ⟨firstErr_spec, fun s cyc => ?_⟩
  intro u on
  have run := exec_errorLogged s cyc on
  refine ⟨fun none => ?_, fun e first len big pos wf fit => ?_⟩
  · rw [run, State.logNext, show (s.tick cyc).err.inFlight = [] from none]
    rfl
  intro c x oldest slot double
  have small : errClass e.code ≤ 3 := by unfold errClass; omega
  have quiet := u.without_sameLog e
  have coalesce := quiet.coalesce e
  have slotFor : (u.without e).slotFor (errClass e.code) = slot := quiet.slotFor _
  have done := run.trans (congrArg Host.Outcome.next (State.logNext_some u first))
  refine ⟨_, done, ?_⟩
  cases joins : u.coalesce e with
  | some k =>
    obtain ⟨inFlight, head, count, highest, joined⟩ := (u.without e).logError_joined e wf fit small (coalesce.trans joins)
    exact ⟨inFlight, head, count, highest, fun j at_j => by cases at_j; exact joined, by simp⟩
  | none =>
    obtain ⟨⟨regs, log, shape⟩, wf', fit', head, count, highest, into, out, room, full⟩ := (u.without e).entered_spec e wf fit small len
    obtain ⟨twice, once⟩ := (u.without e).logError_entered e wf fit small (coalesce.trans joins)
    rw [slotFor] at into out once
    generalize (u.without e).logError e = t at twice once ⊢
    generalize (u.without e).entered e = r at shape wf' fit' head count highest into out room full twice once
    have cur : r.err.cur = u.err.cur := congrArg (·.err.cur) shape
    have doubles : errClass e.code = 3 ∧ r.err.cur.any (fun c => errClass c.entry.err.code == 3) ↔ double := by
      rw [cur, Option.any_eq_true]
      simp only [beq_iff_eq]
      rfl
    rw [doubles] at twice once
    have kept : r.KeepsLog t (errClass e.code) := by
      by_cases h : double
      · rw [twice h]
        exact r.doubleFault_keepsLog _ wf' fit'
      · rw [once h]
        exact r.toHandler_keepsLog _ _
    obtain ⟨same, inFlight, count', highest', overflow'⟩ := kept
    rw [← same.slots] at into out
    refine ⟨inFlight.trans (congrArg (·.err.inFlight) shape), same.2.2.trans head, count'.trans count, highest'.trans highest, by simp,
      fun _ => ⟨into, out, fun below => ?_, fun above => ?_, fun single => ?_, fun h => ?_⟩⟩
    · exact (room below).imp same.2.1.trans overflow'.trans
    · exact (full above).imp same.2.1.trans overflow'.trans
    · obtain ⟨wait, frame, idle, higher, lower⟩ := r.toHandler_spec ⟨slot, x, false⟩
      rw [← once single] at wait frame idle higher lower
      have err : r.err.wait = u.err.wait ∧ r.err.susp = u.err.susp := ⟨congrArg (·.err.wait) shape, congrArg (·.err.susp) shape⟩
      rw [cur, err.2] at idle higher lower
      refine ⟨wait.trans (congrArg (· ++ [_]) err.1), ?_, idle, higher, lower⟩
      rw [frame, shape]
      rfl
    · obtain ⟨dev, halt, stops, link, flag, ports, -⟩ := r.doubleFault_spec wf' fit'
      rw [← twice h] at dev halt stops link flag ports
      exact ⟨dev, halt, stops, link, flag, ports⟩

end Sys2Proof.Machine
end

section
/-! PROOF. Management over SPDM and PLDM (R477 to R485; O36). -/
namespace Sys2Proof.Machine

/-! ## SPDM (R479 to R483) -/

/-- The answer to a request that comes in its order. -/
def State.answerSpdm (u : State) (req : SpdmReq) : State :=
  let up (t : State) (n : Nat) : State := { t with sec := { t.sec with spdmStage := n } }
  let say (t : State) : State := t.reply (Config.spdmPayload (spdmCode req) t.sec.replies.length)
  match req with
  | .getVersion => say (up { u with sec := { u.sec with sessions := 0 } } 1)
  | .getCapabilities => say (up u (max 2 u.sec.spdmStage))
  | .negotiateAlgorithms => say (up u (max 3 u.sec.spdmStage))
  | .getMeasurements i => if inRange 1 7 i then u.reply (u.sec.meas.getD (i - 1) 0) else u.reply 0x7F
  | .keyExchange => say { u with sec := { u.sec with sessions := u.sec.sessions + 1 } }
  | .endSession => say { u with sec := { u.sec with sessions := u.sec.sessions - 1 } }
  | .challenge => if u.sec.aliasCert then say u else u.reply 0x7F
  | .getDigests | .getCertificate | .finish | .keyUpdate | .heartbeat => say u
  | .other _ => u.reply 0x7F

theorem exec_spdmRequest (s : State) (cyc : Nat) (req : SpdmReq) (on : (s.tick cyc).dev ≠ .off) : let u := s.tick cyc
    exec (.spdmRequest cyc req) s = .next (if u.boot.recovery && u.dev == .boot && decide (2 ≤ spdmStage req) then u
      else if u.sec.spdmStage < spdmStage req then u.reply 0x7F else u.answerSpdm req) := by
  have powered := (s.tick cyc).powered_iff.mpr on
  rw [State.tick_dev] at on
  refine (if_neg (by simpa using on)).trans ?_
  dsimp only
  rw [powered]
  split
  · contradiction
  split
  · rfl
  split
  · rfl
  cases req with
  | getMeasurements i | challenge =>
    dsimp only [State.answerSpdm]
    split <;> rfl
  | _ => rfl

/-- The device is in recovery (R477). -/
def State.recovering (u : State) : Prop := u.boot.recovery = true ∧ u.dev = .boot

theorem State.recovering_iff (u : State) : (u.boot.recovery && u.dev == .boot) = true ↔ u.recovering := by
  simp [State.recovering]

/-- In recovery only version and capabilities are answered. -/
theorem exec_spdmRequest_recovering (s : State) (cyc : Nat) (req : SpdmReq) (on : (s.tick cyc).dev ≠ .off) (rec_ : (s.tick cyc).recovering)
    (late : 2 ≤ spdmStage req) : exec (.spdmRequest cyc req) s = .next (s.tick cyc) := by
  refine (exec_spdmRequest s cyc req on).trans (congrArg Host.Outcome.next (if_pos ?_))
  rw [(State.recovering_iff _).mpr rec_, Bool.true_and, decide_eq_true_eq]
  exact late

/-- Past recovery a request in its order is answered, and one out of it with an error. -/
theorem exec_spdmRequest_answers (s : State) (cyc : Nat) (req : SpdmReq) (on : (s.tick cyc).dev ≠ .off)
    (serves : spdmStage req < 2 ∨ ¬ (s.tick cyc).recovering) : let u := s.tick cyc
    (spdmStage req ≤ u.sec.spdmStage → exec (.spdmRequest cyc req) s = .next (u.answerSpdm req))
      ∧ (u.sec.spdmStage < spdmStage req → exec (.spdmRequest cyc req) s = .next (u.reply 0x7F)) := by
  intro u
  have run := exec_spdmRequest s cyc req on
  dsimp only at run
  rw [if_neg] at run
  · exact ⟨fun order => run.trans (congrArg _ (if_neg (Nat.not_lt.mpr order))), fun early => run.trans (congrArg _ (if_pos early))⟩
  · rintro refused
    obtain ⟨rec_, late⟩ := (Bool.and_eq_true _ _).mp refused
    obtain early | past := serves
    · exact absurd (of_decide_eq_true late) (Nat.not_le.mpr early)
    · exact past ((State.recovering_iff _).mp rec_)

theorem spdmStage_late {req : SpdmReq} (version : req ≠ .getVersion) (capabilities : req ≠ .getCapabilities) : 2 ≤ spdmStage req := by
  cases req <;> simp [spdmStage] at version capabilities ⊢

theorem spdmStage_last {req : SpdmReq} (version : req ≠ .getVersion) (capabilities : req ≠ .getCapabilities)
    (algorithms : req ≠ .negotiateAlgorithms) : spdmStage req = 3 := by
  cases req <;> simp [spdmStage] at version capabilities algorithms ⊢

theorem spdmStage_le (req : SpdmReq) : spdmStage req ≤ 3 := by
  cases req <;> simp [spdmStage]

/-- The requests that are answered and change nothing. -/
theorem State.answerSpdm_plain (u : State) (req : SpdmReq)
    (plain : req ∈ [.getDigests, .getCertificate, .finish, .keyUpdate, .heartbeat] ∨ (req = .challenge ∧ u.sec.aliasCert = true)) :
    ∃ v, u.answerSpdm req = u.reply v := by
  obtain mem | ⟨rfl, cert⟩ := plain
  · simp only [List.mem_cons, List.not_mem_nil, or_false] at mem
    obtain rfl | rfl | rfl | rfl | rfl := mem <;> exact ⟨_, rfl⟩
  · exact ⟨_, if_pos cert⟩

/-! ## PLDM (R484) and firmware updates (R485) -/

theorem exec_pldmRequest_recovering (s : State) (cyc : Nat) (req : PldmReq) (on : (s.tick cyc).dev ≠ .off) (rec_ : (s.tick cyc).recovering) :
    exec (.pldmRequest cyc req) s = .next (s.tick cyc) := by
  rw [State.tick_dev] at on
  refine (if_neg (by simpa using on)).trans (if_pos ?_)
  rw [(State.recovering_iff _).mpr rec_, Bool.or_true]

/-- The value PLDM answers a request with, if it answers one. -/
def State.pldmValue (u : State) : PldmReq → Nat
  | .discovery => Config.spdmPayload 0 u.sec.replies.length
  | .numericSensor id => if id = 8 then u.cel.wear else Config.sensor id u.sec.replies.length
  | .stateSensor => u.hubState
  | .arbCommit => 0

theorem exec_pldmRequest_answers (s : State) (cyc : Nat) (req : PldmReq) (on : (s.tick cyc).dev ≠ .off) (past : ¬ (s.tick cyc).recovering)
    (asks : req ≠ .arbCommit) : exec (.pldmRequest cyc req) s = .next ((s.tick cyc).reply ((s.tick cyc).pldmValue req)) := by
  have powered := (s.tick cyc).powered_iff.mpr on
  rw [State.tick_dev] at on
  refine (if_neg (by simpa using on)).trans ((if_neg ?_).trans ?_)
  · rw [powered, Bool.not_true, Bool.false_or]
    exact mt (State.recovering_iff _).mp past
  · cases req with
    | arbCommit => contradiction
    | _ => rfl

/-- What a part of a firmware transfer does, past the tick. -/
def State.takeFw (u : State) (op : PldmFw) : State :=
  match op, u.sec.fw with
  | .start, _ =>
    let k := 1 - u.get F.HUB_BOOT_CFG_ACTIVE
    let v := u.setFlash k { u.flashSlot k with valid := false }
    { v with sec := { v.sec with fw := some ⟨k, [], false⟩ } }
  | .data b, some x => if x.done then u else { u with sec := { u.sec with fw := some { x with bytes := x.bytes ++ b } } }
  | .done, some x =>
    if x.done then u
    else
      let v := u.setFlash x.slot ⟨x.bytes, true⟩
      let w : State := { v with sec := { v.sec with fw := some { x with done := true } } }
      if w.dev == .boot && w.boot.recovery then { w with boot := { w.boot with recovery := false } }.bootFlash else w
  | .activate, some x => if x.done then { u.set F.HUB_BOOT_CFG_ACTIVE x.slot with sec := { u.sec with fw := none } } else u
  | _, none => u

theorem exec_pldmFirmwareUpdate (s : State) (cyc : Nat) (op : PldmFw) (on : (s.tick cyc).dev ≠ .off) :
    exec (.pldmFirmwareUpdate cyc op) s = .next ((s.tick cyc).takeFw op) := by
  have powered := (s.tick cyc).powered_iff.mpr on
  rw [State.tick_dev] at on
  refine (if_neg (by simpa using on)).trans ?_
  dsimp only
  generalize s.tick cyc = u at powered
  rw [powered]
  unfold State.takeFw
  cases op with
  | start => rfl
  | data | done | activate =>
    simp only [Bool.not_true, Bool.false_eq_true, if_false]
    cases fw : u.sec.fw with
    | none => rfl
    | some x => simp only [apply_ite Host.Outcome.next]

/-- A transfer begins by taking the slot that is not active out of use. -/
theorem State.takeFw_start (u : State) : let k := u.get F.HUB_BOOT_CFG_ACTIVE
    u.takeFw .start = { u with
      flash := if k = 1 then { u.flash with a := { u.flash.a with valid := false } } else { u.flash with b := { u.flash.b with valid := false } }
      sec := { u.sec with fw := some ⟨1 - k, [], false⟩ } } := by
  have bit : u.get F.HUB_BOOT_CFG_ACTIVE < 2 := u.get_lt F.HUB_BOOT_CFG_ACTIVE
  dsimp only [State.takeFw]
  generalize u.get F.HUB_BOOT_CFG_ACTIVE = k at bit
  obtain rfl | rfl : k = 1 ∨ k = 0 := by omega
  · rfl
  · rfl

theorem State.setFlash_eq (u : State) (k : Nat) (f : FlashSlot) :
    u.setFlash k f = { u with flash := if k = 0 then { u.flash with a := f } else { u.flash with b := f } } := by
  unfold State.setFlash
  split <;> rfl

/-- The part that ends a transfer marks the written slot valid; BOOT in recovery tries the slots again (R477, R485). -/
theorem State.takeFw_done (u : State) {x : FwXfer} (fw : u.sec.fw = some x) (going : x.done = false) :
    let w : State := { u with
      flash := if x.slot = 0 then { u.flash with a := ⟨x.bytes, true⟩ } else { u.flash with b := ⟨x.bytes, true⟩ }
      sec := { u.sec with fw := some { x with done := true } } }
    (¬ u.recovering → u.takeFw .done = w)
      ∧ (u.recovering → u.takeFw .done = State.bootFlash { w with boot := { w.boot with recovery := false } }) := by
  intro w
  have ended : u.takeFw .done = if w.dev == .boot && w.boot.recovery then State.bootFlash { w with boot := { w.boot with recovery := false } }
      else w := by
    simp only [State.takeFw, fw, going, u.setFlash_eq]
    rfl
  have asks : (w.dev == .boot && w.boot.recovery) = true ↔ u.recovering := by
    rw [Bool.and_comm]
    exact u.recovering_iff
  exact ⟨fun past => ended.trans (if_neg (mt asks.mp past)), fun rec_ => ended.trans (if_pos (asks.mpr rec_))⟩

theorem State.takeFw_idle (u : State) (idle : ∀ x, u.sec.fw = some x → x.done = true) (b : Bytes) :
    u.takeFw (.data b) = u ∧ u.takeFw .done = u := by
  unfold State.takeFw
  cases fw : u.sec.fw with
  | none => exact ⟨rfl, rfl⟩
  | some x => exact ⟨if_pos (idle x fw), if_pos (idle x fw)⟩

theorem State.takeFw_data (u : State) {x : FwXfer} (fw : u.sec.fw = some x) (going : x.done = false) (b : Bytes) :
    u.takeFw (.data b) = { u with sec := { u.sec with fw := some { x with bytes := x.bytes ++ b } } } := by
  simp only [State.takeFw, fw, going]
  rfl

/-- Activation names the slot of a transfer that has ended, and does nothing before. -/
theorem State.takeFw_activate (u : State) {x : FwXfer} (fw : u.sec.fw = some x) : u.takeFw .activate =
    if x.done then { u.set F.HUB_BOOT_CFG_ACTIVE x.slot with sec := { u.sec with fw := none } } else u := by
  simp only [State.takeFw, fw]

theorem State.takeFw_activate_none (u : State) (closed : u.sec.fw = none) : u.takeFw .activate = u := by
  simp only [State.takeFw, closed]

/-- Settles O36: SPDM by the order of requests, PLDM by the request, a transfer by what is open of it. -/
theorem management : Obligations.Management := by
  unfold Obligations.Management
  refine ⟨fun s cyc req => ?_, fun s cyc b => ?_⟩
  · intro u recovery say on
    have answers := fun r serves => exec_spdmRequest_answers s cyc r on serves
    refine ⟨?_, fun rec_ version capabilities => ?_, fun order => ?_, fun early => ?_, fun past => ⟨fun order => ?_, fun early => ?_, ?_, ?_⟩⟩
    · exact ⟨_, (answers .getVersion (.inl (by decide))).1 (Nat.zero_le _)⟩
    · exact exec_spdmRequest_recovering s cyc req on rec_ (spdmStage_late version capabilities)
    · exact ⟨_, (answers .getCapabilities (.inl (by decide))).1 order⟩
    · exact (answers .getCapabilities (.inl (by decide))).2 early
    · exact ⟨_, (answers .negotiateAlgorithms (.inr past)).1 order⟩
    · exact (answers .negotiateAlgorithms (.inr past)).2 early
    · intro early version capabilities algorithms
      exact (answers req (.inr past)).2 (by rw [spdmStage_last version capabilities algorithms]; exact early)
    · intro order
      have inOrder (r : SpdmReq) : exec (.spdmRequest cyc r) s = .next (u.answerSpdm r) :=
        (answers r (.inr past)).1 (le_trans (spdmStage_le r) order)
      refine ⟨fun i => (inOrder _).trans ?_, ⟨_, inOrder _⟩, ⟨_, inOrder _⟩, fun denied => (inOrder _).trans ?_, fun c => inOrder _,
        fun plain => ?_⟩
      · by_cases known : 1 ≤ i ∧ i ≤ 7
        · rw [if_pos known]
          exact congrArg _ (if_pos (by simp [inRange, known]))
        · rw [if_neg known]
          exact congrArg _ (if_neg (by simpa [inRange] using known))
      · exact congrArg _ (if_neg (by simp [denied]))
      · obtain ⟨v, plainly⟩ := u.answerSpdm_plain req plain
        exact ⟨v, (inOrder req).trans (congrArg _ plainly)⟩
  · intro u recovery say k on
    have takes := fun op => exec_pldmFirmwareUpdate s cyc op on
    refine ⟨fun rec_ r => exec_pldmRequest_recovering s cyc r on rec_, fun past => ?_, ?_, fun x fw going => ?_, fun x fw ended => ?_,
      fun idle => ?_, fun none => ?_⟩
    · have answers := fun r asks => exec_pldmRequest_answers s cyc r on past asks
      exact ⟨answers .stateSensor (by simp), answers (.numericSensor 8) (by simp), ⟨_, answers .discovery (by simp)⟩,
        fun id => ⟨_, answers (.numericSensor id) (by simp)⟩⟩
    · exact (takes .start).trans (congrArg _ u.takeFw_start)
    · intro w
      obtain ⟨out, within⟩ := u.takeFw_done fw going
      exact ⟨(takes _).trans (congrArg _ (u.takeFw_data fw going b)),
        (takes _).trans (congrArg _ ((u.takeFw_activate fw).trans (if_neg (by simp [going])))),
        fun past => (takes _).trans (congrArg _ (out past)), fun rec_ => (takes _).trans (congrArg _ (within rec_))⟩
    · exact (takes _).trans (congrArg _ ((u.takeFw_activate fw).trans (if_pos ended)))
    · exact (u.takeFw_idle idle b).imp (fun h => (takes _).trans (congrArg _ h)) fun h => (takes _).trans (congrArg _ h)
    · exact (takes _).trans (congrArg _ (u.takeFw_activate_none none))

end Sys2Proof.Machine
end

section
/-! PROOF. What a reset leaves and what BOOT does (R465 to R477, R515; O6, O7). -/
namespace Sys2Proof.Machine

/-! ## The register file a reset leaves (Table 17.3) -/

theorem tGet_filter (p : Nat → Bool) (j : Nat) : ∀ t : Tab, tGet (t.filter fun e => p e.1) j = if p j then tGet t j else 0
  | [] => by simp [tGet, sGet]
  | (k, v) :: t => by
      have tail := tGet_filter p j t
      simp only [tGet] at tail ⊢
      by_cases here : j = k
      · subst here
        by_cases kept : p j <;> simp [sGet, kept, tail]
      · by_cases kept : p k <;> simp [sGet, kept, here, tail]

/-- Words put back one by one leave every other word. -/
theorem tGet_restored_ne (j : Nat) : ∀ (l t : Tab), (∀ e ∈ l, j ≠ e.1) → tGet (l.foldl (fun t e => tSet t e.1 e.2) t) j = tGet t j
  | [], _, _ => rfl
  | x :: l, t, other => by
      rw [List.foldl_cons, tGet_restored_ne j l _ fun e mem => other e (List.mem_cons_of_mem _ mem)]
      exact tGet_tSet_ne t x.1 j x.2 (other x List.mem_cons_self)

/-- Words of a canonical table put back where nothing stood read as they did there. -/
theorem tGet_restored (j : Nat) : ∀ (l t : Tab) (lo : Nat), sWfFrom 0 lo l = true → tabWf t = true → tGet t j = 0 →
    tGet (l.foldl (fun t e => tSet t e.1 e.2) t) j = tGet l j
  | [], _, _, _, _, empty => empty
  | (k, v) :: l, t, lo, canonical, wf, empty => by
      simp only [sWfFrom, Bool.and_eq_true] at canonical
      rw [List.foldl_cons]
      by_cases here : j = k
      · subst here
        rw [tGet_restored_ne j l _ fun e mem => by have := (State.sWfFrom_mem canonical.2 e mem).1; omega, tGet_tSet t wf]
        simp [tGet, sGet]
      · rw [tGet_restored j l _ _ canonical.2 (tSet_wf t k v wf) ((tGet_tSet_ne t k j v here).trans empty)]
        simp [tGet, sGet, here]

/-- The words a reset starts from: those of the straps and fuses it does not keep. -/
def State.resetBase (s : State) (straps : Nat) : Tab :=
  tabOf (resetWords straps s.fuses.sku s.fuses.stepping s.fuses.arb (s.fuses.revoked + (if s.fuses.dbgDis then 16 else 0)))

/-- The words after a reset before the reset registers themselves are written. -/
def State.keptOver (s : State) (k : ResetKind) (straps : Nat) : Tab :=
  (s.regs.filter fun e => keptWord k e.1).foldl (fun t e => tSet t e.1 e.2)
    (if k == .power then s.resetBase straps else (s.resetBase straps).filter fun e => !(keptWord k e.1))

theorem State.keptOver_wf (s : State) (k : ResetKind) (straps : Nat) : tabWf (s.keptOver k straps) = true := by
  have base : tabWf (s.resetBase straps) = true := tabOf_wf _ (resetWords_sorted ..)
  refine foldl_tSet_wf Prod.fst Prod.snd _ ?_
  split
  · exact base
  · exact tab_filter_wf _ _ base

/-- A word no reset of kind `k` keeps has its reset value. -/
theorem State.keptOver_fresh (s : State) (k : ResetKind) (straps : Nat) {j : Nat} (fresh : keptWord k j = false) :
    tGet (s.keptOver k straps) j = tGet (s.resetBase straps) j := by
  refine (tGet_restored_ne j _ _ fun e mem same => ?_).trans ?_
  · have kept := (List.mem_filter.mp mem).2
    rw [← same, fresh] at kept
    contradiction
  · split
    · rfl
    · rw [tGet_filter (fun j => !keptWord k j), fresh]
      rfl

/-- A word a reset of kind `k` keeps reads as before. -/
theorem State.keptOver_kept (s : State) (k : ResetKind) (straps : Nat) {j : Nat} (wf : tabWf s.regs = true) (kept : keptWord k j = true) :
    tGet (s.keptOver k straps) j = tGet s.regs j := by
  have notPower : ¬ (k == .power) = true := by
    rintro power
    rw [beq_iff_eq.mp power] at kept
    exact absurd kept (by simp [keptWord])
  have base : tabWf (s.resetBase straps) = true := tabOf_wf _ (resetWords_sorted ..)
  rw [State.keptOver, if_neg notPower]
  refine (tGet_restored j _ _ 0 (tab_filter_wf _ _ wf) (tab_filter_wf _ _ base) ?_).trans ?_
  · rw [tGet_filter (fun j => !keptWord k j), kept]
    rfl
  · rw [tGet_filter (keptWord k), kept]
    rfl

/-- The reset registers over the words kept: LAST_RESET always, what ERR_STATUS keeps but after power-on, the debug state when warm. -/
theorem State.regsAfter_cases (s : State) (k : ResetKind) (straps : Nat) : ∃ double highest level fails t2 t3 t4,
    t2 = fset (s.keptOver k straps) F.HUB_BOOT_STATUS_LAST_RESET (resetKindCode k)
      ∧ t3 = fset (fset t2 F.ERR_STATUS_DOUBLE double) F.ERR_STATUS_MAX highest
      ∧ t4 = fset (fset t3 F.SEC_DBG_CTL_LEVEL level) F.SEC_DBG_CTL_FAILS fails
      ∧ (s.regsAfter k straps = t2 ∨ (k ≠ .power ∧ (s.regsAfter k straps = t3 ∨ s.regsAfter k straps = t4))) := by
  refine ⟨s.get F.ERR_STATUS_DOUBLE, s.get F.ERR_STATUS_MAX, s.get F.SEC_DBG_CTL_LEVEL, s.get F.SEC_DBG_CTL_FAILS, _, _, _, rfl, rfl, rfl, ?_⟩
  unfold State.regsAfter
  cases k with
  | power => exact .inl rfl
  | cold => exact .inr ⟨by simp, .inl rfl⟩
  | warm | fabric => exact .inr ⟨by simp, .inr rfl⟩

/-- A write of a field in one word leaves the other words. -/
theorem tGet_fset_ne (t : Tab) (f : Field) (v : Nat) {j : Nat} (word : f.words = 1) (other : j ≠ f.off) : tGet (fset t f v) j = tGet t j :=
  fset_other t f v j fun i inside => by rw [word] at inside; omega

theorem State.regsAfter_wf (s : State) (k : ResetKind) (straps : Nat) : tabWf (s.regsAfter k straps) = true := by
  obtain ⟨double, highest, level, fails, t2, t3, t4, e2, e3, e4, shape⟩ := s.regsAfter_cases k straps
  have wf2 : tabWf t2 = true := e2 ▸ fset_wf _ _ _ (s.keptOver_wf k straps)
  have wf3 : tabWf t3 = true := e3 ▸ fset_wf _ _ _ (fset_wf _ _ _ wf2)
  have wf4 : tabWf t4 = true := e4 ▸ fset_wf _ _ _ (fset_wf _ _ _ wf3)
  obtain shape | ⟨-, shape | shape⟩ := shape <;> rw [shape]
  exacts [wf2, wf3, wf4]

/-- Past HUB_BOOT_STATUS, ERR_STATUS and SEC_DBG_CTL the words are those kept over the reset's; after power-on, past the first. -/
theorem State.regsAfter_other (s : State) (k : ResetKind) (straps : Nat) {j : Nat} (status : j ≠ 0xC) (error : k ≠ .power → j ≠ 0x50000)
    (debug : k ≠ .power → j ≠ 0x40008) : tGet (s.regsAfter k straps) j = tGet (s.keptOver k straps) j := by
  obtain ⟨double, highest, level, fails, t2, t3, t4, e2, e3, e4, shape⟩ := s.regsAfter_cases k straps
  have after2 : tGet t2 j = tGet (s.keptOver k straps) j := by
    rw [e2, tGet_fset_ne _ F.HUB_BOOT_STATUS_LAST_RESET _ (by decide) status]
  have after3 (kept : k ≠ .power) : tGet t3 j = tGet t2 j := by
    rw [e3, tGet_fset_ne _ F.ERR_STATUS_MAX _ (by decide) (error kept), tGet_fset_ne _ F.ERR_STATUS_DOUBLE _ (by decide) (error kept)]
  have after4 (kept : k ≠ .power) : tGet t4 j = tGet t3 j := by
    rw [e4, tGet_fset_ne _ F.SEC_DBG_CTL_FAILS _ (by decide) (debug kept), tGet_fset_ne _ F.SEC_DBG_CTL_LEVEL _ (by decide) (debug kept)]
  obtain shape | ⟨kept, shape | shape⟩ := shape <;> rw [shape]
  · exact after2
  · rw [after3 kept, after2]
  · rw [after4 kept, after3 kept, after2]

/-- LAST_RESET shows the reset's kind. -/
theorem State.regsAfter_lastReset (s : State) (k : ResetKind) (straps : Nat) :
    fget (s.regsAfter k straps) F.HUB_BOOT_STATUS_LAST_RESET = resetKindCode k := by
  obtain ⟨double, highest, level, fails, t2, t3, t4, e2, e3, e4, shape⟩ := s.regsAfter_cases k straps
  have after2 : fget t2 F.HUB_BOOT_STATUS_LAST_RESET = resetKindCode k := by
    rw [e2, fget_fset_own _ F.HUB_BOOT_STATUS_LAST_RESET _ (s.keptOver_wf k straps)]
    cases k <;> decide
  have after3 : fget t3 F.HUB_BOOT_STATUS_LAST_RESET = fget t2 F.HUB_BOOT_STATUS_LAST_RESET := by
    rw [e3, fget_fset_apart _ F.ERR_STATUS_MAX _ _ (.inl (by decide)), fget_fset_apart _ F.ERR_STATUS_DOUBLE _ _ (.inl (by decide))]
  have after4 : fget t4 F.HUB_BOOT_STATUS_LAST_RESET = fget t3 F.HUB_BOOT_STATUS_LAST_RESET := by
    rw [e4, fget_fset_apart _ F.SEC_DBG_CTL_FAILS _ _ (.inl (by decide)), fget_fset_apart _ F.SEC_DBG_CTL_LEVEL _ _ (.inl (by decide))]
  obtain shape | ⟨-, shape | shape⟩ := shape <;> rw [shape]
  · exact after2
  · rw [after3, after2]
  · rw [after4, after3, after2]

end Sys2Proof.Machine
end

section
/-! PROOF. The steps of BOOT (R471 to R477; O6, O7). -/
namespace Sys2Proof.Machine

/-! ## What a step of BOOT may write -/

/-- A word BOOT writes after a reset of kind `k`: HUB_BOOT_STATUS, the nonce, the spare maps, and the refresh cost where LPDDR5X is trained. -/
def bootWord (k : ResetKind) (j : Nat) : Prop :=
  j = 0xC ∨ (0x40010 ≤ j ∧ j < 0x40020) ∨ (∃ n, n < 4 ∧ j = 0x100020 + n * 0x10000)
    ∨ ((k = .power ∨ k = .cold) ∧ ∃ n, n < 8 ∧ j = 0x180010 + n * 0x10000)

/-- A part of BOOT that ended well took `u` to `t`: it touched the boot state, the words of BOOT and the measurements alone. -/
structure State.Boots (u t : State) : Prop where
  frame : t = { u with boot := t.boot, regs := t.regs, sec := t.sec }
  words : ∀ j, ¬ bootWord u.boot.kind j → tGet t.regs j = tGet u.regs j
  wf : tabWf u.regs = true → tabWf t.regs = true
  last : tabWf u.regs = true → t.get F.HUB_BOOT_STATUS_LAST_RESET = u.get F.HUB_BOOT_STATUS_LAST_RESET
  kind : t.boot.kind = u.boot.kind
  held : t.boot.startHeld = u.boot.startHeld
  started : t.boot.started = u.boot.started
  test : t.boot.test = u.boot.test
  trained : u.boot.trained = true → t.boot.trained = true
  fw : t.sec.fw = u.sec.fw
  stage : t.sec.spdmStage = u.sec.spdmStage
  sessions : t.sec.sessions = u.sec.sessions

theorem State.Boots.refl (u : State) : u.Boots u :=
  ⟨rfl, fun _ _ => rfl, id, fun _ => rfl, rfl, rfl, rfl, rfl, id, rfl, rfl, rfl⟩

theorem State.Boots.trans {u v w : State} (h : u.Boots v) (k : v.Boots w) : u.Boots w where
  frame := by rw [k.frame, h.frame]
  words := fun j out => (k.words j (h.kind ▸ out)).trans (h.words j out)
  wf := k.wf ∘ h.wf
  last := fun wf => (k.last (h.wf wf)).trans (h.last wf)
  kind := k.kind.trans h.kind
  held := k.held.trans h.held
  started := k.started.trans h.started
  test := k.test.trans h.test
  trained := k.trained ∘ h.trained
  fw := k.fw.trans h.fw
  stage := k.stage.trans h.stage
  sessions := k.sessions.trans h.sessions

theorem State.Boots.foldl {α : Type} (f : State → α → State) : ∀ (l : List α) (u : State), (∀ t : State, ∀ x ∈ l, t.boot.kind = u.boot.kind → t.Boots (f t x)) →
    u.Boots (l.foldl f u)
  | [], u, _ => .refl u
  | x :: l, u, each =>
      have first := each u x List.mem_cons_self rfl
      first.trans (foldl f l _ fun t y mem kind => each t y (List.mem_cons_of_mem _ mem) (kind.trans first.kind))

/-- A write of a field whose words BOOT may write, and that is not LAST_RESET. -/
theorem State.Boots.set (u : State) (f : Field) (v : Nat) (own : ∀ i, i < f.words → bootWord u.boot.kind (f.off + 4 * i))
    (last : tabWf u.regs = true → fget (fset u.regs f v) F.HUB_BOOT_STATUS_LAST_RESET = u.get F.HUB_BOOT_STATUS_LAST_RESET) :
    u.Boots (u.set f v) :=
  ⟨rfl, fun j out => fset_other u.regs f v j fun i inside same => out (same ▸ own i inside), fset_wf _ _ _, last, rfl, rfl, rfl, rfl, id, rfl, rfl, rfl⟩

/-- A field of one word past HUB_BOOT_STATUS. -/
theorem State.Boots.setWord (u : State) (f : Field) (v : Nat) (word : f.words = 1) (own : bootWord u.boot.kind f.off) (past : 0x10 ≤ f.off) :
    u.Boots (u.set f v) :=
  .set u f v (fun i inside => by
      obtain rfl : i = 0 := by omega
      exact own) fun _ => fget_fset_apart u.regs f F.HUB_BOOT_STATUS_LAST_RESET v (.inl (le_trans (by decide) past))

/-- A field of HUB_BOOT_STATUS below LAST_RESET. -/
theorem State.Boots.setStatus (u : State) (f : Field) (v : Nat) (here : f.off = 0xC) (pos : 0 < f.w) (below : f.lo + f.w ≤ 5) :
    u.Boots (u.set f v) := by
  have word : f.words = 1 := by unfold Field.words; omega
  refine .set u f v (fun i inside => ?_) fun wf => ?_
  · obtain rfl : i = 0 := by omega
    exact .inl here
  · exact fget_fset_beside u.regs f F.HUB_BOOT_STATUS_LAST_RESET v wf here.symm pos (by omega) (by decide) (by decide) (.inr below)

theorem State.Boots.setMeas (u : State) (i v : Nat) : u.Boots (u.setMeas i v) :=
  ⟨rfl, fun _ _ => rfl, id, fun _ => rfl, rfl, rfl, rfl, rfl, id, rfl, rfl, rfl⟩

theorem State.Boots.deriveAlias (u : State) : u.Boots u.deriveAlias :=
  ⟨rfl, fun _ _ => rfl, id, fun _ => rfl, rfl, rfl, rfl, rfl, id, rfl, rfl, rfl⟩

/-- Draws of the key unit alone. -/
theorem State.Boots.drew (u : State) (n : Nat) : u.Boots { u with sec := { u.sec with draws := n } } :=
  ⟨rfl, fun _ _ => rfl, id, fun _ => rfl, rfl, rfl, rfl, rfl, id, rfl, rfl, rfl⟩

theorem State.Boots.drawNonce (u : State) : u.Boots u.drawNonce := by
  refine (State.Boots.drew u (u.sec.draws + 1)).trans (.set _ F.SEC_DBG_NONCE_VALUE _ (fun i inside => ?_) fun _ => ?_)
  · have words : F.SEC_DBG_NONCE_VALUE.words = 4 := by decide
    have off : F.SEC_DBG_NONCE_VALUE.off = 0x40010 := rfl
    exact .inr (.inl ⟨by omega, by omega⟩)
  · exact fget_fset_apart u.regs F.SEC_DBG_NONCE_VALUE F.HUB_BOOT_STATUS_LAST_RESET _ (.inl (by decide))

/-- The boot state itself, but for what a reset set it up with. -/
theorem State.Boots.withBoot (u : State) (b : Boot) (kind : b.kind = u.boot.kind) (held : b.startHeld = u.boot.startHeld)
    (started : b.started = u.boot.started) (test : b.test = u.boot.test) (trained : u.boot.trained = true → b.trained = true) :
    u.Boots { u with boot := b } :=
  ⟨rfl, fun _ _ => rfl, id, fun _ => rfl, kind, held, started, test, trained, rfl, rfl, rfl⟩

theorem State.nCd_le (u : State) : u.nCd ≤ 4 := by unfold State.nCd; split <;> omega
theorem State.nMu_le (u : State) : u.nMu ≤ 8 := by unfold State.nMu; split <;> omega

/-- Spares are mapped on the compute dies there are (R111). -/
def State.mapSpares (u : State) : State :=
  (upTo u.nCd).foldl (fun t k => (t.set (F.CD_SPARE_MAP_ROWS.cd k) (t.fuses.spareRows.getD k 0)).set
    (F.CD_SPARE_MAP_COLS.cd k) (t.fuses.spareCols.getD k 0)) u

theorem State.Boots.mapSpares (u : State) : u.Boots u.mapSpares := by
  refine .foldl _ _ _ fun t k mem _ => ?_
  have die : k < 4 := lt_of_lt_of_le (List.mem_range.mp mem) u.nCd_le
  have own (kind) : bootWord kind (0x100020 + k * 0x10000) := .inr (.inr (.inl ⟨k, die, rfl⟩))
  have past : 0x10 ≤ 0x100020 + k * 0x10000 := by omega
  exact (State.Boots.setWord t (F.CD_SPARE_MAP_ROWS.cd k) _ (show F.CD_SPARE_MAP_ROWS.words = 1 by decide) (own _) past).trans
    (State.Boots.setWord _ (F.CD_SPARE_MAP_COLS.cd k) _ (show F.CD_SPARE_MAP_COLS.words = 1 by decide) (own _) past)

/-- A trained LPDDR5X has its refresh cost measured; a restored one keeps it (R271). -/
def State.trainMemory (u : State) : State :=
  if u.boot.kind == .warm || u.boot.kind == .fabric then u else
    (upTo u.nMu).foldl (fun t k => ((t.set (F.MU_REF_COST_X1.mu k) u.boot.test.cost.1).set (F.MU_REF_COST_X2.mu k) u.boot.test.cost.2.1).set
      (F.MU_REF_COST_X4.mu k) u.boot.test.cost.2.2) u

theorem State.Boots.trainMemory (u : State) : u.Boots u.trainMemory := by
  unfold State.trainMemory
  split
  · exact .refl u
  next trains =>
    have kind : u.boot.kind = .power ∨ u.boot.kind = .cold := by
      cases h : u.boot.kind <;> simp [h] at trains ⊢
    refine .foldl _ _ _ fun t k mem same => ?_
    have die : k < 8 := lt_of_lt_of_le (List.mem_range.mp mem) u.nMu_le
    have own : bootWord t.boot.kind (0x180010 + k * 0x10000) := .inr (.inr (.inr ⟨same ▸ kind, k, die, rfl⟩))
    have past : 0x10 ≤ 0x180010 + k * 0x10000 := by omega
    exact ((State.Boots.setWord t (F.MU_REF_COST_X1.mu k) _ (show F.MU_REF_COST_X1.words = 1 by decide) own past).trans
      (State.Boots.setWord _ (F.MU_REF_COST_X2.mu k) _ (show F.MU_REF_COST_X2.words = 1 by decide) own past)).trans
      (State.Boots.setWord _ (F.MU_REF_COST_X4.mu k) _ (show F.MU_REF_COST_X4.words = 1 by decide) own past)

/-- Steps 2 to 6 up to the self-test's result. -/
def State.released (u : State) (b : Bytes) : State :=
  let v : State := { u with boot := { u.boot with svn := imgSvn b, waitHost := false, recovery := false, trained := true } }
  ((v.setMeas 2 (measure512 (Config.hdSection b))).setMeas 3 (measure512 (Config.dieSections b))).deriveAlias.mapSpares.trainMemory

theorem State.Boots.released (u : State) (b : Bytes) : u.Boots (u.released b) :=
  (State.Boots.withBoot u { u.boot with svn := imgSvn b, waitHost := false, recovery := false, trained := true } rfl rfl rfl rfl fun _ => rfl).trans <|
    (State.Boots.setMeas _ 2 _).trans <| (State.Boots.setMeas _ 3 _).trans <| (State.Boots.deriveAlias _).trans <|
    (State.Boots.mapSpares _).trans (State.Boots.trainMemory _)

/-! ## How BOOT ends -/

/-- From `u` to `t` registers alone were written. -/
def State.Wrote (u t : State) : Prop := t = { u with regs := t.regs }

theorem State.Wrote.trans {u v w : State} (h : u.Wrote v) (k : v.Wrote w) : u.Wrote w := by
  rw [State.Wrote] at *
  rw [k, h]

theorem State.Wrote.foldl {α : Type} (f : State → α → State) (each : ∀ t x, State.Wrote t (f t x)) : ∀ (l : List α) (u : State), u.Wrote (l.foldl f u)
  | [], _ => rfl
  | x :: l, u => (each u x).trans (foldl f each l _)

theorem State.mapSpares_wrote (u : State) : u.Wrote u.mapSpares := by
  refine .foldl _ (fun t k => ?_) _ _
  rfl

theorem State.trainMemory_wrote (u : State) : u.Wrote u.trainMemory := by
  unfold State.trainMemory
  split
  · rfl
  · refine .foldl _ (fun t k => ?_) _ _
    rfl

theorem State.released_boot (u : State) (b : Bytes) : (u.released b).boot =
    { u.boot with svn := imgSvn b, waitHost := false, recovery := false, trained := true } :=
  congrArg (·.boot) ((State.mapSpares_wrote _).trans (State.trainMemory_wrote _))

/-- The error a failed self-test logs. -/
def State.testError (u : State) (e : ErrIn) : ErrRec :=
  ⟨if errClass e.code = 3 then e.code else Er.selfTest, e.src, u.stamp.2.clk.beat, u.stamp.1, 0xFFFFFFFF, e.detail⟩

theorem State.bootDies_pass (u : State) (b : Bytes) (pass : u.boot.test.fail = none) : u.bootDies b = u.released b := by
  have test : (u.released b).boot.test.fail = none := by rw [State.released_boot]; exact pass
  unfold State.bootDies
  extract_lets _ _ _ _ _ w
  have same : w = u.released b := rfl
  clear_value w
  rw [same, test]

theorem State.bootDies_fail (u : State) (b : Bytes) {e : ErrIn} (fail : u.boot.test.fail = some e) :
    u.bootDies b = ((u.released b).stamp.2.logError ((u.released b).testError e)).haltQuiet 2 := by
  have test : (u.released b).boot.test.fail = some e := by rw [State.released_boot]; exact fail
  unfold State.bootDies
  extract_lets _ _ _ _ _ w
  have same : w = u.released b := rfl
  clear_value w
  subst same
  rw [test]
  rfl

end Sys2Proof.Machine
end

section
/-! PROOF. How BOOT ends (R471 to R477; O6, O7). -/
namespace Sys2Proof.Machine

/-! ## What logging an error may write -/

/-- A word of the error block's counters and status. -/
def errWord (j : Nat) : Prop := 0x50000 ≤ j ∧ j < 0x50020

/-- From `u` to `t` an error was logged: the log, its words and the handler's lists alone changed. -/
structure State.Logs (u t : State) : Prop where
  frame : t = { u with regs := t.regs, err := t.err }
  words : ∀ j, ¬ errWord j → tGet t.regs j = tGet u.regs j
  wf : tabWf u.regs = true → tabWf t.regs = true

theorem State.Logs.refl (u : State) : u.Logs u := ⟨rfl, fun _ _ => rfl, id⟩

theorem State.Logs.trans {u v w : State} (h : u.Logs v) (k : v.Logs w) : u.Logs w where
  frame := by rw [k.frame, h.frame]
  words := fun j out => (k.words j out).trans (h.words j out)
  wf := k.wf ∘ h.wf

theorem State.Logs.set (u : State) (f : Field) (v : Nat) (low : 0x50000 ≤ f.off) (high : f.off + 4 * f.words ≤ 0x50020) : u.Logs (u.set f v) :=
  ⟨rfl, fun j out => fset_other u.regs f v j fun i inside same => out ⟨by omega, by omega⟩, fset_wf _ _ _⟩

theorem State.Logs.withErr (u : State) (e : Errors) : u.Logs { u with err := e } := ⟨rfl, fun _ _ => rfl, id⟩

theorem State.Logs.counted (u : State) (c : Nat) : u.Logs (u.counted c) := by
  obtain ⟨-, -, low, high⟩ := errCounter_place c
  exact (State.Logs.set u (errCounter c) _ (by omega) high).trans (.set _ F.ERR_STATUS_MAX _ (by decide) (by decide))

theorem State.Logs.advanced (u : State) : u.Logs u.advanced := by
  unfold State.advanced
  split
  · exact .set u F.ERR_LOG_TAIL_COUNT _ (by decide) (by decide)
  · exact .set u F.ERR_OVERFLOW_COUNT _ (by decide) (by decide)

theorem State.Logs.intoSlot (u : State) (slot : Option Nat) (x : LogEntry) : u.Logs (u.intoSlot slot x) := by
  cases slot with
  | none => exact .refl u
  | some k => exact .withErr u _

theorem State.Logs.toHandler (u : State) (h : Handling) : u.Logs (u.toHandler h) := by
  obtain ⟨-, shape, -⟩ := u.toHandler_spec h
  rw [shape]
  exact .withErr u _

theorem State.intoSlot_cur (u : State) (slot : Option Nat) (x : LogEntry) : (u.advanced.intoSlot slot x).err.cur = u.err.cur := by
  have advanced : u.advanced.err = u.err := by unfold State.advanced; split <;> rfl
  cases slot with
  | none => exact congrArg (·.cur) advanced
  | some k => exact congrArg (·.cur) advanced

/-- With no entry in hand, logging an error is no double fault. -/
theorem State.Logs.logError (u : State) (e : ErrRec) (idle : u.err.cur = none) : u.Logs (u.logError e) := by
  unfold State.logError
  extract_lets cls v entry r
  have counted : v = u.counted cls := rfl
  have placed : r = _ := v.placeEntry_eq cls entry
  have cur : v.err.cur = none := idle
  clear_value r v
  have first : u.Logs v := counted ▸ .counted u cls
  split
  · split
    · exact first.trans (.withErr v _)
    · exact first
  · have single : ¬ (cls = 3 ∧ r.1.err.cur.any (fun c => errClass c.entry.err.code == 3)) := by
      rw [placed, State.intoSlot_cur, cur]
      simp
    rw [if_neg single, placed]
    exact first.trans ((State.Logs.advanced v).trans ((State.Logs.intoSlot _ _ _).trans (.toHandler _ _)))

/-! ## The three ends of BOOT's first steps -/

/-- A state the self-test failed in: HALTED with cause 2, with its error logged. -/
structure State.FailsBoot (w t : State) : Prop where
  frame : t = { w with dev := .halted, halt := 2, free := t.free, regs := t.regs, err := t.err }
  words : ∀ j, ¬ errWord j → tGet t.regs j = tGet w.regs j
  wf : tabWf w.regs = true → tabWf t.regs = true

/-- How BOOT goes on from `u`: it waits for an image, or the dies are released and the self-test decides. -/
inductive State.BootsTo (u t : State) : Prop
  | waits (boots : u.Boots t) (wants : t.boot.waitHost = true ∨ t.boot.recovery = true) : BootsTo u t
  | passes (boots : u.Boots t) (pass : u.boot.test.fail = none) : BootsTo u t
  | fails (w : State) (boots : u.Boots w) (fail : u.boot.test.fail ≠ none) (served : w.boot.waitHost = false ∧ w.boot.recovery = false)
      (failed : w.FailsBoot t) : BootsTo u t

theorem State.BootsTo.after {u v t : State} (h : u.Boots v) (k : v.BootsTo t) : u.BootsTo t := by
  cases k with
  | waits boots wants => exact .waits (h.trans boots) wants
  | passes boots pass => exact .passes (h.trans boots) (h.test ▸ pass)
  | fails w boots fail served failed => exact .fails w (h.trans boots) (h.test ▸ fail) served failed

theorem State.stamp_frame (u : State) : u.stamp.2 = { u with free := u.stamp.2.free } := by
  unfold State.stamp
  split <;> rfl

theorem State.bootDies_to (u : State) (b : Bytes) (idle : u.err.cur = none) : u.BootsTo (u.bootDies b) := by
  have boots := State.Boots.released u b
  cases test : u.boot.test.fail with
  | none =>
    rw [u.bootDies_pass b test]
    exact .passes boots test
  | some e =>
    rw [u.bootDies_fail b test]
    have served := u.released_boot b
    have idle' : (u.released b).err.cur = none := (congrArg (·.err.cur) boots.frame).trans idle
    generalize u.released b = w at boots served idle' ⊢
    have stamp := w.stamp_frame
    have logs := State.Logs.logError w.stamp.2 (w.testError e) (by rw [stamp]; exact idle')
    generalize w.stamp.2.logError (w.testError e) = v at logs ⊢
    generalize w.stamp.2 = x at stamp logs
    have regs : x.regs = w.regs := congrArg (·.regs) stamp
    refine .fails w boots (by simp [test]) (by rw [served]; exact ⟨rfl, rfl⟩) ⟨?_, fun j out => ?_, fun wf => ?_⟩
    · have frame := logs.frame
      rw [stamp] at frame
      rw [State.haltQuiet, frame]
    · exact (logs.words j out).trans (by rw [regs])
    · exact logs.wf (by rw [regs]; exact wf)

theorem State.bootFlash_to (u : State) (idle : u.err.cur = none) : u.BootsTo u.bootFlash := by
  have status (f : Field) (v : Nat) (w : State) (here : f.off = 0xC) (pos : 0 < f.w) (below : f.lo + f.w ≤ 5) : w.Boots (w.set f v) :=
    .setStatus w f v here pos below
  have accepts (k : Nat) (b : Bytes) : u.BootsTo (((u.set F.HUB_BOOT_STATUS_SLOT k).set F.HUB_BOOT_STATUS_CODE 0).bootDies b) :=
    .after ((status F.HUB_BOOT_STATUS_SLOT k u rfl (by decide) (by decide)).trans
      (status F.HUB_BOOT_STATUS_CODE 0 _ rfl (by decide) (by decide))) (State.bootDies_to _ b idle)
  unfold State.bootFlash
  dsimp only
  split
  · exact accepts _ _
  split
  · exact accepts _ _
  · exact .waits ((status F.HUB_BOOT_STATUS_CODE _ u rfl (by decide) (by decide)).trans (.withBoot _ _ rfl rfl rfl rfl id)) (.inr rfl)

theorem State.bootSteps_to (u : State) (idle : u.err.cur = none) : u.BootsTo u.bootSteps := by
  have first : u.Boots ((u.setMeas 1 Config.romMeasure).setMeas 4 (measure512 u.fuseBytes)).drawNonce :=
    (State.Boots.setMeas u 1 _).trans ((State.Boots.setMeas _ 4 _).trans (.drawNonce _))
  unfold State.bootSteps
  dsimp only
  generalize ((u.setMeas 1 Config.romMeasure).setMeas 4 (measure512 u.fuseBytes)).drawNonce = v at first
  refine .after first ?_
  split
  · exact .waits ((State.Boots.setStatus v F.HUB_BOOT_STATUS_CODE 7 rfl (by decide) (by decide)).trans (.withBoot _ _ rfl rfl rfl rfl id)) (.inl rfl)
  · exact v.bootFlash_to ((congrArg (·.err.cur) first.frame).trans idle)

end Sys2Proof.Machine
end

section
/-! PROOF. Resets (R400, R465 to R469, R515; O6, O7). -/
namespace Sys2Proof.Machine

/-! ## What BOOT leaves of the state it starts in -/

/-- What holds of `t`, which BOOT went to from `u` in its first steps. -/
structure State.Booted (u t : State) : Prop where
  frame : t = { u with dev := t.dev, halt := t.halt, free := t.free, boot := t.boot, regs := t.regs, err := t.err, sec := t.sec }
  words : ∀ j, ¬ bootWord u.boot.kind j → ¬ errWord j → tGet t.regs j = tGet u.regs j
  wf : tabWf u.regs = true → tabWf t.regs = true
  last : tabWf u.regs = true → t.get F.HUB_BOOT_STATUS_LAST_RESET = u.get F.HUB_BOOT_STATUS_LAST_RESET
  kind : t.boot.kind = u.boot.kind
  held : t.boot.startHeld = u.boot.startHeld
  started : t.boot.started = u.boot.started
  trained : u.boot.trained = true → t.boot.trained = true
  fw : t.sec.fw = u.sec.fw
  stage : t.sec.spdmStage = u.sec.spdmStage
  sessions : t.sec.sessions = u.sec.sessions
  pass : u.boot.test.fail = none →
    t.dev = u.dev ∧ t.halt = u.halt ∧ t.err = u.err ∧ ∀ j, ¬ bootWord u.boot.kind j → tGet t.regs j = tGet u.regs j
  served : u.boot.test.fail ≠ none → t.boot.waitHost = false ∧ t.boot.recovery = false → t.dev = .halted ∧ t.halt = 2
  waits : u.boot.test.fail ≠ none → t.boot.waitHost = true ∨ t.boot.recovery = true → t.dev = u.dev ∧ t.halt = u.halt ∧ t.err = u.err

theorem State.Boots.booted {u t : State} (h : u.Boots t)
    (served : u.boot.test.fail ≠ none → t.boot.waitHost = false ∧ t.boot.recovery = false → t.dev = .halted ∧ t.halt = 2) : u.Booted t := by
  have dev : t.dev = u.dev := congrArg (·.dev) h.frame
  have halt : t.halt = u.halt := congrArg (·.halt) h.frame
  have err : t.err = u.err := congrArg (·.err) h.frame
  exact {
    frame := by
      conv_lhs => rw [h.frame]
      rw [dev, halt, err, show t.free = u.free from congrArg (·.free) h.frame]
    words := fun j out _ => h.words j out, wf := h.wf, last := h.last, kind := h.kind, held := h.held, started := h.started, trained := h.trained
    fw := h.fw, stage := h.stage, sessions := h.sessions, pass := fun _ => ⟨dev, halt, err, h.words⟩, served := served
    waits := fun _ _ => ⟨dev, halt, err⟩ }

theorem State.BootsTo.booted {u t : State} (h : u.BootsTo t) : u.Booted t := by
  cases h with
  | waits boots wants => exact boots.booted fun _ served => by simp [served] at wants
  | passes boots pass => exact boots.booted fun fail => absurd pass fail
  | fails w boots fail served failed =>
    have boot : t.boot = w.boot := congrArg (·.boot) failed.frame
    have sec : t.sec = w.sec := congrArg (·.sec) failed.frame
    have last : t.get F.HUB_BOOT_STATUS_LAST_RESET = w.get F.HUB_BOOT_STATUS_LAST_RESET :=
      fget_congr _ _ _ fun i inside => failed.words _ fun error => by
        have words : F.HUB_BOOT_STATUS_LAST_RESET.words = 1 := by decide
        have off : F.HUB_BOOT_STATUS_LAST_RESET.off = 0xC := rfl
        unfold errWord at error
        omega
    exact {
      frame := by
        conv_lhs => rw [failed.frame, boots.frame]
        rw [boot, sec, show t.dev = .halted from congrArg (·.dev) failed.frame, show t.halt = 2 from congrArg (·.halt) failed.frame]
      words := fun j out error => (failed.words j error).trans (boots.words j out), wf := failed.wf ∘ boots.wf
      last := fun wf => last.trans (boots.last wf), kind := boot ▸ boots.kind, held := boot ▸ boots.held, started := boot ▸ boots.started
      trained := fun was => boot ▸ boots.trained was, fw := sec ▸ boots.fw, stage := sec ▸ boots.stage, sessions := sec ▸ boots.sessions
      pass := fun pass => absurd pass fail
      served := fun _ _ => ⟨congrArg (·.dev) failed.frame, congrArg (·.halt) failed.frame⟩
      waits := fun _ wants => by rw [boot, served.1, served.2] at wants; simp at wants }

/-! ## The state BOOT starts in -/

/-- The state a reset starts BOOT in, before its count of an abandoned cut and the beat a fabric-preserving reset shows. -/
def State.restartBase (s : State) (k : ResetKind) (straps : Nat) (test : BootTest) : State :=
  { pending := s.pending, dev := .boot, halt := 0, free := s.free, pins := s.pins, fuses := s.fuses, flash := s.flash
    boot := { Boot.reset k test with trained := (k == .warm || k == .fabric) && s.boot.trained }
    regs := s.regsAfter k straps
    clk := if k == .fabric then { Clock.reset with beat := s.clk.beat, epoch := s.clk.epoch, lenUs := s.clk.lenUs, rindCyc := s.clk.rindCyc, ticking := true }
      else { Clock.reset with lenUs := strapBeatUs straps, rindCyc := rindCycles (strapBeatUs straps) 0 }
    host := { HostIf.reset with link := (k == .warm || k == .fabric) && s.host.link, mem := s.host.mem, irqSent := s.host.irqSent, crs := s.host.crs, cfgOk := s.host.cfgOk }
    err := if k == .power then Errors.reset else { Errors.reset with log := s.err.log }
    sec := { Security.reset with draws := s.sec.draws, replies := s.sec.replies }
    plan := Plan.reset, run := Run.reset, t0 := T0.reset, t1 := T1.reset, ing := Ingest.reset
    fab := if k == .fabric then s.fab else Fabric.reset s.fuses.serial
    cel := s.cel.afterReset }

/-- An open cut that a reset abandons counts (R400). -/
def State.countAbandoned (u : State) (abandons : Bool) : State := if abandons then u.count F.CEL_ABANDON_COUNT 1 else u

/-- The hub Caller's registers show a beat that goes on. -/
def State.showBeat (u : State) (goesOn : Bool) (len rind : Nat) : State :=
  if goesOn then (u.set (F.CALLER_BEAT_CFG_LEN_US.caller 14) len).set (F.CALLER_BEAT_CFG_RIND_US.caller 14) rind else u

theorem State.Wrote.refl (u : State) : u.Wrote u := rfl

theorem State.set_wrote (u : State) (f : Field) (v : Nat) : u.Wrote (u.set f v) := rfl

theorem State.set_words (u : State) (f : Field) (v : Nat) {j : Nat} (word : f.words = 1) (other : j ≠ f.off) :
    tGet (u.set f v).regs j = tGet u.regs j := tGet_fset_ne u.regs f v word other

theorem State.set_wf (u : State) (f : Field) (v : Nat) (wf : tabWf u.regs = true) : tabWf (u.set f v).regs = true := fset_wf _ _ _ wf

theorem State.countAbandoned_wrote (u : State) (abandons : Bool) : u.Wrote (u.countAbandoned abandons) := by
  cases abandons
  · exact State.Wrote.refl u
  · exact u.set_wrote F.CEL_ABANDON_COUNT _

theorem State.showBeat_wrote (u : State) (goesOn : Bool) (len rind : Nat) : u.Wrote (u.showBeat goesOn len rind) := by
  cases goesOn
  · exact State.Wrote.refl u
  · exact (u.set_wrote (F.CALLER_BEAT_CFG_LEN_US.caller 14) len).trans (State.set_wrote _ (F.CALLER_BEAT_CFG_RIND_US.caller 14) rind)

theorem State.countAbandoned_words (u : State) (abandons : Bool) {j : Nat} (other : j ≠ 0x30048) :
    tGet (u.countAbandoned abandons).regs j = tGet u.regs j := by
  cases abandons
  · rfl
  · exact u.set_words F.CEL_ABANDON_COUNT _ (by decide) other

theorem State.showBeat_words (u : State) (goesOn : Bool) (len rind : Nat) {j : Nat} (other : goesOn = true → j ≠ 0x6E000) :
    tGet (u.showBeat goesOn len rind).regs j = tGet u.regs j := by
  cases goesOn
  · rfl
  · have len_at : (F.CALLER_BEAT_CFG_LEN_US.caller 14).off = 0x6E000 := by decide
    have rind_at : (F.CALLER_BEAT_CFG_RIND_US.caller 14).off = 0x6E000 := by decide
    exact (State.set_words _ (F.CALLER_BEAT_CFG_RIND_US.caller 14) rind (by decide) (rind_at ▸ other rfl)).trans
      (u.set_words (F.CALLER_BEAT_CFG_LEN_US.caller 14) len (by decide) (len_at ▸ other rfl))

theorem State.countAbandoned_wf (u : State) (abandons : Bool) (wf : tabWf u.regs = true) : tabWf (u.countAbandoned abandons).regs = true := by
  cases abandons
  · exact wf
  · exact u.set_wf F.CEL_ABANDON_COUNT _ wf

theorem State.showBeat_wf (u : State) (goesOn : Bool) (len rind : Nat) (wf : tabWf u.regs = true) : tabWf (u.showBeat goesOn len rind).regs = true := by
  cases goesOn
  · exact wf
  · exact State.set_wf _ (F.CALLER_BEAT_CFG_RIND_US.caller 14) rind (u.set_wf (F.CALLER_BEAT_CFG_LEN_US.caller 14) len wf)

/-- The state a reset starts BOOT in. -/
def State.restart (s : State) (k : ResetKind) (straps : Nat) (test : BootTest) : State :=
  ((s.restartBase k straps test).countAbandoned s.cel.open_.isSome).showBeat (k == .fabric) s.clk.lenUs (s.clk.rindCyc / 1900)

theorem State.reset_eq (s : State) (k : ResetKind) (straps : Nat) (test : BootTest) : s.reset_ k straps test = (s.restart k straps test).bootSteps := rfl

theorem State.restart_wrote (s : State) (k : ResetKind) (straps : Nat) (test : BootTest) :
    (s.restartBase k straps test).Wrote (s.restart k straps test) :=
  (State.countAbandoned_wrote _ _).trans (State.showBeat_wrote _ _ _ _)

/-- The words BOOT starts with: those of the reset, but the abandon counter and the beat's. -/
theorem State.restart_words (s : State) (k : ResetKind) (straps : Nat) (test : BootTest) {j : Nat} (abandon : j ≠ 0x30048)
    (beat : k = .fabric → j ≠ 0x6E000) : tGet (s.restart k straps test).regs j = tGet (s.regsAfter k straps) j :=
  (State.showBeat_words _ _ _ _ (beat ∘ beq_iff_eq.mp)).trans (State.countAbandoned_words (s.restartBase k straps test) _ abandon)

theorem State.restart_wf (s : State) (k : ResetKind) (straps : Nat) (test : BootTest) : tabWf (s.restart k straps test).regs = true :=
  State.showBeat_wf _ _ _ _ (State.countAbandoned_wf (s.restartBase k straps test) _ (s.regsAfter_wf k straps))

theorem State.restart_booted (s : State) (k : ResetKind) (straps : Nat) (test : BootTest) :
    (s.restart k straps test).Booted (s.reset_ k straps test) := by
  rw [s.reset_eq]
  refine (State.bootSteps_to _ ?_).booted
  refine (congrArg (·.err.cur) (s.restart_wrote k straps test)).trans ?_
  cases k <;> rfl

end Sys2Proof.Machine
end

section
/-! PROOF. Power-on reset (R465 to R469, R519; O6). -/
namespace Sys2Proof.Machine

/-- What a reset of kind `k` leaves of `s`. -/
theorem State.reset_frame (s : State) (k : ResetKind) (straps : Nat) (test : BootTest) : let t := s.reset_ k straps test
    t = { s.restartBase k straps test with
      dev := t.dev, halt := t.halt, free := t.free, boot := t.boot, regs := t.regs, err := t.err, sec := t.sec } := by
  have frame := (s.restart_booted k straps test).frame
  rw [s.restart_wrote k straps test] at frame
  exact frame

theorem State.reset_lastReset (s : State) (k : ResetKind) (straps : Nat) (test : BootTest) :
    (s.reset_ k straps test).get F.HUB_BOOT_STATUS_LAST_RESET = resetKindCode k := by
  refine ((s.restart_booted k straps test).last (s.restart_wf k straps test)).trans (.trans ?_ (s.regsAfter_lastReset k straps))
  have words : F.HUB_BOOT_STATUS_LAST_RESET.words = 1 := by decide
  have off : F.HUB_BOOT_STATUS_LAST_RESET.off = 0xC := rfl
  exact fget_congr _ _ _ fun i inside => s.restart_words k straps test (by omega) fun _ => by omega

/-- After power-on, a word that BOOT does not write has its value for the straps and fuses. -/
theorem State.powerOn_words (s : State) (straps : Nat) (test : BootTest) {j : Nat} (out : ¬ bootWord .power j) (error : ¬ errWord j)
    (abandon : j ≠ 0x30048) : tGet (s.reset_ .power straps test).regs j = tGet (s.resetBase straps) j := by
  have booted := s.restart_booted .power straps test
  have kind : (s.restart .power straps test).boot.kind = .power := congrArg (·.boot.kind) (s.restart_wrote .power straps test)
  calc tGet (s.reset_ .power straps test).regs j
      = tGet (s.restart .power straps test).regs j := booted.words j (by rwa [kind]) error
    _ = tGet (s.regsAfter .power straps) j := s.restart_words .power straps test abandon fun other => by simp at other
    _ = tGet (s.keptOver .power straps) j := s.regsAfter_other .power straps (fun status => out (.inl status)) (by simp) (by simp)
    _ = tGet (s.resetBase straps) j := s.keptOver_fresh .power straps rfl

/-- A state in which power comes up: with its pins high it starts again. -/
def State.poweredUp (s : State) : State := { s with pins := { s.pins with pwrgd := true, vin := true, refclk := true } }

/-- Settles O6: POWER_ON_RESET is the reset of kind power of the state with its pins high. -/
theorem powerOnResets : Obligations.PowerOnResets := by
  unfold Obligations.PowerOnResets
  intro s cyc straps test
  refine ⟨fun latched => if_pos latched, fun free => ?_⟩
  have run : exec (.powerOnReset cyc straps test) s = .next (s.poweredUp.reset_ .power straps.toNat test) := if_neg (by simp [free])
  have booted := s.poweredUp.restart_booted .power straps.toNat test
  have start := s.poweredUp.restart_wrote .power straps.toNat test
  have frame := s.poweredUp.reset_frame .power straps.toNat test
  have last := s.poweredUp.reset_lastReset .power straps.toNat test
  have words := fun j => s.poweredUp.powerOn_words straps.toNat test (j := j)
  dsimp only at frame
  generalize s.poweredUp.restart .power straps.toNat test = u at booted start
  generalize s.poweredUp.reset_ .power straps.toNat test = t at run booted frame last words
  have test_eq : u.boot.test = test := congrArg (·.boot.test) start
  have dev : u.dev = .boot := congrArg (·.dev) start
  have halt : u.halt = 0 := congrArg (·.halt) start
  have err : u.err = Errors.reset := congrArg (·.err) start
  obtain ⟨-, -, -, -, kind, held, started, -, fw, stage, sessions, pass, served, waits⟩ := booted
  rw [test_eq] at pass served waits
  rw [dev, halt, err] at pass waits
  refine ⟨t, run, fun ok => ?_, fun bad => ⟨served bad, waits bad⟩, kind.trans (congrArg (·.boot.kind) start),
    held.trans (congrArg (·.boot.startHeld) start), started.trans (congrArg (·.boot.started) start), ?_, congrArg (·.clk) frame,
    congrArg (·.host) frame, congrArg (·.plan) frame, congrArg (·.run) frame, congrArg (·.t0) frame, congrArg (·.t1) frame, congrArg (·.ing) frame,
    congrArg (·.fab) frame, fw.trans (congrArg (·.sec.fw) start), stage.trans (congrArg (·.sec.spdmStage) start),
    sessions.trans (congrArg (·.sec.sessions) start), congrArg (·.fuses) frame, congrArg (·.flash) frame, congrArg (·.pending) frame,
    congrArg (·.cel) frame, last, fun j status abandon nonce error spare cost => words j ?_ error abandon⟩
  · obtain ⟨isBoot, zero, quiet, -⟩ := pass ok
    exact ⟨isBoot, zero, quiet⟩
  · rw [frame, ← free]
    rfl
  · rintro (h | h | ⟨n, die, h⟩ | ⟨-, n, die, h⟩)
    exacts [status h, nonce h, spare n die h, cost n die h]

end Sys2Proof.Machine
end

section
/-! PROOF. The resets that keep the straps (R400, R465 to R469, R473, R485, R515, R523; O7). -/
namespace Sys2Proof.Machine

/-! ## The sampled straps -/

/-- A table made of words in ascending order reads as each of them. -/
theorem tGet_tabOf : ∀ (l : List (Nat × Nat)) {k v : Nat}, (l.map Prod.fst).Pairwise (· < ·) → (k, v) ∈ l → tGet (tabOf l) k = v
  | [], _, _, _, mem => absurd mem List.not_mem_nil
  | (j, w) :: l, k, v, sorted, mem => by
      obtain ⟨first, rest⟩ := List.pairwise_cons.mp sorted
      have shape : tabOf ((j, w) :: l) = if w = 0 then tabOf l else (j, w) :: tabOf l := by
        by_cases zero : w = 0 <;> simp [tabOf, zero]
      rw [shape]
      obtain here | later := List.mem_cons.mp mem
      · cases here
        split
        next zero =>
          rw [zero]
          exact sGet_low 0 j _ (j + 1) (by omega) (State.tabOf_wfFrom l _ (fun e he => first e.1 (List.mem_map_of_mem he)) rest)
        · simp [tGet, sGet]
      · have past : j < k := first k (List.mem_map_of_mem (f := Prod.fst) later)
        have tail := tGet_tabOf l rest later
        split
        · exact tail
        · rw [← tail]
          exact if_neg (by omega)

theorem State.resetBase_strap (s : State) {straps : Nat} (low : straps < 2 ^ 16) : fget (s.resetBase straps) F.HUB_STRAP_RAW = straps := by
  have word : tGet (s.resetBase straps) 0x8 = straps + (if bits straps 3 2 = 3 then 0x10000 else 0) :=
    tGet_tabOf _ (State.resetWords_sorted ..) (by simp [resetWords])
  have read : rdWords (s.resetBase straps) 8 1 = tGet (s.resetBase straps) 0x8 := by simp [rdWords]
  change bits (rdWords (s.resetBase straps) 8 1) 0 16 = straps
  rw [read, word, bits]
  split <;> omega

/-! ## Kept words -/

/-- No word that BOOT or a reset writes is one a reset keeps, but the abandon counter. -/
theorem keptWord_written {k : ResetKind} {j : Nat} (kept : keptWord k j = true) :
    ¬ bootWord k j ∧ j ≠ 0xC ∧ j ≠ 0x50000 ∧ j ≠ 0x40008 ∧ j ≠ 0x6E000 := by
  have single : ∀ k ∈ [ResetKind.power, .cold, .warm, .fabric], ∀ j ∈ [0xC, 0x50000, 0x40008, 0x6E000], keptWord k j = false := by decide
  have nonce : ∀ k ∈ [ResetKind.power, .cold, .warm, .fabric], ∀ i < 16, keptWord k (0x40010 + i) = false := by decide
  have spare : ∀ k ∈ [ResetKind.power, .cold, .warm, .fabric], ∀ n < 4, keptWord k (0x100020 + n * 0x10000) = false := by decide
  have cost : ∀ k ∈ [ResetKind.power, .cold], ∀ n < 8, keptWord k (0x180010 + n * 0x10000) = false := by decide
  have all : k ∈ [ResetKind.power, .cold, .warm, .fabric] := by cases k <;> simp
  have other {i : Nat} (fresh : keptWord k i = false) : j ≠ i := by
    rintro rfl
    simp [fresh] at kept
  refine ⟨?_, other (single k all _ (by simp)), other (single k all _ (by simp)), other (single k all _ (by simp)), other (single k all _ (by simp))⟩
  rintro (status | ⟨low, high⟩ | ⟨n, die, at_n⟩ | ⟨kind, n, die, at_n⟩)
  · exact other (single k all _ (by simp)) status
  · exact other (nonce k all (j - 0x40010) (by omega)) (by omega)
  · exact other (spare k all n die) at_n
  · exact other (cost k (by obtain rfl | rfl := kind <;> simp) n die) at_n

/-- A reset whose self-test passes leaves the words it keeps. -/
theorem State.reset_kept (s : State) (k : ResetKind) (straps : Nat) (test : BootTest) (pass : test.fail = none) (wf : tabWf s.regs = true)
    {j : Nat} (kept : keptWord k j = true) (abandon : j ≠ 0x30048) : tGet (s.reset_ k straps test).regs j = tGet s.regs j := by
  obtain ⟨out, status, error, debug, beat⟩ := keptWord_written kept
  have start := s.restart_wrote k straps test
  have kind : (s.restart k straps test).boot.kind = k := congrArg (·.boot.kind) start
  have passes : (s.restart k straps test).boot.test.fail = none := (congrArg (·.boot.test.fail) start).trans pass
  calc tGet (s.reset_ k straps test).regs j
      = tGet (s.restart k straps test).regs j := ((s.restart_booted k straps test).pass passes).2.2.2 j (by rwa [kind])
    _ = tGet (s.regsAfter k straps) j := s.restart_words k straps test abandon fun _ => beat
    _ = tGet (s.keptOver k straps) j := s.regsAfter_other k straps status (fun _ => error) (fun _ => debug)
    _ = tGet s.regs j := s.keptOver_kept k straps wf kept

/-- A reset shows the straps it was given. -/
theorem State.reset_strap (s : State) (k : ResetKind) {straps : Nat} (test : BootTest) (low : straps < 2 ^ 16) :
    (s.reset_ k straps test).get F.HUB_STRAP_RAW = straps := by
  have fresh : ∀ k ∈ [ResetKind.power, .cold, .warm, .fabric], keptWord k 0x8 = false := by decide
  have kind : (s.restart k straps test).boot.kind = k := congrArg (·.boot.kind) (s.restart_wrote k straps test)
  have word : tGet (s.reset_ k straps test).regs 0x8 = tGet (s.resetBase straps) 0x8 :=
    calc tGet (s.reset_ k straps test).regs 0x8
      = tGet (s.restart k straps test).regs 0x8 := (s.restart_booted k straps test).words 0x8
          (by unfold bootWord; omega) (by unfold errWord; omega)
    _ = tGet (s.regsAfter k straps) 0x8 := s.restart_words k straps test (by decide) fun _ => by decide
    _ = tGet (s.keptOver k straps) 0x8 := s.regsAfter_other k straps (by decide) (fun _ => by decide) (fun _ => by decide)
    _ = tGet (s.resetBase straps) 0x8 := s.keptOver_fresh k straps (fresh k (by cases k <;> simp))
  refine (fget_congr _ _ F.HUB_STRAP_RAW fun i inside => ?_).trans (s.resetBase_strap low)
  have words : F.HUB_STRAP_RAW.words = 1 := by decide
  obtain rfl : i = 0 := by omega
  exact word

/-! ## The state a reset finds -/

theorem State.floodReset_sends (u : State) : u.sends u.floodReset := by
  unfold State.floodReset
  split
  · exact State.sends_trans u.draw_sends (State.tellMembers_sends _ _)
  · exact u.sends_refl

/-- The commands of O7 and the kind of reset each starts. -/
def IsReset (c : Instr) (s : State) (cyc : Nat) (test : BootTest) (k : ResetKind) : Prop :=
  (c = .coldReset cyc test ∧ k = .cold) ∨ (c = .hubResetCold cyc test ∧ k = .cold ∧ s.dev ≠ .boot)
    ∨ (c = .hubResetWarm cyc test ∧ k = .warm ∧ s.dev ≠ .boot) ∨ (c = .pldmReset cyc test ∧ k = .warm)
    ∨ (c = .domainReset cyc test ∧ k = .fabric)

/-- Each is a reset of its kind; a cold one asked for by PERST_N finds that pin low, a fabric-preserving one follows its flood. -/
theorem exec_reset {c : Instr} {s : State} {cyc : Nat} {test : BootTest} {k : ResetKind} (on : s.dev ≠ .off) (kind : IsReset c s cyc test k) :
    let u := s.tick cyc
    ∃ v : State, exec c s = .next (v.resetKept k test) ∧ v = { u with free := v.free, pins := v.pins, fab := v.fab }
      ∧ v.pins = (if c = .coldReset cyc test then { u.pins with perstN := false } else u.pins)
      ∧ (k = .fabric → v.fab = u.floodReset.fab) ∧ k ≠ .power := by
  intro u
  have powered := s.powered_iff.mpr on
  obtain ⟨rfl, rfl⟩ | ⟨rfl, rfl, past⟩ | ⟨rfl, rfl, past⟩ | ⟨rfl, rfl⟩ | ⟨rfl, rfl⟩ := kind
  · exact ⟨{ u with pins := { u.pins with perstN := false } }, if_pos powered, rfl, (if_pos rfl).symm, by simp, by simp⟩
  · exact ⟨u, if_pos (by simp [State.mayHubReset, powered, past]), rfl, (if_neg (by simp)).symm, by simp, by simp⟩
  · exact ⟨u, if_pos (by simp [State.mayHubReset, powered, past]), rfl, (if_neg (by simp)).symm, by simp, by simp⟩
  · exact ⟨u, if_pos powered, rfl, (if_neg (by simp)).symm, by simp, by simp⟩
  · have sent := u.floodReset_sends.1
    refine ⟨u.floodReset, if_pos powered, ?_, (congrArg (·.pins) sent).trans (if_neg (by simp)).symm, fun _ => rfl, by simp⟩
    conv_lhs => rw [sent]
    rw [show u.floodReset.pins = u.pins from congrArg (·.pins) sent, show u.floodReset.fab = { u.fab with ports := u.floodReset.fab.ports } from
      congrArg (·.fab) sent]

/-- What the tick leaves of the host interface that a reset keeps. -/
theorem State.tick_host (s : State) (cyc : Nat) : let h := (s.tick cyc).host
    h.link = s.host.link ∧ h.irqSent = s.host.irqSent ∧ h.crs = s.host.crs ∧ h.cfgOk = s.host.cfgOk := by
  have same := congrArg (·.host) (s.tick_besideBodies cyc)
  exact ⟨congrArg (·.link) same, congrArg (·.irqSent) same, congrArg (·.crs) same, congrArg (·.cfgOk) same⟩

theorem State.restartBase_host (s : State) (k : ResetKind) (straps : Nat) (test : BootTest) : (s.restartBase k straps test).host =
    { HostIf.reset with link := decide (k = .warm ∨ k = .fabric) && s.host.link, mem := s.host.mem, irqSent := s.host.irqSent, crs := s.host.crs, cfgOk := s.host.cfgOk } := by
  cases k <;> rfl

theorem State.restartBase_err (s : State) {k : ResetKind} (straps : Nat) (test : BootTest) (kept : k ≠ .power) :
    (s.restartBase k straps test).err = { Errors.reset with log := s.err.log } := by
  cases k with
  | power => contradiction
  | cold | warm | fabric => rfl

theorem State.restartBase_fab (s : State) (k : ResetKind) (straps : Nat) (test : BootTest) :
    (s.restartBase k straps test).fab = if k = .fabric then s.fab else Fabric.reset s.fuses.serial := by
  cases k <;> rfl

theorem State.restartBase_trained (s : State) (k : ResetKind) (straps : Nat) (test : BootTest) :
    (s.restartBase k straps test).boot.trained = (decide (k = .warm ∨ k = .fabric) && s.boot.trained) := by
  cases k <;> rfl

/-- Settles O7: each command is a reset of its kind, of the state past the tick. -/
theorem otherResets : Obligations.OtherResets := by
  unfold Obligations.OtherResets
  intro s cyc test c k on kind u keep
  obtain ⟨v, run, shape, pins, flood, notPower⟩ := exec_reset on kind
  change v = { u with free := v.free, pins := v.pins, fab := v.fab } at shape
  have same := s.tick_besideBodies cyc
  obtain ⟨link, irqSent, crs, cfgOk⟩ := s.tick_host cyc
  have regs : v.regs = u.regs := congrArg (·.regs) shape
  have strap : v.get F.HUB_STRAP_RAW = u.get F.HUB_STRAP_RAW := congrArg (fget · F.HUB_STRAP_RAW) regs
  have low : v.get F.HUB_STRAP_RAW < 2 ^ 16 := v.get_lt _
  rw [State.resetKept] at run
  generalize v.get F.HUB_STRAP_RAW = straps at strap low run
  have booted := v.restart_booted k straps test
  have start := v.restart_wrote k straps test
  have frame := v.reset_frame k straps test
  have last := v.reset_lastReset k straps test
  have shown := (v.reset_strap k test low).trans strap
  have words := fun pass wf j => v.reset_kept k straps test pass wf (j := j)
  dsimp only at frame
  generalize v.restart k straps test = w at booted start
  generalize v.reset_ k straps test = t at run booted frame last shown words
  have test_eq : w.boot.test = test := congrArg (·.boot.test) start
  have dev : w.dev = .boot := congrArg (·.dev) start
  have halt : w.halt = 0 := congrArg (·.halt) start
  have err : w.err = { Errors.reset with log := s.err.log } := by
    refine (congrArg (·.err) start).trans ((v.restartBase_err straps test notPower).trans ?_)
    rw [show v.err.log = s.err.log from (congrArg (·.err.log) shape).trans (congrArg (·.err.log) same)]
  have host : v.host = u.host := congrArg (·.host) shape
  have fuses : v.fuses = s.fuses := (congrArg (·.fuses) shape).trans (congrArg (·.fuses) same)
  obtain ⟨-, -, -, -, kindOf, held, started, trained, -, -, -, pass, served, waits⟩ := booted
  rw [test_eq] at pass served waits
  rw [dev, halt] at pass waits
  refine ⟨t, run, fun ok => ?_, fun bad => ⟨served bad, fun wants => ?_⟩, kindOf.trans (congrArg (·.boot.kind) start),
    held.trans (congrArg (·.boot.startHeld) start), started.trans (congrArg (·.boot.started) start), fun keeps was => trained ?_, ?_, shown,
    ?_, congrArg (·.plan) frame, congrArg (·.run) frame, congrArg (·.t0) frame, congrArg (·.t1) frame, congrArg (·.ing) frame,
    ?_, ?_, ?_, (congrArg (·.fuses) frame).trans fuses, ?_, ?_, ?_, ?_⟩
  · obtain ⟨isBoot, zero, quiet, -⟩ := pass ok
    exact ⟨isBoot, zero, quiet.trans err⟩
  · obtain ⟨isBoot, zero, -⟩ := waits bad wants
    exact ⟨isBoot, zero⟩
  · refine (congrArg (·.boot.trained) start).trans ((v.restartBase_trained k straps test).trans ?_)
    rw [show v.boot.trained = s.boot.trained from (congrArg (·.boot.trained) shape).trans (congrArg (·.boot.trained) same), was,
      Bool.and_true]
    exact keeps
  · rw [last]
    cases k <;> rfl
  · refine (congrArg (·.host) frame).trans ((v.restartBase_host k straps test).trans ?_)
    rw [host, ← link, ← irqSent, ← crs, ← cfgOk]
  · refine (congrArg (·.fab) frame).trans ((v.restartBase_fab k straps test).trans ?_)
    split
    next fabric => exact flood fabric
    next => rw [fuses]
  · rintro rfl
    have clk := congrArg (·.clk) frame
    have found : v.clk = u.clk := congrArg (·.clk) shape
    exact ⟨(congrArg (·.beat) clk).trans ((congrArg (·.beat) found).trans (congrArg (·.clk.beat) same)),
      (congrArg (·.epoch) clk).trans ((congrArg (·.epoch) found).trans (congrArg (·.clk.epoch) same)),
      (congrArg (·.lenUs) clk).trans ((congrArg (·.lenUs) found).trans (congrArg (·.clk.lenUs) same)), congrArg (·.ticking) clk⟩
  · have cel : v.cel = s.cel := (congrArg (·.cel) shape).trans (congrArg (·.cel) same)
    refine (congrArg (·.cel) frame).trans ?_
    rw [← cel]
    rfl
  · exact (congrArg (·.flash) frame).trans ((congrArg (·.flash) shape).trans (congrArg (·.flash) same))
  · exact (congrArg (·.pending) frame).trans ((congrArg (·.pending) shape).trans (congrArg (·.pending) same))
  · refine (congrArg (·.pins) frame).trans (pins.trans ?_)
    rw [show (s.tick cyc).pins = s.pins from congrArg (·.pins) same]
  · intro ok wf j kept abandon
    rw [← regs]
    exact words ok (by rw [regs]; exact wf) j kept abandon

end Sys2Proof.Machine
end
